-- ==== Sys2Proof/Word.lean ====
section
/-! DEFINITION. The word and byte types of the MQ-16: registers are 32 bits wide (R5), structures and frames are bytes (R6). -/

namespace Sys2Proof

/-- A register value (R5). -/
abbrev Word := BitVec 32

/-- One octet of a structure or a frame (R6). -/
abbrev Byte := BitVec 8

/-- A string of octets. -/
abbrev Bytes := List Byte

/-- A sparse table: key and value pairs, keys strictly rising. -/
abbrev Table (α : Type) := List (Nat × α)

end Sys2Proof
end

