-- ==== Sys2Proof/Machine/Blocks/CmdDefs.lean ====
section
/-! DEFINITION. Command packets and their senders (15_mailbox_commands.md R370 to R373, R382). -/

namespace Sys2Proof.Machine

/-- The header of a command packet, VERSION apart (R370). -/
structure CmdHdr where
  opcode : Nat
  flags : Nat
  tag : Nat
  plen : Nat
  scope : Nat
  authSlot : Nat
  replyAddr : Nat
  replyMax : Nat
  nonce : Nat
deriving DecidableEq, Repr

/-- A command packet as it arrives. The payload fields of a command row are those its payload octets spell (log entry 8). -/
structure Env where
  /-- source code of R382: 0 to 3 a channel, 0x10 the console, 0x20 UDP on SA, 0x21 UDP on SB -/
  src : Nat
  /-- remote IPv4 address and port of a UDP command -/
  remote : Nat × Nat
  version : Nat
  hdr : CmdHdr
  payload : Bytes
  trailer : Bytes
  /-- every reserved field of the payload is 0 (R136) -/
  resvOk : Bool
deriving DecidableEq, Repr

/-- A packet past R375 steps 1 to 3: fetched, its trailer verified, its key latched (R395). -/
structure Pkt where
  env : Env
  key : Option Bytes
deriving DecidableEq, Repr

/-- Where a command came from and how its reply goes out; kept with work whose reply waits (R371, R373, R376). -/
structure ReplyTo where
  src : Nat
  remote : Nat × Nat
  hdr : CmdHdr
  /-- key of the verified trailer, none for a reply without a trailer -/
  key : Option Bytes
deriving DecidableEq, Repr

/-- A reply over UDP on its way to the switch core: source code, remote address and port, packet (R378). -/
structure UdpReply where
  src : Nat
  addr : Nat
  port : Nat
  octets : Bytes
deriving DecidableEq, Repr

/-- A master of a register access (R37). -/
inductive Master where
  | host
  | svc
  | ksc
  | qc (c : Nat)
  | vf (v : Nat)
deriving DecidableEq, Repr

/-- A raw packet that CMD_FETCH reads: octets, or none after a timeout or a poisoned completion (R366). -/
structure UdpDatagram where
  /-- 0 SA, 1 SB -/
  port : Nat
  addr : Nat
  udpPort : Nat
  octets : Bytes
  /-- the UDP checksum is zero or correct, and the datagram is not a fragment (R378) -/
  ok : Bool
deriving DecidableEq, Repr

end Sys2Proof.Machine
end

