-- ==== Sys2Proof/Machine/Blocks/Acq.lean ====
section
/-! DEFINITION. State of the converters, ADC0 to ADC23, CK0 to CK3 and HK (02_converters.md). -/

namespace Sys2Proof.Machine

/-- One main channel's acquisition state. -/
structure AcqCh where
  /-- ACQ_SKEW, 0 to 4,094 -/
  skew : Nat
  /-- ACQ_ADV, 0 to 991 -/
  adv : Nat
  /-- OFFS (R49) -/
  offs : Int
  /-- GAIN, 2^20 = 1.0 (R49) -/
  gain : Nat
  /-- latest corrected code (R47) -/
  code : Int
  /-- latest flags, bits 0 to 5 = OVR, IMPL, UNCHK, CAL, RESYNC, FAULT (R47) -/
  flags : BitVec 6
  /-- strobe count of the latest sample; D is formed at the same strobe (R58) -/
  sampleAt : Nat
  /-- ACQ_DIFF: the latest plausibility result M (R58) -/
  diff : Int
  /-- strobes still carrying RESYNC (R46) -/
  resync : Nat
  /-- consecutive conversions not completed (R48) -/
  missRun : Nat
  /-- the input switch connects the CAL bus (R50) -/
  cal : Bool
  /-- sum of D values (R58) -/
  dSum : Int
  /-- number of D values summed (R58) -/
  dCount : Nat
  /-- consecutive violations (R59) -/
  viol : Nat
  /-- consecutive recovery checks (R60) -/
  recov : Nat
  /-- a check has completed since the last start or change of sequence (R62) -/
  checked : Bool
  /-- strobe count from which IMPL sets, with the M of the third violation (R59) -/
  implSetAt : Option (Nat × Int)
  /-- strobe count from which IMPL clears (R60) -/
  implClrAt : Option Nat
deriving DecidableEq, Repr

/-- A pending urgent request: mux or scan input, and the command reply that waits, if a command made it (R63). -/
structure UrgReq where
  input : Nat
  reply : Option ReplyTo
  /-- record of the Shutter's trigger that made the request, if one was open (R63, R92) -/
  record : Option Nat
deriving DecidableEq, Repr

/-- Running sum of the averager for one input (R57). -/
structure AvgSum where
  sum : Int
  count : Nat
deriving DecidableEq, Repr

/-- One check converter. -/
structure CkConv where
  /-- ACQ_CK_CTL -/
  ctl : Word
  /-- ACQ_CK_SEQA -/
  seqA : Word
  /-- ACQ_CK_SEQB -/
  seqB : Word
  /-- sequence that the running pass uses: (LEN − 1, SEQA, SEQB) (R56) -/
  run : Nat × Word × Word
  /-- a new sequence waits for the end of the running pass (R56) -/
  newSeq : Bool
  offs : Int
  gain : Nat
  /-- position in the pass (R55) -/
  slot : Nat
  /-- strobe of the previous conversion on the bound base, in 1/4,032,000 ns; none before the first and after the strobes have moved (R55) -/
  prev : Option Int
  /-- averager per mux code (R57) -/
  sums : List AvgSum
  /-- ACQ_CK_AVG[m] -/
  avg : List Int
  /-- self-check sums of REF and AGND (R61): mean over N -/
  self : List AvgSum
  /-- consecutive self-check violations of REF and of AGND (R61) -/
  selfViol : List Nat
  /-- self-check results since the last pair: REF good, AGND good (R61) -/
  selfGood : Option Bool × Option Bool
  /-- consecutive good pairs (R61) -/
  selfRec : Nat
  /-- calibrating (R51) -/
  cal : Bool
  urg : Option UrgReq
  /-- the urgent conversion that is running (R64) -/
  urgRun : Option UrgReq
deriving DecidableEq, Repr

/-- The housekeeping converter. -/
structure HkConv where
  /-- ACQ_HK_CTL -/
  ctl : Word
  offs : Int
  gain : Nat
  /-- scan position 0 to 12 (R65) -/
  pos : Nat
  sums : List AvgSum
  /-- ACQ_HK_RES[0..15] -/
  res : List Int
  /-- latest mean of each input in its LSB of R65, whatever AVG_SHIFT says; none before the first -/
  mean : List (Option Int)
  self : List AvgSum
  selfViol : List Nat
  selfGood : Option Bool × Option Bool
  selfRec : Nat
  cal : Bool
  urg : Option UrgReq
  urgRun : Option UrgReq
deriving DecidableEq, Repr

/-- Stored calibration of one converter in MRAM (R52). -/
structure CalRec where
  offs : Int
  gain : Nat
  /-- T_AFE, 1/128 °C -/
  temp : Int
  /-- operating seconds -/
  optime : Nat
deriving DecidableEq, Repr

/-- The ACQ block. -/
structure Acq where
  /-- ACQ_CTL.TBSEL -/
  tbsel : Nat
  /-- ACQ_STAT.LOCKED -/
  locked : Bool
  /-- ACQ_STAT.CFGCLAMP -/
  cfgClamp : Bool
  /-- ACQ_FAULT -/
  fault : Word
  /-- ACQ_PLAUS_CTL -/
  plausCtl : Word
  /-- ACQ_PLAUS_EN -/
  plausEn : Word
  /-- ACQ_IMPL -/
  impl : Word
  /-- ACQ_OVR -/
  ovr : Word
  ovrNew : Word
  ovrLast : Option Nat
  urgRes : Int
  urgNs : Word
  urgSec : Word
  urgDone : Word
  urgRefused : Word
  urgRefNew : Nat
  urgRefLast : Option Nat
  /-- ACQ_CAL_STAT.BUSY -/
  calBusy : Bool
  /-- targets of the running calibration: bits 0 to 23 main, 24 to 27 CK, 28 HK (R66) -/
  calTargets : Word
  calReply : Option ReplyTo
  /-- ACQ_CAL_FAIL -/
  calFail : Word
  /-- ACQ_CAL_OPTIME -/
  calOptime : Word
  /-- ACQ_CAL_TEMP -/
  calTemp : Word
  /-- strobes since the start -/
  strobes : Nat
  /-- index in the second of the next strobe (R43) -/
  j : Nat
  /-- the second of the bound base that the next strobe belongs to (R17) -/
  sec : Nat
  ch : List AcqCh
  ck : List CkConv
  hk : HkConv
  /-- MRAM calibration store: 0 to 23 main, 24 to 27 CK, 28 HK (R52) -/
  stored : List CalRec
deriving DecidableEq, Repr

def AcqCh.reset : AcqCh where
  skew := 0
  adv := 0
  offs := 0
  gain := 1048576
  code := 0
  flags := 0#6
  sampleAt := 0
  diff := 0
  resync := 0
  missRun := 0
  cal := false
  dSum := 0
  dCount := 0
  viol := 0
  recov := 0
  checked := false
  implSetAt := none
  implClrAt := none

def CkConv.reset : CkConv where
  ctl := 0x00040407#32
  seqA := 0x76543210#32
  seqB := 0#32
  run := (7, 0x76543210#32, 0#32)
  newSeq := false
  offs := 0
  gain := 1048576
  slot := 0
  prev := none
  sums := List.replicate 8 ⟨0, 0⟩
  avg := List.replicate 8 0
  self := List.replicate 2 ⟨0, 0⟩
  selfViol := [0, 0]
  selfGood := (none, none)
  selfRec := 0
  cal := false
  urg := none
  urgRun := none

def HkConv.reset : HkConv where
  ctl := 0x00040400#32
  offs := 0
  gain := 1048576
  pos := 0
  sums := List.replicate 13 ⟨0, 0⟩
  res := List.replicate 16 0
  mean := List.replicate 13 none
  self := List.replicate 2 ⟨0, 0⟩
  selfViol := [0, 0]
  selfGood := (none, none)
  selfRec := 0
  cal := false
  urg := none
  urgRun := none

def CalRec.reset : CalRec := ⟨0, 1048576, 0, 0⟩

/-- The ACQ block after a cold start (R68); stored and calibrated values: log entry 10. -/
def Acq.reset : Acq where
  tbsel := 0
  locked := false
  cfgClamp := false
  fault := 0#32
  plausCtl := 0x0010010E#32
  plausEn := 0x00FFFFFF#32
  impl := 0#32
  ovr := 0#32
  ovrNew := 0#32
  ovrLast := none
  urgRes := 0
  urgNs := 0#32
  urgSec := 0#32
  urgDone := 0#32
  urgRefused := 0#32
  urgRefNew := 0
  urgRefLast := none
  calBusy := false
  calTargets := 0#32
  calReply := none
  calFail := 0#32
  calOptime := 0#32
  calTemp := 0#32
  strobes := 0
  j := 0
  sec := 0
  ch := List.replicate 24 AcqCh.reset
  ck := List.replicate 4 CkConv.reset
  hk := HkConv.reset
  stored := List.replicate 29 CalRec.reset

end Sys2Proof.Machine
end

