-- ==== Sys2Proof/Machine/Blocks/Cyc.lean ====
section
/-! DEFINITION. State and payloads of the cyclic logic engine (08_cyclic_logic.md). -/

namespace Sys2Proof.Machine

/-- A Pedin BL instruction: opcode, area, operand (R207). -/
structure BlInstr where
  op : Nat
  area : Nat
  opnd : Nat
deriving DecidableEq, Repr

/-- Timer-table entry (R220); type 0 TON, 1 TOF, 2 TP. -/
structure TimerDef where
  t : Nat
  type : Nat
  pt : Nat
deriving DecidableEq, Repr

/-- Counter-table entry (R220). -/
structure CounterDef where
  c : Nat
  pv : Nat
  rv : Nat
deriving DecidableEq, Repr

/-- Edge-table entry (R220). -/
structure EdgeDef where
  id : Nat
  index : Nat
deriving DecidableEq, Repr

/-- A run of bits of the write or read set (R220). -/
structure BitRun where
  area : Nat
  first : Nat
  count : Nat
deriving DecidableEq, Repr

/-- Native-table entry (R220). -/
structure NativeDef where
  entry : Nat
  wcet : Nat
  stack : Nat
deriving DecidableEq, Repr

/-- A loaded image (R220). -/
structure Image where
  id : Nat
  prog : List BlInstr
  timers : List TimerDef
  counters : List CounterDef
  edges : List EdgeDef
  wset : List BitRun
  rset : List BitRun
  chans : List Nat
  natives : List NativeDef
  code : Bytes
  data : Bytes
  bss : Nat
deriving DecidableEq, Repr

/-- LOG_LOAD (R226); image is the octets read at ADDR, or received by continuation. -/
structure LogLoad where
  slot : Nat
  len : Nat
  addr : Nat
  image : Bytes
deriving DecidableEq, Repr

/-- LOG_ACTIVATE (R226). -/
structure LogActivate where
  task : Nat
  op : Nat
  cls : Nat
  blu : Nat
  slot : Nat
  tbsel : Nat
  zone : Nat
  flags : Nat
  pmul : Nat
  periodUs : Nat
  phaseUs : Nat
deriving DecidableEq, Repr

/-- What a native call did: it returned bit 0 of a0, its output staging and the task's data (R216, R218). -/
structure NativeRet where
  cr : Bool
  /-- output staging in write-set order -/
  out : List Bool
  data : Bytes
deriving DecidableEq, Repr

/-- State of one timer (R212). -/
structure TimerSt where
  running : Bool
  t0 : Int
  /-- IN at the previous execution -/
  inp : Bool
  q : Bool
deriving DecidableEq, Repr

/-- State of one counter (R214). -/
structure CounterSt where
  cv : Nat
  prev : Bool
deriving DecidableEq, Repr

/-- State of one EDR or EDF instruction (R215). -/
structure EdgeSt where
  mem : Bool
  pending : Bool
deriving DecidableEq, Repr

/-- A window of memory that the PMP opens to a native call (R217). -/
structure PmpWindow where
  addr : Nat
  size : Nat
  read : Bool
  write : Bool
  exec : Bool
deriving DecidableEq, Repr

/-- A native call at its entry (R216 to R218): block number, entry address, the registers the convention sets, and the memory it finds. -/
structure NativeCall where
  block : Nat
  pc : Nat
  a0 : Nat
  a1 : Nat
  sp : Nat
  frm : Nat
  fflags : Nat
  windows : List PmpWindow
  /-- the context -/
  ctx : Bytes
  /-- the output staging: current values of the write set -/
  out : Bytes
deriving DecidableEq, Repr

/-- A running cycle (R200). -/
structure Cycle where
  /-- scheduled start, ns on the task's base -/
  s : Int
  /-- instant at which the cycle became due, and at which it started -/
  due : Nat
  started : Nat
  /-- index K for a P task -/
  k : Nat
  pc : Nat
  cr : Bool
  /-- bracket stack: value and opcode of the open bracket, innermost first -/
  stack : List (Bool × Nat)
  /-- input image: key area × 2^22 + operand -/
  snap : Table Bool
  /-- pending edges of the snapshot, by instruction index (R215) -/
  edges : Table Bool
  /-- Q and M bits the cycle wrote, same keys -/
  writes : Table Bool
  /-- context FLAGS and the context's channels at the snapshot: value, quality and K of the latest final slot (R218) -/
  flags : Nat
  chans : List (Word × BitVec 16 × Nat)
  /-- a native call is running: block number, and its entry -/
  inCall : Option Nat
  call : Option NativeCall
  /-- END or RET has been reached -/
  ended : Bool
  aborted : Bool
deriving DecidableEq, Repr

/-- A pending on-line change (R224). -/
structure PendChange where
  slot : Nat
  reply : Option ReplyTo
  /-- origin of its records (R417) -/
  src : Nat
deriving DecidableEq, Repr

/-- One task (R199). -/
structure Task where
  cfg : LogActivate
  run : Option Cycle
  /-- a due cycle: scheduled start, due instant, K -/
  due : Option (Int × Nat × Nat)
  /-- steps of the base since the cycle in hand became due: its timers take s + adj for s (R206) -/
  adj : Int
  /-- B: served in the present round of its BLU (R201) -/
  turn : Bool
  /-- an L task's next scheduled start, ns on its base (R199) -/
  next : Int
  timers : Table TimerSt
  counters : Table CounterSt
  /-- key: instruction index -/
  edges : Table EdgeSt
  cycles : Word
  skip : Word
  warn : Word
  exec : Word
  execMax : Word
  lastNs : Word
  lastSec : Word
  ovrLast : Bool
  ovrNow : Bool
  aborted : Bool
  suspended : Bool
  first : Bool
  changed : Bool
  pend : Option PendChange
  /-- native task data: DATA then BSS (R217) -/
  data : Bytes
  /-- once-per-second limits: overrun (count since the last record), warnings, native aborts -/
  ovrLastEv : Option Nat
  ovrNew : Nat
  warnLastEv : Option Nat
  warnNew : Nat
  abortLastEv : Option Nat
deriving DecidableEq, Repr

/-- One force (R221). -/
structure Force where
  area : Nat
  opnd : Nat
  val : Bool
  /-- value in effect, none while no value is -/
  held : Option Bool
  /-- instant at which it was set -/
  since : Nat
deriving DecidableEq, Repr

/-- The CYC block. -/
structure Cyc where
  ctl : Nat
  q : BitVec 4160
  m : BitVec 65536
  v : BitVec 16384
  forces : List Force
  slots : Table Image
  tasks : Table Task
  ovrSeen : BitVec 64
  warnSeen : BitVec 64
  abortCnt : Word
  /-- busy intervals: BLU, from, to -/
  busy : List (Nat × Nat × Nat)
deriving DecidableEq, Repr

/-- The CYC block after a cold start (R205, R228). -/
def Cyc.reset : Cyc where
  ctl := 0x50
  q := 0#4160
  m := 0#65536
  v := 0#16384
  forces := []
  slots := []
  tasks := []
  ovrSeen := 0#64
  warnSeen := 0#64
  abortCnt := 0#32
  busy := []

end Sys2Proof.Machine
end

