-- ==== Sys2Proof/Machine/Blocks/EvrDefs.lean ====
section
/-! DEFINITION. Payloads of the recorder and power commands (17_event_recorder.md R429, 18_power_start_sleep.md R451). -/

namespace Sys2Proof.Machine

/-- EVR_READ_SNAPSHOT (R429), the OP being the row. -/
structure EvrSnapshot where
  snap : Nat
  typeMin : Nat
  typeMax : Nat
  firstSeq : Nat
  offset : Nat
  len : Nat
  bufAddr : Nat
deriving DecidableEq, Repr

/-- EVR_CLEAR (R429). -/
structure EvrClear where
  expect : Nat
  reason : Nat
deriving DecidableEq, Repr

/-- PWR_SET_THRESHOLDS (R451). -/
structure PwrThresholds where
  unV : Nat
  floorPct : Nat
  flags : Nat
  extC : Nat
  htAutoH : Nat
deriving DecidableEq, Repr

/-- PWR_SAFELIGHT (R451). -/
structure PwrSafelight where
  wakeBi : BitVec 16
  wakeTeg : BitVec 16
  flags : Nat
deriving DecidableEq, Repr

/-- A source of SAFELIGHT_WAKE (R449, R452): class and index. -/
structure WakeSrc where
  cls : Nat
  index : Nat
deriving DecidableEq, Repr

end Sys2Proof.Machine
end

