-- ==== Sys2Proof/Machine/Blocks/NetDefs.lean ====
section
/-! DEFINITION. Payloads of the network and switch commands and received frames (12_ports_redundancy.md, 13_switch_core.md). -/

namespace Sys2Proof.Machine

/-- NET_PORT_CONFIG (R309). -/
structure NetPortCfg where
  port : Nat
  mode : Nat
  flags : Nat
  maxLen : Nat
  linkHoldMs : Nat
  txQuanta : Nat
  xoff : Nat
  xon : Nat
deriving DecidableEq, Repr

/-- NET_REDUNDANCY, pair layout (R309). -/
structure NetPairCfg where
  pair : Nat
  mode : Nat
  pref : Nat
  flags : Nat
  revertHoldS : Nat
  lifeCheckMs : Nat
  pathSkewNs : Nat
  entryForgetMs : Nat
  nodeForgetS : Nat
  supAddrLsb : Nat
deriving DecidableEq, Repr

/-- NET_REDUNDANCY, beacon layout (R309). -/
structure NetOwnCfg where
  macalg : Nat
  unitId : Nat
  appid : Nat
  keySlot : Nat
  dst : Nat
  ownEn : BitVec 64
deriving DecidableEq, Repr

/-- NET_REDUNDANCY (R309). -/
inductive NetRedundancy where
  | pair (p : NetPairCfg)
  | own (p : NetOwnCfg)
deriving DecidableEq, Repr

/-- NET_FILTER (R309): addresses with VALID, hash words, APPID ranges LOW and HIGH. -/
structure NetFilter where
  port : Nat
  flags : Nat
  addrs : List (Nat × Bool)
  hash : List Word
  ranges : List (Nat × Nat)
deriving DecidableEq, Repr

/-- NET_WAKE_PATTERN (R309). -/
structure NetWake where
  port : Nat
  k : Nat
  flags : Nat
  ofs : Nat
  mask : BitVec 128
  chk : Word
deriving DecidableEq, Repr

/-- NET_COUNTERS (R309). -/
structure NetCounters where
  target : Nat
  flags : Nat
deriving DecidableEq, Repr

/-- A frame at a port's receiver (R288): octets from the destination address, without the FCS. -/
structure RxFrame where
  port : Nat
  octets : Bytes
  fcsOk : Bool
  /-- code-group or block errors seen -/
  pcsErr : Nat
  /-- receive stamp on each of TB0 to TB3 (R29) -/
  stamp : List Int
deriving DecidableEq, Repr

/-- An ownership beacon as the SVE decodes it (R305). -/
structure Beacon where
  port : Nat
  src : Nat
  rct : Option (Nat × Nat)
  zone : Nat
  epoch : Nat
  unit : Nat
  /-- well-formed, with test and simulation clear -/
  wellFormed : Bool
  keyId : Option Nat
  alg : Nat
  mac : Bytes
  octets : Bytes
deriving DecidableEq, Repr

/-- Lock conditions of a port (R287). -/
structure LinkCond where
  pcsLock : Bool
  hiBer : Bool
  localFault : Bool
  remoteFault : Bool
  anDone : Bool
  /-- in-band status: link up, half duplex, speed code 0 to 3 -/
  inband : Option (Bool × Bool × Nat)
deriving DecidableEq, Repr

/-- Lock conditions with the instant since which they have held (R287). -/
structure LinkHeld where
  cond : LinkCond
  since : Nat
deriving DecidableEq, Repr

end Sys2Proof.Machine
end

