-- ==== Sys2Proof/Machine/Blocks/PrtDefs.lean ====
section
/-! DEFINITION. Payloads of the protection and logic-independent trip commands (R139, R145, R195). -/

namespace Sys2Proof.Machine

/-- A measurand (SLOT1, SLOT2, COMB) (R140); slot1 0xFF for none. -/
structure Measurand where
  slot1 : Nat
  slot2 : Nat
  comb : Nat
deriving DecidableEq, Repr

/-- PRT_DEFINE_ZONE (R195). -/
structure ZoneDef where
  zone : Nat
  op : Nat
  core : Nat
  rate : Nat
  tbsel : Nat
  fnom : Nat
  vnom : Nat
  inom : Nat
  slots : List Nat
  fref : Measurand
  fkind : Nat
  grpLo : Nat
  grpHi : Nat
deriving DecidableEq, Repr

/-- PRT_SET_ELEMENT (R195); groups holds four vectors for OP 1, one for OP 2. -/
structure ElemDef where
  inst : Nat
  zone : Nat
  cls : Nat
  op : Nat
  group : Nat
  fs : Nat
  dirreq : Nat
  imeas : Measurand
  /-- FKIND byte of the IMEAS layout, which must be 0 -/
  imeasK : Nat
  vmeas : Measurand
  vmeasK : Nat
  /-- area × 2^22 + operand, or 0xFFFFFFFF -/
  blk : Nat
  blkinv : Nat
  enmask : Nat
  dirsup : Nat
  restr : Nat
  groups : List (List Word)
deriving DecidableEq, Repr

/-- PRT_TRIP_MATRIX (R195). -/
structure TripMatrix where
  row : Nat
  nterm : Nat
  ctl : Word
  time : Word
  maxp : Word
  terms : List Word
deriving DecidableEq, Repr

/-- One slot entry of PRT_TEST_INJECT (R195), float32 words. -/
structure InjectSlot where
  preMag : Word
  preAng : Word
  fltMag : Word
  fltAng : Word
  fltDc : Word
  tau : Word
deriving DecidableEq, Repr

/-- PRT_TEST_INJECT (R195). -/
structure TestInject where
  zone : Nat
  op : Nat
  durMs : Nat
  sec : Nat
  ns : Nat
  slots : List InjectSlot
deriving DecidableEq, Repr

end Sys2Proof.Machine
end

