-- ==== Sys2Proof/Machine/Blocks/SveDefs.lean ====
section
/-! DEFINITION. Payloads of the acquisition, filter, Shutter and sampled-value commands (R66, R86, R108, R136) and the received SV and GOOSE frames. Reserved bytes are not carried; the envelope says whether they are 0. -/

namespace Sys2Proof.Machine

/-- ACQ_SET_CHANNEL (R66). -/
structure AcqSetChannel where
  channel : Nat
  flags : Nat
  skew : Nat
  offs : Int
  gain : Nat
deriving DecidableEq, Repr

/-- ACQ_SET_SEQUENCE (R66). -/
structure AcqSetSequence where
  conv : Nat
  len : Nat
  avgLog2 : Nat
  avgShift : Nat
  slots : List Nat
deriving DecidableEq, Repr

/-- A stage block of FLT_SET_CHAIN (R86). -/
structure StageBlock where
  mode : Nat
  flags : Nat
  n : Nat
  level : Int
  hyst : Nat
  span : Nat
deriving DecidableEq, Repr

/-- FLT_SET_CHAIN (R86). -/
structure FltSetChain where
  channel : Nat
  rate : Nat
  l1mul : Nat
  l2mul : Nat
  dcbK : Nat
  dcbFlags : Nat
  lf : Nat
  envEd : Nat
  detW : Nat
  scale : Word
  eofs : Word
  stage0 : StageBlock
  stage1 : StageBlock
deriving DecidableEq, Repr

/-- One analogue entry of TRG_ARM's profile (R108). -/
structure ArmChan where
  chid : Nat
  kind : Nat
  name : Bytes
  unit : Bytes
  primary : Word
  secondary : Word
deriving DecidableEq, Repr

/-- TRG_ARM with OP 2 (R108). -/
structure TrgProfile where
  rate : Nat
  tbsel : Nat
  ctl : Nat
  preMs : Nat
  postMs : Nat
  maxlenMs : Nat
  frPreUs : Nat
  frPostUs : Nat
  frMask : Word
  station : Bytes
  chans : List ArmChan
  digs : List Nat
deriving DecidableEq, Repr

/-- TRG_SET_SOURCES (R108). -/
structure TrgSetSources where
  first : Nat
  count : Nat
  entries : List (Word × Word)
deriving DecidableEq, Repr

/-- TRG_FORCE (R108). -/
structure TrgForceCmd where
  flags : Nat
  sec : Nat
  ns : Nat
deriving DecidableEq, Repr

/-- TRG_EXPORT_RECORD (R108). -/
structure TrgExport where
  recno : Nat
  part : Nat
  format : Nat
  bufAddr : Nat
  bufLen : Nat
deriving DecidableEq, Repr

/-- One template entry of SVE_SUBSCRIBE (R119, R136). -/
structure SvEntry where
  chid : Nat
  offset : Nat
  type : Nat
  qflag : Nat
  scale : Word
deriving DecidableEq, Repr

/-- SVE_SUBSCRIBE (R136). -/
structure SvSubDef where
  stream : Nat
  rate : Nat
  noasdu : Nat
  layout : Nat
  nval : Nat
  flags : Nat
  syncReq : Nat
  appid : Nat
  vid : Nat
  dst : Nat
  tbsel : Nat
  substMax : Nat
  confrev : Nat
  latUs : Nat
  macReq : Nat
  keyA : Nat
  keyB : Nat
  svid : Bytes
  datsetLen : Nat
  entries : List SvEntry
deriving DecidableEq, Repr

/-- One value of SVE_PUBLISH (R136). -/
structure PubEntry where
  chid : Nat
  kind : Nat
deriving DecidableEq, Repr

/-- SVE_PUBLISH with OP 1; with OP 0 only pub is read (R136). -/
structure SvPubDef where
  pub : Nat
  op : Nat
  layout : Nat
  rate : Nat
  noasdu : Nat
  nval : Nat
  flags : Nat
  pcp : Nat
  vid : Nat
  appid : Nat
  dst : Nat
  confrev : Nat
  macalg : Nat
  keySlot : Nat
  svid : Bytes
  entries : List PubEntry
deriving DecidableEq, Repr

/-- One dataset member of SVE_GOOSE_SUBSCRIBE (R136). -/
structure GsMember where
  gbit : Nat
  mtype : Nat
  subst : Nat
deriving DecidableEq, Repr

/-- SVE_GOOSE_SUBSCRIBE (R136). -/
structure GsubDef where
  gsub : Nat
  op : Nat
  nmem : Nat
  flags : Nat
  appid : Nat
  dst : Nat
  macReq : Nat
  confrev : Nat
  keyA : Nat
  keyB : Nat
  gocbref : Bytes
  goid : Bytes
  members : List GsMember
deriving DecidableEq, Repr

/-- One member of SVE_GOOSE_PUBLISH: area 1 Q, 2 M or 3 E, operand, quality member follows (R136). -/
structure GpMember where
  area : Nat
  operand : Nat
  quality : Bool
  /-- bits 30 to 26 of the entry, which must be 0 -/
  rsv : Nat
deriving DecidableEq, Repr

/-- SVE_GOOSE_PUBLISH (R136). -/
structure GpubDef where
  gpub : Nat
  op : Nat
  nmem : Nat
  flags : Nat
  appid : Nat
  vid : Nat
  dst : Nat
  pcp : Nat
  macalg : Nat
  confrev : Nat
  keySlot : Nat
  gateZone : Nat
  maxtimeMs : Nat
  gocbref : Bytes
  datset : Bytes
  goid : Bytes
  members : List GpMember
deriving DecidableEq, Repr

/-- The IEC 62351-6 extension of a frame: key ID, algorithm (1 HMAC-SHA256-128, 2 AES-GMAC-128) and MAC (R117). -/
structure MacExt where
  keyId : Nat
  alg : Nat
  mac : Bytes
deriving DecidableEq, Repr

/-- The link-level part of a received SV or GOOSE frame. -/
structure LinkHdr where
  /-- 0 PA, 1 PB, 2 SA, 3 SB, 4 HP -/
  port : Nat
  dst : Nat
  src : Nat
  vid : Option Nat
  /-- sequence number and LAN of a PRP trailer (R297) -/
  rct : Option (Nat × Nat)
  /-- receive stamp at the PCS boundary, on each of TB0 to TB3 (R29) -/
  stamp : List Int
  /-- octets that the MAC covers (R117) -/
  octets : Bytes
deriving DecidableEq, Repr

/-- One ASDU of a received SV frame (R116). -/
structure Asdu where
  svid : Bytes
  smpCnt : Nat
  confRev : Nat
  smpSynch : Nat
  seqData : Bytes
deriving DecidableEq, Repr

/-- A received SV frame. -/
structure SvFrame where
  link : LinkHdr
  appid : Nat
  sim : Bool
  noAsdu : Nat
  asdus : List Asdu
  ext : Option MacExt
deriving DecidableEq, Repr

/-- One dataset member value of a received GOOSE frame. -/
inductive GooseVal where
  | bool (b : Bool)
  | dbpos (v : BitVec 2)
  | quality (q : BitVec 16)
  | other
deriving DecidableEq, Repr

/-- A received GOOSE frame. -/
structure GooseFrame where
  link : LinkHdr
  appid : Nat
  gocbref : Bytes
  goid : Bytes
  sim : Bool
  tal : Nat
  confRev : Nat
  ndsCom : Bool
  stNum : Nat
  sqNum : Nat
  members : List GooseVal
  ext : Option MacExt
deriving DecidableEq, Repr

end Sys2Proof.Machine
end

