-- ==== Sys2Proof/Machine/Blocks/TbsDefs.lean ====
section
/-! DEFINITION. Payloads of the time commands and the PTP, IRIG-B and PPS inputs (10_time_bases.md). -/

namespace Sys2Proof.Machine

/-- TIM_CONFIG_BASE (R268). -/
structure TimCfg where
  tb : Nat
  src : Nat
  profile : Nat
  role : Nat
  domain : Nat
  ports : Nat
  udp : Nat
  flags : Nat
  prio1 : Nat
  prio2 : Nat
  tauLog2 : Nat
  irigTqMax : Nat
  slewMax : Nat
  lockThr : Nat
  stepLimit : Nat
  hoLimit : Nat
  hoErrMax : Nat
  utcOffset : Int
  gmId : Nat
deriving DecidableEq, Repr

/-- TIM_STEP (R268). -/
structure TimStepCmd where
  tb : Nat
  mode : Nat
  ns : Nat
  delta : Int
  sec : Nat
deriving DecidableEq, Repr

/-- Common part of a received PTP message. -/
structure PtpHdr where
  /-- 0 PA, 1 PB, 2 SA, 3 SB -/
  port : Nat
  /-- it came over UDP/IPv4 (R257) -/
  udp : Bool
  domain : Nat
  seqId : Nat
  /-- sourcePortIdentity: clockIdentity and port number -/
  srcId : Nat
  srcPort : Nat
  /-- correctionField in 2^-16 ns -/
  corr : Int
  /-- receive stamp t_PCS on each of TB0 to TB3 (R260) -/
  stamp : List Int
deriving DecidableEq, Repr

/-- A received Sync (R261). -/
structure PtpSync where
  hdr : PtpHdr
  twoStep : Bool
  /-- originTimestamp, ns -/
  origin : Int
deriving DecidableEq, Repr

/-- A received Follow_Up (R261). -/
structure PtpFollowUp where
  hdr : PtpHdr
  precise : Int
deriving DecidableEq, Repr

/-- A received Announce (R257). -/
structure PtpAnnounce where
  hdr : PtpHdr
  prio1 : Nat
  clockClass : Nat
  accuracy : Nat
  variance : Nat
  prio2 : Nat
  gmIdentity : Nat
  stepsRemoved : Nat
  timeTraceable : Bool
  utcOffset : Int
  utcValid : Bool
  leap61 : Bool
  leap59 : Bool
  /-- IEEE_C37_238 TLV: GM_ID and totalTimeInaccuracy (R257) -/
  tlv : Option (Nat × Nat)
deriving DecidableEq, Repr

/-- Announce as the module sends it (R257, R259). -/
structure AnnBody where
  prio1 : Nat
  clockClass : Nat
  prio2 : Nat
  timeTraceable : Bool
  frequencyTraceable : Bool
  utcOffset : Int
  utcValid : Bool
  /-- IEEE_C37_238 TLV: GM_ID and totalTimeInaccuracy -/
  tlv : Option (Nat × Word)
deriving DecidableEq, Repr

/-- Peer-delay messages (R262). -/
inductive PdelayKind where
  | req
  | resp
  | respFollowUp
deriving DecidableEq, Repr

/-- A received peer-delay message; ts is requestReceiptTimestamp or responseOriginTimestamp. -/
structure PtpPdelay where
  hdr : PtpHdr
  kind : PdelayKind
  twoStep : Bool
  ts : Int
deriving DecidableEq, Repr

/-- What an instance sends at an interval (R259, R261). -/
inductive PtpTx where
  | sync
  | announce
  | pdelayReq
deriving DecidableEq, Repr

/-- What is due on a port: Sync or Announce of a base's instance, or its peer-delay request (R259, R261, R262). -/
inductive PtpDue where
  | sync (base : Nat)
  | announce (base : Nat)
  | pdelayReq
deriving DecidableEq, Repr

/-- A received IRIG-B frame (R263). -/
structure IrigFrame where
  parityOk : Bool
  /-- decoded local time, as seconds since 1970 of the frame's time -/
  seconds : Int
  /-- control functions: offset to UTC in half hours, leap pending, leap direction (true deleted), time quality -/
  offsetHalfHours : Int
  leapPending : Bool
  leapDeleted : Bool
  tq : Nat
  /-- the source supplies a UTC offset to TAI (R247) -/
  utcOffset : Option Int
  /-- marker stamp on each base -/
  stamp : List Int
deriving DecidableEq, Repr

end Sys2Proof.Machine
end

