-- ==== Sys2Proof/Machine/Blocks/SwcDefs.lean ====
section
/-! DEFINITION. Frames and payloads of the switch core (13_switch_core.md) and of the host interface (14_host_vfs.md). -/

namespace Sys2Proof.Machine

/-- One published SV ASDU (R128, R129): its index K, then svID, smpCnt, confRev, smpSynch, smpRate with smpMod in LAYOUT 0, and value and quality of each entry. -/
structure PubAsdu where
  k : Nat
  svid : Bytes
  smpCnt : Nat
  confRev : Nat
  smpSynch : Nat
  rateMod : Option (Nat × Nat)
  vals : List (Int × BitVec 16)
deriving DecidableEq, Repr

/-- One member of a published GOOSE dataset: its value, and validity and source substituted of the quality member that follows it, where one does (R134, R222). -/
structure GooseOut where
  value : Bool
  quality : Option (Bool × Bool)
deriving DecidableEq, Repr

/-- A published GOOSE message (R134). -/
structure GooseMsg where
  gocbRef : Bytes
  datSet : Bytes
  goID : Bytes
  confRev : Nat
  stNum : Nat
  sqNum : Nat
  tal : Nat
  test : Bool
  sim : Bool
  members : List GooseOut
deriving DecidableEq, Repr

/-- An ownership beacon (R305): the dataset is zone, OWN_EPOCH and UNIT_ID. -/
structure BeaconMsg where
  gocbRef : Bytes
  goID : Bytes
  zone : Nat
  epoch : Nat
  unit : Nat
  stNum : Nat
  sqNum : Nat
  tal : Nat
  test : Bool
  sim : Bool
deriving DecidableEq, Repr

/-- What a frame carries. Received and VF frames keep their octets; frames the module forms keep their fields (log entry 26). -/
inductive FrameBody where
  /-- octets after the EtherType, FCS removed -/
  | raw (octets : Bytes)
  /-- published SV frame: publication, simulation bit, MAC extension, ASDUs (R129) -/
  | sv (pub : Nat) (sim : Bool) (mac : Option MacExt) (asdus : List PubAsdu)
  /-- published GOOSE frame: publication, message, MAC extension (R134) -/
  | goose (pub : Nat) (msg : GooseMsg) (mac : Option MacExt)
  /-- ownership beacon with its MAC extension (R305) -/
  | beacon (msg : BeaconMsg) (mac : Option MacExt)
  /-- PRP supervision frame: station address (R297) -/
  | prpSup (station : Nat)
  /-- PTP Sync, Announce or Pdelay_Req: kind, domain, sequenceId, origin timestamp, announced fields (R259, R261) -/
  | ptp (kind : PtpTx) (domain seqId : Nat) (origin : Int) (ann : Option AnnBody)
  /-- PTP Follow_Up, Pdelay_Resp and Pdelay_Resp_Follow_Up: message type, domain, sequenceId, timestamp (R261, R262) -/
  | ptpResp (mtype domain seqId : Nat) (ts : Int)
  /-- a PTP message over UDP/IPv4: multicast address, port, message (R257) -/
  | ptpUdp (addr port : Nat) (msg : FrameBody)
  /-- MAC Control PAUSE with pause_time (R292) -/
  | pause (quanta : Nat)
  /-- UDP datagram of the command service: remote, payload octets (R378) -/
  | udp (addr port : Nat) (octets : Bytes)
  /-- ARP reply or ICMP echo reply: target address, octets (R378) -/
  | arp (addr : Nat)
  | icmp (addr : Nat) (octets : Bytes)
deriving DecidableEq, Repr

/-- A frame in the switch core. Addresses have the first byte on the wire least significant. -/
structure NetFrame where
  dst : Nat
  src : Nat
  /-- 802.1Q tag as received or published: PCP and VID -/
  tag : Option (Nat × Nat)
  etype : Nat
  /-- APPID of an SV or GOOSE frame -/
  appid : Option Nat
  /-- L of R315 -/
  len : Nat
  body : FrameBody
deriving DecidableEq, Repr

/-- FDB entry of SWC_TABLE_UPDATE (R329). -/
structure FdbRow where
  mac : Nat
  vid : Nat
  port : Nat
deriving DecidableEq, Repr

/-- VLAN entry. -/
structure VlanRow where
  vid : Nat
  member : BitVec 8
  untag : BitVec 8
  valid : Bool
  floodUnkMc : Bool
deriving DecidableEq, Repr

/-- Multicast entry. -/
structure McastRow where
  mac : Nat
  vid : Nat
  mask : BitVec 8
deriving DecidableEq, Repr

/-- APPID entry; dst 0 for any. -/
structure AppidRow where
  appid : Nat
  etype : Nat
  mask : BitVec 8
  dst : Nat
deriving DecidableEq, Repr

/-- Entries of one SWC_TABLE_UPDATE (R329). -/
inductive SwcRows where
  | fdb (rows : List FdbRow)
  | vlan (rows : List VlanRow)
  | mcast (rows : List McastRow)
  | appid (rows : List AppidRow)
deriving DecidableEq, Repr

/-- SWC_TABLE_UPDATE header (R329); table is given apart for OP 0 and OP 3. -/
structure SwcTable where
  table : Nat
  count : Nat
  index : Nat
  rows : SwcRows
deriving DecidableEq, Repr

/-- SWC_BUFFER_POLICY (R329). -/
structure SwcPolicy where
  guar : List Nat
  cap : List Nat
  classCap : List Nat
  protRes : Nat
  mirrorCap : Nat
  strict : List (BitVec 8)
  /-- WEIGHT of TC0 to TC5 per output -/
  weight : List (List Nat)
deriving DecidableEq, Repr

/-- VFM_SET_SHARE (R358). -/
structure VfmShare where
  weight : Nat
  vid : Nat
  shareKib : Nat
  mac : Nat
  flags : Nat
deriving DecidableEq, Repr

/-- VFM_BIND_ZONE (R358). -/
structure VfmBind where
  slot : Nat
  op : Nat
  zone : Nat
  chmask : BitVec 8
  blockN : Nat
  flags : Nat
  gFirst : Nat
  gCount : Nat
deriving DecidableEq, Repr

/-- VFM_GRANT_TRIP (R358). -/
structure VfmGrant where
  grant : Nat
  op : Nat
  rowMask : BitVec 16
  maxAgeMs : Nat
deriving DecidableEq, Repr

/-- A TxQ entry as fetched from host memory (R345). -/
inductive TxEntry where
  | nop
  /-- LEN, and the frame's octets; none when the fetch timed out or was poisoned -/
  | frame (len : Nat) (octets : Option Bytes)
  | tripReq (grant row reqId : Nat) (sec ns : Nat)
  /-- TYPE 3 to 255, or a field outside its rule -/
  | bad
deriving DecidableEq, Repr

/-- Host-written part of an RxQ entry (R341). -/
structure RxEntry where
  bufAddr : Nat
  bufLen : Nat
deriving DecidableEq, Repr

/-- A ring: RxQ[v], TxQ[v] or PF_EVQ (R340). -/
inductive RingId where
  | rx (v : Nat)
  | tx (v : Nat)
  | evq
deriving DecidableEq, Repr

end Sys2Proof.Machine
end

