-- ==== Sys2Proof/Machine/Blocks/CfgDefs.lean ====
section
/-! DEFINITION. The configuration commands as data: what a transaction stages and what a commit stores (15_mailbox_commands.md R382 to R387). -/

namespace Sys2Proof.Machine

/-- A configuration command (R386, column Cfg) with its payload; LOG_LOAD stands in the stored form only (R387). -/
inductive CfgCmd where
  | acqSetChannel (p : AcqSetChannel)
  | acqSetSequence (p : AcqSetSequence)
  | fltSetChain (p : FltSetChain)
  | trgArmProfile (p : TrgProfile)
  | trgSetSources (p : TrgSetSources)
  | sveSubscribe (p : SvSubDef)
  | sveUnsubscribe (stream : Nat)
  | svePublish (p : SvPubDef)
  | sveGooseSubscribe (p : GsubDef)
  | sveGoosePublish (p : GpubDef)
  | prtDefineZone (p : ZoneDef)
  | prtSetElement (p : ElemDef)
  | prtTripMatrix (p : TripMatrix)
  | logLoad (p : LogLoad)
  | logActivate (p : LogActivate)
  | timConfigBase (p : TimCfg)
  | netPortConfig (p : NetPortCfg)
  | netRedundancy (p : NetRedundancy)
  | netFilter (p : NetFilter)
  | netWakePattern (p : NetWake)
  | swcTableWrite (p : SwcTable)
  | swcTableDelete (p : SwcTable)
  | swcBufferPolicy (p : SwcPolicy)
  | vfmSetShare (scope : Nat) (p : VfmShare)
  | vfmBindZone (scope : Nat) (p : VfmBind)
  | vfmGrantTrip (scope : Nat) (p : VfmGrant)
  | pwrSetThresholds (p : PwrThresholds)
deriving DecidableEq, Repr

/-- The stored configuration (R382): commands in record order, and the configuration registers that no command sets (log entry 28). -/
structure StoredCfg where
  cmds : List CfgCmd
  regs : Table Word
deriving DecidableEq, Repr

end Sys2Proof.Machine
end

