-- ==== Sys2Proof/Machine/Blocks/EventDefs.lean ====
section
/-! DEFINITION. Operands of events that are no frame and no payload. -/

namespace Sys2Proof.Machine

/-- What a self-calibration run summed for one converter, 0 to 23 main, 24 to 27 CK, 28 HK (R50, R51): sums of 256 conversions, for a main converter r−, r0 and r+, else rA as mid and rR as hi; ok when every conversion completed within its period. -/
structure CalResult where
  conv : Nat
  lo : Int
  mid : Int
  hi : Int
  ok : Bool
deriving DecidableEq, Repr

/-- What the end of a calibration run brings: the solutions of its converters, and T_AFE in 1/128 °C (R52). -/
structure CalEnd where
  results : List CalResult
  afe : Int
deriving DecidableEq, Repr

/-- The 3.3 V rail and VBAT, in mV (R271). -/
structure SupplyVolts where
  rail : Nat
  vbat : Nat
deriving DecidableEq, Repr

/-- An instant of the Shutter, with the store blocks that a header cannot be written to then (R103). -/
structure HeaderWrites where
  t : Nat
  failing : List Nat
deriving DecidableEq, Repr

/-- The instant at which a record's header has been written, or could not be (R102, R103). -/
structure HeaderEnd where
  t : Nat
  ok : Bool
deriving DecidableEq, Repr

end Sys2Proof.Machine
end

