-- ==== Sys2Proof/Machine/Blocks/KeyDefs.lean ====
section
/-! DEFINITION. Payloads of the key and firmware commands (16_keys_tamper.md R410). -/

namespace Sys2Proof.Machine

/-- KEY_LOAD (R410): FORM 0 carries the key, FORM 1 a nonce, the wrapped key and a tag (R396). -/
structure KeyLoad where
  slot : Nat
  type : Nat
  attr : Nat
  keyId : Nat
  klen : Nat
  form : Nat
  xslot : Nat
  /-- K, or C -/
  body : Bytes
  wn : Bytes
  tag : Bytes
deriving DecidableEq, Repr

/-- KEY_DERIVE (R410). -/
structure KeyDerive where
  slot : Nat
  parent : Nat
  type : Nat
  attr : Nat
  keyId : Nat
  ctxlen : Nat
  context : Bytes
deriving DecidableEq, Repr

/-- KEY_DESTROY (R410), the OP being the row. -/
structure KeyDestroy where
  slot : Nat
  tampEn : Nat
deriving DecidableEq, Repr

/-- KEY_CHALLENGE (R410). -/
structure KeyChallenge where
  slot : Nat
  chal : Bytes
deriving DecidableEq, Repr

/-- KEY_ATTEST (R410), the OP being the row. -/
structure KeyAttest where
  nonceA : Bytes
  bufAddr : Nat
  bufLen : Nat
deriving DecidableEq, Repr

/-- FW_UPDATE (R410), the OP being the row. -/
structure FwUpdate where
  offset : Nat
  len : Nat
  data : Bytes
deriving DecidableEq, Repr

end Sys2Proof.Machine
end

