-- ==== Sys2Proof/Machine/Blocks/Rtc.lean ====
section
/-! DEFINITION. State of the calendar clock and the backup domain (11_rtc_backup.md). -/

namespace Sys2Proof.Machine

/-- A calendar instant (R274). -/
structure Civil where
  year : Nat
  mon : Nat
  day : Nat
  hour : Nat
  min : Nat
  sec : Nat
deriving DecidableEq, Repr

/-- RTC_SET (R283). -/
structure RtcSet where
  mode : Nat
  date : Civil
deriving DecidableEq, Repr

/-- A staged commit (R278 to R280): cause 0 register, 1 RTC_SET, 2 discipline step. -/
structure RtcCommit where
  date : Civil
  cause : Nat
  /-- waits for TB0's next top of second -/
  atTop : Bool
  reply : Option ReplyTo
deriving DecidableEq, Repr

/-- The copy of R277. -/
structure RtcCopy where
  date : Word
  time : Word
  subsec : Nat
  utsLo : Word
  utsHi : Word
  swoCnt : Word
  trim : Int
  stgDate : Word
  stgTime : Word
  stgSec : Word
  discE : Word
  discCnt : Word
  stepCnt : Word
  bkp : Bytes
deriving DecidableEq, Repr

/-- The backup domain. -/
structure Rtc where
  cal : Civil
  /-- instant of the latest roll-over -/
  rollAt : Nat
  /-- periods into the trim window (R275) -/
  window : Nat
  trim : Int
  discEn : Bool
  capture : Bool
  onVbat : Bool
  vbatLow : Bool
  vbatLows : Nat
  vbatOk : Bool
  timeLost : Bool
  badDate : Bool
  discLocked : Bool
  stgDate : Word
  stgTime : Word
  stgSec : Word
  copy : RtcCopy
  /-- instant of the CD7 edge at which the copy was taken (R279) -/
  copyAt : Option Nat
  swoCnt : Word
  discE : Word
  discCnt : Word
  stepCnt : Word
  /-- e_prev in ns; none while there is no reference (R280) -/
  ePrev : Option Int
  commits : List RtcCommit
  bkp : Bytes
deriving DecidableEq, Repr

def Civil.epoch2000 : Civil := ⟨2000, 1, 1, 0, 0, 0⟩

def RtcCopy.reset : RtcCopy := ⟨0#32, 0#32, 0, 0#32, 0#32, 0#32, 0, 0x07D00101#32, 0#32, 0#32, 0#32, 0#32, 0#32, List.replicate 64 0#8⟩

/-- The backup domain after its rail was lost (R272, R285). -/
def Rtc.reset : Rtc where
  cal := Civil.epoch2000
  rollAt := 0
  window := 0
  trim := 0
  discEn := true
  capture := false
  onVbat := false
  vbatLow := false
  vbatLows := 0
  vbatOk := true
  timeLost := true
  badDate := false
  discLocked := false
  stgDate := 0x07D00101#32
  stgTime := 0#32
  stgSec := 0#32
  copy := RtcCopy.reset
  copyAt := none
  swoCnt := 0#32
  discE := 0#32
  discCnt := 0#32
  stepCnt := 0#32
  ePrev := none
  commits := []
  bkp := List.replicate 64 0#8

end Sys2Proof.Machine
end

