-- ==== Sys2Proof/Syntax.lean ====
section
/-! DEFINITION. The commands and events of the module, one constructor per row of the opcode table (log entry 1). The first operand t of every one is the elapsed real time in ns at which it acts; e is the packet that carries a command (R370). -/

namespace Sys2Proof

open Sys2Proof.Machine

/-- A command or event (one per row of the opcode table). -/
inductive Instr where
  /-- COLD_START (R442) -/
  | coldStart (t : Nat) (por : Bool) (vin : Nat) (vhu : Nat)
  /-- WARM_START (R443) -/
  | warmStart (t : Nat) (src : Nat)
  /-- START_COMPLETE (R33) -/
  | startComplete (t : Nat)
  /-- MRST_ASSERT (R441) -/
  | mrstAssert (t : Nat)
  /-- WATCHDOG_EXPIRE (R441) -/
  | watchdogExpire (t : Nat) (step : Nat)
  /-- ADC_STROBE (R44) -/
  | adcStrobe (t : Nat) (codes : List (Option Int))
  /-- CK_SLOT_CONVERT (R55) -/
  | ckSlotConvert (t : Nat) (ck : Nat) (code : Option Int)
  /-- HK_CONVERT (R65) -/
  | hkConvert (t : Nat) (code : Option Int)
  /-- CALIBRATION_COMPLETE (R50) -/
  | calibrationComplete (t : Nat) (r : CalEnd)
  /-- URGENT_CONVERSION_COMPLETE (R64) -/
  | urgentConversionComplete (t : Nat) (conv : Nat) (code : Option Int)
  /-- CD5_LOCK_LOST (R46) -/
  | cd5LockLost (t : Nat)
  /-- CD5_LOCK_ACQUIRED (R46) -/
  | cd5LockAcquired (t : Nat)
  /-- SLOT_DEADLINE (R124) -/
  | slotDeadline (t : Nat) (ch : Nat) (k : Nat)
  /-- SV_FRAME_RECEIVE (R116) -/
  | svFrameReceive (t : Nat) (f : SvFrame)
  /-- SV_STREAM_LOST_TIMEOUT (R122) -/
  | svStreamLostTimeout (t : Nat) (sub : Nat)
  /-- GOOSE_FRAME_RECEIVE (R132) -/
  | gooseFrameReceive (t : Nat) (f : GooseFrame)
  /-- GOOSE_TAL_EXPIRE (R133) -/
  | gooseTalExpire (t : Nat) (gsub : Nat)
  /-- GOOSE_RETRANSMIT (R134) -/
  | gooseRetransmit (t : Nat) (gpub : Nat)
  /-- ZONE_EVALUATE (R142) -/
  | zoneEvaluate (t : Nat) (zone : Nat) (k : Nat)
  /-- TRIP_ROW_RELEASE (R184) -/
  | tripRowRelease (t : Nat) (row : Nat)
  /-- TEST_MODE_EXPIRE (R194) -/
  | testModeExpire (t : Nat) (zone : Nat)
  /-- BLOCKED_Q_HOLD_EXPIRE (R169) -/
  | blockedQHoldExpire (t : Nat) (inst : Nat)
  /-- FLASH_SUPPRESS_SUMMARY (R87) -/
  | flashSuppressSummary (t : Nat) (ch : Nat) (stage : Nat)
  /-- BI_DEBOUNCED_CHANGE (R190) -/
  | biDebouncedChange (t : Nat) (bi : Nat) (level : Bool)
  /-- BI_CHATTER_RECOVER (R190) -/
  | biChatterRecover (t : Nat) (bi : Nat)
  /-- TO_FEEDBACK_MISMATCH (R189) -/
  | toFeedbackMismatch (t : Nat) (n : Nat)
  /-- TO_MISMATCH_CLEAR (R189) -/
  | toMismatchClear (t : Nat) (n : Nat)
  /-- TASK_CYCLE_START (R200) -/
  | taskCycleStart (t : Nat) (task : Nat) (natives : List NativeRet)
  /-- NATIVE_CALL_ABORT (R219) -/
  | nativeCallAbort (t : Nat) (task : Nat) (cause : Nat) (mcause : Word)
  /-- TASK_CYCLE_COMMIT (R200) -/
  | taskCycleCommit (t : Nat) (task : Nat)
  /-- SHUTTER_DECISION_INTERVAL (R96) -/
  | shutterDecisionInterval (h : HeaderWrites)
  /-- TRIG_EDGE_QUALIFY (R92) -/
  | trigEdgeQualify (t : Nat) (line : Nat) (level : Bool) (stamp : List Int)
  /-- XLINE_PULSE_END (R92) -/
  | xlinePulseEnd (t : Nat) (line : Nat)
  /-- SHUTTER_RECORD_CLOSE (R95) -/
  | shutterRecordClose (h : HeaderWrites)
  /-- SHUTTER_DATA_BLOCK_WRITE (R102) -/
  | shutterDataBlockWrite (t : Nat) (ok : Bool)
  /-- SHUTTER_COMMIT_COMPLETE (R102) -/
  | shutterCommitComplete (h : HeaderEnd)
  /-- PTP_SYNC_RECEIVE (R252) -/
  | ptpSyncReceive (t : Nat) (m : PtpSync)
  /-- PTP_FOLLOW_UP_RECEIVE (R261) -/
  | ptpFollowUpReceive (t : Nat) (m : PtpFollowUp)
  /-- FOLLOW_UP_TIMEOUT (R261) -/
  | followUpTimeout (t : Nat) (port : Nat)
  /-- PTP_ANNOUNCE_RECEIVE (R257) -/
  | ptpAnnounceReceive (t : Nat) (m : PtpAnnounce)
  /-- ANNOUNCE_RECEIPT_TIMEOUT (R251) -/
  | announceReceiptTimeout (t : Nat) (base : Nat)
  /-- PDELAY_MESSAGE_RECEIVE (R262) -/
  | pdelayMessageReceive (t : Nat) (m : PtpPdelay)
  /-- PTP_MESSAGE_TRANSMIT (R259) -/
  | ptpMessageTransmit (t : Nat) (port : Nat) (kind : PtpDue)
  /-- SOURCE_LOSS_TIMEOUT (R251) -/
  | sourceLossTimeout (t : Nat) (base : Nat)
  /-- HOLDOVER_ERROR_UPDATE (R255) -/
  | holdoverErrorUpdate (t : Nat) (base : Nat)
  /-- HOLDOVER_LIMIT_EXPIRE (R255) -/
  | holdoverLimitExpire (t : Nat) (base : Nat)
  /-- IRIG_FRAME_RECEIVE (R263) -/
  | irigFrameReceive (t : Nat) (f : IrigFrame)
  /-- PPS_IN_EDGE (R264) -/
  | ppsInEdge (t : Nat) (stamp : List Int)
  /-- TIM_STEP_APPLY (R253) -/
  | timStepApply (t : Nat) (base : Nat)
  /-- TEG_FIRE (R265) -/
  | tegFire (t : Nat) (g : Nat)
  /-- LEAP_SECOND_APPLY (R247) -/
  | leapSecondApply (t : Nat) (base : Nat)
  /-- OCXO_DAILY_VALUE (R240) -/
  | ocxoDailyValue (t : Nat)
  /-- BACKUP_SUPPLY_SWITCH (R271) -/
  | backupSupplySwitch (t : Nat) (v : SupplyVolts)
  /-- VBAT_SAMPLE (R273) -/
  | vbatSample (t : Nat) (mv : Nat)
  /-- RTC_SECOND_ROLLOVER (R275) -/
  | rtcSecondRollover (t : Nat)
  /-- RTC_DISCIPLINE_STEP (R280) -/
  | rtcDisciplineStep (t : Nat)
  /-- RTC_COMMIT_LOAD (R278) -/
  | rtcCommitLoad (t : Nat)
  /-- RTC_CAPTURE_COMPLETE (R277) -/
  | rtcCaptureComplete (t : Nat)
  /-- LINK_UP (R287) -/
  | linkUp (t : Nat) (port : Nat) (c : LinkHeld)
  /-- LINK_DOWN (R287) -/
  | linkDown (t : Nat) (port : Nat) (c : LinkCond)
  /-- FRAME_RECEIVE (R289) -/
  | frameReceive (t : Nat) (f : RxFrame)
  /-- PAUSE_REFRESH (R292) -/
  | pauseRefresh (t : Nat) (port : Nat)
  /-- PAUSE_RECEIVE (R291) -/
  | pauseReceive (t : Nat) (port : Nat) (quanta : Nat)
  /-- PAUSE_EXPIRE (R291) -/
  | pauseExpire (t : Nat) (port : Nat)
  /-- SWC_FRAME_TRANSMIT (R323) -/
  | swcFrameTransmit (t : Nat) (port : Nat)
  /-- FDB_AGE_OUT (R321) -/
  | fdbAgeOut (t : Nat) (mac : Nat) (vid : Nat)
  /-- PRP_SUPERVISION_TRANSMIT (R297) -/
  | prpSupervisionTransmit (t : Nat) (pair : Nat)
  /-- PRP_NODE_FORGET (R297) -/
  | prpNodeForget (t : Nat) (pair : Nat) (src : Nat)
  /-- BRACKET_MISS_DECIDE (R300) -/
  | bracketMissDecide (t : Nat) (pair : Nat) (stream : Nat) (smpCnt : Nat)
  /-- STANDBY_FAULT_CLEAR (R300) -/
  | standbyFaultClear (t : Nat) (pair : Nat)
  /-- REVERT_HOLD_EXPIRE (R303) -/
  | revertHoldExpire (t : Nat) (pair : Nat)
  /-- OWN_BEACON_TRANSMIT (R305) -/
  | ownBeaconTransmit (t : Nat) (zone : Nat)
  /-- OWN_BEACON_RECEIVE (R306) -/
  | ownBeaconReceive (t : Nat) (b : Beacon)
  /-- OWN_LISTEN_EXPIRE (R306) -/
  | ownListenExpire (t : Nat) (zone : Nat)
  /-- OWN_SILENCE_DETECT (R306) -/
  | ownSilenceDetect (t : Nat)
  /-- OWN_CLAIM_COMPLETE (R308) -/
  | ownClaimComplete (t : Nat) (zone : Nat)
  /-- HOST_LINK_CHANGE (R332) -/
  | hostLinkChange (t : Nat) (up : Bool) (gen : Nat) (width : Nat) (l1 : Bool)
  /-- PERST_ASSERT (R357) -/
  | perstAssert (t : Nat)
  /-- PERST_DEASSERT (R357) -/
  | perstDeassert (t : Nat)
  /-- VF_FLR (R354) -/
  | vfFlr (t : Nat) (v : Nat)
  /-- PF_FLR (R356) -/
  | pfFlr (t : Nat)
  /-- VF_ENABLE_WRITE (R334) -/
  | vfEnableWrite (t : Nat) (enable : Bool) (numVfs : Nat) (ari : Bool)
  /-- PF_POWER_STATE_CHANGE (R333) -/
  | pfPowerStateChange (t : Nat) (d3hot : Bool)
  /-- STOP_BATH_COMPLETE (R354) -/
  | stopBathComplete (t : Nat) (v : Nat)
  /-- DOORBELL_RX (R339) -/
  | doorbellRx (t : Nat) (v : Nat) (tail : Word)
  /-- DOORBELL_TX (R339) -/
  | doorbellTx (t : Nat) (v : Nat) (tail : Word)
  /-- Q_CTL_WRITE (R340) -/
  | qCtlWrite (t : Nat) (ring : RingId) (v : Word)
  /-- TX_ENTRY_FETCH (R346) -/
  | txEntryFetch (t : Nat) (v : Nat) (entry : TxEntry)
  /-- RX_DELIVERY_WRITE (R347) -/
  | rxDeliveryWrite (t : Nat) (ring : RingId) (entry : RxEntry)
  /-- MSIX_COALESCE_EXPIRE (R347) -/
  | msixCoalesceExpire (t : Nat) (ring : RingId)
  /-- COMPLETION_TIMEOUT (R332) -/
  | completionTimeout (t : Nat) (fn : Nat)
  /-- MBX_CORE_POST (R362) -/
  | mbxCorePost (t : Nat) (by' : Master) (r : Nat) (slot : Nat) (data : Word)
  /-- MBX_CORE_DATA_READ (R362) -/
  | mbxCoreDataRead (t : Nat) (by' : Master) (r : Nat) (slot : Nat)
  /-- MBX_VF_TX_POST (R362) -/
  | mbxVfTxPost (t : Nat) (v : Nat) (data : Word)
  /-- MBX_VF_RX_DATA_READ (R362) -/
  | mbxVfRxDataRead (t : Nat) (v : Nat)
  /-- MB_TX_POST (R362) -/
  | mbTxPost (t : Nat) (v : Nat) (data : Word)
  /-- MB_RX_DATA_READ (R362) -/
  | mbRxDataRead (t : Nat) (v : Nat)
  /-- PMB_POST (R366) -/
  | pmbPost (t : Nat) (n : Nat) (hi : Word)
  /-- CMD_FETCH (R366) -/
  | cmdFetch (t : Nat) (n : Nat) (packet : Option Env)
  /-- REPLY_NOTICE_POST (R366) -/
  | replyNoticePost (t : Nat) (n : Nat)
  /-- PMB_REPLY_READ (R366) -/
  | pmbReplyRead (t : Nat) (n : Nat)
  /-- SEM_READ (R368) -/
  | semRead (t : Nat) (by' : Master) (n : Nat)
  /-- SEM_RELEASE (R368) -/
  | semRelease (t : Nat) (by' : Master) (v : Word)
  /-- UDP_COMMAND_RECEIVE (R378) -/
  | udpCommandReceive (t : Nat) (d : UdpDatagram)
  /-- UDP_DATA_REQUEST (R378) -/
  | udpDataRequest (t : Nat) (d : UdpDatagram)
  /-- UDP_SEQUENCE_IDLE_EXPIRE (R378) -/
  | udpSequenceIdleExpire (t : Nat) (src : Nat) (remote : Nat × Nat) (tag : Nat)
  /-- UDP_OUTPUT_EXPIRE (R378) -/
  | udpOutputExpire (t : Nat) (src : Nat) (remote : Nat × Nat) (tag : Nat)
  /-- ARP_REQUEST_RECEIVE (R378) -/
  | arpRequestReceive (t : Nat) (port : Nat) (target : Nat) (sender : Nat)
  /-- ICMP_ECHO_RECEIVE (R378) -/
  | icmpEchoReceive (t : Nat) (port : Nat) (target : Nat) (sender : Nat) (octets : Bytes)
  /-- CONSOLE_LINE_RECEIVE (R380) -/
  | consoleLineReceive (t : Nat) (line : List Char)
  /-- CFG_TRANSACTION_TIMEOUT (R385) -/
  | cfgTransactionTimeout (t : Nat)
  /-- TAMPER_DETECT (R400) -/
  | tamperDetect (t : Nat) (src : Nat) (active : Nat) (onVbat : Bool)
  /-- ATTEST_SIGN_COMPLETE (R408) -/
  | attestSignComplete (t : Nat)
  /-- EVR_RECORD_WRITE (R422) -/
  | evrRecordWrite (t : Nat) (ok : Bool)
  /-- SNAPSHOT_COPY_COMPLETE (R426) -/
  | snapshotCopyComplete (t : Nat) (snap : Nat)
  /-- SNAPSHOT_TIMEOUT (R426) -/
  | snapshotTimeout (t : Nat) (snap : Nat)
  /-- OPTIME_STORE (R420) -/
  | optimeStore (t : Nat)
  /-- SHED1_ENTER (R436) -/
  | shed1Enter (t : Nat) (vin : Nat) (vhu : Nat)
  /-- SHED_LEVEL_ENTER (R436) -/
  | shedLevelEnter (t : Nat) (vin : Nat) (vhu : Nat)
  /-- SUPPLY_RECOVERED (R433) -/
  | supplyRecovered (t : Nat) (vin : Nat)
  /-- SHED_LEVEL_LEAVE (R438) -/
  | shedLevelLeave (t : Nat) (vin : Nat) (vhu : Nat)
  /-- POWER_DOWN (R434) -/
  | powerDown (t : Nat) (vhu : Nat)
  /-- VIN_OVERVOLTAGE_DISCONNECT (R432) -/
  | vinOvervoltageDisconnect (t : Nat) (vin : Nat)
  /-- VIN_EXCURSION_END (R452) -/
  | vinExcursionEnd (t : Nat) (vin : Nat) (extreme : Nat)
  /-- HOLDUP_TEST_DUE (R440) -/
  | holdupTestDue (t : Nat) (vhu : Nat)
  /-- HOLDUP_TEST_COMPLETE (R440) -/
  | holdupTestComplete (t : Nat) (dtNs : Nat)
  /-- HOLD_SHORT_DISCONNECT (R459) -/
  | holdShortDisconnect (t : Nat)
  /-- SAFELIGHT_POWER_GATE (R447) -/
  | safelightPowerGate (t : Nat)
  /-- SAFELIGHT_WAKE (R449) -/
  | safelightWake (t : Nat) (src : WakeSrc)
  /-- WAKE_COMPLETE (R449) -/
  | wakeComplete (t : Nat)
  /-- SPEED_MEASUREMENT (R230) -/
  | speedMeasurement (t : Nat) (counts : List Nat)
  /-- VCORE_FAST_LOOP_STEP (R235) -/
  | vcoreFastLoopStep (t : Nat)
  /-- MARGIN_PLAN (R237) -/
  | marginPlan (t : Nat) (count22 : Nat) (count23 : Nat)
  /-- REGISTER_WRITE (R9) -/
  | registerWrite (t : Nat) (by' : Master) (addr : Nat) (v : Word)
  /-- TBS_CAPTURE (R248) -/
  | tbsCapture (t : Nat) (by' : Master)
  /-- RTC_CAPTURE (R277) -/
  | rtcCapture (t : Nat) (by' : Master)
  /-- RTC_STG_SEC_WRITE (R278) -/
  | rtcStgSecWrite (t : Nat) (by' : Master) (v : Word)
  /-- ACQ_URG_WRITE (R63) -/
  | acqUrgWrite (t : Nat) (by' : Master) (v : Word)
  /-- ACQ_IMPL_CLEAR (R60) -/
  | acqImplClear (t : Nat) (by' : Master) (v : Word)
  /-- ACQ_CK_SEQ_WRITE (R56) -/
  | acqCkSeqWrite (t : Nat) (by' : Master) (ck : Nat) (b : Bool) (v : Word)
  /-- FLT_DET_CLR (R85) -/
  | fltDetClr (t : Nat) (by' : Master) (ch : Nat) (v : Word)
  /-- FLT_DCB_FREEZE_WRITE (R74) -/
  | fltDcbFreezeWrite (t : Nat) (by' : Master) (ch : Nat) (v : Word)
  /-- FLT_SCALE_EOFS_WRITE (R155) -/
  | fltScaleEofsWrite (t : Nat) (by' : Master) (ch : Nat) (eofs : Bool) (v : Word)
  /-- TRG_FORCE_WRITE (R110) -/
  | trgForceWrite (t : Nat) (by' : Master) (v : Word)
  /-- TRG_ARMED_WRITE (R99) -/
  | trgArmedWrite (t : Nat) (by' : Master) (v : Word)
  /-- SVE_SIM_WRITE (R121) -/
  | sveSimWrite (t : Nat) (by' : Master) (v : Word)
  /-- SVE_CS_SEL_WRITE (R138) -/
  | sveCsSelWrite (t : Nat) (by' : Master) (v : Word)
  /-- SWC_VOQ_SEL_WRITE (R331) -/
  | swcVoqSelWrite (t : Nat) (by' : Master) (v : Word)
  /-- SPD_SI_PLAN_WRITE (R239) -/
  | spdSiPlanWrite (t : Nat) (by' : Master) (v : Word)
  /-- SPD_VCORE_OVR_WRITE (R236) -/
  | spdVcoreOvrWrite (t : Nat) (by' : Master) (v : Word)
  /-- TEG_CTL_WRITE (R265) -/
  | tegCtlWrite (t : Nat) (by' : Master) (g : Nat) (v : Word)
  /-- VF_VREQ_SET (R348) -/
  | vfVreqSet (t : Nat) (v : Nat) (bits : Word)
  /-- VF_VREQ_CLR (R348) -/
  | vfVreqClr (t : Nat) (v : Nat) (bits : Word)
  /-- EVR_RD_SELECT (R425) -/
  | evrRdSelect (t : Nat) (by' : Master) (hi : Word)
  /-- EVR_RD_NEXT (R425) -/
  | evrRdNext (t : Nat) (by' : Master) (v : Word)
  /-- SYS_IDENTIFY (R387) -/
  | sysIdentify (t : Nat) (e : Env)
  /-- SYS_GET_STATE (R387) -/
  | sysGetState (t : Nat) (e : Env)
  /-- SYS_SET_STATE (R34) -/
  | sysSetState (t : Nat) (e : Env) (st : Nat)
  /-- SYS_RESET (R387) -/
  | sysReset (t : Nat) (e : Env) (scope : Nat)
  /-- SYS_SELFTEST (R387) -/
  | sysSelftest (t : Nat) (e : Env) (tests : Word)
  /-- SYS_GET_HEALTH (R387) -/
  | sysGetHealth (t : Nat) (e : Env)
  /-- CFG_BEGIN (R383) -/
  | cfgBegin (t : Nat) (e : Env) (timeoutS : Nat)
  /-- CFG_COMMIT (R384) -/
  | cfgCommit (t : Nat) (e : Env) (autostart : Nat) (expectSeq : Nat)
  /-- CFG_ABORT (R385) -/
  | cfgAbort (t : Nat) (e : Env)
  /-- CFG_READ (R387) -/
  | cfgRead (t : Nat) (e : Env) (which : Nat) (bufAddr : Nat) (bufLen : Nat)
  /-- ACQ_SET_CHANNEL (R66) -/
  | acqSetChannel (t : Nat) (e : Env) (p : AcqSetChannel)
  /-- ACQ_SET_SEQUENCE (R66) -/
  | acqSetSequence (t : Nat) (e : Env) (p : AcqSetSequence)
  /-- ACQ_CALIBRATE (R53) -/
  | acqCalibrate (t : Nat) (e : Env) (targets : Word)
  /-- ACQ_URGENT_CONVERT (R63) -/
  | acqUrgentConvert (t : Nat) (e : Env) (conv : Nat) (input : Nat)
  /-- FLT_SET_CHAIN (R86) -/
  | fltSetChain (t : Nat) (e : Env) (p : FltSetChain)
  /-- FLT_GET_DELAY (R86) -/
  | fltGetDelay (t : Nat) (e : Env) (ch : Nat)
  /-- TRG_DISARM (R108) -/
  | trgDisarm (t : Nat) (e : Env)
  /-- TRG_ARM (R108) -/
  | trgArm (t : Nat) (e : Env)
  /-- TRG_ARM_LOAD_PROFILE (R108) -/
  | trgArmLoadProfile (t : Nat) (e : Env) (p : TrgProfile)
  /-- TRG_ERASE_RECORDS (R108) -/
  | trgEraseRecords (t : Nat) (e : Env)
  /-- TRG_SET_SOURCES (R108) -/
  | trgSetSources (t : Nat) (e : Env) (p : TrgSetSources)
  /-- TRG_FORCE (R108) -/
  | trgForce (t : Nat) (e : Env) (p : TrgForceCmd)
  /-- TRG_EXPORT_RECORD (R107) -/
  | trgExportRecord (t : Nat) (e : Env) (p : TrgExport)
  /-- SVE_SUBSCRIBE (R115) -/
  | sveSubscribe (t : Nat) (e : Env) (p : SvSubDef)
  /-- SVE_UNSUBSCRIBE (R136) -/
  | sveUnsubscribe (t : Nat) (e : Env) (stream : Nat)
  /-- SVE_PUBLISH (R127) -/
  | svePublish (t : Nat) (e : Env) (p : SvPubDef)
  /-- SVE_GOOSE_SUBSCRIBE (R132) -/
  | sveGooseSubscribe (t : Nat) (e : Env) (p : GsubDef)
  /-- SVE_GOOSE_PUBLISH (R134) -/
  | sveGoosePublish (t : Nat) (e : Env) (p : GpubDef)
  /-- PRT_DEFINE_ZONE (R141) -/
  | prtDefineZone (t : Nat) (e : Env) (p : ZoneDef)
  /-- PRT_SET_ELEMENT (R146) -/
  | prtSetElement (t : Nat) (e : Env) (p : ElemDef)
  /-- PRT_GET_ELEMENT (R195) -/
  | prtGetElement (t : Nat) (e : Env) (inst : Nat)
  /-- PRT_SET_GROUP (R143) -/
  | prtSetGroup (t : Nat) (e : Env) (zone : Nat) (group : Nat)
  /-- PRT_TRIP_MATRIX (R195) -/
  | prtTripMatrix (t : Nat) (e : Env) (p : TripMatrix)
  /-- PRT_TEST_INJECT (R194) -/
  | prtTestInject (t : Nat) (e : Env) (p : TestInject)
  /-- PRT_OWNERSHIP_READ (R195) -/
  | prtOwnershipRead (t : Nat) (e : Env) (zone : Nat)
  /-- PRT_OWNERSHIP_CLAIM (R308) -/
  | prtOwnershipClaim (t : Nat) (e : Env) (zone : Nat)
  /-- PRT_OWNERSHIP_RELEASE (R308) -/
  | prtOwnershipRelease (t : Nat) (e : Env) (zone : Nat)
  /-- LOG_LOAD (R210) -/
  | logLoad (t : Nat) (e : Env) (p : LogLoad)
  /-- LOG_ACTIVATE (R226) -/
  | logActivate (t : Nat) (e : Env) (p : LogActivate)
  /-- LOG_ONLINE_CHANGE (R223) -/
  | logOnlineChange (t : Nat) (e : Env) (task : Nat) (slot : Nat)
  /-- LOG_FORCE_SET (R221) -/
  | logForceSet (t : Nat) (e : Env) (area : Nat) (opnd : Nat) (val : Nat)
  /-- LOG_FORCE_CLEAR (R221) -/
  | logForceClear (t : Nat) (e : Env) (all : Nat) (area : Nat) (opnd : Nat)
  /-- LOG_GET_STATUS (R226) -/
  | logGetStatus (t : Nat) (e : Env) (task : Nat)
  /-- TIM_CONFIG_BASE (R268) -/
  | timConfigBase (t : Nat) (e : Env) (p : TimCfg)
  /-- TIM_STEP (R253) -/
  | timStep (t : Nat) (e : Env) (p : TimStepCmd)
  /-- TIM_GET_STATUS (R268) -/
  | timGetStatus (t : Nat) (e : Env) (base : Nat)
  /-- RTC_SET (R283) -/
  | rtcSet (t : Nat) (e : Env) (p : RtcSet)
  /-- RTC_GET (R283) -/
  | rtcGet (t : Nat) (e : Env)
  /-- NET_PORT_CONFIG (R309) -/
  | netPortConfig (t : Nat) (e : Env) (p : NetPortCfg)
  /-- NET_REDUNDANCY (R296) -/
  | netRedundancy (t : Nat) (e : Env) (p : NetRedundancy)
  /-- NET_FILTER (R294) -/
  | netFilter (t : Nat) (e : Env) (p : NetFilter)
  /-- NET_WAKE_PATTERN (R295) -/
  | netWakePattern (t : Nat) (e : Env) (p : NetWake)
  /-- NET_COUNTERS (R309) -/
  | netCounters (t : Nat) (e : Env) (p : NetCounters)
  /-- SWC_TABLE_READ (R329) -/
  | swcTableRead (t : Nat) (e : Env) (p : SwcTable)
  /-- SWC_TABLE_WRITE (R329) -/
  | swcTableWrite (t : Nat) (e : Env) (p : SwcTable)
  /-- SWC_TABLE_DELETE (R329) -/
  | swcTableDelete (t : Nat) (e : Env) (p : SwcTable)
  /-- SWC_TABLE_FLUSH (R329) -/
  | swcTableFlush (t : Nat) (e : Env) (p : SwcTable)
  /-- SWC_BUFFER_POLICY (R317) -/
  | swcBufferPolicy (t : Nat) (e : Env) (p : SwcPolicy)
  /-- VFM_SET_SHARE (R351) -/
  | vfmSetShare (t : Nat) (e : Env) (p : VfmShare)
  /-- VFM_BIND_ZONE (R349) -/
  | vfmBindZone (t : Nat) (e : Env) (p : VfmBind)
  /-- VFM_GRANT_TRIP (R350) -/
  | vfmGrantTrip (t : Nat) (e : Env) (p : VfmGrant)
  /-- VFM_RESET (R354) -/
  | vfmReset (t : Nat) (e : Env)
  /-- KEY_LOAD (R396) -/
  | keyLoad (t : Nat) (e : Env) (p : KeyLoad)
  /-- KEY_DERIVE (R397) -/
  | keyDerive (t : Nat) (e : Env) (p : KeyDerive)
  /-- KEY_DESTROY_SLOT (R398) -/
  | keyDestroySlot (t : Nat) (e : Env) (p : KeyDestroy)
  /-- KEY_FOG_NOW (R399) -/
  | keyFogNow (t : Nat) (e : Env) (p : KeyDestroy)
  /-- KEY_TAMPER_CLEAR (R402) -/
  | keyTamperClear (t : Nat) (e : Env) (p : KeyDestroy)
  /-- KEY_SET_TAMP_EN (R399) -/
  | keySetTampEn (t : Nat) (e : Env) (p : KeyDestroy)
  /-- KEY_CHALLENGE (R403) -/
  | keyChallenge (t : Nat) (e : Env) (p : KeyChallenge)
  /-- KEY_ATTEST_PUBKEY (R410) -/
  | keyAttestPubkey (t : Nat) (e : Env) (p : KeyAttest)
  /-- KEY_ATTEST_QUOTE (R408) -/
  | keyAttestQuote (t : Nat) (e : Env) (p : KeyAttest)
  /-- FW_UPDATE_WRITE (R410) -/
  | fwUpdateWrite (t : Nat) (e : Env) (p : FwUpdate)
  /-- FW_UPDATE_VERIFY (R404) -/
  | fwUpdateVerify (t : Nat) (e : Env) (p : FwUpdate)
  /-- FW_UPDATE_ACTIVATE (R410) -/
  | fwUpdateActivate (t : Nat) (e : Env) (p : FwUpdate)
  /-- FW_UPDATE_COMMIT (R407) -/
  | fwUpdateCommit (t : Nat) (e : Env) (p : FwUpdate)
  /-- FW_UPDATE_REVERT (R410) -/
  | fwUpdateRevert (t : Nat) (e : Env) (p : FwUpdate)
  /-- EVR_SNAPSHOT_OPEN (R426) -/
  | evrSnapshotOpen (t : Nat) (e : Env) (p : EvrSnapshot)
  /-- EVR_SNAPSHOT_READ (R429) -/
  | evrSnapshotRead (t : Nat) (e : Env) (p : EvrSnapshot)
  /-- EVR_SNAPSHOT_CLOSE (R429) -/
  | evrSnapshotClose (t : Nat) (e : Env) (p : EvrSnapshot)
  /-- EVR_CLEAR (R427) -/
  | evrClear (t : Nat) (e : Env) (p : EvrClear)
  /-- EVR_STATUS (R429) -/
  | evrStatus (t : Nat) (e : Env)
  /-- PWR_SET_THRESHOLDS (R451) -/
  | pwrSetThresholds (t : Nat) (e : Env) (p : PwrThresholds)
  /-- PWR_SAFELIGHT (R447) -/
  | pwrSafelight (t : Nat) (e : Env) (p : PwrSafelight)
  /-- SPD_GET_PLAN (R243) -/
  | spdGetPlan (t : Nat) (e : Env) (back : Nat)
  /-- PWR_HOLDUP_TEST (R440) -/
  | pwrHoldupTest (t : Nat) (e : Env) (vhu : Nat)
  /-- REGISTER_READ (R9) -/
  | registerRead (t : Nat) (by' : Master) (addr : Nat)
  /-- MRST_RELEASE (R441) -/
  | mrstRelease (t : Nat)
  /-- VIN_UNDERVOLTAGE (R434) -/
  | vinUndervoltage (t : Nat) (vin : Nat) (vhu : Nat)
  /-- BACKUP_DOMAIN_RESTART (R272) -/
  | backupDomainRestart (t : Nat)
  /-- SELFTEST_COMPLETE (R387) -/
  | selftestComplete (t : Nat) (pass : Word) (fail : Word) (firstFail : Nat)
  /-- EVR_CLEAR_COMPLETE (R427) -/
  | evrClearComplete (t : Nat)
deriving DecidableEq, Repr

end Sys2Proof
end

