-- ==== Sys2Proof/Machine/Blocks/ComDefs.lean ====
section
/-! DEFINITION. The content of a COMTRADE export (04_shutter.md R107). -/

namespace Sys2Proof.Machine

/-- One analogue channel of an export (R107): a, b, skew in units of −0.5 ns, PS, PRIMARY and SECONDARY. -/
structure ComChan where
  name : Bytes
  unit : Bytes
  a : Nat
  b : Nat
  adv : Nat
  ps : Bytes
  primary : Word
  secondary : Word
deriving DecidableEq, Repr

/-- One row: timestamp in units of timemult × 1 µs, values, the NAME.INV channels, digital channels. -/
structure ComRow where
  time : Int
  vals : List Word
  inv : List Bool
  digs : List Bool
deriving DecidableEq, Repr

/-- What an export says (R107). -/
structure Comtrade where
  station : Bytes
  /-- rec_dev_id: the 16 hexadecimal digits of SYS_UID -/
  device : Bytes
  revYear : Nat
  /-- 0 for one .cff file, 1 for .cfg followed by .dat -/
  format : Nat
  nrates : Nat
  samp : Nat
  endsamp : Nat
  chans : List ComChan
  /-- names of the digital channels NAME.INV, one per analogue channel -/
  invNames : List Bytes
  /-- SOURCE codes of the digital channels -/
  digs : List Nat
  /-- date and microseconds of the first row and of the trigger -/
  start : Civil × Nat
  trigger : Civil × Nat
  /-- timecode and local code, hours -/
  timecode : Int
  localCode : Int
  tmq : Nat
  /-- timemult in 1/100 -/
  timemult : Nat
  rows : List ComRow
deriving DecidableEq, Repr

end Sys2Proof.Machine
end

