-- ==== Sys2Proof/Config.lean ====
section
/-! DEFINITION. What one part fixes and the spec leaves open: constants of the part and free values, none with a body (log entries 6 and 12), and cryptographic functions by name (log entry 6). -/

namespace Sys2Proof.Config

/-- Free words, by a fresh index. -/
opaque freeWord : Nat → Word

/-- Free integers, by a fresh index. -/
opaque freeInt : Nat → Int

/-- Float results that lie outside binary32 or have an operand that is no number, by their operands (log entry 12). -/
opaque beyond : List Int → Word

/-- Station address of MAC port p (R311: per part), first byte on the wire least significant. -/
opaque mac : Nat → Nat

/-- Station address that a reply to an IPv4 address goes to (log entry 41). -/
opaque stationOf : Nat → Nat

/-- SYS_REV, SYS_VARIANT, SYS_UID (R39: per part). -/
opaque sysRev : Word
opaque variant : Bool
opaque uidLo : Word
opaque uidHi : Word

/-- RATIO0: count22 / count23 in production, in units of 2^-32 (R237: per part). -/
opaque ratio0 : Nat

/-- F at 125 °C in production at 0.66 V + i × 20 mV, in 0.001 (R237: per part). -/
opaque prodSpeed : Nat → Nat

/-- Byte of a boot bank that no FW_UPDATE has written (R404). -/
opaque bankByte : Nat → Nat → Byte

/-- Octets after the EtherType of a frame that the module forms (log entry 26). -/
opaque bodyOctets : Machine.FrameBody → Bytes

/-- Octets of the configuration part and of the data part of a COMTRADE file of IEEE C37.111-2013 (R107; log entry 26). -/
opaque comtrade : Machine.Comtrade → Bytes × Bytes

/-- Octet of KMAC256 of SP 800-185: key, input, octets of output, customisation string, position. -/
opaque kmacOctet : Bytes → Bytes → Nat → Bytes → Nat → Byte

/-- KMAC256 with n octets of output. -/
def kmac256 (key input : Bytes) (n : Nat) (custom : Bytes) : Bytes := (List.range n).map (kmacOctet key input n custom)

/-- Octet of SHAKE256. -/
opaque shakeOctet : Bytes → Nat → Byte

/-- SHAKE256 with 64 octets of output. -/
def shake256 (input : Bytes) : Bytes := (List.range 64).map (shakeOctet input)

/-- Octets of HMAC-SHA256 and of AES-GMAC-128: key, input, position. -/
opaque hmacOctet : Bytes → Bytes → Nat → Byte
opaque gmacOctet : Bytes → Bytes → Nat → Byte

/-- HMAC-SHA256 truncated to 16 octets, and AES-GMAC-128. -/
def hmac128 (key input : Bytes) : Bytes := (List.range 16).map (hmacOctet key input)
def gmac128 (key input : Bytes) : Bytes := (List.range 16).map (gmacOctet key input)

/-- SLH-DSA-SHAKE-256s verification of FIPS 205: key index, message, signature. -/
opaque slhVerify : Nat → Bytes → Bytes → Bool

/-- Octets of the attestation key IDK's public key, and of its signatures (R392, R408). -/
opaque idkPkOctet : Nat → Byte
opaque idkSignOctet : Bytes → Nat → Byte

def idkPk : Bytes := (List.range 64).map idkPkOctet
def idkSign (message : Bytes) : Bytes := (List.range 49856).map (idkSignOctet message)

end Sys2Proof.Config
end

