-- ==== Sys2Proof/Machine/Octets.lean ====
section
/-! DEFINITION. Octet strings: little-endian fields of host-visible structures (R6), network-order fields of frames, CRC-32C and the Ethernet FCS. -/

namespace Sys2Proof.Machine

/-- n octets of a natural, least significant first. -/
def le : Nat → Nat → Bytes
  | 0, _ => []
  | n + 1, v => BitVec.ofNat 8 v :: le n (v / 256)

/-- n octets of a natural, most significant first. -/
def be (n v : Nat) : Bytes := (le n v).reverse

/-- The natural of octets, least significant first. -/
def unle : Bytes → Nat
  | [] => 0
  | b :: r => b.toNat + 256 * unle r

/-- The natural of octets, most significant first. -/
def unbe (b : Bytes) : Nat := b.foldl (fun a x => a * 256 + x.toNat) 0

/-- An integer in n octets, two's complement, least significant first. -/
def leI (n : Nat) (v : Int) : Bytes := le n (v % (256 ^ n : Nat)).toNat

abbrev u8 (v : Nat) : Bytes := le 1 v
abbrev u16 (v : Nat) : Bytes := le 2 v
abbrev u32 (v : Nat) : Bytes := le 4 v
abbrev u64 (v : Nat) : Bytes := le 8 v
abbrev s16 (v : Int) : Bytes := leI 2 v
abbrev s32 (v : Int) : Bytes := leI 4 v
abbrev s64 (v : Int) : Bytes := leI 8 v
abbrev w32 (v : Word) : Bytes := le 4 v.toNat

def b2n (b : Bool) : Nat := if b then 1 else 0

/-- n zero octets. -/
def zeros (n : Nat) : Bytes := List.replicate n 0#8

/-- The octets padded with zeros to n, or cut to n. -/
def padTo (n : Nat) (b : Bytes) : Bytes := (b ++ zeros n).take n

/-- Octets i to i + n − 1. -/
def slice (b : Bytes) (i n : Nat) : Bytes := (b.drop i).take n

/-- Little-endian field of n octets at offset i. -/
def fld (b : Bytes) (i n : Nat) : Nat := unle (slice b i n)

/-- Octets of the characters of an ASCII string. -/
def ascii (s : String) : Bytes := s.toList.map fun c => BitVec.ofNat 8 c.toNat

/-- One bit of a reflected CRC of 32 bits. -/
def crcBit (poly c : Word) : Word := if c.getLsbD 0 then (c >>> 1) ^^^ poly else c >>> 1

/-- One octet of a reflected CRC of 32 bits. -/
def crcByte (poly c : Word) (b : Byte) : Word :=
  let c := c ^^^ b.zeroExtend 32
  let f := crcBit poly
  f (f (f (f (f (f (f (f c)))))))

/-- A reflected CRC-32 with initial value and final inversion of ones. -/
def crcOf (poly : Word) (b : Bytes) : Word := ~~~ (b.foldl (crcByte poly) 0xFFFFFFFF#32)

/-- CRC-32C (Castagnoli). -/
def crc32c (b : Bytes) : Word := crcOf 0x82F63B78#32 b

/-- CRC-32 of IEEE 802.3. -/
def crc32 (b : Bytes) : Word := crcOf 0xEDB88320#32 b

end Sys2Proof.Machine
end

