-- ==== Sys2Proof/Machine/Operands.lean ====
section
/-! DEFINITION. Fields of registers and operands: bit fields, clamps, saturation, signed fields. -/

namespace Sys2Proof.Machine

/-- Bits hi to lo of a word, as a natural. -/
def bits {n : Nat} (w : BitVec n) (hi lo : Nat) : Nat := (w.toNat >>> lo) % 2 ^ (hi + 1 - lo)

/-- Bit i of a word. -/
def bit {n : Nat} (w : BitVec n) (i : Nat) : Bool := w.getLsbD i

/-- Bit i of a natural. -/
def nbit (v i : Nat) : Bool := v.testBit i

/-- A natural in bits lo and up of a register word. -/
def at' (v lo : Nat) : Nat := v <<< lo

/-- A register word from a natural. -/
def wd (v : Nat) : Word := BitVec.ofNat 32 v

/-- A flag at bit i. -/
def fl (b : Bool) (i : Nat) : Nat := if b then 2 ^ i else 0

/-- The word with bit i set to b. -/
def setBit {n : Nat} (w : BitVec n) (i : Nat) (b : Bool) : BitVec n :=
  if b then w ||| BitVec.ofNat n (2 ^ i) else w &&& ~~~ (BitVec.ofNat n (2 ^ i))

/-- The word with bits hi to lo set to v. -/
def setBits (w : Word) (hi lo v : Nat) : Word :=
  let m := wd ((2 ^ (hi + 1 - lo) - 1) <<< lo)
  (w &&& ~~~ m) ||| (wd (v <<< lo) &&& m)

/-- A write of v under a mask of writable bits. -/
def maskWrite (mask : Nat) (v : Word) : Word := v &&& wd mask

/-- The nearer limit of lo to hi. -/
def clampN (lo hi v : Nat) : Nat := min hi (max lo v)

def clampI (lo hi v : Int) : Int := min hi (max lo v)

/-- Two's complement of n bits. -/
def sext (n v : Nat) : Int := if v % 2 ^ n ≥ 2 ^ (n - 1) then (v % 2 ^ n : Int) - 2 ^ n else (v % 2 ^ n : Nat)

/-- An integer as an n-bit field. -/
def ifield (n : Nat) (v : Int) : Nat := (v % (2 ^ n : Nat)).toNat

/-- An integer as a register word. -/
def iw (v : Int) : Word := BitVec.ofInt 32 v

/-- A natural held to 32 bits. -/
def sat32 (v : Nat) : Word := wd (min v 0xFFFFFFFF)

/-- An integer held to 32 signed bits. -/
def satI32 (v : Int) : Int := clampI (-2147483648) 2147483647 v

/-- A counter that saturates at all ones. -/
def satInc (w : Word) : Word := if w = 0xFFFFFFFF#32 then w else w + 1

/-- A counter that saturates at all ones, plus n. -/
def satAdd (w : Word) (n : Nat) : Word := sat32 (w.toNat + n)

/-- Division rounded to nearest, halves to even. -/
def rdivEven (a : Int) (b : Nat) : Int :=
  let q := a / (b : Int)
  let r := a % (b : Int)
  if 2 * r < b then q else if 2 * r > b then q + 1 else if q % 2 = 0 then q else q + 1

/-- Division rounded up. -/
def cdiv (a b : Nat) : Nat := (a + b - 1) / b

/-- Bits of a natural as a list, bit 0 first. -/
def bitList (n v : Nat) : List Bool := (List.range n).map fun i => v.testBit i

/-- The natural of a list of bits, bit 0 first. -/
def ofBits : List Bool → Nat
  | [] => 0
  | b :: r => (if b then 1 else 0) + 2 * ofBits r

/-- The positions of the ones of v below n. -/
def ones (n v : Nat) : List Nat := (List.range n).filter fun i => v.testBit i

/-- Integer square root by bits: the largest r of n bits with r × r ≤ v. -/
def isqrtGo : Nat → Nat → Nat → Nat
  | 0, _, r => r
  | n + 1, v, r => let c := r + 2 ^ n; isqrtGo n v (if c * c ≤ v then c else r)

def isqrt (v : Nat) : Nat := isqrtGo (v.log2 / 2 + 1) v 0

end Sys2Proof.Machine
end

