-- ==== Sys2Proof/Machine/Blocks/Cmd.lean ====
section
/-! DEFINITION. State of the command interpreter and of the configuration transactions (15_mailbox_commands.md R370 to R389). -/

namespace Sys2Proof.Machine

/-- The replay window of a key slot (R374). -/
structure Replay where
  h : Nat
  /-- accepted NONCEs greater than H − 64 -/
  accepted : List Nat
  /-- H as stored in MRAM -/
  stored : Nat
deriving DecidableEq, Repr

/-- A staged command: what it is, and its payload length and octets' place in the order (R383). -/
structure Staged where
  cmd : CfgCmd
  plen : Nat
deriving DecidableEq, Repr

/-- An open configuration transaction (R383). -/
structure Txn where
  src : Nat
  remote : Nat × Nat
  timeoutS : Nat
  /-- instant of the owner's latest command -/
  last : Nat
  /-- staged commands in staging order -/
  staged : List Staged
deriving DecidableEq, Repr

/-- An open UDP payload sequence (R378). -/
structure UdpSeq where
  src : Nat
  remote : Nat × Nat
  hdr : CmdHdr
  joined : Bytes
  /-- the latest accepted piece, as received -/
  latest : Bytes
  last : Nat
deriving DecidableEq, Repr

/-- A held UDP output (R378). -/
structure UdpOut where
  rt : ReplyTo
  data : Bytes
  /-- instant of the latest data request, or of the reply -/
  last : Nat
deriving DecidableEq, Repr

/-- A CFG_COMMIT whose changes have not all taken effect: its reply waits for them (R384 step 6). -/
structure CommitWait where
  rt : ReplyTo
  payload : Bytes
  cmds : List CfgCmd
deriving DecidableEq, Repr

/-- IP settings of SA or SB (R389). -/
structure IpCfg where
  addr : Word
  mask : Word
  gw : Word
  ctl : BitVec 2
deriving DecidableEq, Repr

/-- The CMD block. -/
structure Cmd where
  interp : Bool
  /-- packets past R375 step 3 that have not begun, in arrival order over all sources -/
  queue : List Pkt
  /-- commands begun whose reply waits -/
  running : List ReplyTo
  /-- commands of channels that had begun when a warm start came: INTERNAL_FAULT follows START (R367) -/
  interrupted : List ReplyTo
  /-- the stored configuration has been loaded since the latest cold start began (R382) -/
  cfgLoaded : Bool
  txn : Option Txn
  /-- commits whose reply waits until their changes have taken effect (R384) -/
  commits : List CommitWait
  cfgSeq : Word
  stored : StoredCfg
  /-- AUTOSTART kept with the stored configuration (R281) -/
  autostart : Nat
  dirty : Bool
  failPos : Nat
  abortCause : Nat
  accepted : Word
  refused : Word
  authFail : Word
  replayed : Word
  noreplyErr : Word
  fetchErr : Word
  replyLost : Word
  udpDrop : Word
  cfgAborted : Word
  replay : Table Replay
  seqs : List UdpSeq
  outs : List UdpOut
  /-- replies over UDP that have not entered the switch core -/
  udpTx : List UdpReply
  ip : List IpCfg
  /-- corrected memory errors, and whether an uncorrectable one occurred, since the cold start (SYS_GET_HEALTH, R387) -/
  eccCorr : Word
  eccUnc : Bool
  /-- self-tests that run: TESTS, start and reply (R387) -/
  selftest : Option (Word × Nat × ReplyTo)
deriving DecidableEq, Repr

/-- The CMD block after a cold start (R389); stored values: log entry 11. -/
def Cmd.reset : Cmd where
  interp := false
  queue := []
  running := []
  interrupted := []
  cfgLoaded := false
  txn := none
  commits := []
  cfgSeq := 0#32
  stored := ⟨[], []⟩
  autostart := 0
  dirty := false
  failPos := 0
  abortCause := 0
  accepted := 0#32
  refused := 0#32
  authFail := 0#32
  replayed := 0#32
  noreplyErr := 0#32
  fetchErr := 0#32
  replyLost := 0#32
  udpDrop := 0#32
  cfgAborted := 0#32
  replay := []
  seqs := []
  outs := []
  udpTx := []
  ip := List.replicate 2 ⟨0#32, 0#32, 0#32, 3#2⟩
  eccCorr := 0#32
  eccUnc := false
  selftest := none

end Sys2Proof.Machine
end

