-- ==== Sys2Proof/Machine/Blocks/Evr.lean ====
section
/-! DEFINITION. State of the event recorder (17_event_recorder.md). -/

namespace Sys2Proof.Machine

/-- A record as formed (R416); LEN is 36 + payload octets, SEQ comes when it is written (R419). -/
structure EvRec where
  type : Nat
  payload : Bytes
  flags : BitVec 16
  src : Nat
  optime : Word
  pwrcyc : Word
  utc : Nat
deriving DecidableEq, Repr

/-- A record in the log. -/
structure LogRec where
  seq : Nat
  ev : EvRec
deriving DecidableEq, Repr

/-- A log block (R415). -/
inductive BlkState where
  | free
  | used
  | bad
deriving DecidableEq, Repr

/-- One of the 160 log blocks: GEN, STATE, records oldest first. -/
structure LogBlk where
  gen : Nat
  st : BlkState
  recs : List LogRec
deriving DecidableEq, Repr

/-- A Contact sheet (R426). -/
structure Sheet where
  src : Nat
  remote : Nat × Nat
  recs : List LogRec
  firstSeq : Nat
  lastSeq : Nat
  nbad : Nat
  /-- instant of its latest OP 0 or OP 1 -/
  last : Nat
  /-- reply of an open that is still being copied -/
  copying : Option ReplyTo
deriving DecidableEq, Repr

/-- A clear that waits or runs (R427, R428). -/
structure ClearJob where
  reply : ReplyTo
  reason : Nat
  /-- false while it waits for a copy -/
  run : Bool
deriving DecidableEq, Repr

/-- The latest clear (R414, R427). -/
structure LastClear where
  seq : Nat
  optime : Word
  ev : EvRec
deriving DecidableEq, Repr

/-- The EVR block. -/
structure Evr where
  ready : Bool
  rebuilding : Bool
  cleanStart : Bool
  /-- staging queue, oldest first (R422) -/
  stage : List EvRec
  stageFull : Bool
  /-- records dropped since the latest EV_EVR_DROPPED -/
  lost : Nat
  /-- log blocks 0 to 159 that are not free with GEN 0 -/
  blocks : Table LogBlk
  cur : Nat
  nextSeq : Nat
  reserve : Nat
  /-- records written since the start (the clean marker is cleared by the first) -/
  wroteSinceStart : Bool
  dropped : Word
  droppedTotal : Word
  optime : Word
  /-- instant up to which OPTIME has counted -/
  optimeAt : Nat
  optimeStored : Word
  pwrcyc : Word
  clearCnt : Word
  lastClear : Option LastClear
  /-- REASON and source of a clear cut short (R427) -/
  intent : Option ClearJob
  clearing : Option ClearJob
  rdSelLo : Word
  rdSelHi : Word
  /-- 0 idle, 2 FOUND, 3 NOT_FOUND -/
  rdStat : Nat
  rdBuf : Option LogRec
  snaps : List (Option Sheet)
deriving DecidableEq, Repr

/-- The EVR block after a cold start of a new part (R431; "Stored" values by log entry 11). -/
def Evr.reset : Evr where
  ready := false
  rebuilding := false
  cleanStart := false
  stage := []
  stageFull := false
  lost := 0
  blocks := []
  cur := 0
  nextSeq := 1
  reserve := 1
  wroteSinceStart := false
  dropped := 0#32
  droppedTotal := 0#32
  optime := 0#32
  optimeAt := 0
  optimeStored := 0#32
  pwrcyc := 0#32
  clearCnt := 0#32
  lastClear := none
  intent := none
  clearing := none
  rdSelLo := 0#32
  rdSelHi := 0#32
  rdStat := 0
  rdBuf := none
  snaps := [none, none]

end Sys2Proof.Machine
end

