-- ==== Sys2Proof/Machine/Blocks/Flt.lean ====
section
/-! DEFINITION. State of the filter and decimation chain (03_filter_chain.md). -/

namespace Sys2Proof.Machine

/-- One flash stage (R81, R82, R88). -/
structure FlashStage where
  /-- FLT_FS_CTL -/
  ctl : Word
  /-- LEVEL, signed, 2^-6 LSB -/
  level : Int
  /-- HYST -/
  hyst : Nat
  /-- OUT -/
  out : Bool
  /-- BLOCKED: the latest sample was blocked -/
  blocked : Bool
  /-- COUNT of consecutive pickup samples -/
  count : Nat
  puNs : Word
  puSec : Word
  puCnt : Word
  /-- claimed, and its setting cannot be used (R155) -/
  claimErr : Bool
  /-- FLT_FS_SEEN bit -/
  seen : Bool
  /-- pickup and drop-off records formed in the running second (R87) -/
  recs : Nat
  /-- records suppressed in the running second (R87) -/
  suppressed : Nat
deriving DecidableEq, Repr

/-- Geometry of a chain (R69). -/
structure Geom where
  rate : Nat
  l1mul : Nat
  l2mul : Nat
deriving DecidableEq, Repr

/-- One sample of the fast tap (R80). -/
structure FtSample where
  f : Int
  /-- complete: LF codes follow the latest restart -/
  complete : Bool
  flags : BitVec 6
deriving DecidableEq, Repr

/-- One channel's chain. -/
structure FltCh where
  /-- FLT_CTL -/
  ctl : Word
  /-- FLT_SCALE -/
  scale : Word
  /-- FLT_EOFS -/
  eofs : Word
  /-- FLT_DETW -/
  detw : Nat
  /-- geometry in force (R78) -/
  geom : Geom
  /-- fast-tap length in force (R78) -/
  lf : Nat
  /-- DCB_K in force at the latest output: 0 off (R74) -/
  kInForce : Nat
  /-- a restart is due at the next strobe (R77) -/
  restart : Bool
  /-- a claimed stage is programmed again at the next strobe (R155) -/
  claimDue : Bool
  /-- the chain has had its first restart (R77) -/
  started : Bool
  /-- raw samples since the restart strobe, that one included (R77) -/
  sinceRestart : Nat
  /-- codes and flags of the support, newest first (R71, R75) -/
  raw : List (Int × BitVec 6)
  /-- retained u1 values, newest first (R73) -/
  u1s : List Int
  /-- DC-block mean, 2^-30 LSB (R73, R74) -/
  m : Int
  /-- automatic freeze: the latest input carried invalid validity (R74) -/
  autoFrozen : Bool
  /-- SETTLING of the latest output (R88) -/
  settling : Bool
  out : Word
  outq : BitVec 16
  outidx : Nat
  /-- raw samples since the fast tap's restart -/
  ftRun : Nat
  /-- fast-tap samples, newest first (R80, R81) -/
  ft : List FtSample
  /-- y and quality over the RMS window, newest first (R85) -/
  ys : List (Int × BitVec 16)
  /-- outputs in the running peak window (R85) -/
  peakCount : Nat
  /-- extremes of y in the running peak window -/
  peakRun : Option (Int × Int)
  peakMax : Word
  peakMin : Word
  /-- extremes of the window peaks since cleared or restarted, in y (R85) -/
  hold : Option (Int × Int)
  holdMax : Word
  holdMin : Word
  rms : Word
  /-- envelope e, 2^-10 LSB -/
  e : Int
  env : Word
  detq : BitVec 16
  fs : List FlashStage
deriving DecidableEq, Repr

/-- The FLT block. -/
structure Flt where
  ch : List FltCh
deriving DecidableEq, Repr

def FlashStage.reset : FlashStage where
  ctl := 0x03F03F08#32
  level := 0
  hyst := 0
  out := false
  blocked := false
  count := 0
  puNs := 0#32
  puSec := 0#32
  puCnt := 0#32
  claimErr := false
  seen := false
  recs := 0
  suppressed := 0

def FltCh.reset : FltCh where
  ctl := 0x081F0000#32
  scale := 0x3F800000#32
  eofs := 0#32
  detw := 0x60
  geom := ⟨0, 1, 1⟩
  lf := 32
  kInForce := 0
  restart := false
  claimDue := false
  started := false
  sinceRestart := 0
  raw := []
  u1s := []
  m := 0
  autoFrozen := false
  settling := true
  out := 0#32
  outq := 0#16
  outidx := 0
  ftRun := 0
  ft := []
  ys := []
  peakCount := 0
  peakRun := none
  peakMax := 0#32
  peakMin := 0#32
  hold := none
  holdMax := 0#32
  holdMin := 0#32
  rms := 0#32
  e := 0
  env := 0#32
  detq := 0#16
  fs := List.replicate 2 FlashStage.reset

/-- The FLT block after a cold start (R88). -/
def Flt.reset : Flt where
  ch := List.replicate 24 FltCh.reset

end Sys2Proof.Machine
end

