-- ==== Sys2Proof/Machine/Blocks/Key.lean ====
section
/-! DEFINITION. State of the key core and the boot memory (16_keys_tamper.md). -/

namespace Sys2Proof.Machine

/-- A loaded key slot (R393). -/
structure KeySlot where
  type : Nat
  attr : BitVec 8
  keyId : Word
  key : Bytes
deriving DecidableEq, Repr

/-- A slot's copy in MRAM and the RK generation that wraps it (R391, R394; log entry 29). -/
structure KeyCopy where
  ks : KeySlot
  gen : Nat
deriving DecidableEq, Repr

/-- What the manifest of a bank gives (R404). -/
structure Manifest where
  fwVer : Word
  svn : Nat
  keyIndex : Nat
  revoke : BitVec 4
  /-- SHAKE256 of the manifest -/
  digest : Bytes
deriving DecidableEq, Repr

/-- A quote being signed (R408). -/
structure AttestJob where
  reply : ReplyTo
  nonceA : Bytes
  bufAddr : Nat
deriving DecidableEq, Repr

/-- The KEY block. -/
structure Key where
  ready : Bool
  /-- loaded slots by number -/
  slots : Table KeySlot
  copies : Table KeyCopy
  rkValid : Bool
  rkGen : Nat
  active : BitVec 6
  latched : BitVec 6
  tampLatched : Bool
  tampEn : BitVec 2
  fogCount : Word
  fogOptime : Word
  /-- a Fogging on VBAT that no start has recorded yet (R400) -/
  fogVbat : Bool
  /-- second of the latest challenge and challenges answered in it (R403) -/
  chalSec : Nat
  chalN : Nat
  attest : Option AttestJob
  fwBusy : Bool
  /-- octets written to bank A (0) and bank B (1), by offset, oldest write first overwritten -/
  bankW : List (List Host.Cell)
  /-- running bank, 0 A, 1 B -/
  running : Nat
  trial : Bool
  /-- committed bank -/
  committed : Nat
  /-- trial bank for the next start -/
  trialNext : Option Nat
  otherVerified : Bool
  /-- manifests of the banks as last verified -/
  manifests : List Manifest
  svnFuse : Nat
  revoked : BitVec 4
deriving DecidableEq, Repr

/-- A manifest of zeros (DESIGN CHOICE, log entry 11). -/
def Manifest.zero : Manifest := ⟨0#32, 0, 0, 0#4, List.replicate 64 0#8⟩

/-- The KEY block after a cold start, backup rail lost (R412; "Stored" values by log entry 11). -/
def Key.reset : Key where
  ready := false
  slots := []
  copies := []
  rkValid := false
  rkGen := 0
  active := 0#6
  latched := 0#6
  tampLatched := false
  tampEn := 0#2
  fogCount := 0#32
  fogOptime := 0#32
  fogVbat := false
  chalSec := 0
  chalN := 0
  attest := none
  fwBusy := false
  bankW := [[], []]
  running := 0
  trial := false
  committed := 0
  trialNext := none
  otherVerified := false
  manifests := [.zero, .zero]
  svnFuse := 0
  revoked := 0#4

end Sys2Proof.Machine
end

