-- ==== Sys2Proof/Machine/Blocks/Mbx.lean ====
section
/-! DEFINITION. State of the mailboxes and semaphores (15_mailbox_commands.md R361 to R369, R388). -/

namespace Sys2Proof.Machine

/-- One word mailbox (R361). -/
structure Mail where
  data : Word
  full : Bool
  srcEpoch : Nat
  srcId : Nat
deriving DecidableEq, Repr

/-- An empty word mailbox (R388). -/
def Mail.empty : Mail := ⟨0#32, false, 0, 0⟩

/-- One pointer mailbox (R366). -/
structure Pmb where
  lo : Word
  hi : Word
  full : Bool
deriving DecidableEq, Repr

/-- The MBX block; a table entry that is absent stands for its reset value. -/
structure Mbx where
  /-- core slot r, s under key 16 r + s -/
  core : Table Mail
  /-- VF to PF mailboxes by VF -/
  vfRx : Table Mail
  /-- PF to VF mailboxes by VF -/
  vfTx : Table Mail
  pfNak : Word
  coreNak : Table Word
  vfNak : Table Word
  epochPf : Nat
  epochCore : Table Nat
  epochVf : Table Nat
  /-- owner SRC_ID of a semaphore that is held -/
  sem : Table Nat
  semBadrel : Word
  semFreed : Word
  pmb : List Pmb
  /-- reply notices held per channel, oldest first (R366) -/
  held : List (List Nat)
deriving DecidableEq, Repr

/-- The MBX block after a cold start (R388). -/
def Mbx.reset : Mbx where
  core := []
  vfRx := []
  vfTx := []
  pfNak := 0#32
  coreNak := []
  vfNak := []
  epochPf := 0
  epochCore := []
  epochVf := []
  sem := []
  semBadrel := 0#32
  semFreed := 0#32
  pmb := List.replicate 8 ⟨0#32, 0#32, false⟩
  held := List.replicate 4 []

end Sys2Proof.Machine
end

