-- ==== Sys2Proof/Machine/Blocks/Net.lean ====
section
/-! DEFINITION. State of the MACs, the redundancy stage and ownership (12_ports_redundancy.md). -/

namespace Sys2Proof.Machine

/-- A wake pattern (R295). -/
structure WakePat where
  ofs : Nat
  mask : BitVec 128
  chk : Word
deriving DecidableEq, Repr

/-- One port's MAC (R311). -/
structure MacPort where
  ctl : Word
  link : Bool
  /-- speed code 0 10M, 1 100M, 2 1G, 3 10G -/
  speed : Nat
  cond : LinkCond
  cfgErr : Bool
  maxLen : Nat
  txQuanta : Nat
  xoff : Nat
  xon : Nat
  filtCtl : BitVec 4
  /-- additional addresses and VALID -/
  uaddr : List (Nat × Bool)
  hash : List Word
  ranges : List (Nat × Nat)
  wakeCtl : BitVec 9
  wakePat : Nat
  wakeLink : Bool
  wakeSeen : Bool
  wakeCnt : Word
  wake : List WakePat
  cnt : List (BitVec 64)
  /-- end of the pause obeyed (R291) -/
  pauseEnd : Option Nat
  /-- instant from which paused time has not yet been added to TX_PAUSED_NS -/
  pausedFrom : Nat
  pauseEvNew : Nat
  pauseEvLast : Option Nat
  /-- end of the frame being transmitted -/
  txUntil : Nat
  /-- a PAUSE was sent and XON not yet reached: instant of the next repeat (R292) -/
  xoffSent : Option Nat
deriving DecidableEq, Repr

/-- A copy of a frame at the redundancy stage: SeqNr, instant, port, the rows that brought it (log entry 45), and whether it passed (R297). -/
structure PrpSeq where
  seq : Nat
  at' : Nat
  port : Nat
  rows : List Nat
  passed : Bool
deriving DecidableEq, Repr

/-- One entry of a PRP node table (R297). -/
structure PrpNode where
  src : Nat
  seen : Nat
  /-- copies within ENTRY_FORGET -/
  seqs : List PrpSeq
deriving DecidableEq, Repr

/-- A frame that waits for its copy on the other port (R300). -/
structure BrWait where
  stream : Nat
  smpCnt : Nat
  port : Nat
  rx : Nat
deriving DecidableEq, Repr

/-- A revert in progress (R303). -/
structure Revert where
  oldActive : Nat
  /-- streams that have switched -/
  switched : List Nat
  /-- latest frame of each stream kept from the preferred port, with its instant -/
  kept : List (Nat × SvFrame × Nat)
deriving DecidableEq, Repr

/-- One pair (R296 to R303, R312). -/
structure Pair where
  cfg : NetPairCfg
  seqNr : BitVec 16
  nodes : List PrpNode
  active : Nat
  bothDown : Bool
  revert : Option Revert
  holdFrom : Option Nat
  stbyFault : Bool
  lastMissStby : Nat
  lastMissStream : Nat
  waits : List BrWait
  /-- frames already seen on both ports or decided: (stream, smpCnt, port, instant) -/
  arrived : List BrWait
  /-- last missed smpCnt on the active port and its instant, per stream (R301) -/
  missAct : Table (Nat × Nat)
  /-- the same on the preferred port during a revert (R303) -/
  missPref : Table (Nat × Nat)
  nextLife : Nat
  failover : Word
  reverts : Word
  revertAbort : Word
  stbyDisc : Word
  missActCnt : Word
  missStbyCnt : Word
  dup : Word
  wrongA : Word
  wrongB : Word
  noRct : Word
  ntFull : Word
  supRx : Word
  wrongNew : Nat
  wrongLast : Option Nat
  fullNew : Nat
  fullLast : Option Nat
deriving DecidableEq, Repr

/-- Ownership states of R306. -/
inductive OwnState where
  | owner
  | fenced
  | listening
  | conflict
  | released
deriving DecidableEq, Repr

/-- One zone's ownership (R306). -/
structure OwnZone where
  st : OwnState
  epoch : Nat
  heard : Nat
  heardUnit : Nat
  /-- listening time counted so far, and the instant since which it runs (R306) -/
  listened : Nat
  runFrom : Option Nat
  /-- highest epoch heard while listening, and its unit -/
  heardNow : Option (Nat × Nat)
  /-- a claim is listening: its start and its reply (R308) -/
  claim : Option (Nat × Option ReplyTo)
  stNum : Nat
  sqNum : Nat
  /-- instant and epoch of the latest beacon -/
  lastSent : Option (Nat × Nat)
deriving DecidableEq, Repr

/-- The RED block. -/
structure Red where
  pair : List Pair
  own : NetOwnCfg
  ownDisc : Word
  zones : List OwnZone
  /-- instant since which both links of pair 0 are clear -/
  silentFrom : Option Nat
deriving DecidableEq, Repr

def LinkCond.reset : LinkCond := ⟨false, false, false, false, false, none⟩

def MacPort.resetWith (ctl : Word) : MacPort where
  ctl := ctl
  link := false
  speed := 0
  cond := LinkCond.reset
  cfgErr := false
  maxLen := 0x600
  txQuanta := 0xFFFF
  xoff := 0x100
  xon := 0x80
  filtCtl := 2#4
  uaddr := List.replicate 4 (0, false)
  hash := List.replicate 16 0#32
  ranges := List.replicate 8 (0xFFFF, 0)
  wakeCtl := 0#9
  wakePat := 0
  wakeLink := false
  wakeSeen := false
  wakeCnt := 0#32
  wake := List.replicate 8 ⟨0, 0#128, 0#32⟩
  cnt := List.replicate 18 0#64
  pauseEnd := none
  pausedFrom := 0
  pauseEvNew := 0
  pauseEvLast := none
  txUntil := 0
  xoffSent := none

/-- The MAC windows after a cold start (R311). -/
def macReset : List MacPort :=
  [MacPort.resetWith 0x000A0001#32, MacPort.resetWith 0x000A0001#32, MacPort.resetWith 0x000A001C#32, MacPort.resetWith 0x000A001C#32]

def Pair.reset (q : Nat) : Pair where
  cfg := ⟨q, 0, 0, 1, 10, 2000, 10000, 400, 60, 0⟩
  seqNr := 0#16
  nodes := []
  active := 0
  bothDown := false
  revert := none
  holdFrom := none
  stbyFault := false
  lastMissStby := 0
  lastMissStream := 0
  waits := []
  arrived := []
  missAct := []
  missPref := []
  nextLife := 0
  failover := 0#32
  reverts := 0#32
  revertAbort := 0#32
  stbyDisc := 0#32
  missActCnt := 0#32
  missStbyCnt := 0#32
  dup := 0#32
  wrongA := 0#32
  wrongB := 0#32
  noRct := 0#32
  ntFull := 0#32
  supRx := 0#32
  wrongNew := 0
  wrongLast := none
  fullNew := 0
  fullLast := none

def OwnZone.reset : OwnZone where
  st := .owner
  epoch := 0
  heard := 0
  heardUnit := 0
  listened := 0
  runFrom := none
  heardNow := none
  claim := none
  stNum := 0
  sqNum := 0
  lastSent := none

/-- The RED block after a cold start (R312); stored epochs: log entry 11. -/
def Red.reset : Red where
  pair := [Pair.reset 0, Pair.reset 1]
  own := ⟨0, 0, 0, 0, 0, 0#64⟩
  ownDisc := 0#32
  zones := List.replicate 64 OwnZone.reset
  silentFrom := none

end Sys2Proof.Machine
end

