-- ==== Sys2Proof/Machine/Blocks/OutDefs.lean ====
section
/-! DEFINITION. What a step sends out of the module: replies, frames, host writes, interrupts, read data, pins. -/

namespace Sys2Proof.Machine

/-- An output of the latest command, in the order it was made. -/
inductive Out where
  /-- a reply packet (R371): source code, remote, REPLY_ADDR, octets -/
  | reply (src : Nat) (remote : Nat × Nat) (addr : Nat) (octets : Bytes)
  /-- a line of text on the console (R380): true for ERR -/
  | consoleErr
  /-- a write into host memory -/
  | hostWrite (addr : Nat) (octets : Bytes)
  /-- an MSI-X message: function (0 PF, v VF v) and vector -/
  | msix (fn : Nat) (vec : Nat)
  /-- a completion with an Unsupported Request or a completion timeout reported through AER -/
  | aer (fn : Nat)
  /-- the value a register read returns -/
  | readData (v : Word)
  /-- a frame whose transmission on a port starts: port 0 PA, 1 PB, 2 SA, 3 SB, 4 HP, 5 CP, 6 MP, 7 DP; with the SeqNr of a redundancy control trailer (R297) -/
  | frame (port : Nat) (f : NetFrame) (rct : Option (BitVec 16))
  /-- a frame on a port whose FCS is inverted (R325) -/
  | stomp (port : Nat)
  /-- a pulse on PPS_OUT0 or PPS_OUT1, with its length in ns (R265, R266) -/
  | pulse (pin width : Nat)
deriving DecidableEq, Repr

end Sys2Proof.Machine
end

