-- ==== Sys2Proof/Machine/Blocks/Prt.lean ====
section
/-! DEFINITION. State of zones, element instances, trip matrix, trip outputs and binary inputs (06_ac_protection.md, 07_dc_trip_breaker.md). Fixed-point numbers are integers in units of 2^-64 (log entry 15). -/

namespace Sys2Proof.Machine

/-- Conditions of R114. -/
inductive Cond where
  | use
  | hold
  | block
deriving DecidableEq, Repr

/-- A complex number in fixed point. -/
structure Cx where
  re : Int
  im : Int
deriving DecidableEq, Repr

/-- One index of a measurand's history (R150). -/
structure MeasSample where
  k : Nat
  x : Int
  cond : Cond
deriving DecidableEq, Repr

/-- History of one measurand: samples and FC phasors, newest first (R150). -/
structure MeasHist where
  m : Measurand
  xs : List MeasSample
  fc : List Cx
deriving DecidableEq, Repr

/-- Signals of an instance (R147). -/
structure Signals where
  start : Bool
  operate : Bool
  blockedQ : Bool
  blockedIn : Bool
  aux1 : Bool
  aux2 : Bool
deriving DecidableEq, Repr

/-- RDIR's decision and voltage memory (R158), also used by PDIS (R159). -/
structure DirState where
  fwd : Bool
  rev : Bool
  /-- indices for which |V| ≥ V_MEM has held -/
  okRun : Nat
  /-- the memory is in use: phasor, its index, and the first low index -/
  mem : Option (Cx × Nat × Nat)
deriving DecidableEq, Repr

/-- A PDSI rise (R174). -/
structure Rise where
  k0 : Nat
  s : Int
  xref : Int
  /-- the operate condition has held in W -/
  held : Bool
  /-- indices since s × d fell below DIDT_END × DIDT_START -/
  low : Option Nat
deriving DecidableEq, Repr

/-- A PDLT test (R176). -/
structure LineTest where
  /-- indices since the start -/
  age : Nat
  vSum : Int
  iSum : Int
  n : Nat
  /-- INITiated by this RREC instance -/
  byRrec : Option Nat
deriving DecidableEq, Repr

/-- RREC states (R178), code 0 to 6. -/
inductive RrecSt where
  | ready
  | waitOpen
  | dead
  | lineTest
  | closing
  | reclaim
  | lockout
deriving DecidableEq, Repr

/-- Internal state of one instance; each class uses the fields its rules name. A running count of indices is none before it starts and 0 at the index it starts. -/
structure ElemState where
  /-- START and OPERATE as the rules of the class form them, AUX1 and AUX2 -/
  st : Bool
  op : Bool
  aux1 : Bool
  aux2 : Bool
  /-- delay timer of R151; RBRF's timer (R177) -/
  timer : Option Nat
  /-- indices since START set (R157 TMIN) and since START cleared (T_RESET) -/
  sinceStart : Option Nat
  sinceClear : Option Nat
  /-- integrator ψ (R157) -/
  psi : Int
  dir : DirState
  /-- consecutive inside indices (R160) -/
  insideRun : Nat
  /-- indices since |X| (HC) rose to I_MIN, and whether it was below at the previous index (R161) -/
  energ : Option Nat
  hcLow : Bool
  /-- H2 branch held (R161 drop-off at 0.9) -/
  h2On : Bool
  /-- indices since the raw condition ended, of OPERATE without a break, and barred by T_MAX (R161) -/
  rawOff : Option Nat
  onRun : Option Nat
  barred : Bool
  /-- thermal image, θ_eq of the last USE index and whether τ_C applied there (R162) -/
  theta : Int
  thetaEq : Int
  cold : Bool
  /-- d of PDDT, ΔI of PDSI and the latest R of PDLT, float32 (R197) -/
  eval : Word
  rise : Option Rise
  /-- PDSI: armed for a new rise, and the sign of the latest (R174 item 6) -/
  armed : Bool
  sgn : Int
  test : Option LineTest
  /-- PDLT: a start requested by this RREC instance -/
  ltReq : Option Nat
  /-- PDLT: result just decided, with R, V_avg and I_avg where they were computed, and the RREC instance that asked -/
  ltDone : Option (Nat × Option Word × Option Word × Option Word × Option Nat)
  initPrev : Bool
  rrec : RrecSt
  shot : Nat
  cause : Nat
  /-- RREC: indices in the present state, and for which CB_BI has read 1 in LOCKOUT -/
  stateAge : Nat
  cbRun : Option Nat
  /-- RREC: acceptances of INIT_ROW at the previous index -/
  rowCnt : Option Word
  /-- RREC: a line test is to be started; its result -/
  ltWant : Bool
  ltResult : Option Nat
  /-- RREC in LINE_TEST: the zone has been owned since it entered the state (R179) -/
  ltOwned : Bool
  /-- PTRC: indices since OPERATE set (R180) -/
  pulse : Nat
deriving DecidableEq, Repr

/-- One element instance (R145). -/
structure Inst where
  cfg : ElemDef
  /-- stored settings per group, float32 (R146) -/
  groups : List (List Word)
  sig : Signals
  cond : Cond
  es : ElemState
  /-- records of the running second and DROPPED (R169): second, count, dropped -/
  recSec : Nat
  recCount : Nat
  dropped : Nat
  /-- BLOCKED_Q as last recorded, and the instant of a change not yet recorded (R169) -/
  bqRecorded : Bool
  bqSince : Option Nat
deriving DecidableEq, Repr

/-- Test mode of a zone (R194). -/
structure TestMode where
  t1 : Int
  durMs : Nat
  slots : List InjectSlot
deriving DecidableEq, Repr

/-- One zone (R139). -/
structure Zone where
  cfg : ZoneDef
  group : Nat
  /-- a group change waits for the next index: new group and source 0 command, 1 logic (R143) -/
  groupReq : Option (Nat × Nat)
  /-- an entry to or exit from test mode waits for the next index (R194) -/
  testReq : Option (Option TestMode)
  test : Option TestMode
  lastK : Option Nat
  /-- per base, the highest index evaluated in its present numbering (R20) -/
  doneK : Table Nat
  /-- the next index evaluated resumes the zone's evaluation (R150) -/
  resume : Bool
  /-- first index of the latest resumption (R150) -/
  resumeK : Nat
  hists : List MeasHist
  ftr : Int
  /-- f_meas per index, newest first; none where frozen (R152) -/
  fmeas : List (Option Int)
  /-- FC phasors of FREF, newest first (R152) -/
  frefFc : List Cx
  /-- indices still frozen after the last freeze cause (R153) -/
  frozenLeft : Nat
  /-- 0 tracking, 1 frozen, 2 at limit (R153) -/
  trackSt : Nat
  /-- PRT_ZLATE -/
  late : Word
deriving DecidableEq, Repr

/-- The PRT block. -/
structure Prt where
  zones : Table Zone
  insts : Table Inst
deriving DecidableEq, Repr

/-- One matrix row (R183 to R186, R198). -/
structure Row where
  ctl : Word
  time : Word
  maxp : Nat
  /-- 32 terms; missing ones are 0 -/
  terms : List Word
  active : Bool
  /-- instant of the latest acceptance -/
  accAt : Nat
  /-- input, and the instant since which it has been 0 -/
  input : Bool
  zeroAt : Nat
  ns : Word
  sec : Word
  cnt : Word
  seen : Bool
deriving DecidableEq, Repr

/-- One binary input (R190, R198). -/
structure BinIn where
  cfg : Word
  raw : Bool
  val : Bool
  invalid : Bool
  seen : Bool
  ns : Word
  sec : Word
  /-- instants of debounced changes in the last second (R190) -/
  changes : List Nat
  /-- instant of the latest raw change (R190) -/
  rawAt : Nat
  recSec : Nat
  recCount : Nat
  dropped : Nat
deriving DecidableEq, Repr

/-- One VF trip grant (R192). -/
structure Grant where
  vf : Nat
  mask : BitVec 16
  maxAge : Nat
deriving DecidableEq, Repr

/-- The TRP block. -/
structure Trp where
  tbsel : Nat
  rows : List Row
  /-- TO pins that are energised -/
  pins : BitVec 8
  tofb : BitVec 8
  mismatch : BitVec 8
  toMism : BitVec 8
  fbt : Nat
  toNs : List Word
  toSec : List Word
  /-- elapsed instant of the latest change of TOn or of its MISMATCH (R189) -/
  toAt : List Nat
  bi : List BinIn
  vfAcc : Word
  vfRef : Word
  fenced : Word
  grants : Table Grant
deriving DecidableEq, Repr

def Signals.reset : Signals := ⟨false, false, false, false, false, false⟩

def DirState.reset : DirState := ⟨false, false, 0, none⟩

/-- An instance's initial state; θ is set apart (R162), and RREC is in LOCKOUT with cause 4, a definition being a change of its definition (R178). -/
def ElemState.reset : ElemState where
  st := false
  op := false
  aux1 := false
  aux2 := false
  timer := none
  sinceStart := none
  sinceClear := none
  psi := 0
  dir := DirState.reset
  insideRun := 0
  energ := none
  hcLow := false
  h2On := false
  rawOff := none
  onRun := none
  barred := false
  theta := 0
  thetaEq := 0
  cold := false
  eval := 0#32
  rise := none
  armed := true
  sgn := 1
  test := none
  ltReq := none
  ltDone := none
  initPrev := true
  rrec := .lockout
  shot := 0
  cause := 4
  stateAge := 0
  cbRun := none
  rowCnt := none
  ltWant := false
  ltResult := none
  ltOwned := false
  pulse := 0

def Prt.reset : Prt := ⟨[], []⟩

def Row.reset : Row where
  ctl := 0#32
  time := 0x96#32
  maxp := 0x3E8
  terms := []
  active := false
  accAt := 0
  input := false
  zeroAt := 0
  ns := 0#32
  sec := 0#32
  cnt := 0#32
  seen := false

def BinIn.reset : BinIn where
  cfg := 0x1E#32
  raw := false
  val := false
  invalid := false
  seen := false
  ns := 0#32
  sec := 0#32
  changes := []
  rawAt := 0
  recSec := 0
  recCount := 0
  dropped := 0

/-- The TRP block after a cold start (R198); pin levels: log entry 9. -/
def Trp.reset : Trp where
  tbsel := 0
  rows := List.replicate 16 Row.reset
  pins := 0#8
  tofb := 0#8
  mismatch := 0#8
  toMism := 0#8
  fbt := 0x14
  toNs := List.replicate 8 0#32
  toSec := List.replicate 8 0#32
  toAt := List.replicate 8 0
  bi := List.replicate 16 BinIn.reset
  vfAcc := 0#32
  vfRef := 0#32
  fenced := 0#32
  grants := []

end Sys2Proof.Machine
end

