-- ==== Sys2Proof/Machine/Blocks/Pwr.lean ====
section
/-! DEFINITION. State of supply, shedding, start-up and Safelight (18_power_start_sleep.md). -/

namespace Sys2Proof.Machine

/-- A running interruption (R436, R452). -/
structure Interruption where
  /-- instant VIN fell below the floor -/
  start : Nat
  highest : Nat
  minVhu : Nat
deriving DecidableEq, Repr

/-- A running excursion of VIN (R452). -/
structure Excursion where
  /-- 0 over, 1 under -/
  kind : Nat
  extreme : Nat
  /-- recorded at SHED5 entry already -/
  recorded : Bool
deriving DecidableEq, Repr

/-- A running hold-up test (R440). -/
structure HoldupTest where
  start : Nat
  reply : Option ReplyTo
deriving DecidableEq, Repr

/-- Entry into SAFELIGHT (R447). -/
structure SlEntry where
  /-- instant of the reply; power gating follows 10 ms later -/
  at' : Nat
deriving DecidableEq, Repr

/-- A wake in progress (R449). -/
structure Wake where
  src : WakeSrc
  at' : Nat
  /-- TB0 at the source's decision: seconds, nanoseconds -/
  sec : Nat
  ns : Nat
deriving DecidableEq, Repr

/-- The PWR block. -/
structure Pwr where
  ctl : Word
  cfgClamp : Bool
  vin : Nat
  vhu : Nat
  vhuMin : Nat
  /-- VHU_SHED2 to VHU_SHED5 in mV -/
  thr : List Nat
  /-- C_HU in nF -/
  cHu : Word
  cHuOptime : Word
  capValid : Bool
  capLow : Bool
  extC : Word
  htCtl : Word
  intCnt : Word
  intLast : Word
  shedCnt : List Word
  wakeBi : BitVec 16
  wakeTeg : BitVec 16
  wakeN : Bool
  wakeSrc : Word
  wakeTime : Word
  slCnt : Word
  /-- SYS_STATE.SHED -/
  shed : Nat
  recovered : Bool
  onBank : Bool
  charging : Bool
  vinOver : Bool
  interruption : Option Interruption
  /-- SHED1 has been entered since the last SERVICE (R254) -/
  shed1Seen : Bool
  /-- instant the latest level was left (R438) -/
  leftAt : Option Nat
  excursion : Option Excursion
  ht : Option HoldupTest
  /-- a completed test whose reply follows the plan, with its duration in µs (R451) -/
  htReply : Option (ReplyTo × Nat)
  htDue : Bool
  holdShort : Bool
  /-- MRST_N held low; a start holds at its first step (R441) -/
  mrst : Bool
  entry : Option SlEntry
  gated : Bool
  wakeHeld : Option WakeSrc
  waking : Option Wake
  /-- an accepted SYS_RESET: instant of the start and whether it is cold (R387) -/
  resetAt : Option (Nat × Bool)
  /-- the running start has not run its steps yet (R441, R442, R443) -/
  startPending : Bool
deriving DecidableEq, Repr

/-- The PWR block after a cold start (R453). -/
def Pwr.reset : Pwr where
  ctl := 0x3C6E#32
  cfgClamp := false
  vin := 0
  vhu := 0
  vhuMin := 0xFFFF
  thr := [40000, 34000, 28000, 22000]
  cHu := 0#32
  cHuOptime := 0#32
  capValid := false
  capLow := false
  extC := 0#32
  htCtl := 0x2D0#32
  intCnt := 0#32
  intLast := 0#32
  shedCnt := List.replicate 5 0#32
  wakeBi := 0#16
  wakeTeg := 0#16
  wakeN := false
  wakeSrc := 0#32
  wakeTime := 0#32
  slCnt := 0#32
  shed := 0
  recovered := false
  onBank := false
  charging := false
  vinOver := false
  interruption := none
  shed1Seen := false
  leftAt := none
  excursion := none
  ht := none
  htReply := none
  htDue := false
  holdShort := false
  mrst := false
  entry := none
  gated := false
  wakeHeld := none
  waking := none
  resetAt := none
  startPending := true

end Sys2Proof.Machine
end

