-- ==== Sys2Proof/Machine/Blocks/Spd.lean ====
section
/-! DEFINITION. State of the speed monitors, VCORE control and margin plans (09_speed_budgets.md). -/

namespace Sys2Proof.Machine

/-- A plan record (R242); SI values in 0.001. -/
structure PlanRec where
  no : Nat
  optime : Nat
  siPlan : Nat
  siWcPlan : Nat
  siWcMax : Nat
  siReq : Nat
  /-- AGE_F in 0.0001 -/
  ageF : Nat
  ageRate : Nat
  planCode : Nat
  planShort : Bool
  capValid : Bool
  ocxoValid : Bool
  tjMax : Int
  tjMean : Int
  cHu : Nat
  cHuOptime : Nat
  vhu : List Nat
  ocxoOffset : Int
  ocxoAge : Int
  ocxoDays : Nat
deriving DecidableEq, Repr

/-- The SPD block. -/
structure Spd where
  siPlan : Nat
  belowPlan : Bool
  belowSeen : Bool
  planShort : Bool
  overtemp : Bool
  cfgClamp : Bool
  /-- SI_MEAS as the handshake count of its window, 5,000 for 1.000 (R229, R230) -/
  siCount : Nat
  siMon : Nat
  /-- lowest SI_MEAS since the last read, in 0.001 -/
  siMin : Nat
  planCode : Nat
  fastSteps : Nat
  ovrCode : Nat
  ovrEn : Bool
  siReq : Nat
  siReqLimit : Nat
  siShed4 : Nat
  /-- utilisation and latency terms per core, in 0.001 -/
  admCore : List (Nat × Nat)
  admBlu : List Nat
  admBu : List Nat
  siWcPlan : Nat
  siWcMax : Nat
  ageF : Nat
  ageRate : Nat
  planNo : Nat
  planOptime : Nat
  belowCnt : Word
  /-- latest count of each monitor (R229) -/
  mon : List Nat
  /-- consecutive sets at or above the reference (R230) -/
  okSets : Nat
  /-- BELOW_PLAN set: instant, and lowest count since with its monitor (R244) -/
  belowAt : Nat
  belowLow : Nat
  belowMon : Nat
  /-- instant since which SI_MEAS ≥ 1.05 × SI_PLAN (R235) -/
  highSince : Option Nat
  /-- latest step of the fast loop -/
  fastAt : Option Nat
  /-- a decrease run is under way (R235) -/
  fastDown : Bool
  /-- the latest 256 plan records, newest first (R242) -/
  plans : List PlanRec
  /-- a plan is due, or deferred (R239) -/
  deferred : Bool
  /-- highest T_DIE, sum and number of readings since the previous plan (R242) -/
  tjMax : Option Int
  tjSum : Int
  tjN : Nat
  /-- daily OCXO values with the second of TB0 at which each was recorded, 0.01 ppb, newest first, at most 30, and their number (R240) -/
  ocxo : List (Int × Int)
  ocxoDays : Nat
deriving DecidableEq, Repr

/-- The SPD block after a cold start (R245); stored values: log entry 11. -/
def Spd.reset : Spd where
  siPlan := 0x3C0
  belowPlan := false
  belowSeen := false
  planShort := false
  overtemp := false
  cfgClamp := false
  siCount := 0
  siMon := 0
  siMin := 0xFFFF
  planCode := 0
  fastSteps := 0
  ovrCode := 0
  ovrEn := false
  siReq := 0
  siReqLimit := 0
  siShed4 := 0
  admCore := List.replicate 16 (0, 0)
  admBlu := List.replicate 16 0
  admBu := List.replicate 16 0
  siWcPlan := 0
  siWcMax := 0
  ageF := 0
  ageRate := 0
  planNo := 0
  planOptime := 0
  belowCnt := 0#32
  mon := List.replicate 24 0
  okSets := 0
  belowAt := 0
  belowLow := 0
  belowMon := 0
  highSince := none
  fastAt := none
  fastDown := false
  plans := []
  deferred := false
  tjMax := none
  tjSum := 0
  tjN := 0
  ocxo := []
  ocxoDays := 0

end Sys2Proof.Machine
end

