-- ==== Sys2Proof/Machine/Blocks/Sve.lean ====
section
/-! DEFINITION. State of the sampled-value engine and the channel store (05_sampled_values.md). -/

namespace Sys2Proof.Machine

/-- One final slot of a channel (R111, R124). -/
structure Slot where
  /-- running index K (TAG is its low 16 bits) -/
  k : Nat
  v : Word
  q : BitVec 16
  /-- a sample was written, rather than substituted -/
  written : Bool
deriving DecidableEq, Repr

/-- One channel of the channel store (R111, R112). -/
structure StoreCh where
  /-- numbering: time base -/
  tb : Nat
  /-- numbering: rate code -/
  rate : Nat
  /-- final slots, newest K first, at most 256 -/
  slots : List Slot
  /-- instant since which the channel takes samples: the latest entry to SERVICE or MAINT, or change of its numbering (R111, R112) -/
  since : Nat
  /-- the latest written sample that the 256 slots no longer hold: K, value and quality (R124) -/
  lastWritten : Option (Nat × Word × BitVec 16)
  /-- deadlines kept as instants for indices not final at a step of the base: (K, instant) (R123) -/
  kept : List (Nat × Nat)
deriving DecidableEq, Repr

/-- Subscription states (R122). -/
inductive SubState where
  | waiting
  | running
  | lost
deriving DecidableEq, Repr

/-- One SV subscription (R115, R122, R138). -/
structure SvSub where
  cfg : SvSubDef
  st : SubState
  smpSynch : Nat
  simulated : Bool
  path : Nat
  lastCnt : Nat
  lat : Nat
  latMax : Nat
  frames : Word
  miss : Word
  err : Word
  /-- K of the last ASDU of the latest accepted frame (R122) -/
  lastK : Option Nat
  /-- instant of the latest accepted frame -/
  lastAt : Option Nat
deriving DecidableEq, Repr

/-- One SV publication (R127 to R131). -/
structure SvPub where
  cfg : SvPubDef
  running : Bool
  shedStopped : Bool
  frames : Word
  lat : Nat
  /-- ASDUs of the frame being gathered, oldest first -/
  gather : List PubAsdu
deriving DecidableEq, Repr

/-- One GOOSE subscription (R132, R133). -/
structure Gsub where
  cfg : GsubDef
  /-- an accepted frame is held: stNum and sqNum are valid -/
  seen : Bool
  valid : Bool
  talExpired : Bool
  ndsCom : Bool
  confrevBad : Bool
  simulated : Bool
  stNum : Nat
  sqNum : Nat
  err : Word
  /-- end of timeAllowedToLive of the latest accepted frame -/
  talEnd : Option Nat
deriving DecidableEq, Repr

/-- One GOOSE publication (R134). -/
structure Gpub where
  cfg : GpubDef
  running : Bool
  gatedOff : Bool
  stNum : Nat
  sqNum : Nat
  /-- present retransmission interval, ms -/
  interval : Nat
  next : Option Nat
  /-- members last sent -/
  values : List GooseOut
deriving DecidableEq, Repr

/-- A rate limit of one record per second: instant of the latest record and the count since (R137). -/
structure PerSecond where
  last : Option Nat
  count : Nat
deriving DecidableEq, Repr

/-- The SVE block. -/
structure Sve where
  chans : Table StoreCh
  /-- instant of the latest entry to SERVICE or MAINT from another state (R111) -/
  since : Nat
  /-- C per numbering, key base × 4 + rate; unlisted 0 (R112) -/
  numOffset : Table Int
  /-- for indices up to the last one before the latest step of the base: that index and the C they were numbered with -/
  numPrev : Table (Nat × Int)
  sim : Bool
  cfgClamp : Bool
  align : List Nat
  csSel : Nat
  csVal : Word
  csQ : Word
  csK : Nat
  unmatched : Word
  simDisc : Word
  macFail : Word
  decodeErr : Word
  dup : Word
  late : Word
  outwin : Word
  subst : Word
  macFailEv : PerSecond
  decodeErrEv : PerSecond
  lateEv : PerSecond
  subs : Table SvSub
  pubs : Table SvPub
  gbits : BitVec 1024
  gvalid : BitVec 1024
  gsubs : Table Gsub
  gpubs : Table Gpub
deriving DecidableEq, Repr

def PerSecond.reset : PerSecond := ⟨none, 0⟩

/-- The SVE block after a cold start (R138). -/
def Sve.reset : Sve where
  chans := []
  since := 0
  numOffset := []
  numPrev := []
  sim := false
  cfgClamp := false
  align := List.replicate 4 0x5A
  csSel := 0
  csVal := 0#32
  csQ := 0#32
  csK := 0
  unmatched := 0#32
  simDisc := 0#32
  macFail := 0#32
  decodeErr := 0#32
  dup := 0#32
  late := 0#32
  outwin := 0#32
  subst := 0#32
  macFailEv := PerSecond.reset
  decodeErrEv := PerSecond.reset
  lateEv := PerSecond.reset
  subs := []
  pubs := []
  gbits := 0#1024
  gvalid := 0#1024
  gsubs := []
  gpubs := []

end Sys2Proof.Machine
end

