-- ==== Sys2Proof/Machine/Blocks/Swc.lean ====
section
/-! DEFINITION. State of the switch core (13_switch_core.md). -/

namespace Sys2Proof.Machine

/-- How a copy leaves its output. -/
inductive Via where
  /-- as a switched frame, with its tag by the VLAN table (R320) -/
  | switched
  /-- a PTP message of the module, on one MAC port (R258) -/
  | port (p : Nat)
  /-- a supervision frame of a PRP pair (R297) -/
  | pair
deriving DecidableEq, Repr

/-- A frame held in the buffer (R314 to R316). -/
structure HeldFrame where
  id : Nat
  frame : NetFrame
  inp : Nat
  cls : Nat
  vid : Nat
  /-- cells taken from the guarantee, the protection reserve and the shared pool -/
  guar : Nat
  prot : Nat
  shared : Nat
  /-- outputs whose copy has not left yet -/
  outs : List Nat
  /-- receive instant on TB0 and per base, for the transparent clock (R262) -/
  stamp : List Int
  /-- MAC port the frame came in on, 8 for none (R292) -/
  port : Nat
  via : Via
deriving DecidableEq, Repr

/-- One switch port's registers and scheduler state (R323, R331). -/
structure SwcPort where
  cfg : Word
  pcpMap : Word
  inDrop : Word
  stomp : Word
  ctCnt : Word
  outFlush : Word
  txFrames : Word
  /-- deficit of each class, bytes -/
  deficit : List Nat
  /-- class the round robin serves next -/
  drrNext : Nat
  /-- input served last per class -/
  lastIn : List Nat
  dropNew : Nat
  dropLast : Option Nat
  stompNew : Nat
  stompLast : Option Nat
deriving DecidableEq, Repr

/-- An FDB entry. -/
structure FdbEnt where
  mac : Nat
  vid : Nat
  port : Nat
  static : Bool
  /-- latest refresh of a dynamic entry -/
  seen : Nat
  /-- instant at which a dynamic entry was made (R322) -/
  born : Nat
deriving DecidableEq, Repr

/-- An APPID entry and its owner. -/
structure AppidEnt where
  row : AppidRow
  /-- number of SVE subscriptions that own it; 0 for an entry written by command -/
  sve : Nat
deriving DecidableEq, Repr

/-- The SWC block. -/
structure Swc where
  ageTime : Nat
  etypeTc : Word
  policy : SwcPolicy
  vlanDrop : Word
  learnFail : Word
  mirrorDrop : Word
  tblWrites : Word
  voqSel : Word
  voqDepth : Word
  port : List SwcPort
  frames : List HeldFrame
  nextId : Nat
  /-- VOQ entries, oldest first: input, output, class, frame id -/
  voqs : List (Nat × Nat × Nat × Nat)
  /-- frame id being transmitted per output, with its end -/
  sending : List (Option (Nat × Nat))
  fdb : List FdbEnt
  vlan : Table VlanRow
  mcast : List McastRow
  appid : List AppidEnt
  learnNew : Nat
  learnLast : Option Nat
deriving DecidableEq, Repr

def SwcPort.resetWith (cfg : Word) : SwcPort where
  cfg := cfg
  pcpMap := 0x00FAC688#32
  inDrop := 0#32
  stomp := 0#32
  ctCnt := 0#32
  outFlush := 0#32
  txFrames := 0#32
  deficit := List.replicate 8 0
  drrNext := 0
  lastIn := List.replicate 8 7
  dropNew := 0
  dropLast := none
  stompNew := 0
  stompLast := none

/-- The default policy (R317, R323). -/
def SwcPolicy.reset : SwcPolicy where
  guar := [2048, 2048, 1024, 1024, 2048, 1024, 512, 0]
  cap := List.replicate 8 8192
  classCap := List.replicate 8 32768
  protRes := 1024
  mirrorCap := 512
  strict := List.replicate 8 0xC0#8
  weight := List.replicate 8 [1, 2, 4, 8, 16, 32]

/-- The VLAN table at a cold start (R319). -/
def vlanReset : Table VlanRow := [(1, ⟨1, 0x7F#8, 0x7F#8, true, false⟩)]

/-- The SWC block after a cold start (R331). -/
def Swc.reset : Swc where
  ageTime := 0x12C
  etypeTc := 0xFFE#32
  policy := SwcPolicy.reset
  vlanDrop := 0#32
  learnFail := 0#32
  mirrorDrop := 0#32
  tblWrites := 0#32
  voqSel := 0#32
  voqDepth := 0#32
  port := List.replicate 5 (SwcPort.resetWith 0x00030001#32) ++ List.replicate 3 (SwcPort.resetWith 0x00020001#32)
  frames := []
  nextId := 0
  voqs := []
  sending := List.replicate 8 none
  fdb := []
  vlan := vlanReset
  mcast := []
  appid := []
  learnNew := 0
  learnLast := none

end Sys2Proof.Machine
end

