-- ==== Sys2Proof/Machine/Blocks/Sys.lean ====
section
/-! DEFINITION. State of the SYS block and the module state (01_sample_to_trip.md). -/

namespace Sys2Proof.Machine

/-- The module states of R32. -/
inductive ModState where
  | off
  | start
  | service
  | maint
  | safeService
  | safelight
deriving DecidableEq, Repr

/-- A change out of SERVICE that runs its steps (R34): of SYS_SET_STATE, or of PWR_SAFELIGHT with its payload (R447). -/
structure Leave where
  reply : ReplyTo
  safelight : Option PwrSafelight
  /-- steps 2 and 3 are done: only pulses still run (step 4) -/
  stopped : Bool
deriving DecidableEq, Repr

/-- SYS block (R39) and the start that is running (R40). -/
structure Sys where
  /-- the module state (R32) -/
  st : ModState
  /-- whether the running or latest start has cold scope (R40) -/
  startCold : Bool
  /-- SYS_RST_CAUSE -/
  rstCause : Word
  /-- SYS_RST_HIST -/
  rstHist : Word
  /-- SYS_WARM_COUNT -/
  warmCount : Word
  /-- SYS_PERST_COUNT -/
  perstCount : Word
  /-- SYS_BUS_VIOL -/
  busViol : Word
  /-- SYS_BUS_VIOL_ADDR -/
  busViolAddr : Word
  /-- SYS_SCRATCH -/
  scratch : Word
  /-- instant of the latest EV_BUS_VIOLATION (R35: at most once per second) -/
  busViolLast : Option Nat
  /-- refused accesses since that record (R35) -/
  busViolNew : Nat
  /-- the change out of SERVICE that is running (R34) -/
  leaving : Option Leave
deriving DecidableEq, Repr

/-- The SYS block after a cold start (R39). -/
def Sys.reset : Sys where
  st := .start
  startCold := true
  rstCause := 1#32
  rstHist := 1#32
  warmCount := 0#32
  perstCount := 0#32
  busViol := 0#32
  busViolAddr := 0#32
  scratch := 0#32
  busViolLast := none
  busViolNew := 0
  leaving := none

end Sys2Proof.Machine
end

