-- ==== Sys2Proof/Machine/Blocks/Tbs.lean ====
section
/-! DEFINITION. State of the time bases, PTP ports and time-event generators (10_time_bases.md). -/

namespace Sys2Proof.Machine

/-- Base states of R251. -/
inductive BaseState where
  | locked
  | holdover
  | free
deriving DecidableEq, Repr

/-- Holdover data of R255. -/
structure Holdover where
  enteredAt : Nat
  /-- r_hold, 2^-16 ppb -/
  rHold : Int
  eLock : Nat
  /-- U is 2 ppb, else 20 ppb -/
  uSmall : Bool
  /-- T_BOARD at entry and the largest difference since, 1/128 °C -/
  tEntry : Int
  dtMax : Nat
deriving DecidableEq, Repr

/-- A commanded step that waits for its instant (R253). -/
structure PendStep where
  /-- base time of the step, before the step, ns -/
  atBase : Int
  delta : Int
  reply : Option ReplyTo
deriving DecidableEq, Repr

/-- A stretch of a base's running at one rate, from an instant of elapsed time: base time there, in 2^-48 ns, and rate adjustment (R246). -/
structure BaseSeg where
  ref : Nat
  val : Int
  rate : Int
deriving DecidableEq, Repr

/-- One port of a base's PTP instance (R258). -/
structure InstPort where
  /-- IEEE 1588 portState code -/
  portState : Nat
  /-- latest θ measured while PASSIVE, with its instant -/
  theta : Option (Int × Nat)
  syncSeq : Nat
  annSeq : Nat
  /-- instant at which the latest Sync left (R261) -/
  syncTx : Int
deriving DecidableEq, Repr

def InstPort.reset : InstPort := ⟨0, none, 0, 0, 0⟩

/-- One time base. -/
structure Base where
  cfg : TimCfg
  configured : Bool
  /-- elapsed-time instant at which val held -/
  ref : Nat
  /-- base time at ref, in 2^-48 ns -/
  val : Int
  /-- rate adjustment r, 2^-16 ppb (R246) -/
  rate : Int
  /-- the stretches of the last 100 s before ref, newest first, each until the next begins (R249) -/
  past : List BaseSeg
  /-- servo frequency term f, 2^-16 ppb (R252) -/
  f : Int
  st : BaseState
  traceable : Bool
  /-- what the source reports now; TRACEABLE keeps its last value in HOLDOVER (R251) -/
  srcTrace : Bool
  utcOffset : Int
  /-- UTC_OFFSET is the source's or configured (R251) -/
  utcKnown : Bool
  leap61 : Bool
  leap59 : Bool
  slavePort : Option Nat
  theta : Int
  lockRun : Nat
  /-- |θ| of the last 16 accepted measurements, newest first (R255) -/
  recent : List Nat
  discRun : Nat
  /-- consecutive θ beyond STEP_LIMIT, newest first (R252) -/
  stepVals : List Int
  lastAccept : Option Nat
  /-- instant of the latest θ, accepted or not (R258) -/
  lastMeas : Option Nat
  /-- the ports of its PTP instance -/
  pp : List InstPort
  /-- IEEE_C37_238 TLV of the grandmaster: GM_ID and totalTimeInaccuracy (R257) -/
  gmTlv : Option (Nat × Nat)
  lockedAt : Option Nat
  /-- servo f with the instant from which it held, newest first (R255) -/
  fHist : List (Nat × Int)
  ho : Option Holdover
  hoErr : Nat
  hoTime : Nat
  stepCnt : Word
  discard : Word
  gmId : BitVec 64
  gmClass : Nat
  stepsRemoved : Nat
  capSec : Nat
  capNs : Nat
  capFrac : Nat
  pend : Option PendStep
  /-- instants between which TB0 has been locked to a traceable source without a break (R240) -/
  traceSince : Option Nat
  /-- integral of the rate adjustment up to areaAt, 2^-16 ppb × ns, and its value when traceSince was set (R240) -/
  area : Int
  areaAt : Nat
  dayArea : Int
deriving DecidableEq, Repr

/-- A Sync that waits for its Follow_Up (R261). -/
structure WaitSync where
  tb : Nat
  seqId : Nat
  srcId : Nat
  srcPort : Nat
  /-- receive stamp t_rx on the base, ns, and correction of the Sync, 2^-16 ns -/
  rx : Int
  corr : Int
  port : Nat
  at' : Nat
deriving DecidableEq, Repr

/-- A peer-delay exchange of a port (R262). -/
structure PdelayEx where
  seqId : Nat
  t1 : Int
  /-- of a two-step response: t2, t4, correction of the response -/
  resp : Option (Int × Int × Int)
deriving DecidableEq, Repr

/-- One network port's PTP state (R257 to R262). -/
structure PtpPort where
  lat : Word
  mpd : Option Nat
  tcCnt : Word
  waits : List WaitSync
  /-- two-step Syncs forwarded by the transparent clock: domain, srcId, srcPort, seqId, residence and delay (2^-16 ns), instant -/
  tcWaits : List (Nat × Nat × Nat × Nat × Int × Nat)
  pdelay : Option PdelayEx
  pdelaySeq : Nat
  /-- instant at which the latest Pdelay_Resp left (R262) -/
  respTx : Int
  /-- latest Announce per domain, with its instant -/
  announces : List (PtpAnnounce × Nat)
deriving DecidableEq, Repr

/-- One time-event generator (R265, R270). -/
structure Teg where
  ctl : Word
  secLo : Word
  secHi : Word
  ns : Word
  perLo : Word
  perHi : Word
  pw : Word
  cnt : Word
  /-- next instant on the base, ns -/
  next : Option Int
  /-- latest instant fired -/
  last : Option Int
  /-- end of the running output pulse -/
  pulseEnd : Option Nat
  recSec : Nat
  recCount : Nat
deriving DecidableEq, Repr

/-- The TBS block. -/
structure Tbs where
  base : List Base
  /-- the bases wait to be set at the calendar's next roll-over (R254) -/
  seed : Bool
  capCnt : Word
  ppsNs : Word
  ppsSec : Word
  irigStat : Word
  irigErr : Word
  irigErrNew : Nat
  irigErrLast : Option Nat
  /-- decoded second of the latest accepted frame, with its instant -/
  irigPrev : Option (Int × Nat)
  ports : List PtpPort
  teg : List Teg
deriving DecidableEq, Repr

/-- Defaults of R268: nothing configured, ROLE 2, UTC_OFFSET 37 (R247, R270). -/
def TimCfg.reset (b : Nat) : TimCfg where
  tb := b
  src := 0
  profile := 0
  role := 2
  domain := 0
  ports := 0
  udp := 0
  flags := 0
  prio1 := 128
  prio2 := 128
  tauLog2 := 4
  irigTqMax := 4
  slewMax := 100
  lockThr := 250
  stepLimit := 10
  hoLimit := 3600
  hoErrMax := 1000
  utcOffset := 37
  gmId := 0

def Base.reset (b : Nat) : Base where
  cfg := TimCfg.reset b
  configured := false
  ref := 0
  val := 0
  rate := 0
  past := []
  f := 0
  st := .free
  traceable := false
  srcTrace := false
  utcOffset := 37
  utcKnown := false
  leap61 := false
  leap59 := false
  slavePort := none
  theta := 0
  lockRun := 0
  recent := []
  discRun := 0
  stepVals := []
  lastAccept := none
  lastMeas := none
  pp := List.replicate 4 InstPort.reset
  gmTlv := none
  lockedAt := none
  fHist := []
  ho := none
  hoErr := 0
  hoTime := 0
  stepCnt := 0#32
  discard := 0#32
  gmId := 0#64
  gmClass := 0
  stepsRemoved := 0
  capSec := 0
  capNs := 0
  capFrac := 0
  pend := none
  traceSince := none
  area := 0
  areaAt := 0
  dayArea := 0

def PtpPort.reset : PtpPort where
  lat := 0#32
  mpd := none
  tcCnt := 0#32
  waits := []
  tcWaits := []
  pdelay := none
  pdelaySeq := 0
  respTx := 0
  announces := []

def Teg.zero : Teg where
  ctl := 0#32
  secLo := 0#32
  secHi := 0#32
  ns := 0#32
  perLo := 0#32
  perHi := 0#32
  pw := 0#32
  cnt := 0#32
  next := none
  last := none
  pulseEnd := none
  recSec := 0
  recCount := 0

/-- The TBS block after a cold start (R266, R270). -/
def Tbs.reset : Tbs where
  base := [Base.reset 0, Base.reset 1, Base.reset 2, Base.reset 3]
  seed := false
  capCnt := 0#32
  ppsNs := 0#32
  ppsSec := 0#32
  irigStat := 0#32
  irigErr := 0#32
  irigErrNew := 0
  irigErrLast := none
  irigPrev := none
  ports := List.replicate 4 PtpPort.reset
  teg := { Teg.zero with ctl := 0x12#32, perLo := 0x3B9ACA00#32, pw := 0x186A0#32, next := some 0 } :: List.replicate 15 Teg.zero

end Sys2Proof.Machine
end

