-- ==== Sys2Proof/Machine/Blocks/Trg.lean ====
section
/-! DEFINITION. State of the Shutter and its disturbance store (04_shutter.md). -/

namespace Sys2Proof.Machine

/-- A decided trigger (R91, R96). -/
structure Trigger where
  /-- stamp on the Shutter's base, ns -/
  t : Int
  /-- SOURCE code (R90) -/
  src : Nat
  /-- the entry of TRG_SRC that fired; none for a command -/
  entry : Option Nat
  /-- opens a full-rate window (R97) -/
  fr : Bool
  /-- asserts the instrument line (R92) -/
  xout : Bool
  /-- urgent conversion asked for: converter and input (R92) -/
  urg : Option (Nat × Nat)
  /-- the TRG_FORCE command whose reply waits for the disposition (R108) -/
  reply : Option ReplyTo
deriving DecidableEq, Repr

/-- An analogue channel of a recording profile (R105, R108). -/
structure RecChan where
  chid : Nat
  kind : Nat
  name : Bytes
  unit : Bytes
  primary : Word
  secondary : Word
deriving DecidableEq, Repr

/-- One sample in a protection-rate ring or record: index since the base's origin, value, quality. -/
structure RingSample where
  k : Nat
  v : Word
  q : BitVec 16
deriving DecidableEq, Repr

/-- One full-rate window (R97): [from, to) in ns on the Shutter's base, for the channels of mask. -/
structure FrWindow where
  from' : Int
  to' : Int
  mask : Word
deriving DecidableEq, Repr

/-- ADV, SCALE and EOFS of a channel of a full-rate window (R105). -/
structure FrDesc where
  n : Nat
  adv : Nat
  scale : Word
  eofs : Word
deriving DecidableEq, Repr

/-- A change of a digital source: stamp on the Shutter's base, SOURCE code, new level (R91, R106). -/
structure DigChange where
  t : Int
  src : Nat
  level : Bool
deriving DecidableEq, Repr

/-- What the header takes at the trigger (R104): TBSTATE with HO_ERR of the base (R255), OPTIME and PWRCYC. -/
structure TrigInfo where
  tbstate : Nat
  hoErr : Nat
  optime : Nat
  pwrcyc : Nat
deriving DecidableEq, Repr

/-- The chained record that opens when this one closes: the retrigger that made it, and the end of its window (R95). -/
structure Chain where
  t : Int
  info : TrigInfo
  src : Nat
  stop : Int
  ntrig : Nat
  extended : Bool
deriving DecidableEq, Repr

/-- The module's own pulse on an instrument line: start and end, elapsed time, whether it still drives, and the pulses of the last second before it (R92). -/
structure XPulse where
  from' : Nat
  to' : Nat
  on : Bool
  past : List (Nat × Nat)
deriving DecidableEq, Repr

/-- Where a record stands in R102. -/
inductive RecPhase where
  | opened
  | closed
  | committed
deriving DecidableEq, Repr

/-- One disturbance record (R95, R104 to R106). -/
structure ShtRec where
  recno : Nat
  prevRecno : Nat
  /-- FLAGS of R104 -/
  flags : BitVec 16
  tb : Nat
  rate : Nat
  info : TrigInfo
  /-- trigger stamp, ns (TRIG_SEC, TRIG_NS) -/
  trig : Int
  trigSrc : Nat
  ntrig : Nat
  /-- protection-rate window [start, stop), ns (R93) -/
  start : Int
  stop : Int
  preMs : Nat
  postMs : Nat
  urgResult : Int
  urgConv : Nat
  urgInput : Nat
  urgStatus : Nat
  wins : List FrWindow
  chans : List RecChan
  frDescs : List FrDesc
  digs : List Nat
  station : Bytes
  /-- samples per record channel, oldest first -/
  rows : List (List RingSample)
  /-- changes of the digital channels while the record takes data, and their levels after them, in record order -/
  digLog : List DigChange
  digNow : List Bool
  /-- full-rate samples per local channel: raw index since the origin and ACQ_RAW word, oldest first -/
  frRows : Table (List (Nat × Word))
  phase : RecPhase
  /-- data blocks written (R102) -/
  written : Nat
  /-- store blocks taken: header block first -/
  blocks : List Nat
  chain : Option Chain
deriving DecidableEq, Repr

/-- The TRG block. -/
structure Trg where
  /-- TRG_CTL -/
  ctl : Word
  pre : Nat
  post : Nat
  maxlen : Nat
  frPre : Nat
  frPost : Nat
  frMask : Word
  nextRecno : Nat
  lost : Word
  frLost : Word
  merged : Word
  lastSrc : Word
  lastNs : Word
  lastSec : Word
  lastCnt : Word
  /-- TRG_SRC_A[i], i 0 to 255; unlisted entries 0 -/
  srcA : Table Word
  /-- TRG_SRC_B[i], i 0 to 255; unlisted entries 0 -/
  srcB : Table Word
  /-- instant of the latest firing per entry (R92 HOLDOFF) -/
  fired : Table Nat
  /-- levels of TRIG0 to TRIG3 -/
  pins : BitVec 4
  /-- levels of XLINE0, XLINE1 as driven by others -/
  xline : BitVec 2
  /-- the module's own latest pulse per line (R92) -/
  xout : List XPulse
  /-- stamp of the latest pin edge that each entry has fired on -/
  edgeFired : Table Int
  /-- decided triggers, oldest first (R96) -/
  queue : List Trigger
  /-- protection-rate rings, newest first (R89) -/
  rings : Table (List RingSample)
  /-- full-rate rings, newest first (R89) -/
  frRings : Table (List (Nat × Word))
  /-- the rings hold samples stamped from here on; none while they do not run (R89) -/
  ringFrom : Option Int
  /-- changes of digital sources, newest first (R106) -/
  digLog : List DigChange
  chans : List RecChan
  digs : List Nat
  station : Bytes
  /-- records, oldest first -/
  records : List ShtRec
  cursor : Nat
  bad : List Nat
  lostNew : Nat
  lostLast : Option Nat
  /-- LTRIG0 to LTRIG63 -/
  ltrig : BitVec 64
deriving DecidableEq, Repr

/-- The TRG block after a cold start (R110); stored values: log entry 11. -/
def Trg.reset : Trg where
  ctl := 0x70#32
  pre := 0x64
  post := 0x190
  maxlen := 0x1388
  frPre := 0x4E20
  frPost := 0x13880
  frMask := 0#32
  nextRecno := 1
  lost := 0#32
  frLost := 0#32
  merged := 0#32
  lastSrc := 0#32
  lastNs := 0#32
  lastSec := 0#32
  lastCnt := 0#32
  srcA := []
  srcB := []
  fired := []
  pins := 0#4
  xline := 0#2
  xout := [⟨0, 0, false, []⟩, ⟨0, 0, false, []⟩]
  edgeFired := []
  queue := []
  rings := []
  frRings := []
  ringFrom := none
  digLog := []
  chans := []
  digs := []
  station := List.replicate 16 0#8
  records := []
  cursor := 0
  bad := []
  lostNew := 0
  lostLast := none
  ltrig := 0#64

end Sys2Proof.Machine
end

