-- ==== Sys2Proof/Machine/Blocks/Vfm.lean ====
section
/-! DEFINITION. State of the host interface (14_host_vfs.md). -/

namespace Sys2Proof.Machine

/-- One ring's registers (R340) and delivery bookkeeping (R341, R347). -/
structure Ring where
  baseLo : Word
  baseHi : Word
  ctl : Word
  tail : Nat
  head : Nat
  wbLo : Word
  wbHi : Word
  coal : Word
  baddesc : Bool
  done : Word
  err : Word
  dbign : Word
  phase : Bool
  seq : Nat
  /-- unsignalled entries and the instant of the first -/
  unsig : Nat
  unsigFrom : Nat
deriving DecidableEq, Repr

/-- A staged delivery (R341, R342). -/
structure Delivery where
  type : Nat
  src : Nat
  payload : Bytes
  /-- deliveries of the same type and source not delivered just before this one (GAP, DROPPED) -/
  dropped : Nat
deriving DecidableEq, Repr

/-- A Stop bath in progress (R354). -/
structure StopBath where
  start : Nat
  /-- 0 FLR, 1 VFM_RESET, 2 PF FLR or VF disable, 3 PERST_N (R359) -/
  cause : Nat
  replies : List ReplyTo
  refused : Nat
  flr : Bool
  /-- part of a VFM_RESET with SCOPE 0xFFFF -/
  all : Bool
deriving DecidableEq, Repr

/-- A binding slot (R349): the binding in force, one that takes effect from an index K on, and the first K of the latest block formed. -/
structure Bind where
  cur : Option VfmBind
  next : Option (Nat × Option VfmBind)
  formed : Option Nat
deriving DecidableEq, Repr

/-- A command accepted for a VF in Stop bath (R355). -/
inductive VfPending where
  | share (p : VfmShare)
  | bind (p : VfmBind)
  | grant (p : VfmGrant)
deriving DecidableEq, Repr

/-- One VF. -/
structure Vf where
  weight : Nat
  framesEn : Bool
  acceptGroup : Bool
  vid : Nat
  shareKib : Nat
  mac : Nat
  /-- VFM_SET_SHARE has configured it (VFM_SHARE_SUM) -/
  configured : Bool
  rxq : Ring
  txq : Ring
  dropSample : Word
  dropFrame : Word
  losslessLost : Word
  binds : List Bind
  /-- bulk deliveries, oldest first -/
  bulk : List Delivery
  /-- lossless deliveries, oldest first -/
  lossless : List Delivery
  /-- deliveries not delivered since the last admitted one, per type × 4 + source -/
  gaps : Table Nat
  overshare : Bool
  stalled : Bool
  stop : Option StopBath
  txStage : List Bytes
  busMaster : Bool
  memEn : Bool
  waiting : List VfPending
  dropEvLast : Option Nat
  dropEvS : Nat
  dropEvF : Nat
deriving DecidableEq, Repr

/-- Totals of a VFM_RESET of every VF (R358). -/
structure ResetAll where
  replies : List ReplyTo
  left : Nat
  maxUs : Nat
  deliv : Nat
  frames : Nat
  reqs : Nat
deriving DecidableEq, Repr

/-- The VFM block. -/
structure Vfm where
  numVfs : Nat
  vfEnable : Bool
  ari : Bool
  pfBusMaster : Bool
  pfMemEn : Bool
  d3hot : Bool
  linkGen : Nat
  linkWidth : Nat
  linkL1 : Bool
  linkUp : Bool
  /-- PERST_N asserted -/
  perst : Bool
  /-- configuration requests are answered from this instant on (R357) -/
  pciAt : Nat
  /-- the VFs are ready for requests from this instant on (R334) -/
  vfAt : Nat
  hpUnclaimed : Word
  sbCnt : Word
  evq : Ring
  evqLost : Word
  /-- event records waiting for PF_EVQ, oldest first -/
  evqStage : List Bytes
  vfs : Table Vf
  resetAll : Option ResetAll
  /-- words that the host has written into configuration space (function × 2^12 + offset) and MSI-X tables (2^24 above that) -/
  pci : Table Word
deriving DecidableEq, Repr

def Ring.reset : Ring where
  baseLo := 0#32
  baseHi := 0#32
  ctl := 6#32
  tail := 0
  head := 0
  wbLo := 0#32
  wbHi := 0#32
  coal := 0#32
  baddesc := false
  done := 0#32
  err := 0#32
  dbign := 0#32
  phase := true
  seq := 0
  unsig := 0
  unsigFrom := 0

def Vf.reset : Vf where
  weight := 1
  framesEn := false
  acceptGroup := false
  vid := 0
  shareKib := 448
  mac := 0
  configured := false
  rxq := Ring.reset
  txq := Ring.reset
  dropSample := 0#32
  dropFrame := 0#32
  losslessLost := 0#32
  binds := List.replicate 4 ⟨none, none, none⟩
  bulk := []
  lossless := []
  gaps := []
  overshare := false
  stalled := false
  stop := none
  txStage := []
  busMaster := false
  memEn := false
  waiting := []
  dropEvLast := none
  dropEvS := 0
  dropEvF := 0

/-- The VFM block after a cold start (R360). -/
def Vfm.reset : Vfm where
  numVfs := 0
  vfEnable := false
  ari := false
  pfBusMaster := false
  pfMemEn := false
  d3hot := false
  linkGen := 0
  linkWidth := 0
  linkL1 := false
  linkUp := false
  perst := false
  pciAt := 0
  vfAt := 0
  hpUnclaimed := 0#32
  sbCnt := 0#32
  evq := Ring.reset
  evqLost := 0#32
  evqStage := []
  vfs := []
  resetAll := none
  pci := []

end Sys2Proof.Machine
end

