-- ==== Sys2Proof/Machine/State.lean ====
section
/-! DEFINITION. The state of the module, its faults and refusals, and the state after reset. -/

namespace Sys2Proof.Machine

/-- The whole module, as plain data: one field per block of the register map (R36), then what is no register. -/
structure State where
  sys : Sys
  acq : Acq
  flt : Flt
  trg : Trg
  sve : Sve
  prt : Prt
  trp : Trp
  cyc : Cyc
  spd : Spd
  tbs : Tbs
  rtc : Rtc
  mac : List MacPort
  red : Red
  swc : Swc
  vfm : Vfm
  mbx : Mbx
  cmd : Cmd
  key : Key
  evr : Evr
  pwr : Pwr
  /-- latched high words of 64-bit registers, by address of the low word (R10) -/
  hiLatch : Table Word
  /-- elapsed real time in ns, the latest t of a command (log entry 1) -/
  now : Nat
  /-- outputs of the latest command -/
  out : List Out
  /-- the model's own counter of free values drawn (no part of the spec) -/
  freeCtr : Nat
  /-- commands and events waiting, first in first out -/
  pending : List Instr
deriving DecidableEq, Repr

/-- Reasons for a fault. No rule of the spec stops the module, so nothing raises a fault: the type has no constructor. -/
inductive Fault where
deriving DecidableEq, Repr

/-- Reasons for a refusal. -/
inductive Refusal where
  /-- Raised by exec alone, for a row without a meaning (safe: the model stops where the module goes on). -/
  | notModelled (mnemonic : String)
deriving DecidableEq, Repr

/-- The module right after reset: START of a cold start, every register at its reset value (R32, R39 and the register tables), persistent values by log entry 11. -/
def State.reset : State where
  sys := Sys.reset
  acq := Acq.reset
  flt := Flt.reset
  trg := Trg.reset
  sve := Sve.reset
  prt := Prt.reset
  trp := Trp.reset
  cyc := Cyc.reset
  spd := Spd.reset
  tbs := Tbs.reset
  rtc := Rtc.reset
  mac := macReset
  red := Red.reset
  swc := Swc.reset
  vfm := Vfm.reset
  mbx := Mbx.reset
  cmd := Cmd.reset
  key := Key.reset
  evr := Evr.reset
  pwr := Pwr.reset
  hiLatch := []
  now := 0
  out := []
  freeCtr := 0
  pending := []

end Sys2Proof.Machine
end

