-- ==== Sys2Proof/Machine/Tables.lean ====
section
/-! DEFINITION. Operations on sparse tables and on lists by position. -/

namespace Sys2Proof.Machine

variable {α β : Type}

/-- The entry of key k. -/
def tget (t : Table α) (k : Nat) : Option α :=
  match t with
  | [] => none
  | (j, v) :: r => if j = k then some v else tget r k

/-- The entry of key k, or d. -/
def tgetD (t : Table α) (k : Nat) (d : α) : α := (tget t k).getD d

/-- The table with entry v at key k, keys rising. -/
def tset (t : Table α) (k : Nat) (v : α) : Table α :=
  match t with
  | [] => [(k, v)]
  | (j, w) :: r => if k < j then (k, v) :: (j, w) :: r else if k = j then (k, v) :: r else (j, w) :: tset r k v

/-- The table without key k. -/
def tdel (t : Table α) (k : Nat) : Table α := t.filter fun p => p.1 != k

/-- The table with f applied to the entry of key k, when there is one. -/
def tmod (t : Table α) (k : Nat) (f : α → α) : Table α := t.map fun p => if p.1 = k then (p.1, f p.2) else p

/-- The table with f applied to the entry of key k, d standing for an entry that is absent. -/
def tmodD (t : Table α) (k : Nat) (d : α) (f : α → α) : Table α := tset t k (f (tgetD t k d))

/-- Keys strictly rising: the canonical form of a table. -/
def tsorted : Table α → Bool
  | [] => true
  | [_] => true
  | (j, _) :: (k, w) :: r => decide (j < k) && tsorted ((k, w) :: r)

/-- The list with f applied at position i. -/
def lmod (l : List α) (i : Nat) (f : α → α) : List α := l.modify i f

/-- The list with position i set. -/
def lset (l : List α) (i : Nat) (v : α) : List α := l.set i v

/-- A list of length n whose i-th entry is f i. -/
def tab (n : Nat) (f : Nat → α) : List α := (List.range n).map f

/-- The list with each entry mapped together with its position. -/
def imap (f : Nat → α → β) (l : List α) : List β := l.mapIdx f

/-- Sum of the naturals of a list. -/
def nsum (l : List Nat) : Nat := l.foldl (· + ·) 0

/-- The state after f has been applied for every element, in order. -/
def foldOver (l : List α) (f : α → β → β) (b : β) : β := l.foldl (fun acc a => f a acc) b

end Sys2Proof.Machine
end

