-- ==== Sys2Proof/Machine/Ops.lean ====
section
/-! DEFINITION. The named operations every meaning is written with: elapsed time, time bases, event records, outputs, free values. -/

namespace Sys2Proof.Machine

/-- The outcome type of a meaning. -/
abbrev Res := Host.Outcome State Fault Refusal

/-- Nanoseconds in a second. -/
abbrev NS : Nat := 1000000000

/-- The state at the instant t of a command: no output yet, elapsed time not before any earlier instant, operating seconds counted outside OFF (R420; log entry 1). -/
def atTime (t : Nat) (s : State) : State :=
  let now := max s.now t
  let n := (now - s.evr.optimeAt) / NS
  { s with
    now := now
    out := []
    evr := if s.sys.st = .off then { s.evr with optimeAt := now }
           else { s.evr with optime := satAdd s.evr.optime n, optimeAt := s.evr.optimeAt + n * NS } }

/-- A step that goes on. -/
abbrev go (s : State) : Res := .next s

/-- Adds an output. -/
def emit (o : Out) (s : State) : State := { s with out := s.out ++ [o] }

/-- A fresh index for a free value. -/
def drawFree (s : State) : Nat × State := (s.freeCtr, { s with freeCtr := s.freeCtr + 1 })

/-- 2^48 fractions of a nanosecond (R246). -/
abbrev FR : Int := 281474976710656

/-- The CD6 cycle of an instant of elapsed time: they fall on its multiples of 10 ns (R246; log entry 191). -/
def cd6 (t : Nat) : Nat := t / 10

/-- Value that a base reaches at an instant, in 2^-48 ns: it advances at every CD6 cycle by 10 ns × (1 + r) (R246), r in 2^-16 ppb, so one part is 2^16 × 10^9. -/
def Base.valAt (b : Base) (now : Nat) : Int :=
  b.val + ((cd6 now : Int) - cd6 b.ref) * 10 * FR * (65536000000000 + b.rate) / 65536000000000

/-- The stretch of a base at an instant, the running one or a past one. -/
def Base.segAt (b : Base) (t : Nat) : Base :=
  if b.ref ≤ t then b
  else match b.past.find? fun g => decide (g.ref ≤ t) with
    | some g => { b with ref := g.ref, val := g.val, rate := g.rate }
    | none => b

/-- Value of a base at an instant that may lie before its latest change (R249). -/
def Base.valOf (b : Base) (t : Nat) : Int := (b.segAt t).valAt t

/-- Base time in whole ns; the seconds wrap at 2^48 (R246). -/
def Base.ns (b : Base) (t : Nat) : Int := b.valOf t / FR % (281474976710656 * NS)

/-- The CD6 cycle in which a base with this value read t, within a stretch that ends at until' (R249). -/
def Base.cycleIn (b : Base) (until' : Nat) (t : Int) : Nat :=
  min (cd6 until') (cd6 b.ref + ((t * FR - b.val) * 65536000000000 / (10 * FR * (65536000000000 + b.rate))).toNat)

/-- The CD6 cycle in which a base read t, as an instant of elapsed time; the latest one, and not after now (R249). -/
def Base.cycleOf (b : Base) (now : Nat) (t : Int) : Nat :=
  let go (acc : Option Nat × Nat) (g : BaseSeg) : Option Nat × Nat :=
    match acc.1 with
    | some _ => acc
    | none => (if g.val ≤ t * FR then some (Base.cycleIn { b with ref := g.ref, val := g.val, rate := g.rate } acc.2 t) else none, g.ref)
  match ((⟨b.ref, b.val, b.rate⟩ :: b.past).foldl go (none, now)).1 with
  | some c => 10 * c
  | none => now

/-- Stretches, newest first, up to the one that ran at an instant. -/
def segsFrom (t : Nat) : List BaseSeg → List BaseSeg
  | [] => []
  | g :: r => if g.ref ≤ t then [g] else g :: segsFrom t r

/-- The stretch that runs ends now; those of the last 100 s are kept (log entry 191). -/
def Base.endSeg (b : Base) (now : Nat) : Base :=
  { b with past := segsFrom (now - 100 * NS) (⟨b.ref, b.val, b.rate⟩ :: b.past) }

/-- Base i of a state. -/
def baseOf (s : State) (i : Nat) : Base := s.tbs.base.getD i (Base.reset i)

/-- Present time of base i, whole ns. -/
def baseNs (s : State) (i : Nat) : Int := (baseOf s i).ns s.now

/-- A stamp on base a converted to base b with the offset of the CD6 cycle in which base a read it, in ns rounded half to even (R15, R249). -/
def convStamp (s : State) (a b : Nat) (t : Int) : Int :=
  if a = b then t
  else
    let c := (baseOf s a).cycleOf s.now t
    rdivEven (t * FR + (baseOf s b).valOf c - (baseOf s a).valOf c) FR.toNat

/-- The CD6 cycle at which base b comes to read t, as an instant of elapsed time, the base running on at its present rate; now if that is past. -/
def instantOf (s : State) (i : Nat) (t : Int) : Nat :=
  let b := baseOf s i
  let d := t * FR - b.valAt s.now
  if d ≤ 0 then s.now
  else 10 * (cd6 s.now + (-(-(d * 65536000000000) / (10 * FR * (65536000000000 + b.rate)))).toNat)

/-- Seconds and nanoseconds of a stamp. -/
def secOf (t : Int) : Int := t / (NS : Int)
def nsOf (t : Int) : Nat := (t % (NS : Int)).toNat

/-- Low 32 bits of a stamp's seconds. -/
def secLo (t : Int) : Word := iw (secOf t)

/-- UTC_VALID of a base (R251). -/
def utcValid (b : Base) : Bool :=
  decide (b.st ≠ .free) && b.traceable && b.utcKnown

/-- State code of a base (R251). -/
def BaseState.code : BaseState → Nat
  | .locked => 0
  | .holdover => 1
  | .free => 2

/-- A TB0 stamp as the UTC field of a record (R416, R247). -/
def utcField (s : State) (t : Int) : Nat :=
  let u := t - (baseOf s 0).utcOffset * NS
  nsOf u + ifield 34 (secOf u) * 2 ^ 30

/-- STATE code (R32). -/
def ModState.code : ModState → Nat
  | .off => 0
  | .start => 1
  | .service => 2
  | .maint => 3
  | .safeService => 4
  | .safelight => 5

/-- A force is active (R222). -/
def forceActive (s : State) : Bool := !s.cyc.forces.isEmpty

/-- A zone is in test mode (R194). -/
def testActive (s : State) : Bool := s.prt.zones.any fun z => z.2.test.isSome

/-- FLAGS of a record formed now (R417). -/
def evFlags (s : State) : BitVec 16 :=
  BitVec.ofNat 16 (fl (utcValid (baseOf s 0)) 0 + fl (forceActive s) 1 + fl (testActive s) 2 + s.pwr.shed * 8
    + fl (decide (s.sys.st = .start) && !s.evr.ready) 6)

/-- LEN of a record (R416). -/
def EvRec.len (r : EvRec) : Nat := 36 + cdiv r.payload.length 4 * 4

/-- Octets in the staging queue (R422). -/
def stageUsed (e : Evr) : Nat := nsum (e.stage.map EvRec.len)

/-- SRC of a record (R417). -/
abbrev srcHw : Nat := 0x0820
abbrev srcSvc : Nat := 0x0810
abbrev srcKsc : Nat := 0x0811
abbrev srcBackup : Nat := 0x0830

/-- SRC of a record that a command of a source code writes (R417). -/
abbrev cmdSrc (code : Nat) : Nat := 0x1000 + code

/-- Forms a record with its instant on TB0 (R416, R420 to R422): it waits in the queue, or is dropped and counted when it does not fit. -/
def evFull (src type : Nat) (tb0 : Int) (payload : Bytes) (s : State) : State :=
  let r : EvRec := ⟨type, payload, evFlags s, src, s.evr.optime, s.evr.pwrcyc, utcField s tb0⟩
  if stageUsed s.evr + r.len ≤ 262144 then { s with evr := { s.evr with stage := s.evr.stage ++ [r] } }
  else { s with evr := { s.evr with stageFull := true, lost := s.evr.lost + 1,
                                    dropped := satInc s.evr.dropped, droppedTotal := satInc s.evr.droppedTotal } }

/-- A record of the hardware's, formed now (R421). -/
def ev (type : Nat) (payload : Bytes) (s : State) : State := evFull srcHw type (baseNs s 0) payload s

/-- A record of another origin, formed now. -/
def evBy (src type : Nat) (payload : Bytes) (s : State) : State := evFull src type (baseNs s 0) payload s

/-- A record of an event stamped on base b (R421, R249). -/
def evStamped (type : Nat) (b : Nat) (t : Int) (payload : Bytes) (s : State) : State :=
  evFull srcHw type (convStamp s b 0 t) payload s

/-- Whether a record limited to one per second may be formed (such as R35, R137). -/
def secondPassed (s : State) (last : Option Nat) : Bool :=
  match last with
  | none => true
  | some l => decide (l + NS ≤ s.now)

/-- A byte of backup memory (R281): 56 failed-start count, 57 AUTOSTART, 58 clean-shutdown marker. -/
def bkp (s : State) (i : Nat) : Nat := (s.rtc.bkp.getD i 0#8).toNat

def setBkp (i v : Nat) (s : State) : State := { s with rtc := { s.rtc with bkp := s.rtc.bkp.set i (BitVec.ofNat 8 v) } }

/-- Zones, tasks and VF trip requests run: SERVICE, and no change out of it has begun (R32, R34). -/
def inService (s : State) : Bool := decide (s.sys.st = .service) && s.sys.leaving.isNone

/-- SERVICE or MAINT. -/
def operational (s : State) : Bool := decide (s.sys.st = .service) || decide (s.sys.st = .maint)

end Sys2Proof.Machine
end

