-- ==== Sys2Proof/Machine/Reply.lean ====
section
/-! DEFINITION. Command packets: the checks of R375, replies and their notices, and the order of execution (15_mailbox_commands.md R366 to R381). -/

namespace Sys2Proof.Machine

/-- Status codes (R377). -/
abbrev stOk : Nat := 0x0000
abbrev stPending : Nat := 0x0001
abbrev stBadOpcode : Nat := 0x0100
abbrev stBadLength : Nat := 0x0101
abbrev stBadParam : Nat := 0x0102
abbrev stNotAuthorised : Nat := 0x0200
abbrev stAuthFailed : Nat := 0x0201
abbrev stReplayed : Nat := 0x0202
abbrev stBusy : Nat := 0x0300
abbrev stBudget : Nat := 0x0301
abbrev stExhausted : Nat := 0x0302
abbrev stConflict : Nat := 0x0400
abbrev stNotOwner : Nat := 0x0401
abbrev stInternal : Nat := 0x0500

/-- FLAGS of a command (R370). -/
def CmdHdr.auth (h : CmdHdr) : Bool := nbit h.flags 0
def CmdHdr.noreply (h : CmdHdr) : Bool := nbit h.flags 1
def CmdHdr.urgent (h : CmdHdr) : Bool := nbit h.flags 2
def CmdHdr.cont (h : CmdHdr) : Bool := nbit h.flags 3

/-- Octets of a command header (R370). -/
def CmdHdr.octets (h : CmdHdr) : Bytes :=
  u16 h.opcode ++ u8 h.flags ++ u8 1 ++ u32 h.tag ++ u32 h.plen ++ u16 h.scope ++ u16 h.authSlot ++ u64 h.replyAddr
    ++ u32 h.replyMax ++ u32 h.nonce

/-- A source that is a command channel (R382). -/
abbrev isChannel (src : Nat) : Bool := decide (src < 4)
abbrev isConsole (src : Nat) : Bool := src == 0x10
abbrev isUdp (src : Nat) : Bool := src == 0x20 || src == 0x21

/-- COMPLETION_TIME (R372). -/
def completionTime (s : State) : Nat := (baseNs s 0).toNat

/-- A reply packet (R371, R373): opcode with bit 15 for a data reply. -/
def replyOctets (s : State) (rt : ReplyTo) (data : Bool) (status detail : Nat) (payload : Bytes) : Bytes :=
  let op := rt.hdr.opcode % 0x4000 + (if data then 0x8000 else 0) + (if rt.key.isSome then 0x4000 else 0)
  let head := u16 op ++ u16 status ++ u32 rt.hdr.tag ++ u32 payload.length ++ u32 detail ++ u64 (completionTime s)
  let body := head ++ payload
  match rt.key with
  | some k => body ++ Config.kmac256 k (body ++ rt.hdr.octets) 32 (ascii "MQ16-RPL")
  | none => body

/-- Posts a notice in PMB(n + 4), or holds it (R366). -/
def postNotice (n addr : Nat) (s : State) : State :=
  let m := s.mbx
  if (m.held.getD n []).isEmpty && !(m.pmb.getD (n + 4) ⟨0#32, 0#32, false⟩).full then
    emit (.msix 0 1) { s with mbx := { m with pmb := lset m.pmb (n + 4) ⟨wd addr, wd (addr / 2 ^ 32), true⟩ } }
  else { s with mbx := { m with held := lmod m.held n (· ++ [addr]) } }

/-- Sends a reply without counting it: a channel's is written to REPLY_ADDR and noticed (R366), one over UDP waits to enter the switch core at CP (R313, R378). -/
def sendReply (rt : ReplyTo) (octets : Bytes) (s : State) : State :=
  if isUdp rt.src then { s with cmd := { s.cmd with udpTx := s.cmd.udpTx ++ [⟨rt.src, rt.remote.1, rt.remote.2, octets⟩] } }
  else
    let s := emit (.reply rt.src rt.remote rt.hdr.replyAddr octets) s
    if isChannel rt.src then postNotice rt.src rt.hdr.replyAddr s else s

/-- The final status of a command: counted, and replied unless NOREPLY (R376, R377, R389). -/
def reply (rt : ReplyTo) (status detail : Nat) (payload : Bytes) (s : State) : State :=
  let good := decide (status < 2)
  if rt.hdr.noreply then
    if good then s else { s with cmd := { s.cmd with noreplyErr := satInc s.cmd.noreplyErr } }
  else
    let s := if good then { s with cmd := { s.cmd with accepted := satInc s.cmd.accepted } }
             else { s with cmd := { s.cmd with refused := satInc s.cmd.refused } }
    sendReply rt (replyOctets s rt false status detail payload) s

/-- A refusal has no payload (R375). -/
def refuse (rt : ReplyTo) (status detail : Nat) (s : State) : State := reply rt status detail [] s

/-- A record that a command writes (R417). -/
def evCmd (rt : ReplyTo) (type : Nat) (payload : Bytes) (s : State) : State := evBy (cmdSrc rt.src) type payload s

/-- A record of a configuration that takes effect: by the command's source, none when a start loads it (log entry 28). -/
def evCfg (src : Option Nat) (type : Nat) (payload : Bytes) (s : State) : State :=
  match src with
  | some x => evBy x type payload s
  | none => s

/-- The command has begun and its reply waits (R381). -/
def holdReply (rt : ReplyTo) (s : State) : State := { s with cmd := { s.cmd with running := s.cmd.running ++ [rt] } }

/-- The reply of a command that waited; none when a start or a reset of the host interface has taken it (R367). -/
def finish (rt : ReplyTo) (status detail : Nat) (payload : Bytes) (s : State) : State :=
  if s.cmd.running.contains rt then
    reply rt status detail payload { s with cmd := { s.cmd with running := s.cmd.running.erase rt } }
  else s

/-- The opcode table (R386): AUTH always required, console, urgent. -/
structure OpInfo where
  auth : Bool
  console : Bool
  urgent : Bool
deriving DecidableEq, Repr

def opInfo (op : Nat) : Option OpInfo :=
  let i (a c u : Nat) : Option OpInfo := some ⟨a == 1, c == 1, u == 1⟩
  match op with
  | 0x0100 => i 0 1 1 | 0x0101 => i 0 1 1 | 0x0102 => i 1 1 1 | 0x0103 => i 1 1 1 | 0x0104 => i 0 0 0 | 0x0105 => i 0 1 1
  | 0x0200 => i 0 0 0 | 0x0201 => i 0 0 0 | 0x0202 => i 0 0 1 | 0x0203 => i 0 0 0
  | 0x0300 => i 0 0 0 | 0x0301 => i 0 0 0 | 0x0302 => i 0 0 0 | 0x0303 => i 0 0 1
  | 0x0310 => i 0 0 0 | 0x0311 => i 0 0 1
  | 0x0320 => i 0 0 0 | 0x0321 => i 0 0 0 | 0x0322 => i 0 0 1 | 0x0323 => i 0 0 0
  | 0x0330 => i 0 0 0 | 0x0331 => i 0 0 0 | 0x0332 => i 0 0 0 | 0x0333 => i 0 0 0 | 0x0334 => i 0 0 0
  | 0x0400 => i 0 0 0 | 0x0401 => i 0 0 0 | 0x0402 => i 0 0 1 | 0x0403 => i 0 0 1 | 0x0404 => i 0 0 0 | 0x0405 => i 1 0 0
  | 0x0406 => i 0 0 1
  | 0x0500 => i 0 0 0 | 0x0501 => i 0 0 0 | 0x0502 => i 1 0 0 | 0x0503 => i 1 0 0 | 0x0504 => i 1 0 1 | 0x0505 => i 0 0 1
  | 0x0600 => i 0 0 0 | 0x0601 => i 1 0 0 | 0x0602 => i 0 1 1 | 0x0603 => i 1 0 0 | 0x0604 => i 0 1 1
  | 0x0700 => i 0 0 0 | 0x0701 => i 0 0 0 | 0x0702 => i 0 0 0 | 0x0703 => i 0 0 0 | 0x0704 => i 0 0 0 | 0x0705 => i 0 0 0
  | 0x0706 => i 0 0 1
  | 0x0800 => i 0 0 0 | 0x0801 => i 0 0 0 | 0x0802 => i 1 0 0 | 0x0803 => i 0 0 0
  | 0x0900 => i 0 1 0 | 0x0901 => i 0 0 0 | 0x0902 => i 0 0 0 | 0x0903 => i 0 1 0 | 0x0904 => i 0 0 0 | 0x0905 => i 0 0 0
  | 0x0A00 => i 0 0 0 | 0x0A01 => i 0 0 0 | 0x0A02 => i 0 1 1
  | 0x0B00 => i 0 0 0 | 0x0B01 => i 0 0 0 | 0x0B02 => i 0 0 1 | 0x0B03 => i 0 0 0
  | _ => none

/-- VF commands take a SCOPE (R358, R372). -/
def opScoped (op : Nat) : Bool := op == 0x0800 || op == 0x0801 || op == 0x0802 || op == 0x0803

/-- Largest PLEN on a source (R372); a joined UDP sequence is bounded by R378. -/
def plenMax (src : Nat) : Nat := if isChannel src then 65536 else if isConsole src then 4000 else 1408

/-- Offset of the first header field that breaks R372, those of R376 apart (R375 step 1). -/
def headerFault (e : Env) (joined : Bool) : Option Nat :=
  let h := e.hdr
  if h.flags ≥ 16 || (h.cont && !isUdp e.src) then some 0x02
  else if e.version ≠ 1 then some 0x03
  else if h.plen > plenMax e.src && !joined then some 0x08
  else if h.scope ≠ 0 && !opScoped h.opcode then some 0x0C
  else if (if h.auth then decide (h.authSlot > 255) else decide (h.authSlot ≠ 0)) then some 0x0E
  else if (if isChannel e.src then decide (h.replyAddr % 8 ≠ 0) || (decide (h.replyAddr = 0) && !h.noreply)
           else decide (h.replyAddr ≠ 0)) then some 0x10
  else if !isChannel e.src && decide (h.replyMax ≠ 0) then some 0x18
  else if (if h.auth then decide (h.nonce = 0) else decide (h.nonce ≠ 0)) then some 0x1C
  else none

/-- A channel packet without NOREPLY to which no reply can be sent (R376). -/
def unreplyable (e : Env) : Bool :=
  isChannel e.src && !e.hdr.noreply &&
    (decide (e.hdr.replyMax < (if e.hdr.auth then 56 else 24)) || decide (e.hdr.replyAddr % 8 ≠ 0) || decide (e.hdr.replyAddr = 0))

/-- The replay window of a slot (R374). -/
def replayOf (s : State) (slot : Nat) : Replay := tgetD s.cmd.replay slot ⟨0, [], 0⟩

/-- A NONCE is acceptable (R374). -/
def Replay.ok (r : Replay) (n : Nat) : Bool :=
  decide (r.h < 0xFFFFFFFF) && decide (n ≥ 1) && decide (r.h < n + 64) && !r.accepted.contains n

/-- Consumes a NONCE (R374). -/
def Replay.take (r : Replay) (n : Nat) : Replay :=
  let h := max r.h n
  ⟨h, (n :: r.accepted).filter fun x => decide (h < x + 64), if h / 1024 ≠ r.h / 1024 then h else r.stored⟩

/-- Key of a slot that a command trailer can be checked with (R393). -/
def cmdKey (s : State) (slot : Nat) : Option Bytes :=
  match tget s.key.slots slot with
  | some k => if k.type = 3 then some k.key else none
  | none => none

/-- The trailer of a command (R373). -/
def cmdTrailer (k : Bytes) (e : Env) : Bytes := Config.kmac256 k (e.hdr.octets ++ e.payload) 32 (ascii "MQ16-CMD")

def replyToOf (e : Env) (key : Option Bytes) : ReplyTo := ⟨e.src, e.remote, e.hdr, key⟩

/-- R375 steps 1 to 3 with the silent discards of R376 and R379: the packet that goes on, or none. -/
def packetChecks (e : Env) (joined : Bool) (s : State) : Option Pkt × State :=
  let rt := replyToOf e none
  let drop (s : State) : Option Pkt × State := (none, { s with cmd := { s.cmd with udpDrop := satInc s.cmd.udpDrop } })
  if isUdp e.src && (decide (s.pwr.shed ≥ 1) || !e.hdr.auth) then drop s
  else if unreplyable e then (none, { s with cmd := { s.cmd with noreplyErr := satInc s.cmd.noreplyErr } })
  else match headerFault e joined with
    | some off => (none, refuse rt stBadParam off s)
    | none =>
      if e.payload.length ≠ e.hdr.plen ∨ e.trailer.length ≠ (if e.hdr.auth then 32 else 0) then (none, refuse rt stBadLength 0 s)
      else if !e.hdr.auth then (some ⟨e, none⟩, s)
      else match cmdKey s e.hdr.authSlot with
        | none => authFail rt s
        | some k =>
          if cmdTrailer k e ≠ e.trailer then authFail rt s
          else
            let r := replayOf s e.hdr.authSlot
            if r.ok e.hdr.nonce then
              (some ⟨e, some k⟩, { s with cmd := { s.cmd with replay := tset s.cmd.replay e.hdr.authSlot (r.take e.hdr.nonce) } })
            else
              (none, refuse (replyToOf e (some k)) stReplayed (min (r.h + 1) 0xFFFFFFFF)
                { s with cmd := { s.cmd with replayed := satInc s.cmd.replayed } })
where
  /-- AUTH_FAILED; over UDP the packet is discarded (R379). -/
  authFail (rt : ReplyTo) (s : State) : Option Pkt × State :=
    let s := { s with cmd := { s.cmd with authFail := satInc s.cmd.authFail } }
    (none, if isUdp rt.src then s else refuse rt stAuthFailed 0 s)

def Pkt.sameSource (p : Pkt) (src : Nat) (remote : Nat × Nat) : Bool := p.env.src == src && p.env.remote == remote

/-- Whether the packet, waiting behind those before it, may begin (R381). -/
def mayBegin (s : State) (p : Pkt) (before all : List Pkt) : Bool :=
  if p.env.hdr.urgent then !before.any (fun q => q.sameSource p.env.src p.env.remote && q.env.hdr.urgent)
  else !before.any (fun q => q.sameSource p.env.src p.env.remote) && !all.any (fun q => q.env.hdr.urgent)
    && !s.cmd.running.any (fun r => r.src == p.env.src && r.remote == p.env.remote)

/-- What an opcode's chapter states of it: opcode, AUTH required, payload length, octets of the reply payload, module states. -/
structure CmdReq where
  opcode : Nat
  auth : Bool
  plen : Nat → Bool
  replyLen : Nat
  states : List ModState

/-- The slot of the trailer carries CMD_AUTH (R393). -/
def cmdAuthAttr (s : State) (slot : Nat) : Bool :=
  match tget s.key.slots slot with
  | some k => k.attr.getLsbD 0
  | none => false

/-- The first refusal of a packet at R375 steps 4 to 8, the command's own conditions apart: status and DETAIL. -/
def pktFault (q : CmdReq) (p : Pkt) (s : State) : Option (Nat × Nat) :=
  let e := p.env
  let need := 24 + q.replyLen + (if e.hdr.auth then 32 else 0)
  match opInfo e.hdr.opcode with
  | none => some (stBadOpcode, 0)
  | some i =>
    if e.hdr.urgent && !i.urgent then some (stBadParam, 2)
    else if q.auth && !e.hdr.auth then some (stNotAuthorised, 1)
    else if isConsole e.src && !i.console then some (stNotAuthorised, 2)
    else if e.hdr.auth && !cmdAuthAttr s e.hdr.authSlot then some (stNotAuthorised, 3)
    else if isChannel e.src && !e.hdr.noreply && decide (need > e.hdr.replyMax) then some (stBadLength, need)
    else if !q.plen e.payload.length then some (stBadLength, 0)
    else if !q.states.contains s.sys.st then some (stConflict, s.sys.st.code)
    else none

/-- R375 steps 4 to 8 and the command's own part. -/
def execPkt (q : CmdReq) (p : Pkt) (body : ReplyTo → State → State) (s : State) : State :=
  match pktFault q p s with
  | some f => refuse (replyToOf p.env p.key) f.1 f.2 s
  | none => body (replyToOf p.env p.key) s

/-- A command of the transaction's owner restarts its timeout (R385). -/
def touchTxn (e : Env) (s : State) : State :=
  match s.cmd.txn with
  | some t => if t.src = e.src ∧ t.remote = e.remote then { s with cmd := { s.cmd with txn := some { t with last := s.now } } } else s
  | none => s

/-- Packets with an opcode outside the table that may begin are refused in their turn (R375 step 4). -/
def flushUnknown : Nat → State → State
  | 0, s => s
  | n + 1, s =>
    let hit := (imap (fun i p => (i, p)) s.cmd.queue).find? fun ip =>
      (opInfo ip.2.env.hdr.opcode).isNone && mayBegin s ip.2 (s.cmd.queue.take ip.1) s.cmd.queue
    match hit with
    | some (i, p) =>
      flushUnknown n (refuse (replyToOf p.env p.key) stBadOpcode 0 { s with cmd := { s.cmd with queue := s.cmd.queue.eraseIdx i } })
    | none => s

/-- A packet begins: its checks from step 4 on, then those behind it that are no command. -/
def begin' (q : CmdReq) (p : Pkt) (body : ReplyTo → State → State) (s : State) : State :=
  flushUnknown s.cmd.queue.length (execPkt q p body (touchTxn p.env s))

/-- The console takes one command at a time (R380). -/
def consoleBusy (s : State) : Bool :=
  s.cmd.running.any (fun r => isConsole r.src) || s.cmd.queue.any (fun p => isConsole p.env.src)

/-- UDP commands that wait, over all sources (R379). -/
def udpWaiting (s : State) : Nat := (s.cmd.queue.filter fun p => isUdp p.env.src).length

/-- A packet that arrives: R375 steps 1 to 3, then it waits (R366, R379, R380). -/
def arrive (e : Env) (joined : Bool) (s : State) : Option Pkt × State :=
  if isConsole e.src && consoleBusy s then (none, refuse (replyToOf e none) stBusy 0 s)
  else if isUdp e.src && decide (udpWaiting s ≥ 32) then (none, { s with cmd := { s.cmd with udpDrop := satInc s.cmd.udpDrop } })
  else packetChecks e joined s

/-- Whether the packet of a command row begins now, and the state then (R366, R381; log entry 27): it waits in the queue, or it arrives, passes the first checks and waits behind others. While the interpreter does not run nothing happens. -/
def turn (e : Env) (opcode : Nat) (s : State) : Option Pkt × State :=
  if !s.cmd.interp then (none, s)
  else if e.hdr.opcode ≠ opcode ∧ (opInfo e.hdr.opcode).isSome then (none, s)
  else match (imap (fun i p => (i, p)) s.cmd.queue).find? (fun ip => { ip.2.env with resvOk := e.resvOk } == e) with
    | some (i, p) =>
      if mayBegin s p (s.cmd.queue.take i) s.cmd.queue then (some p, { s with cmd := { s.cmd with queue := s.cmd.queue.eraseIdx i } })
      else (none, s)
    | none =>
      match arrive e false s with
      | (none, s) => (none, s)
      | (some p, s) =>
        if mayBegin s p s.cmd.queue s.cmd.queue then (some p, s)
        else (none, { s with cmd := { s.cmd with queue := s.cmd.queue ++ [p] } })

/-- Executes a command row. -/
def runCmd (e : Env) (q : CmdReq) (body : ReplyTo → State → State) (s : State) : State :=
  match turn e q.opcode s with
  | (some p, s) => begin' q p body s
  | (none, s) => s

/-- Refusal of an output of n octets: over UDP BUF_ADDR must be 0 (R378), and BUF_LEN must hold the output. -/
def outputFault (rt : ReplyTo) (addr len n : Nat) : Option (Nat × Nat) :=
  if isUdp rt.src && decide (addr ≠ 0) then some (stBadParam, 0)
  else if len < n then some (stExhausted, n) else none

/-- An output beside a reply: written to host memory, or over UDP kept for data requests after the reply (R378). -/
def replyWithOutput (rt : ReplyTo) (addr : Nat) (data payload : Bytes) (s : State) : State :=
  if isUdp rt.src then
    let s := reply rt stOk 0 payload s
    let same (o : UdpOut) : Bool := o.rt.src == rt.src && o.rt.remote == rt.remote && o.rt.hdr.tag == rt.hdr.tag
    { s with cmd := { s.cmd with outs := s.cmd.outs.filter (fun o => !same o) ++ [⟨rt, data, s.now⟩] } }
  else reply rt stOk 0 payload (emit (.hostWrite addr data) s)

/-- Payload rule of every command: reserved bytes are 0 (R136); then the command's own refusal, or its effect. -/
def checked (e : Env) (rt : ReplyTo) (c : Option (Nat × Nat)) (f : State → State) (s : State) : State :=
  if !e.resvOk then refuse rt stBadParam 0 s
  else match c with
    | some (status, detail) => refuse rt status detail s
    | none => f s

/-- As checked, after the refusals of R375 step 8. -/
def checked8 (e : Env) (rt : ReplyTo) (pre c : Option (Nat × Nat)) (f : State → State) (s : State) : State :=
  match pre with
  | some (status, detail) => refuse rt status detail s
  | none => checked e rt c f s

/-- A fixed payload length. -/
def plenIs (n : Nat) : Nat → Bool := fun p => p == n

/-- The first refusal of a list of checks. -/
def firstFail (l : List (Bool × Nat × Nat)) : Option (Nat × Nat) :=
  (l.find? fun c => !c.1).map fun c => (c.2.1, c.2.2)

/-- A field outside its range (R136). -/
def bad (ok : Bool) : Bool × Nat × Nat := (ok, stBadParam, 0)

end Sys2Proof.Machine
end

