-- ==== Sys2Proof/Machine/Bus.lean ====
section
/-! DEFINITION. Register accesses: who reaches which block, refusals, and the configuration rule (01_sample_to_trip.md R35 to R38). -/

namespace Sys2Proof.Machine

/-- Master ID of EV_BUS_VIOLATION: the codes of R363 and R417 (log entry 4). -/
def Master.id : Master → Nat
  | .host => 0
  | .vf v => v
  | .qc c => 0x0800 + c
  | .svc => 0x0810
  | .ksc => 0x0811

/-- A refused access (R38), recorded at most once per second (R35). -/
def busViolate (by' : Master) (off : Nat) (s : State) : State :=
  let addr := wd (0x40000000 + off)
  let s := { s with sys := { s.sys with busViol := satInc s.sys.busViol, busViolAddr := addr, busViolNew := s.sys.busViolNew + 1 } }
  if secondPassed s s.sys.busViolLast then
    ev 0x0103 (w32 addr ++ u16 by'.id ++ u16 (min s.sys.busViolNew 0xFFFF))
      { s with sys := { s.sys with busViolNew := 0, busViolLast := some s.now } }
  else s

/-- Block number of an offset in PF BAR0 (R36). -/
abbrev blockOf (off : Nat) : Nat := off / 0x10000

/-- The master reaches the block of an offset (R37): host and SVC every block, the KSC the KEY block, a core the mailboxes and the semaphores of its PMP regions (log entry 4), a VF none. -/
def reaches (by' : Master) (off : Nat) : Bool :=
  match by' with
  | .host | .svc => true
  | .ksc => blockOf off == 0x11
  | .qc _ => blockOf off == 0x0F || (decide (0x100 ≤ off) && decide (off < 0x200))
  | .vf _ => false

/-- The master may write a configuration field now (R37). -/
def mayConfigure (by' : Master) (s : State) : Bool :=
  match by' with
  | .host => s.sys.st == .maint
  | _ => true

/-- No register answers: the module is off, or its fabric is power-gated (R32, R447). -/
def dark (s : State) : Bool := s.sys.st == .off || s.pwr.gated

/-- A write of a register that is no configuration. -/
def regWrite (by' : Master) (off : Nat) (f : State → State) (s : State) : State :=
  if dark s then s else if reaches by' off then f s else busViolate by' off s

/-- The configuration in force has changed beside the stored one (R382). -/
def setDirty (s : State) : State := { s with cmd := { s.cmd with dirty := true } }

/-- A write of a configuration register (R37, R38, R382). -/
def cfgWrite (by' : Master) (off : Nat) (f : State → State) (s : State) : State :=
  if dark s then s else if reaches by' off && mayConfigure by' s then setDirty (f s) else busViolate by' off s

/-- A field written as its first operand, clamped to its second: CFGCLAMP sets when they differ. -/
abbrev clamped (a b : Nat) : Bool := a != b

end Sys2Proof.Machine
end

