-- ==== Sys2Proof/Machine/TbsOps.lean ====
section
/-! DEFINITION. The time block's parts by number, and the stamps that a PTP message of the module takes as it leaves (10_time_bases.md R257 to R262). -/

namespace Sys2Proof.Machine

def modTbs (f : Tbs → Tbs) (s : State) : State := { s with tbs := f s.tbs }

def modBase (b : Nat) (f : Base → Base) (s : State) : State := modTbs (fun x => { x with base := lmod x.base b f }) s

def modPtp (p : Nat) (f : PtpPort → PtpPort) (s : State) : State := modTbs (fun x => { x with ports := lmod x.ports p f }) s

def ptpOf (s : State) (p : Nat) : PtpPort := s.tbs.ports.getD p PtpPort.reset

/-- A port of a base's PTP instance (R258). -/
def instPort (s : State) (b p : Nat) : InstPort := (baseOf s b).pp.getD p InstPort.reset

def modInstPort (b p : Nat) (f : InstPort → InstPort) (s : State) : State := modBase b (fun x => { x with pp := lmod x.pp p f }) s

/-- The instance of a domain on a port, with its transport (R257). -/
def instanceOf (s : State) (port : Nat) (udp : Bool) (domain : Nat) : Option Nat :=
  (List.range 4).find? fun b => let c := (baseOf s b).cfg; c.src == 1 && c.domain == domain && nbit c.ports port && (c.udp == 1) == udp

/-- The instance of a port: that of the lowest base (TBS_PORT_PTP). -/
def portInstance (s : State) (port : Nat) : Option Nat :=
  (List.range 4).find? fun b => let c := (baseOf s b).cfg; c.src == 1 && nbit c.ports port

/-- The base a port's peer delay is measured on: its instance's, else TB0. -/
def pdelayBase (s : State) (p : Nat) : Nat := (portInstance s p).getD 0

/-- RX_LAT and TX_LAT of a port (R260). -/
def rxLat (s : State) (p : Nat) : Int := (bits (ptpOf s p).lat 15 0 : Nat)
def txLat (s : State) (p : Nat) : Int := (bits (ptpOf s p).lat 31 16 : Nat)

/-- A PTP message of the module as it leaves on MAC port p (R260, R261): a one-step Sync takes its originTimestamp on the fly, a Follow_Up and a Pdelay_Resp_Follow_Up carry the instant at which the message before them left, and a Pdelay_Req notes its own. -/
def ptpStamp (p : Nat) (udp : Bool) (m : FrameBody) (s : State) : FrameBody × State :=
  let leaves (b : Nat) : Int := baseNs s b + txLat s p
  match m with
  | .ptp .sync dom n _ ann =>
    match instanceOf s p udp dom with
    | some b => (.ptp .sync dom n (if nbit (baseOf s b).cfg.flags 0 then 0 else leaves b) ann, modInstPort b p (fun q => { q with syncTx := leaves b }) s)
    | none => (m, s)
  | .ptpResp 8 dom n _ =>
    match instanceOf s p udp dom with
    | some b => (.ptpResp 8 dom n (instPort s b p).syncTx, s)
    | none => (m, s)
  | .ptp .pdelayReq _ n _ _ =>
    (m, modPtp p (fun q => { q with pdelay := q.pdelay.map fun x => if x.seqId = n then { x with t1 := leaves (pdelayBase s p) } else x }) s)
  | .ptpResp 3 _ _ _ => (m, modPtp p (fun q => { q with respTx := leaves (pdelayBase s p) }) s)
  | .ptpResp 10 dom n _ => (.ptpResp 10 dom n (ptpOf s p).respTx, s)
  | _ => (m, s)

/-- The same for a frame, over Ethernet or UDP. -/
def ptpLeave (p : Nat) (f : NetFrame) (s : State) : NetFrame × State :=
  match f.body with
  | .ptpUdp a q m =>
    let (m, s) := ptpStamp p true m s
    ({ f with body := .ptpUdp a q m }, s)
  | m =>
    let (m, s) := ptpStamp p false m s
    ({ f with body := m }, s)

end Sys2Proof.Machine
end

