-- ==== Sys2Proof/Machine/Samples.lean ====
section
/-! DEFINITION. Rates, sample instants and the running index K (R13, R17, R112). -/

namespace Sys2Proof.Machine

/-- Samples per second of a RATE code (R70). -/
def rateHz : Nat → Nat
  | 0 => 96000
  | 1 => 14400
  | 2 => 4800
  | _ => 4000

/-- Stamp of sample n since the base's origin at f samples per second, to the nearest tick (R13, R17). -/
def sampleStamp (f : Nat) (n : Int) : Int := rdivEven (n * NS) f

/-- C of the numbering of a base and rate (R112). -/
def numC (s : State) (base rate : Nat) : Int := tgetD s.sve.numOffset (base * 4 + rate) 0

/-- C that an index was numbered with: an index from before the latest step keeps its own. -/
def numCAt (s : State) (base rate k : Nat) : Int :=
  match tget s.sve.numPrev (base * 4 + rate) with
  | some (last, c) => if k ≤ last then c else numC s base rate
  | none => numC s base rate

/-- Sample count since the base's origin of an index K (R112). -/
def kToN (s : State) (base rate k : Nat) : Int := k - numCAt s base rate k

/-- K of a sample count since the base's origin (R112). -/
def nToK (s : State) (base rate : Nat) (n : Int) : Nat := (n + numC s base rate).toNat

/-- Stamp of index K on its base (R13, R112). -/
def kStamp (s : State) (base rate k : Nat) : Int := sampleStamp (rateHz rate) (kToN s base rate k)

/-- The latest sample count whose instant is not after base time t. -/
def nAtOrBefore (f : Nat) (t : Int) : Int := t * f / (NS : Int)

/-- The first sample count whose instant is not before base time t. -/
def nAtOrAfter (f : Nat) (t : Int) : Int := -(-(t * f) / (NS : Int))

/-- The index of the latest sample of a numbering (R112). -/
def nowK (s : State) (base rate : Nat) : Nat := nToK s base rate (nAtOrBefore (rateHz rate) (baseNs s base))

/-- The base a zone evaluates on: its TBSEL, or TB3 while a simulated stream feeds one of its channels (R121). -/
def zoneBase (s : State) (z : ZoneDef) : Nat :=
  if s.sve.subs.any (fun p => p.2.simulated && p.2.cfg.entries.any fun e => z.slots.contains e.chid) then 3 else z.tbsel

/-- The present index of zone z's numbering. -/
def zoneNowK (s : State) (z : Nat) : Nat :=
  match tget s.prt.zones z with
  | some q => nowK s (zoneBase s q.cfg) q.cfg.rate
  | none => 0

/-- The first scheduled start of an L task after base time t (R199). -/
def nextLStart (c : LogActivate) (t : Int) : Int :=
  let p : Int := (max 1 c.periodUs : Nat) * 1000
  let ph : Int := (c.phaseUs : Nat) * 1000
  ph + ((t - ph) / p + 1) * p

end Sys2Proof.Machine
end

