-- ==== Sys2Proof/Machine/VfmOps.lean ====
section
/-! DEFINITION. Deliveries to virtual functions: staging, shares, the lossless places (14_host_vfs.md R341 to R353). -/

namespace Sys2Proof.Machine

/-- VF v; a VF that nothing has changed is as reset. -/
def vfOf (s : State) (v : Nat) : Vf := tgetD s.vfm.vfs v Vf.reset

def modVf (v : Nat) (f : Vf → Vf) (s : State) : State :=
  { s with vfm := { s.vfm with vfs := tmodD s.vfm.vfs v Vf.reset f } }

/-- Bytes a bulk delivery is charged (R351). -/
def Delivery.charge (d : Delivery) : Nat := cdiv d.payload.length 64 * 64

/-- Bulk bytes charged to a VF (R351). -/
def Vf.charged (f : Vf) : Nat := nsum (f.bulk.map Delivery.charge)

/-- Bulk bytes charged over all VFs. -/
def poolUsed (s : State) : Nat := nsum (s.vfm.vfs.map fun p => p.2.charged)

/-- The bulk pool in bytes (R351). -/
abbrev poolBytes : Nat := 458752 * 1024

/-- VF v exists and is enabled (R334). -/
def vfEnabled (s : State) (v : Nat) : Bool := s.vfm.vfEnable && decide (1 ≤ v) && decide (v ≤ s.vfm.numVfs)

/-- Configuration requests are answered: PERST_N is high, since 100 ms at least (R357). -/
def pciReady (s : State) : Bool := !s.vfm.perst && decide (s.vfm.pciAt ≤ s.now)

/-- VF v is ready for requests, 1 ms after VF Enable is set (R334; log entry 212). -/
def vfReady (s : State) (v : Nat) : Bool := vfEnabled s v && decide (s.vfm.vfAt ≤ s.now)

/-- The host's words without those of function fn: its configuration space and MSI-X table (R354, R356). -/
def pciDrop (fn : Nat) (t : Table Word) : Table Word := t.filter fun p => p.1 % 2 ^ 24 / 2 ^ 12 != fn

/-- A delivery waits for the host: of a VF, or an event record (R353). -/
def deliveryPending (s : State) : Bool :=
  !s.vfm.evqStage.isEmpty || s.vfm.vfs.any fun p => !p.2.bulk.isEmpty || !p.2.lossless.isEmpty

/-- The host has enabled ASPM L1: bit 1 of the PF's Link Control (R332, R353; its place: log entry 24). -/
def aspmL1 (s : State) : Bool := bit (tgetD s.vfm.pci 0x80 0#32) 1

/-- The host link is in L1: the host has put it there, or from SHED3 on the endpoint has, while no delivery is pending (R332, R353; log entry 216). -/
def hostL1 (s : State) : Bool :=
  s.vfm.linkUp && (s.vfm.linkL1 || (decide (3 ≤ s.pwr.shed) && aspmL1 s && !deliveryPending s))

/-- VF_STAT (R338). -/
def vfStat (s : State) (v : Nat) : Nat :=
  let f := vfOf s v
  fl (vfEnabled s v && f.stop.isNone) 0 + fl f.stop.isSome 1 + fl f.overshare 2 + fl f.stalled 3 + fl (decide (1 ≤ s.pwr.shed)) 4 + fl (decide (4 ≤ s.pwr.shed)) 5

/-- VF v can issue writes (R341, R347). -/
def vfMaster (s : State) (v : Nat) : Bool := vfEnabled s v && (vfOf s v).busMaster && s.vfm.linkUp && !s.vfm.perst

/-- A change of VF_STAT is signalled on vector 1 (R337). -/
def statSignal (v before : Nat) (s : State) : State := if vfStat s v ≠ before ∧ vfMaster s v then emit (.msix v 1) s else s

/-- A change of VF v's state, its VF_STAT signalled when it differs. -/
def vfChange (v : Nat) (f : State → State) (s : State) : State := statSignal v (vfStat s v) (f s)

/-- Clears OVERSHARE once the charge is below SHARE (R351). -/
def oversharePass (v : Nat) (s : State) : State :=
  let f := vfOf s v
  if f.overshare && decide (f.charged < f.shareKib * 1024) then
    ev 0x0903 (u16 v ++ u8 0 ++ u8 0 ++ u32 f.charged) (vfChange v (modVf v fun f => { f with overshare := false }) s)
  else s

/-- EV_VF_DROP, at most once per second per VF (R359). -/
def dropEvent (v : Nat) (s : State) : State :=
  let f := vfOf s v
  if secondPassed s f.dropEvLast then
    ev 0x0909 (u16 v ++ u16 0 ++ u32 f.dropEvS ++ u32 f.dropEvF)
      (modVf v (fun f => { f with dropEvLast := some s.now, dropEvS := 0, dropEvF := 0 }) s)
  else s

/-- Counts n bulk deliveries of a type as not delivered (R351, R359). -/
def countDrop (v type n : Nat) (s : State) : State :=
  if n = 0 then s
  else dropEvent v (modVf v (fun f =>
    if type = 1 then { f with dropSample := satAdd f.dropSample n, dropEvS := f.dropEvS + n }
    else { f with dropFrame := satAdd f.dropFrame n, dropEvF := f.dropEvF + n }) s)

/-- Key of the GAP bookkeeping: type and source (R341). -/
def gapKey (d : Delivery) : Nat := d.type * 4 + d.src

/-- Notes a delivery that was not admitted for the next of its type and source (R341). -/
def noteGap (d : Delivery) (f : Vf) : Vf := { f with gaps := tmodD f.gaps (gapKey d) 0 (· + (d.dropped + 1)) }

/-- Adds to the DROPPED of the first delivery of the type and source of d, if one waits. -/
def passGap (d : Delivery) : List Delivery → Option (List Delivery)
  | [] => none
  | e :: r => if e.type = d.type ∧ e.src = d.src then some ({ e with dropped := e.dropped + d.dropped + 1 } :: r)
              else (passGap d r).map (e :: ·)

/-- Removes the oldest queued sample block; its loss shows in the next of its source (R351). -/
def dropOldest (f : Vf) : Option Vf :=
  match f.bulk.findIdx? (fun d => d.type == 1) with
  | none => none
  | some i =>
    match f.bulk[i]? with
    | none => none
    | some d =>
      let rest := f.bulk.eraseIdx i
      match passGap d rest with
      | some b => some { f with bulk := b }
      | none => some (noteGap d { f with bulk := rest })

/-- Need bytes fit in the VF's SHARE, and in the pool beside the bytes of the others (R351). -/
def fits (others need : Nat) (f : Vf) : Bool :=
  decide (f.charged + need ≤ f.shareKib * 1024) && decide (others + f.charged + need ≤ poolBytes)

/-- Removes oldest sample blocks until need bytes fit, with the number removed (R351). -/
def makeRoom (others need : Nat) : Nat → Vf → Nat → Vf × Nat
  | 0, f, n => (f, n)
  | k + 1, f, n =>
    if fits others need f then (f, n)
    else match dropOldest f with
      | none => (f, n)
      | some g => makeRoom others need k g (n + 1)

/-- Queues an admitted delivery with the GAP of those before it (R341). -/
def pushBulk (d : Delivery) (f : Vf) : Vf :=
  { f with bulk := f.bulk ++ [{ d with dropped := tgetD f.gaps (gapKey d) 0 }], gaps := tdel f.gaps (gapKey d) }

/-- A new bulk delivery (types 1 and 2) for VF v (R351, R353). -/
def admitBulk (v : Nat) (d : Delivery) (s : State) : State :=
  let f := vfOf s v
  let refuse := countDrop v d.type 1 (modVf v (noteGap d) s)
  let others := poolUsed s - f.charged
  if f.overshare || decide (s.pwr.shed ≥ 1) then refuse
  else if fits others d.charge f then modVf v (pushBulk d) s
  else if d.type = 1 then
    let (g, n) := makeRoom others d.charge (f.bulk.length + 1) f 0
    let s := countDrop v 1 n (modVf v (fun _ => g) s)
    if fits others d.charge g then modVf v (pushBulk d) s
    else countDrop v 1 1 (modVf v (noteGap d) s)
  else refuse

/-- Lossless places taken by deliveries other than TRIP_ACK (R352). -/
def Vf.placesUsed (f : Vf) : Nat := (f.lossless.filter fun d => d.type != 5).length

/-- TRIP_ACK places taken (R352). -/
def Vf.acksUsed (f : Vf) : Nat := (f.lossless.filter fun d => d.type == 5).length

/-- EV_VF_STALLED (R359). -/
def stalledEvent (v st : Nat) (s : State) : State :=
  ev 0x0904 (u16 v ++ u8 st ++ u8 0 ++ w32 (vfOf s v).losslessLost) s

/-- A new EVENT or GOOSE_CHANGE delivery (R352). -/
def admitLossless (v : Nat) (d : Delivery) (s : State) : State :=
  let f := vfOf s v
  if f.stalled then modVf v (fun f => { f with losslessLost := satInc f.losslessLost }) s
  else if f.placesUsed ≥ 48 then
    stalledEvent v 1 (vfChange v (modVf v fun f => { f with stalled := true, losslessLost := satInc f.losslessLost }) s)
  else modVf v (fun f => { f with lossless := f.lossless ++ [d] }) s

/-- A TRIP_ACK delivery, never lost (R352). -/
def admitAck (v : Nat) (d : Delivery) (s : State) : State :=
  modVf v (fun f => { f with lossless := f.lossless ++ [d] }) s

/-- Values and validity of a G range, as words (R342). -/
def rangeWords (x : BitVec 1024) (first count : Nat) : Bytes :=
  (List.range (cdiv count 32)).flatMap fun i =>
    u32 (ofBits ((List.range 32).map fun j => decide (32 * i + j < count) && x.getLsbD (first + 32 * i + j)))

/-- Signals of R342: bit 0 START, 1 OPERATE, 2 BLOCKED_Q. -/
def Signals.byte (g : Signals) : Nat := fl g.start 0 + fl g.operate 1 + fl g.blockedQ 2

/-- The binding in force at index k (R349). -/
def Bind.atK (b : Bind) (k : Nat) : Option VfmBind :=
  match b.next with
  | some (fk, x) => if fk ≤ k then x else b.cur
  | none => b.cur

/-- The binding in force now, by the present index of its zone (R349). -/
def bindNow (s : State) (b : Bind) : Option VfmBind :=
  match b.next with
  | none => b.cur
  | some (_, x) => b.atK (zoneNowK s (((x.or b.cur).map VfmBind.zone).getD 0))

/-- A change of a binding slot has taken effect (R349). -/
def bindPassed (s : State) (b : Bind) : Bool :=
  match b.next with
  | none => true
  | some (k, x) => decide (k ≤ zoneNowK s (((x.or b.cur).map VfmBind.zone).getD 0))

/-- The STATE delivery of a binding slot (R342, R352). -/
def stateDelivery (s : State) (slot : Nat) (b : VfmBind) : Delivery :=
  let insts := s.prt.insts.filter fun p => p.2.cfg.zone == b.zone && nbit b.flags 1
  ⟨6, slot, u16 insts.length ++ u16 b.gFirst ++ u16 b.gCount ++ u16 0
    ++ insts.flatMap (fun p => u16 p.1 ++ u8 p.2.sig.byte ++ u8 0)
    ++ rangeWords s.sve.gbits b.gFirst b.gCount ++ rangeWords s.sve.gvalid b.gFirst b.gCount, 1⟩

/-- After a stall, once 32 places are free: one STATE per slot with EVENTS or G_COUNT, then STALLED clears (R352). -/
def losslessState (v : Nat) (s : State) : State :=
  let f := vfOf s v
  if f.stalled && decide (f.lossless.length ≤ 32) then
    let ds := (imap (fun i b => (i, b)) f.binds).filterMap fun p =>
      match bindNow s p.2 with
      | some c => if nbit c.flags 1 || decide (c.gCount > 0) then some (stateDelivery s p.1 c) else none
      | none => none
    stalledEvent v 0 (vfChange v (modVf v fun f => { f with stalled := false, lossless := f.lossless ++ ds }) s)
  else s

/-- Stages a frame that leaves the switch core on HP (R344). -/
def frameToVfs (dst vid : Nat) (group : Bool) (octets : Bytes) (s : State) : State :=
  let hit (p : Nat × Vf) : Bool := p.2.framesEn && (decide (p.2.vid = 0) || decide (p.2.vid = vid)) &&
    (if group then p.2.acceptGroup else decide (p.2.mac = dst))
  match s.vfm.vfs.filter hit with
  | [] => { s with vfm := { s.vfm with hpUnclaimed := satInc s.vfm.hpUnclaimed } }
  | vs => foldOver vs (fun p s => admitBulk p.1 ⟨2, 0, octets, 0⟩ s) s

/-- EVENT and GOOSE_CHANGE deliveries of every VF bound so (R349). -/
def deliverBound (want : VfmBind → Bool) (mk : Nat → VfmBind → Delivery) (s : State) : State :=
  foldOver s.vfm.vfs (fun p s =>
    foldOver (imap (fun i b => (i, b)) p.2.binds) (fun q s =>
      match bindNow s q.2 with
      | some c => if want c then losslessState p.1 (admitLossless p.1 (mk q.1 c) s) else s
      | none => s) s) s

end Sys2Proof.Machine
end

