-- ==== Sys2Proof/Machine/Switch.lean ====
section
/-! DEFINITION. The switch core: cells, classes, lookup, learning, scheduling, cut-through, mirroring (13_switch_core.md), and sending on the MAC ports (R296 to R298). -/

namespace Sys2Proof.Machine

def modSwc (f : Swc → Swc) (s : State) : State := { s with swc := f s.swc }

def modSwcPort (p : Nat) (f : SwcPort → SwcPort) (s : State) : State :=
  { s with swc := { s.swc with port := lmod s.swc.port p f } }

def modMac (p : Nat) (f : MacPort → MacPort) (s : State) : State := { s with mac := lmod s.mac p f }

def modPair (q : Nat) (f : Pair → Pair) (s : State) : State := { s with red := { s.red with pair := lmod s.red.pair q f } }

def swcPort (s : State) (p : Nat) : SwcPort := s.swc.port.getD p (SwcPort.resetWith 0#32)

def macOf (s : State) (p : Nat) : MacPort := s.mac.getD p (MacPort.resetWith 0#32)

def pairOf (s : State) (q : Nat) : Pair := s.red.pair.getD q (Pair.reset q)

/-- MAX_LEN and TX_QUANTA as they are used (R311). -/
def MacPort.lenMax (m : MacPort) : Nat := clampN 1518 9600 m.maxLen
def MacPort.quanta (m : MacPort) : Nat := max 1 m.txQuanta

/-- MAC_CNT[c] plus n, saturating (R311). -/
def macCount (p c n : Nat) (s : State) : State :=
  modMac p (fun m => { m with cnt := lmod m.cnt c fun w => BitVec.ofNat 64 (min (w.toNat + n) (2 ^ 64 - 1)) }) s

/-- Bit rate of a port in Mb/s (R286, R313). -/
def portMbps (s : State) (o : Nat) : Nat :=
  if o < 4 then [10, 100, 1000, 10000].getD (macOf s o).speed 10
  else if o = 4 then 50000 else if o = 5 then 25000 else 10000

/-- Time on the wire of len bytes with preamble and gap, in ns. -/
def wireNs (mbps len : Nat) : Nat := (len + 20) * 8 * 1000 / mbps

/-- SA and SB are off from SHED3 on (R328). -/
def portOff (s : State) (p : Nat) : Bool := decide (s.pwr.shed ≥ 3) && (p == 2 || p == 3)

/-- LINK of a port that is switched on. -/
def linkUp (s : State) (p : Nat) : Bool := (macOf s p).link && !portOff s p

/-- Mode of the pair of port p (R296). -/
def pairMode (s : State) (p : Nat) : Nat := (pairOf s (p / 2)).cfg.mode

/-- The switch-core port that stands for MAC port p (R313). -/
def logical (s : State) (p : Nat) : Nat := if pairMode s p = 0 then p else p / 2 * 2

/-- A switch-core output is up (R313, R320). -/
def outUp (s : State) (o : Nat) : Bool :=
  if o < 4 then (if pairMode s o = 0 then linkUp s o else decide (o % 2 = 0) && (linkUp s o || linkUp s (o + 1)))
  else if o = 4 then s.vfm.linkUp else true

/-- The active MAC port of a Bracket pair, unless both are down (R298, R301). -/
def activePort (s : State) (q : Nat) : Option Nat :=
  let p := pairOf s q
  if p.bothDown then none else some (2 * q + p.active)

/-- The MAC ports an output sends on. -/
def sendPorts (s : State) (o : Nat) : List Nat :=
  match pairMode s o with
  | 0 => [o]
  | 1 => [o, o + 1]
  | _ => (activePort s (o / 2)).toList

/-- A port obeys a PAUSE (R291). -/
def macPaused (s : State) (p : Nat) : Bool :=
  match (macOf s p).pauseEnd with
  | some e => decide (s.now < e)
  | none => false

/-- The output serves no frame: paused, down, or HP in L1 (R323). -/
def outHeld (s : State) (o : Nat) : Bool :=
  !outUp s o || (decide (o < 4) && (sendPorts s o).any (macPaused s)) || (decide (o = 4) && hostL1 s)

/-- Group address: bit 0 of the first byte. -/
def isGroup (a : Nat) : Bool := a % 2 = 1

abbrev broadcast : Nat := 0xFFFFFFFFFFFF

/-- Octets of an address in wire order. -/
def macBytes (a : Nat) : Bytes := le 6 a

/-- Octets of a frame body. -/
def FrameBody.octets : FrameBody → Bytes
  | .raw b => b
  | b => Config.bodyOctets b

/-- Octets of a frame without its FCS. -/
def NetFrame.octets (f : NetFrame) : Bytes :=
  macBytes f.dst ++ macBytes f.src ++ (match f.tag with | some (p, v) => be 2 0x8100 ++ be 2 (p * 8192 + v) | none => [])
    ++ be 2 f.etype ++ f.body.octets

/-- Class of a frame entering at inp (R318). -/
def frameClass (s : State) (inp : Nat) (f : NetFrame) : Nat :=
  let e := s.swc.etypeTc
  let own := bits (swcPort s inp).cfg 14 12
  let pcp := match f.tag with | some (p, v) => if v = 0 then own else p | none => own
  if inp = 6 then 7
  else if f.etype = 0x88BA ∧ bit e 3 then bits e 2 0
  else if f.etype = 0x88B8 ∧ bit e 7 then bits e 6 4
  else if f.etype = 0x88F7 ∧ bit e 11 then bits e 10 8
  else bits (swcPort s inp).pcpMap (3 * pcp + 2) (3 * pcp)

/-- VID of a frame entering at inp (R319). -/
def frameVid (s : State) (inp : Nat) (f : NetFrame) : Nat :=
  let pvid := bits (swcPort s inp).cfg 11 0
  match f.tag with
  | some (_, v) => if v = 0 then pvid else v
  | none => pvid

/-- The VLAN entry when it is valid and the input is a member (R319). -/
def vlanFor (s : State) (inp vid : Nat) : Option VlanRow :=
  match tget s.swc.vlan vid with
  | some r => if r.valid && r.member.getLsbD inp && vid != 4095 then some r else none
  | none => none

/-- FDB bucket of an address in a VLAN (R321). -/
def fdbBucket (mac vid : Nat) : Nat := (crc32c (macBytes mac ++ le 2 vid)).toNat % 4096

def fdbFind (s : State) (mac vid : Nat) : Option FdbEnt := s.swc.fdb.find? fun e => e.mac == mac && e.vid == vid

/-- A station address of the four MACs, a fixed entry for CP (R320). -/
def isStation (a : Nat) : Bool := (List.range 4).any fun p => Config.mac p == a

/-- Mask of a destination before steering (R320 step 1). -/
def destMask (s : State) (r : VlanRow) (f : NetFrame) (vid : Nat) : BitVec 8 :=
  if f.dst = broadcast then r.member
  else if isGroup f.dst then
    match s.swc.mcast.find? fun e => e.mac == f.dst && e.vid == vid with
    | some e => e.mask
    | none => if r.floodUnkMc then r.member else 0#8
  else if isStation f.dst then 0x20#8
  else match fdbFind s f.dst vid with
    | some e => BitVec.ofNat 8 (2 ^ e.port)
    | none => r.member

/-- Mask that APPID steering adds (R320 step 2). -/
def appidMask (s : State) (f : NetFrame) : BitVec 8 :=
  match f.appid with
  | none => 0#8
  | some a =>
    let hit := s.swc.appid.filter fun e => e.row.appid == a && (e.row.etype == (if f.etype = 0x88BA then 0 else 1)) &&
      (e.row.dst == 0 || e.row.dst == f.dst)
    hit.foldl (fun (m : BitVec 8) e => m ||| e.row.mask) 0#8

/-- Output mask after pruning (R320 steps 1 to 3): an SV frame from SA, SB or HP never goes to CP (R116). -/
def lookup (s : State) (inp vid : Nat) (r : VlanRow) (f : NetFrame) : List Nat :=
  let m := (destMask s r f vid ||| appidMask s f) &&& r.member
  let m := if f.etype = 0x88BA ∧ (inp = 2 ∨ inp = 3 ∨ inp = 4) then m &&& 0xDF#8 else m
  (List.range 6).filter fun o => m.getLsbD o && o != inp && outUp s o

/-- Mirror copy wanted: MIR_IN of the input or MIR_OUT of an output (R326). -/
def mirrorWanted (s : State) (inp : Nat) (outs : List Nat) : Bool :=
  bit (swcPort s inp).cfg 18 || outs.any fun o => bit (swcPort s o).cfg 19

/-- Cells of a frame. -/
def HeldFrame.cells (h : HeldFrame) : Nat := h.guar + h.prot + h.shared

/-- A frame held for DP alone counts against MIRROR_CAP in place of R316, so that mirroring drops no original frame (R326; DEDUCED, log entry 215). -/
def HeldFrame.charged (h : HeldFrame) : Bool := h.outs != [7]

/-- The frames whose cells are charged to their inputs (R315, R326). -/
def charged (s : State) : List HeldFrame := s.swc.frames.filter HeldFrame.charged

def cellsIn (s : State) (i : Nat) : Nat := nsum (((charged s).filter fun h => h.inp == i).map HeldFrame.cells)

/-- Cells held for frames received on MAC port p (R292). -/
def cellsPort (s : State) (p : Nat) : Nat := nsum (((charged s).filter fun h => h.port == p).map HeldFrame.cells)

def guarUsed (s : State) (i : Nat) : Nat := nsum (((charged s).filter fun h => h.inp == i).map HeldFrame.guar)
def protUsed (s : State) : Nat := nsum ((charged s).map HeldFrame.prot)
def sharedUsed (s : State) : Nat := nsum ((charged s).map HeldFrame.shared)
def sharedIn (s : State) (i : Nat) : Nat := nsum (((charged s).filter fun h => h.inp == i).map HeldFrame.shared)
def sharedClass (s : State) (c : Nat) : Nat := nsum (((charged s).filter fun h => h.cls == c).map HeldFrame.shared)

/-- Cells of the shared pool (R317). -/
def sharedPool (p : SwcPolicy) : Nat := 32768 - nsum p.guar - p.protRes

/-- Takes need cells, each from the first source that has room (R316): guarantee, protection reserve, shared pool. -/
def allocCells (s : State) (inp cls need : Nat) : Option (Nat × Nat × Nat) :=
  let p := s.swc.policy
  let g := min need (p.guar.getD inp 0 - guarUsed s inp)
  let r := if cls = 6 ∨ cls = 7 then min (need - g) (p.protRes - protUsed s) else 0
  let sh := need - g - r
  let room := min (min (p.cap.getD inp 0 - sharedIn s inp) (p.classCap.getD cls 0 - sharedClass s cls)) (sharedPool p - sharedUsed s)
  if sh ≤ room then some (g, r, sh) else none

/-- One pause quantum on a port, in ps (R290). -/
def quantumPs (s : State) (p : Nat) : Nat := 512 * 1000000 / portMbps s p

/-- MAC Control PAUSE sent by port p, after the frame in progress (R292). -/
def sendPause (p quanta : Nat) (s : State) : State :=
  if !linkUp s p then s
  else
    let s := modMac p (fun m => { m with txUntil := max s.now m.txUntil + wireNs (portMbps s p) 64 }) (macCount p 14 1 s)
    emit (.frame p ⟨0x010000C28001, Config.mac p, none, 0x8808, none, 64, .pause quanta⟩ none) s

/-- PAUSE when the cells held reach XOFF, release when they fall to XON (R292). -/
def pauseCheck (p : Nat) (s : State) : State :=
  let m := macOf s p
  if !bit m.ctl 5 then s
  else match m.xoffSent with
    | none =>
      if cellsPort s p ≥ m.xoff then
        sendPause p m.quanta (modMac p (fun m => { m with xoffSent := some (s.now + m.quanta * quantumPs s p / 2000) }) s)
      else s
    | some _ => if cellsPort s p ≤ m.xon then sendPause p 0 (modMac p (fun m => { m with xoffSent := none }) s) else s

/-- PAUSE check of every MAC port (R292), at every change of the cells held. -/
def pauseChecks (s : State) : State := foldOver (List.range 4) pauseCheck s

/-- Removes output o from a frame's copies; a frame without copies gives its cells back (R315). -/
def dropCopy (id o : Nat) (fs : List HeldFrame) : List HeldFrame :=
  (fs.map fun h => if h.id = id then { h with outs := h.outs.filter (· != o) } else h).filter fun h => !h.outs.isEmpty

/-- Ends the transmissions that have finished by now; the cells they free may end a pause of the sender (R292, R315). -/
def swcSettle (s : State) : State :=
  let done (o : Nat) : Bool := match s.swc.sending.getD o none with
    | some (_, e) => decide (e ≤ s.now)
    | none => false
  if !(List.range 8).any done then s
  else
    pauseChecks (foldOver ((List.range 8).filter done) (fun o s =>
      match s.swc.sending.getD o none with
      | some (id, _) => modSwc (fun w => { w with sending := lset w.sending o none, frames := dropCopy id o w.frames }) s
      | none => s) s)

/-- Counts a drop for want of a cell (R316, R330). -/
def swcInDrop (inp port : Nat) (s : State) : State :=
  let s := modSwcPort inp (fun p => { p with inDrop := satInc p.inDrop, dropNew := p.dropNew + 1 }) s
  let s := if port < 4 then macCount port 11 1 s else s
  let p := swcPort s inp
  if secondPassed s p.dropLast then
    ev 0x0843 (u8 inp ++ zeros 3 ++ u32 p.dropNew) (modSwcPort inp (fun p => { p with dropNew := 0, dropLast := some s.now }) s)
  else s

/-- A cut-through copy ended with the FCS inverted (R325). -/
def swcStomp (o : Nat) (s : State) : State :=
  let s := emit (.stomp o) (modSwcPort o (fun p => { p with stomp := satInc p.stomp, stompNew := p.stompNew + 1 }) s)
  let s := if o < 4 then foldOver (sendPorts s o) (fun p s => macCount p 15 1 s) s else s
  let p := swcPort s o
  if secondPassed s p.stompLast then
    ev 0x0844 (u8 o ++ zeros 3 ++ u32 p.stompNew) (modSwcPort o (fun p => { p with stompNew := 0, stompLast := some s.now }) s)
  else s

/-- Learning has failed n times (R321, R330). -/
def learnFailed (n : Nat) (s : State) : State :=
  if n = 0 then s
  else
    let s := modSwc (fun w => { w with learnFail := satAdd w.learnFail n, learnNew := w.learnNew + n }) s
    if secondPassed s s.swc.learnLast then
      ev 0x0845 (u32 s.swc.learnNew) (modSwc (fun w => { w with learnNew := 0, learnLast := some s.now }) s)
    else s

/-- Learns (VID, source) on a port (R321). -/
def fdbLearn (inp vid src : Nat) (s : State) : State :=
  if !bit (swcPort s inp).cfg 16 || isGroup src || src == 0 || isStation src then s
  else match fdbFind s src vid with
    | some e => if e.static then s
        else modSwc (fun w => { w with fdb := w.fdb.map fun x => if x.mac = src ∧ x.vid = vid then { x with port := inp, seen := s.now } else x }) s
    | none =>
      let b := fdbBucket src vid
      if (s.swc.fdb.filter fun e => fdbBucket e.mac e.vid == b).length ≥ 4 then learnFailed 1 s
      else modSwc (fun w => { w with fdb := w.fdb ++ [⟨src, vid, inp, false, s.now, s.now⟩] }) s

/-- Transmission of a frame on a MAC port whose LINK is set (R311 counters). -/
def macTx (p : Nat) (f : NetFrame) (rct : Option (BitVec 16)) (s : State) : State :=
  if !linkUp s p then s
  else
    let n := f.len + (if rct.isSome then 6 else 0)
    let s := modMac p (fun m => { m with txUntil := s.now + wireNs (portMbps s p) n }) s
    emit (.frame p f rct) (macCount p 13 n (macCount p 12 1 s))

/-- The egress tag and length of a frame (R320). -/
def egressTag (s : State) (inp vid o : Nat) (f : NetFrame) : NetFrame :=
  let untag := match tget s.swc.vlan vid with | some r => r.untag.getLsbD o | none => false
  let pcp := match f.tag with | some (p, _) => p | none => bits (swcPort s inp).cfg 14 12
  let base := match f.tag with | some _ => f.len - 4 | none => f.len
  if untag then { f with tag := none, len := base } else { f with tag := some (pcp, vid), len := base + 4 }

/-- Fields of a PTP message body: domain, message type, two-step flag, source port identity, sequenceId. -/
def ptpFields (b : Bytes) : Nat × Nat × Bool × Nat × Nat × Nat :=
  (fld b 4 1, fld b 0 1 % 16, nbit (fld b 6 1) 1, unbe (slice b 20 8), unbe (slice b 28 2), unbe (slice b 30 2))

/-- Adds 2^-16 ns to the correctionField of a PTP message body (R262). -/
def addCorrection (b : Bytes) (x : Int) : Bytes :=
  let c := sext 64 (unbe (slice b 8 8)) + x
  b.take 8 ++ (leI 8 c).reverse ++ b.drop 16

/-- The base a transparent clock measures on: that of the instance of the domain when it is LOCKED or in HOLDOVER, else TB0 (R262). -/
def tcBase (s : State) (domain : Nat) : Nat :=
  match (List.range 4).find? fun b => (baseOf s b).cfg.src == 1 && (baseOf s b).cfg.domain == domain && (baseOf s b).st != .free with
  | some b => b
  | none => 0

/-- Residence time plus meanLinkDelay of the ingress port, 2^-16 ns (R260, R262). -/
def tcDelay (s : State) (inPort outPort domain : Nat) (stamp : List Int) : Int :=
  let b := tcBase s domain
  let rxLat := bits ((s.tbs.ports.getD inPort PtpPort.reset).lat) 15 0
  let txLat := bits ((s.tbs.ports.getD outPort PtpPort.reset).lat) 31 16
  let mpd := ((s.tbs.ports.getD inPort PtpPort.reset).mpd).getD 0
  ((baseNs s b + txLat) - (stamp.getD b 0 - rxLat) + mpd) * 65536

/-- The transparent-clock correction of a forwarded Sync or Follow_Up that leaves on MAC port p (R262). -/
def tcCorrect (inPort p : Nat) (stamp : List Int) (f : NetFrame) (s : State) : NetFrame × State :=
  match f.body with
  | .raw b =>
    if f.etype ≠ 0x88F7 ∨ inPort ≥ 4 ∨ p ≥ 4 then (f, s)
    else
      let (dom, mt, two, sid, sp, seq) := ptpFields b
      let d := tcDelay s inPort p dom stamp
      let count (s : State) := { s with tbs := { s.tbs with ports := lmod s.tbs.ports p fun q => { q with tcCnt := satInc q.tcCnt } } }
      if mt = 0 ∧ !two then ({ f with body := .raw (addCorrection b d) }, count s)
      else if mt = 0 then
        (f, { s with tbs := { s.tbs with ports := lmod s.tbs.ports p fun q => { q with tcWaits := q.tcWaits ++ [(dom, sid, sp, seq, d, s.now)] } } })
      else if mt = 8 then
        let hit (w : Nat × Nat × Nat × Nat × Int × Nat) : Bool :=
          w.1 == dom && w.2.1 == sid && w.2.2.1 == sp && w.2.2.2.1 == seq && decide (s.now ≤ w.2.2.2.2.2 + NS)
        match (ptpOf s p).tcWaits.find? hit with
        | some w =>
          let s := { s with tbs := { s.tbs with ports := lmod s.tbs.ports p fun q => { q with tcWaits := q.tcWaits.filter fun x => !hit x } } }
          ({ f with body := .raw (addCorrection b w.2.2.2.2.1) }, count s)
        | none => (f, s)
      else (f, s)
  | _ => (f, s)

/-- A copy leaves on MAC port p; tc names the port and the stamps of its reception, for the transparent clock. -/
def macSend (p : Nat) (tc : Option (Nat × List Int)) (f : NetFrame) (rct : Option (BitVec 16)) (s : State) : State :=
  if !linkUp s p then s
  else
    let (f, s) := match tc with
      | some (inPort, stamp) => tcCorrect inPort p stamp f s
      | none => (f, s)
    macTx p f rct s

/-- Sends a frame from an output of a pair or port (R296 to R298): PTP and oversize frames go without a trailer, PTP in both copies with its own correction (R258, R262). -/
def pairSend (o : Nat) (tc : Option (Nat × List Int)) (f : NetFrame) (s : State) : State :=
  let q := o / 2
  match pairMode s o with
  | 0 => macSend o tc f none s
  | 1 =>
    if f.etype = 0x88F7 then macSend (2 * q + 1) tc f none (macSend (2 * q) tc f none s)
    else if f.len + 6 > (macOf s (2 * q)).lenMax then
      macSend (2 * q + 1) tc f none (macSend (2 * q) tc f none (modPair q (fun p => { p with noRct := satInc p.noRct }) s))
    else
      let n := (pairOf s q).seqNr
      macSend (2 * q + 1) tc f (some n) (macSend (2 * q) tc f (some n) (modPair q (fun p => { p with seqNr := p.seqNr + 1 }) s))
  | _ =>
    if f.etype = 0x88F7 then macSend (2 * q + 1) tc f none (macSend (2 * q) tc f none s)
    else match activePort s q with
      | some p => macSend p tc f none s
      | none => s

/-- One copy leaves on output o (R320, R323, R262, R344). -/
def egress (o : Nat) (h : HeldFrame) (s : State) : State :=
  let s := modSwcPort o (fun p => { p with txFrames := satInc p.txFrames }) s
  match h.via with
  | .port p =>
    let (f, s) := ptpLeave p h.frame s
    macTx p f none s
  | .pair => pairSend o none h.frame s
  | .switched =>
    if o = 7 then emit (.frame 7 h.frame none) s
    else
      let g := egressTag s h.inp h.vid o h.frame
      if o < 4 then pairSend o (some (h.port, h.stamp)) g s
      else if o = 4 then frameToVfs h.frame.dst h.vid (isGroup h.frame.dst) g.octets s
      else s

/-- The instant at which the transmission that output o has just started ends. -/
def sendEnd (s : State) (o len : Nat) : Nat :=
  if o < 4 then (sendPorts s o).foldl (fun m p => max m (macOf s p).txUntil) s.now else s.now + wireNs (portMbps s o) len

/-- Output o transmits a copy of a held frame from now on (R315). -/
def swcSend (o : Nat) (h : HeldFrame) (s : State) : State :=
  let s := egress o h s
  modSwc (fun w => { w with sending := lset w.sending o (some (h.id, sendEnd s o h.frame.len)) }) s

/-- A MAC of output o transmits (R291, R324). -/
def outBusy (s : State) (o : Nat) : Bool :=
  (s.swc.sending.getD o none).isSome || (decide (o < 4) && (sendPorts s o).any fun p => decide (s.now < (macOf s p).txUntil))

/-- Speed at which a frame comes in: that of the MAC port it is received on, or of the input (R313, R324). -/
def inMbps (s : State) (inp port : Nat) : Nat := portMbps s (if port < 4 then port else inp)

/-- Speed at which an output sends: that of the fastest MAC port it sends on (R313, R324). -/
def outMbps (s : State) (o : Nat) : Nat :=
  if o < 4 then (sendPorts s o).foldl (fun m p => max m (portMbps s p)) 0 else portMbps s o

/-- Cut-through condition of an output, for a frame that input inp takes from MAC port port, 8 for none (R324). -/
def ctOk (s : State) (inp port o : Nat) : Bool :=
  bit (swcPort s o).cfg 17 && !outBusy s o && !outHeld s o && s.swc.voqs.all (fun v => v.2.1 != o)
    && decide (outMbps s o ≤ inMbps s inp port)

/-- Queues a copy for DP, within MIRROR_CAP (R326). -/
def mirrorAdd (want : Bool) (need : Nat) (outs : List Nat) (s : State) : List Nat × State :=
  if !want then (outs, s)
  else if nsum ((s.swc.frames.filter fun h => h.outs.contains 7).map HeldFrame.cells) + need ≤ s.swc.policy.mirrorCap then (outs ++ [7], s)
  else (outs, modSwc (fun w => { w with mirrorDrop := satInc w.mirrorDrop }) s)

/-- UDP PTP (R257, R289): IPv4, UDP, destination port 319 or 320. -/
def udpPtp (f : NetFrame) : Bool :=
  match f.body with
  | .raw b =>
    let ihl := fld b 0 1 % 16 * 4
    let port := unbe (slice b (ihl + 2) 2)
    f.etype == 0x0800 && fld b 0 1 / 16 == 4 && fld b 9 1 == 17 && (port == 319 || port == 320)
  | _ => false

/-- Peer-delay messages terminate at the port (R262). -/
def pdelayFrame (f : NetFrame) : Bool :=
  match f.body with
  | .raw b => let mt := fld b 0 1 % 16; mt == 2 || mt == 3 || mt == 10
  | _ => false

/-- A frame with its cells is held until its last copy has left (R315): the copies of cts are cut through, those of queued wait. -/
def swcHold (h : HeldFrame) (cts queued : List Nat) (s : State) : State :=
  let h := { h with id := s.swc.nextId, outs := cts ++ queued }
  let s := modSwc (fun w => { w with nextId := h.id + 1, frames := w.frames ++ [h], voqs := w.voqs ++ queued.map fun o => (h.inp, o, h.cls, h.id) }) s
  pauseChecks (foldOver cts (fun o s => swcSend o h (modSwcPort o (fun p => { p with ctCnt := satInc p.ctCnt }) s)) s)

/-- Messages that the switch core never forwards (R262): peer-delay messages, and PTP over UDP/IPv4. -/
def ptpStops (f : NetFrame) : Bool := if f.etype = 0x88F7 then pdelayFrame f else udpPtp f

/-- A frame enters the switch core at input inp, received on MAC port port (8 for none), its FCS good or not (R314 to R326). Its first cell is taken before the lookup; a frame without an output gives it back. -/
def swcIn (inp port : Nat) (stamp : List Int) (good : Bool) (f : NetFrame) (s : State) : State :=
  let s := swcSettle s
  let cls := frameClass s inp f
  if ptpStops f then s
  else match allocCells s inp cls 1 with
  | none => swcInDrop inp port s
  | some _ =>
    let vid := frameVid s inp f
    match vlanFor s inp vid with
    | none => modSwc (fun w => { w with vlanDrop := satInc w.vlanDrop }) s
    | some r =>
      let outs := lookup s inp vid r f
      let want := mirrorWanted s inp outs
      let cts := outs.filter (ctOk s inp port)
      let learn (s : State) : State := if good then fdbLearn inp vid f.src s else s
      let need := cdiv f.len 256
      if outs.isEmpty && !want then learn s
      else match allocCells s inp cls need with
      | none => learn (foldOver cts swcStomp (swcInDrop inp port s))
      | some (g, p, sh) =>
        if !good then foldOver cts swcStomp s
        else
          let (queued, s) := mirrorAdd want need (outs.filter fun o => !cts.contains o) (learn s)
          if (cts ++ queued).isEmpty then s
          else swcHold ⟨0, f, inp, cls, vid, g, p, sh, [], stamp, port, .switched⟩ cts queued s

/-- A frame of the module enters at CP for one output, outside lookup: a PTP message for a MAC port, a supervision frame for a pair (R297, R313). -/
def swcOwn (via : Via) (o : Nat) (f : NetFrame) (s : State) : State :=
  let s := swcSettle s
  let cls := frameClass s 5 f
  let need := cdiv f.len 256
  if !outUp s o then s
  else match allocCells s 5 cls need with
    | none => swcInDrop 5 8 s
    | some (g, p, sh) =>
      let cts := if ctOk s 5 8 o then [o] else []
      let (queued, s) := mirrorAdd (mirrorWanted s 5 [o]) need (if ctOk s 5 8 o then [] else [o]) s
      swcHold ⟨0, f, 5, cls, 0, g, p, sh, [], tab 4 (baseNs s), 8, via⟩ cts queued s

/-- A frame of the SVC for port SA or SB enters the switch core at CP. -/
def svcFrame (dst port etype len : Nat) (body : FrameBody) (s : State) : State :=
  swcIn 5 8 (tab 4 (baseNs s)) true ⟨dst, Config.mac (2 + port), none, etype, none, max 64 len, body⟩ s

/-- The replies over UDP that wait enter the switch core, in order (R378). -/
def udpOut (s : State) : State :=
  foldOver s.cmd.udpTx (fun r s => svcFrame (Config.stationOf r.addr) (r.src % 2) 0x0800 (46 + r.octets.length) (.udp r.addr r.port r.octets) s)
    { s with cmd := { s.cmd with udpTx := [] } }

/-- Head frame of VOQ (i, o, c). -/
def voqHead (s : State) (i o c : Nat) : Option HeldFrame :=
  match s.swc.voqs.find? fun v => v.1 == i && v.2.1 == o && v.2.2.1 == c with
  | some v => s.swc.frames.find? fun h => h.id == v.2.2.2
  | none => none

/-- The input served next in class c of output o: MP first in TC7, else round robin (R323). -/
def nextInput (s : State) (o c : Nat) : Option Nat :=
  if c = 7 ∧ (voqHead s 6 o c).isSome then some 6
  else
    let l := (swcPort s o).lastIn.getD c 7
    ((List.range 8).map fun k => (l + 1 + k) % 8).find? fun i => (voqHead s i o c).isSome

/-- Deficit round robin over the weighted classes of output o (R323): the class served and the new deficits and pointer. -/
def drrPick (heads : List (Option Nat)) (quantum : List Nat) : Nat → List Nat → Nat → Option (Nat × List Nat × Nat)
  | 0, _, _ => none
  | k + 1, d, c =>
    match heads.getD c none with
    | some len =>
      if len ≤ d.getD c 0 then some (c, d.set c (d.getD c 0 - len), c)
      else
        let c' := (c + 1) % 8
        drrPick heads quantum k (d.set c' (d.getD c' 0 + quantum.getD c' 0)) c'
    | none =>
      let c' := (c + 1) % 8
      let d := d.set c 0
      drrPick heads quantum k (d.set c' (d.getD c' 0 + quantum.getD c' 0)) c'

/-- WEIGHT of a class of output o; 0 is used as 1, TC6 and TC7 at their reset weights (R331). -/
def weightOf (s : State) (o c : Nat) : Nat := max 1 (((s.swc.policy.weight.getD o []) ++ [64, 127]).getD c 1)

/-- The class and input output o serves next (R323). -/
def schedule (s : State) (o : Nat) : Option (Nat × Nat × State) :=
  let strict := s.swc.policy.strict.getD o 0#8
  match ([7, 6, 5, 4, 3, 2, 1, 0].filter fun c => strict.getLsbD c).find? fun c => (nextInput s o c).isSome with
  | some c => (nextInput s o c).map fun i => (c, i, s)
  | none =>
    let heads := (List.range 8).map fun c => if strict.getLsbD c then none else
      (nextInput s o c).bind fun i => (voqHead s i o c).map fun h => h.frame.len
    if heads.all Option.isNone then none
    else
      let p := swcPort s o
      match drrPick heads ((List.range 8).map fun c => 256 * weightOf s o c) 400 p.deficit p.drrNext with
      | some (c, d, n) =>
        (nextInput s o c).map fun i => (c, i, modSwcPort o (fun p => { p with deficit := d, drrNext := n }) s)
      | none => none

/-- Removes the head of VOQ (i, o, c). -/
def voqPop (i o c : Nat) : List (Nat × Nat × Nat × Nat) → List (Nat × Nat × Nat × Nat)
  | [] => []
  | v :: r => if v.1 = i ∧ v.2.1 = o ∧ v.2.2.1 = c then r else v :: voqPop i o c r

/-- An output's scheduler starts its next frame (R323). -/
def swcTransmit (o : Nat) (s : State) : State :=
  let s := swcSettle s
  if o ≥ 8 ∨ outBusy s o ∨ outHeld s o then s
  else match schedule s o with
    | none => s
    | some (c, i, s) =>
      match voqHead s i o c with
      | none => s
      | some h =>
        let s := modSwc (fun w => { w with voqs := voqPop i o c w.voqs }) s
        let s := modSwcPort o (fun p => { p with lastIn := if i = 6 ∧ c = 7 then p.lastIn else lset p.lastIn c i }) s
        swcSend o h s

/-- Discards the frames queued for an output, and the one in transmission (R328). -/
def swcFlush (o : Nat) (s : State) : State :=
  let n := (s.swc.voqs.filter fun v => v.2.1 == o).length
  let s := pauseChecks (modSwc (fun w => { w with
    voqs := w.voqs.filter fun v => v.2.1 != o
    sending := lset w.sending o none
    frames := (w.frames.map fun h => { h with outs := h.outs.filter (· != o) }).filter fun h => !h.outs.isEmpty }) s)
  if n = 0 then s
  else ev 0x0846 (u8 o ++ zeros 3 ++ u32 n) (modSwcPort o (fun p => { p with outFlush := satAdd p.outFlush n }) s)

/-- Buffer and dynamic entries at a start (R328); deficits and round robins restart, and the depth read of a VOQ is 0 (R331). -/
def swcStart (s : State) : State :=
  modSwc (fun w => { w with
    frames := [], voqs := [], voqDepth := 0#32, sending := List.replicate 8 none, fdb := w.fdb.filter FdbEnt.static
    port := w.port.map fun p => { p with deficit := List.replicate 8 0, drrNext := 0, lastIn := List.replicate 8 7 } }) s

end Sys2Proof.Machine
end

