-- ==== Sys2Proof/Machine/Bits.lean ====
section
/-! DEFINITION. Operands of the Pedin BL areas as bits of the state (R147, R191, R207, R211). -/

namespace Sys2Proof.Machine

/-- Signal n of an instance: 0 START, 1 OPERATE, 2 BLOCKED_Q, 3 BLOCKED_IN, 4 and 5 auxiliary (R147). -/
def Signals.bit (g : Signals) : Nat → Bool
  | 0 => g.start
  | 1 => g.operate
  | 2 => g.blockedQ
  | 3 => g.blockedIn
  | 4 => g.aux1
  | 5 => g.aux2
  | _ => false

def signalOf (s : State) (inst sig : Nat) : Bool :=
  match tget s.prt.insts inst with
  | some i => i.sig.bit sig
  | none => false

def rowOf (s : State) (r : Nat) : Row := s.trp.rows.getD r Row.reset

def biOf (s : State) (n : Nat) : BinIn := s.trp.bi.getD n BinIn.reset

/-- I operands (R191, R207). -/
def iBit (s : State) (n : Nat) : Bool :=
  if n < 16 then (biOf s n).val
  else if n < 24 then s.trp.tofb.getLsbD (n - 16)
  else if n < 32 then s.trp.mismatch.getLsbD (n - 24)
  else if n < 36 then s.trg.pins.getLsbD (n - 32)
  else s.trg.xline.getLsbD (n - 36)

/-- E operands: instance signals, and rows active (R191). -/
def eBit (s : State) (n : Nat) : Bool :=
  if n < 32768 then signalOf s (n / 16) (n % 16)
  else if n < 32784 then (rowOf s (n - 32768)).active else false

/-- LINK of port p (R287). -/
def portUp (s : State) (p : Nat) : Bool := linkUp s p

/-- System bits that no task owns (R211). -/
def sBit (s : State) (tb n : Nat) : Bool :=
  if n = 2 then forceActive s
  else if n < 4 then false
  else if n < 7 then nbit s.pwr.shed (n - 4)
  else if n = 7 then (baseOf s tb).st == .locked
  else if n = 8 then (baseOf s tb).st == .holdover
  else if n < 13 then portUp s (n - 9)
  else if n = 13 then s.vfm.linkUp
  else if n < 16 then false
  else match tget s.prt.zones (n - 16) with
    | some z => z.test.isSome
    | none => false

/-- Number of operands of an area (R207). -/
def areaTop : Nat → Nat
  | 0 => 38
  | 1 => 4160
  | 2 => 65536
  | 3 => 32784
  | 4 => 1024
  | 5 => 16384
  | 6 => 4096
  | 7 => 4096
  | 8 => 80
  | 9 => 2
  | _ => 0

/-- An operand that exists and is not reserved (R207, R211). -/
def operandOk (area n : Nat) : Bool := decide (n < areaTop area) && !(area == 8 && (n == 14 || n == 15))

/-- Q of a counter with its instruction and PV (R214). -/
def counterQ (img : Image) (n : Nat) (c : CounterSt) : Bool :=
  match img.counters.find? fun d => d.c == n with
  | some d => if img.prog.any fun i => i.op == 0x25 && i.opnd == n then c.cv == 0 else decide (d.pv ≤ c.cv)
  | none => false

/-- T and C operands, of the task that owns the number (R207). -/
def timerBit (s : State) (n : Nat) : Bool := s.cyc.tasks.any fun p => ((tget p.2.timers n).map TimerSt.q).getD false

def counterBit (s : State) (n : Nat) : Bool := s.cyc.tasks.any fun p =>
  match tget p.2.counters n, tget s.cyc.slots p.2.cfg.slot with
  | some c, some img => counterQ img n c
  | _, _ => false

/-- The present value of an operand outside a task: S bits that a task owns read 0 there. -/
def operandBit (s : State) (area n : Nat) : Bool :=
  match area with
  | 0 => iBit s n
  | 1 => s.cyc.q.getLsbD n
  | 2 => s.cyc.m.getLsbD n
  | 3 => eBit s n
  | 4 => s.sve.gbits.getLsbD n
  | 5 => s.cyc.v.getLsbD n
  | 6 => timerBit s n
  | 7 => counterBit s n
  | 8 => sBit s 0 n
  | 9 => n == 1
  | _ => false

/-- The present level of a digital source (R90); a TEG and a command have none. -/
def srcLevel (s : State) (src : Nat) : Bool :=
  if src < 4 then s.trg.pins.getLsbD src
  else if src < 6 then s.trg.xline.getLsbD (src - 4)
  else if src < 0x10 then false
  else if src < 0x40 then
    match s.flt.ch[(src - 0x10) / 2]? with
    | some c => match c.fs[(src - 0x10) % 2]? with | some f => f.out | none => false
    | none => false
  else if src < 0x50 then (biOf s (src - 0x40)).val
  else if src < 0x58 then s.trp.pins.getLsbD (src - 0x50)
  else if src < 0x100 then false
  else if src < 0x140 then s.trg.ltrig.getLsbD (src - 0x100)
  else if src < 0x1000 then false
  else if src < 0x1800 then signalOf s (src - 0x1000) 0
  else if src < 0x2000 then signalOf s (src - 0x1800) 1
  else if src < 0x2400 then s.sve.gbits.getLsbD (src - 0x2000)
  else false

/-- SOURCE codes that are reserved (R90). -/
def srcReserved (src : Nat) : Bool :=
  !(decide (src < 6) || (decide (0x10 ≤ src) && decide (src < 0x58)) || (decide (0x60 ≤ src) && decide (src < 0x70))
    || (decide (0x100 ≤ src) && decide (src < 0x140)) || (decide (0x1000 ≤ src) && decide (src < 0x2400)))

end Sys2Proof.Machine
end

