-- ==== Sys2Proof/Machine/Flags.lean ====
section
/-! DEFINITION. Sample flags, the quality word and the condition of a sample (R47, R76, R113, R114). -/

namespace Sys2Proof.Machine

/-- Sample flags of R47 as bits 0 to 5: OVR, IMPL, UNCHK, CAL, RESYNC, FAULT. -/
abbrev SampFlags := BitVec 6

/-- Quality word (R113). -/
abbrev Quality := BitVec 16

/-- Invalid, oldData: the quality of a channel without a final slot (R138). -/
abbrev qEmpty : Quality := 0x0081#16

/-- Invalid, oldData, substituted (R124). -/
abbrev qLost : Quality := 0x0481#16

/-- Flags that make a sample invalid (R76), and that block a flash stage (R82): IMPL, CAL, FAULT. -/
def flagsInvalid (f : SampFlags) : Bool := bit f 1 || bit f 3 || bit f 5

/-- The quality word of a chain output (R76). -/
def qualityOf (f : SampFlags) (settling : Bool) : Quality :=
  let inv := flagsInvalid f || settling
  let qst := bit f 0 || bit f 4
  BitVec.ofNat 16 ((if inv then 1 else if qst then 3 else 0)
    + fl (bit f 0) 2 + fl (bit f 5) 6 + fl (bit f 1) 8 + fl (bit f 4) 9 + fl (bit f 3) 12
    + fl (bit f 2) 13 + fl (bit f 4) 14 + fl settling 15)

/-- Validity of a quality word: 0 good, 1 invalid, 3 questionable. -/
def validity (q : Quality) : Nat := bits q 1 0

/-- Validity invalid; 0b10 counts as invalid (R113). -/
def qInvalid (q : Quality) : Bool := validity q == 1 || validity q == 2

/-- Validity worsened to questionable unless invalid. -/
def qQuestion (q : Quality) : Quality := if qInvalid q then q else q ||| 3#16

def Cond.code : Cond → Nat
  | .use => 0
  | .hold => 1
  | .block => 2

/-- The condition of a sample for a zone in test mode or not (R114). -/
def condOf (test : Bool) (q : Quality) : Cond :=
  if qInvalid q || bit q 15 || (bit q 11 && !test) then .block
  else if bit q 10 then .hold
  else .use

/-- The worse of two conditions (R114). -/
def Cond.worse (a b : Cond) : Cond := if a.code < b.code then b else a

/-- The quality of a received sample: bits 0 to 12, 0b10 received as invalid (R113, R119). -/
def qReceived (raw : Nat) : Quality :=
  let q := BitVec.ofNat 16 (raw % 8192)
  if validity q = 2 then (q &&& 0xFFFC#16) ||| 1#16 else q

/-- RESYNC: questionable, inaccurate, RESYNC (R113, R120). -/
def qResync (q : Quality) : Quality := qQuestion (q ||| 0x4200#16)

end Sys2Proof.Machine
end

