-- ==== Sys2Proof/Machine/Fp.lean ====
section
/-! DEFINITION. binary32 and binary64 numbers, computed exactly and rounded to nearest, halves to even (R73). A result outside the range is none: the caller takes a free value (log entry 12). -/

namespace Sys2Proof.Machine

/-- A finite binary number: (−1)^neg × mag × 2^exp. -/
structure Flt64 where
  neg : Bool
  mag : Nat
  exp : Int
deriving DecidableEq, Repr

namespace Flt64

def zero : Flt64 := ⟨false, 0, 0⟩

def ofInt (i : Int) : Flt64 := ⟨decide (i < 0), i.natAbs, 0⟩

def ofNat (n : Nat) : Flt64 := ⟨false, n, 0⟩

/-- n × 2^e. -/
def scaled (i e : Int) : Flt64 := ⟨decide (i < 0), i.natAbs, e⟩

def neg' (a : Flt64) : Flt64 := { a with neg := !a.neg }

def abs (a : Flt64) : Flt64 := { a with neg := false }

/-- Exact product. -/
def mul (a b : Flt64) : Flt64 := ⟨a.neg != b.neg, a.mag * b.mag, a.exp + b.exp⟩

/-- Signed numerator over 2^e for e not above the exponent. -/
def num (a : Flt64) (e : Int) : Int :=
  let m : Int := (a.mag * 2 ^ (a.exp - e).toNat : Nat)
  if a.neg then -m else m

/-- Exact sum; an exact zero of operands of different signs is +0. -/
def add (a b : Flt64) : Flt64 :=
  let e := min a.exp b.exp
  let v := a.num e + b.num e
  ⟨if v = 0 then a.neg && b.neg else decide (v < 0), v.natAbs, e⟩

def sub (a b : Flt64) : Flt64 := a.add b.neg'

/-- Exact comparison. -/
def lt (a b : Flt64) : Bool := let e := min a.exp b.exp; decide (a.num e < b.num e)

def le (a b : Flt64) : Bool := let e := min a.exp b.exp; decide (a.num e ≤ b.num e)

def isZero (a : Flt64) : Bool := a.mag == 0

def max' (a b : Flt64) : Flt64 := if a.lt b then b else a

def min' (a b : Flt64) : Flt64 := if b.lt a then b else a

/-- Bits of a magnitude. -/
def bitsOf (n : Nat) : Nat := if n = 0 then 0 else n.log2 + 1

/-- Rounds to p bits with least exponent emin, halves to even. -/
def round (p : Nat) (emin : Int) (a : Flt64) : Flt64 :=
  let ulp := max (a.exp + (bitsOf a.mag : Int) - p) emin
  if ulp ≤ a.exp then a
  else ⟨a.neg, (rdivEven (a.mag : Int) (2 ^ (ulp - a.exp).toNat)).toNat, ulp⟩

/-- Rounds to binary64. -/
def r64 (a : Flt64) : Flt64 := a.round 53 (-1074)

/-- The product and the sum of binary64 arithmetic. -/
def mul64 (a b : Flt64) : Flt64 := (a.mul b).r64
def add64 (a b : Flt64) : Flt64 := (a.add b).r64

/-- The integer nearest to a × n, halves to even. -/
def toIntScaled (a : Flt64) (n : Nat) : Int :=
  let v : Int := (if a.neg then -(a.mag * n : Nat) else (a.mag * n : Nat) : Int)
  if a.exp ≥ 0 then v * 2 ^ a.exp.toNat else rdivEven v (2 ^ (-a.exp).toNat)

/-- n / d with 80 or more significant bits and a sticky bit, so that rounding it is rounding the quotient. -/
def ofRat (neg : Bool) (n d : Nat) : Flt64 :=
  if d = 0 then zero
  else
    let t := 80 + bitsOf d
    let q := n * 2 ^ t / d
    ⟨neg, 2 * q + (if n * 2 ^ t % d = 0 then 0 else 1), -(t : Int) - 1⟩

/-- a / b, as ofRat; b is not zero. -/
def div (a b : Flt64) : Flt64 :=
  let q := ofRat (a.neg != b.neg) a.mag b.mag
  { q with exp := q.exp + a.exp - b.exp }

/-- The square root of n / d, as ofRat. -/
def sqrtRat (n d : Nat) : Flt64 :=
  if d = 0 then zero
  else
    let t := 80 + bitsOf d
    let q := n * 4 ^ t / d
    let r := isqrt q
    ⟨false, 2 * r + (if r * r = q ∧ n * 4 ^ t % d = 0 then 0 else 1), -(t : Int) - 1⟩

/-- The square root of a; of its magnitude when negative. -/
def sqrt (a : Flt64) : Flt64 :=
  let odd := a.exp % 2
  let r := sqrtRat (a.mag * 2 ^ odd.toNat) 1
  { r with exp := r.exp + (a.exp - odd) / 2 }

end Flt64

/-- The number of a binary32 word, none for an infinity or a NaN. -/
def dec32 (w : Word) : Option Flt64 :=
  let e := bits w 30 23
  let f := bits w 22 0
  let neg := bit w 31
  if e = 255 then none
  else if e = 0 then some ⟨neg, f, -149⟩
  else some ⟨neg, f + 8388608, (e : Int) - 150⟩

/-- The number rounded once to binary32, none when it lies outside the range (log entry 12). -/
def enc32 (a : Flt64) : Option Word :=
  let r := a.round 24 (-149)
  let sign := if a.neg then 2147483648 else 0
  if r.mag = 0 then some (wd sign)
  else
    let b := Flt64.bitsOf r.mag
    let m := if b ≤ 24 then r.mag * 2 ^ (24 - b) else r.mag / 2 ^ (b - 24)
    let e := r.exp + (b : Int) - 24
    if e > 104 then none
    else if e ≥ -149 then some (wd (sign + (e + 150).toNat * 8388608 + (m - 8388608)))
    else some (wd (sign + m / 2 ^ (-149 - e).toNat))

/-- A finite word, as SCALE and the settings must be (R86). -/
def finite32 (w : Word) : Bool := bits w 30 23 != 255

/-- Not zero. -/
def nonzero32 (w : Word) : Bool := bits w 30 0 != 0

/-- The number of a word that is finite; zero stands for one that is not, which the commands refuse. -/
def val32 (w : Word) : Flt64 := (dec32 w).getD Flt64.zero

end Sys2Proof.Machine
end

