-- ==== Sys2Proof/Machine/Publish.lean ====
section
/-! DEFINITION. Frames the module forms and sends from MP: GOOSE publications and the frame of an SV publication (05_sampled_values.md R127 to R135). -/

namespace Sys2Proof.Machine

def modSve (f : Sve → Sve) (s : State) : State := { s with sve := f s.sve }

/-- A frame that the module forms (R315: L counts the FCS; log entry 26). -/
def mkFrame (dst src : Nat) (tag : Option (Nat × Nat)) (etype : Nat) (appid : Option Nat) (body : FrameBody) : NetFrame :=
  ⟨dst, src, tag, etype, appid, max 64 (18 + (if tag.isSome then 4 else 0) + body.octets.length), body⟩

/-- ATTR bits of R393. -/
abbrev attrSvMac : Nat := 1
abbrev attrGooseMac : Nat := 2

/-- The key of a slot for frames with an attribute and an algorithm, 1 HMAC-SHA256-128 and 2 AES-GMAC-128 (R393). -/
def frameKey (s : State) (slot attr alg : Nat) : Option KeySlot :=
  match tget s.key.slots slot with
  | some k => if k.attr.getLsbD attr && k.type == alg then some k else none
  | none => none

/-- The MAC of octets under an algorithm (R117). -/
def frameMac (alg : Nat) (key octets : Bytes) : Bytes := if alg = 1 then Config.hmac128 key octets else Config.gmac128 key octets

/-- The extension of a published frame; none while its slot holds no key for it (R400). -/
def pubExt (s : State) (macalg slot attr : Nat) (octets : Bytes) : Option MacExt :=
  if macalg = 0 then none
  else (frameKey s slot attr macalg).map fun k => ⟨k.keyId.toNat, macalg, frameMac macalg k.key octets⟩

/-- A zone is owned: its gated actions are allowed (R304, R306). -/
def zoneOwned (s : State) (z : Nat) : Bool :=
  s.red.own.unitId == 0 || !s.red.own.ownEn.getLsbD z || (s.red.zones.getD z OwnZone.reset).st == .owner

/-- A force of an operand that is in effect (R221). -/
def forced (s : State) (area n : Nat) : Bool := s.cyc.forces.any fun f => f.area == area && f.opnd == n && f.held.isSome

/-- The instance behind an E operand is in BLOCK (R134). -/
def eBlocked (s : State) (n : Nat) : Bool :=
  n < 32768 && match tget s.prt.insts (n / 16) with
    | some i => i.cond == .block
    | none => false

/-- A member as published, with its quality member where it has one; MAINT publishes false and invalid (R32, R134, R222). -/
def gooseMember (s : State) (m : GpMember) : GooseOut :=
  let live := s.sys.st == .service
  ⟨live && operandBit s m.area m.operand,
    if m.quality then some (live && !(m.area == 3 && eBlocked s m.operand), live && (m.area == 1 || m.area == 2) && forced s m.area m.operand) else none⟩

/-- A member comes from an instance of a zone in test mode (R194). -/
def memberTest (s : State) (m : GpMember) : Bool :=
  m.area == 3 && m.operand < 32768 &&
    match tget s.prt.insts (m.operand / 16) with
    | some i => match tget s.prt.zones i.cfg.zone with
      | some z => z.test.isSome
      | none => false
    | none => false

/-- Sends GPUB q with the present members (R134). -/
def gooseSend (q : Nat) (s : State) : State :=
  match tget s.sve.gpubs q with
  | none => s
  | some g =>
    let vals := g.cfg.members.map (gooseMember s)
    let test := s.sys.st == .service && g.cfg.members.any (memberTest s)
    let msg : GooseMsg := ⟨g.cfg.gocbref, g.cfg.datset, g.cfg.goid, g.cfg.confrev, g.stNum, g.sqNum, 2 * g.interval, test, nbit g.cfg.flags 1, vals⟩
    let mk (ext : Option MacExt) : FrameBody := .goose q msg ext
    let ext := pubExt s g.cfg.macalg g.cfg.keySlot attrGooseMac (mk none).octets
    let f := mkFrame g.cfg.dst (Config.mac 0) (some (g.cfg.pcp, g.cfg.vid)) 0x88B8 (some g.cfg.appid) (mk ext)
    let s := modSve (fun v => { v with gpubs := tmod v.gpubs q fun g => { g with values := vals, next := some (s.now + g.interval * 1000000) } }) s
    swcIn 6 8 ((List.range 4).map (baseNs s)) true f s

/-- A change of GPUB q: stNum increments, sqNum restarts, the frame goes at once (R134). -/
def gooseChange (q : Nat) (s : State) : State :=
  gooseSend q (modSve (fun v => { v with gpubs := tmod v.gpubs q fun g =>
    { g with stNum := (g.stNum + 1) % 2 ^ 32, sqNum := 0, interval := 1, gatedOff := false } }) s)

/-- Gating of GPUB q (R307). -/
def gooseGated (s : State) (g : Gpub) : Bool := nbit g.cfg.flags 0 && !zoneOwned s g.cfg.gateZone

/-- Sends every running GPUB whose members have changed, and follows its gate (R134, R307). -/
def gooseCheck (s : State) : State :=
  if !operational s then s
  else foldOver s.sve.gpubs (fun p s =>
    match tget s.sve.gpubs p.1 with
    | none => s
    | some g =>
      if !g.running then s
      else if gooseGated s g then modSve (fun v => { v with gpubs := tmod v.gpubs p.1 fun g => { g with gatedOff := true } }) s
      else if g.gatedOff || g.cfg.members.map (gooseMember s) != g.values then gooseChange p.1 s
      else s) s

/-- smpSynch of a base (R129). -/
def smpSynch (b : Base) : Nat :=
  match b.st with
  | .free => 0
  | _ => if b.traceable then 2 else 1

/-- smpCnt of an index in the second at a rate (R118). -/
def smpCntOf (rate : Nat) (n : Int) : Nat :=
  let k := (n % rateHz rate).toNat
  if rate = 0 then k % 48000 else k

/-- Value and quality of a published sample (R128). -/
def pubValue (kind : Nat) (v : Word) (q : Quality) : Int × Quality :=
  let x := (val32 v).toIntScaled (if kind = 0 then 1000 else 100)
  let q := q &&& 0x1FFF#16
  if x < -2147483648 ∨ x > 2147483647 then (satI32 x, qQuestion (q ||| 4#16)) else (x, q)

/-- Sends the frame of PUB p that has been gathered (R129, R130). -/
def svSend (p : Nat) (s : State) : State :=
  match tget s.sve.pubs p with
  | none => s
  | some u =>
    let mk (ext : Option MacExt) : FrameBody := .sv p (nbit u.cfg.flags 1) ext u.gather
    let ext := pubExt s u.cfg.macalg u.cfg.keySlot attrSvMac (mk none).octets
    let f := mkFrame u.cfg.dst (Config.mac 0) (some (u.cfg.pcp, u.cfg.vid)) 0x88BA (some u.cfg.appid) (mk ext)
    let last := match u.gather.getLast? with
      | some a => kStamp s s.acq.tbsel u.cfg.rate a.k
      | none => 0
    let lat := min (baseNs s s.acq.tbsel - last).toNat 0x7FFFFF
    let s := modSve (fun v => { v with pubs := tmod v.pubs p fun u => { u with gather := [], frames := satInc u.frames, lat := lat } }) s
    swcIn 6 8 ((List.range 4).map (baseNs s)) true f s

end Sys2Proof.Machine
end

