-- ==== Sys2Proof/Machine/Shutter.lean ====
section
/-! DEFINITION. The Shutter: rings, firing of source entries, records and the disturbance store (04_shutter.md R89 to R106). -/

namespace Sys2Proof.Machine

def modTrg (f : Trg → Trg) (s : State) : State := { s with trg := f s.trg }

/-- The Shutter's base and record rate (TRG_CTL). -/
def shtBase (s : State) : Nat := bits s.trg.ctl 2 1
def shtRate (s : State) : Nat := bits s.trg.ctl 4 3
def shtNow (s : State) : Int := baseNs s (shtBase s)

/-- RUNNING: triggers are taken (R99, R110). -/
def shtRuns (s : State) : Bool := operational s && bit s.trg.ctl 0

abbrev ms : Int := 1000000

/-- Depth of the protection-rate rings at a rate, ns (R89). -/
def ringDepth (rate : Nat) : Int := if rate = 0 then 500 * ms else 4000 * ms

/-- Stamps of the samples that the protection-rate ring of channel chid holds (R89). -/
def ringStamps (s : State) (chid : Nat) : List Int :=
  ((tgetD s.trg.rings chid []).map fun x => sampleStamp (rateHz (shtRate s)) x.k).filter fun t =>
    decide (shtNow s - ringDepth (shtRate s) ≤ t)

/-- Stamp of the oldest sample held for the profile's channels (R98); while none is held, the instant from which the rings run (DESIGN CHOICE, log entry 184). -/
def ringOldest (s : State) : Option Int :=
  s.trg.ringFrom.map fun f =>
    if s.trg.chans.isEmpty then max f (shtNow s - ringDepth (shtRate s))
    else (((s.trg.chans.flatMap fun c => ringStamps s c.chid).foldl (fun (a : Option Int) t =>
      match a with
      | some x => some (min x t)
      | none => some t) none).getD f)

/-- TRG_RING_SPAN in ms, from the oldest sample held to now (R110). -/
def ringSpan (s : State) : Nat :=
  match ringOldest s with
  | some o => min 4000 ((shtNow s - o) / ms).toNat
  | none => 0

/-- The last sample count of rate f whose stamp is at or before t (R93). -/
def lastAtOrBefore (f : Nat) (t : Int) : Int :=
  let n := nAtOrBefore f t
  if sampleStamp f (n + 1) ≤ t then n + 1 else if sampleStamp f n ≤ t then n else n - 1

/-- The first sample count of rate f whose stamp is at or after t (R93). -/
def firstAtOrAfter (f : Nat) (t : Int) : Int := lastAtOrBefore f (t - 1) + 1

/-- Nominal instant of raw index j since the base's origin, ns (R43, R93). -/
def rawNominal (j : Int) : Int := rdivEven (j * NS) 2016000

/-- The rings restart empty (R89). -/
def ringsRestart (s : State) : State :=
  modTrg (fun g => { g with rings := [], frRings := [], digLog := [],
                            ringFrom := if operational s then some (shtNow s) else none }) s

/-- FLAGS bits of R104. -/
abbrev rfCommitted : Nat := 0
abbrev rfTruncated : Nat := 1
abbrev rfChained : Nat := 2
abbrev rfShortPre : Nat := 3
abbrev rfFrLost : Nat := 4
abbrev rfTest : Nat := 5
abbrev rfExtended : Nat := 6
abbrev rfWarmResumed : Nat := 7
abbrev rfTbStep : Nat := 8

def ShtRec.flag (i : Nat) (r : ShtRec) : ShtRec := { r with flags := setBit r.flags i true }

/-- The open record: the latest one that is open (R95). A record whose full-rate windows outlast its protection-rate window stays open beside its successor, which is then the open one (DESIGN CHOICE, log entry 185). -/
def openRecord (s : State) : Option ShtRec := s.trg.records.reverse.find? fun r => r.phase == .opened

def modRec (recno : Nat) (f : ShtRec → ShtRec) (s : State) : State :=
  modTrg (fun g => { g with records := g.records.map fun r => if r.recno = recno then f r else r }) s

/-- Records that still take data. -/
def ShtRec.live (r : ShtRec) : Bool := r.phase != .committed

/-- Octets of a protection-rate row (R106). -/
def ShtRec.rowLen (r : ShtRec) : Nat := 6 * r.chans.length + 2 * cdiv r.digs.length 16

/-- First row index and the index after the last (R93). -/
def ShtRec.firstN (r : ShtRec) : Int := firstAtOrAfter (rateHz r.rate) r.start
def ShtRec.endN (r : ShtRec) : Int := firstAtOrAfter (rateHz r.rate) r.stop

/-- NSAMP of a closed record. -/
def ShtRec.nsamp (r : ShtRec) : Nat := (r.endN - r.firstN).toNat

/-- First raw index and raw rows of a full-rate window (R93). -/
def FrWindow.firstJ (w : FrWindow) : Int := firstAtOrAfter 2016000 w.from'
def FrWindow.nraw (w : FrWindow) : Nat := (firstAtOrAfter 2016000 w.to' - w.firstJ).toNat

/-- Channels of a mask. -/
def maskChans (m : Word) : List Nat := ones 24 m.toNat

def FrWindow.len (w : FrWindow) : Nat := w.nraw * 4 * (maskChans w.mask).length

/-- Data octets of a closed record (R106). -/
def ShtRec.dataLen (r : ShtRec) : Nat := r.nsamp * r.rowLen + nsum (r.wins.map FrWindow.len)

/-- Data octets that are ready to be written at base time t. -/
def ShtRec.readyLen (t : Int) (r : ShtRec) : Nat :=
  if r.phase = .opened then (min r.endN (lastAtOrBefore (rateHz r.rate) t + 1) - r.firstN).toNat * r.rowLen else r.dataLen

/-- Full-rate octets of a record taken by base time t. -/
def ShtRec.frHeld (t : Int) (r : ShtRec) : Nat :=
  nsum (r.wins.map fun w => FrWindow.len { w with to' := min w.to' (max w.from' (t + 1)) })

/-- Octets of a record that the rings have given up by base time t: its rows, and its full-rate rows. -/
def ShtRec.heldLen (t : Int) (r : ShtRec) : Nat := if r.phase = .opened then r.readyLen t + r.frHeld t else r.dataLen

/-- Payload of a store block (R100). -/
abbrev blockPayload : Nat := 65504

/-- Data blocks of a closed record. -/
def ShtRec.dataBlocks (r : ShtRec) : Nat := cdiv r.dataLen blockPayload

/-- Staging octets in use: data not yet written (R101). -/
def stagingUsed (s : State) : Nat :=
  nsum ((s.trg.records.filter ShtRec.live).map fun r => r.heldLen (shtNow s) - r.written * blockPayload)

/-- Staging holds 256 MiB (R101). -/
abbrev stagingSize : Nat := 268435456

/-- Octets of the pre-trigger part of a new record (R98). -/
def preLen (s : State) : Nat :=
  cdiv (s.trg.pre * rateHz (shtRate s)) 1000 * (6 * s.trg.chans.length + 2 * cdiv s.trg.digs.length 16)

/-- STAGE_FULL (R110). -/
def stageFull (s : State) : Bool := decide (stagingUsed s + preLen s > stagingSize)

/-- Store blocks in use. -/
def usedBlocks (s : State) : List Nat := s.trg.records.flatMap ShtRec.blocks

/-- TRG_STORE_FREE. -/
def storeFree (s : State) : Nat := 3584 - (usedBlocks s).length - s.trg.bad.length

/-- The next free block in circular order (R100). -/
def nextFree (s : State) : Option Nat :=
  let used := usedBlocks s
  ((List.range 3584).map fun i => (s.trg.cursor + i) % 3584).find? fun b => !used.contains b && !s.trg.bad.contains b

/-- Takes a block; with OVERWRITE = 1 the oldest whole record is freed when none is free (R100). -/
def takeBlock (s : State) : Option Nat × State :=
  let take (b : Nat) (s : State) : Option Nat × State := (some b, modTrg (fun g => { g with cursor := (b + 1) % 3584 }) s)
  match nextFree s with
  | some b => take b s
  | none =>
    if !bit s.trg.ctl 6 then (none, s)
    else match s.trg.records.find? fun r => r.phase == .committed with
      | none => (none, s)
      | some r =>
        let s := ev 0x0305 (u32 r.recno ++ u32 r.recno)
          (modTrg (fun g => { g with records := g.records.filter fun x => x.recno != r.recno }) s)
        match nextFree s with
        | some b => take b s
        | none => (none, s)

/-- A write fault (R103): the block is bad and never reused. -/
def storeFault (b recno : Nat) (s : State) : State :=
  ev 0x0307 (u32 b ++ u32 recno) (modTrg (fun g => { g with bad := b :: g.bad }) s)

/-- A block that was taken, unless its write fails: then the store goes on to another (R103). -/
def unlessFailing (failing : List Nat) (recno : Nat) (again : State → Option Nat × State) : Option Nat × State → Option Nat × State
  | (none, s) => (none, s)
  | (some b, s) => if failing.contains b then again (storeFault b recno s) else (some b, s)

/-- Takes a block for the header of a record; a block that fails is passed over (R103). -/
def takeGood (failing : List Nat) (recno : Nat) : Nat → State → Option Nat × State
  | 0, s => (none, s)
  | n + 1, s => unlessFailing failing recno (takeGood failing recno n) (takeBlock s)

/-- Stamp words of a record: NS with the base, and the low word of the seconds (R109). -/
def stampNsWord (tb : Nat) (t : Int) : Word := wd (nsOf t + tb * 2 ^ 30)

/-- EV_SHT_COMMITTED. -/
def committedEvent (r : ShtRec) (nblocks : Nat) (s : State) : State :=
  ev 0x0302 (u32 r.recno ++ u32 nblocks ++ u16 r.flags.toNat ++ u16 r.ntrig) s

/-- A trigger is lost (R98); from SHED5 on without a record (R480). -/
def loseTrigger (cause src : Nat) (s : State) : State :=
  let s := modTrg (fun g => { g with lost := satInc g.lost }) s
  if s.pwr.shed ≥ 5 then s
  else
    let s := modTrg (fun g => { g with lostNew := g.lostNew + 1 }) s
    if secondPassed s s.trg.lostLast then
      ev 0x0303 (u16 src ++ u8 cause ++ u8 0 ++ u32 s.trg.lostNew)
        (modTrg (fun g => { g with lostNew := 0, lostLast := some s.now }) s)
    else s

/-- Notes a change of a digital source for the records (R106). -/
def digNote (src : Nat) (level : Bool) (t : Int) (s : State) : State :=
  let d : DigChange := ⟨t, src, level⟩
  let upd (r : ShtRec) : ShtRec :=
    if r.live && r.digs.contains src then
      { r with digLog := r.digLog ++ [d], digNow := imap (fun i v => if r.digs.getD i 0xFFFF = src then level else v) r.digNow }
    else r
  let old := shtNow s - 5000 * ms
  modTrg (fun g => { g with
    digLog := if g.ringFrom.isSome then d :: g.digLog.filter (fun x => decide (old ≤ x.t)) else g.digLog,
    records := g.records.map upd }) s

/-- Whether an edge of this direction fires an entry (R92). -/
def edgeWanted (code : Nat) (level : Bool) : Bool :=
  match code with
  | 0 => level
  | 1 => !level
  | 2 => true
  | _ => false

/-- The urgent conversion of an entry, when its codes make a request (R92, R110). -/
def entryUrg (a : Word) : Option (Nat × Nat) :=
  let conv := bits a 24 22
  let inp := bits a 28 25
  if bit a 21 && (decide (conv < 4 ∧ inp ≤ 7) || decide (conv = 4 ∧ inp ≤ 12)) then some (conv, inp) else none

/-- HOLDOFF of entry i had passed at an edge of elapsed time t (R92). -/
def holdoffOver (s : State) (i t : Nat) : Bool :=
  match tget s.trg.fired i with
  | some f => decide (f + bits (tgetD s.trg.srcB i 0#32) 27 16 * 1000000 ≤ t)
  | none => true

/-- Entry i fires: the trigger waits for the next decision interval (R92, R96). -/
def fireEntry (i src : Nat) (a : Word) (t : Int) (s : State) : State :=
  modTrg (fun g => { g with
    fired := tset g.fired i s.now,
    queue := g.queue ++ [⟨t, src, some i, bit a 19, bit a 20, entryUrg a, none⟩] }) s

/-- Fires the enabled entries of a source that want this edge, of stamp t and elapsed time at' (R92). -/
def fireEntries (src : Nat) (any level : Bool) (t : Int) (at' : Nat) (ok : Nat → Word → State → Bool) (s : State) : State :=
  if !shtRuns s || srcReserved src then s
  else foldOver s.trg.srcA (fun p s =>
    let a := p.2
    if bit a 18 && decide (bits a 15 0 = src) && (any || edgeWanted (bits a 17 16) level) && holdoffOver s p.1 at' && ok p.1 a s
    then fireEntry p.1 src a t s else s) s

/-- A change of a digital source, stamped on base b (R91). -/
def srcEdge (src : Nat) (level : Bool) (b : Nat) (t : Int) (s : State) : State :=
  let t := convStamp s b (shtBase s) t
  fireEntries src false level t s.now (fun _ _ _ => true) (digNote src level t s)

/-- The event instant of a TEG (R90, R91): EDGE does not apply. -/
def tegTrigger (g b : Nat) (t : Int) (s : State) : State :=
  fireEntries (0x60 + g) true true (convStamp s b (shtBase s) t) s.now (fun _ _ _ => true) s

/-- The module ignores its own instrument line during its pulses and for 10 µs after each; an edge that started before is seen (R14, R92). -/
def ownPulse (s : State) (line : Nat) (t : Int) : Bool :=
  if line < 4 then false
  else match s.trg.xout[line - 4]? with
    | none => false
    | some p =>
      let at' (n : Nat) : Int := (baseOf s (shtBase s)).ns n
      ((p.from', p.to') :: p.past).any fun q =>
        decide (q.1 < q.2) && decide (at' q.1 ≤ t) && decide (t < at' (q.2 + 10000))

/-- A new pulse of 1 ms begins on a line, or lengthens the one that runs (R92). -/
def XPulse.start (now : Nat) (p : XPulse) : XPulse :=
  if p.on ∧ now ≤ p.to' then { p with to' := now + 1000000 }
  else ⟨now, now + 1000000, true, ((p.from', p.to') :: p.past).filter fun q => decide (q.1 < q.2) && decide (now < q.2 + 1000000000)⟩

/-- A pin or line edge whose level has held: each entry whose MINW has passed fires once on it (R92). -/
def pinEdge (line : Nat) (level : Bool) (t : Int) (s : State) : State :=
  if ownPulse s line t then s
  else
    let now := if line < 4 then s.trg.pins.getLsbD line else s.trg.xline.getLsbD (line - 4)
    let s := if now = level then s else digNote line level t s
    let s := modTrg (fun g => if line < 4 then { g with pins := setBit g.pins line level }
                              else { g with xline := setBit g.xline (line - 4) level }) s
    let held := shtNow s - t
    let at' := s.now - held.toNat
    let ok (i : Nat) (_ : Word) (s : State) : Bool :=
      decide ((bits (tgetD s.trg.srcB i 0#32) 15 0 : Int) * 1000 ≤ held) && tget s.trg.edgeFired i != some t
    let before := s.trg.queue.length
    let s := fireEntries line false level t at' ok s
    let note (e : Table Int) (q : Trigger) : Table Int := match q.entry with
      | some i => tset e i t
      | none => e
    modTrg (fun g => { g with edgeFired := (g.queue.drop before).foldl note g.edgeFired }) s

/-- An urgent request (R63): whether it became pending; a refusal is counted. -/
def urgentRequest (conv : Nat) (r : UrgReq) (s : State) : Bool × State :=
  let refused (s : State) : Bool × State :=
    (false, { s with acq := { s.acq with urgRefused := satInc s.acq.urgRefused, urgRefNew := s.acq.urgRefNew + 1 } })
  if conv < 4 then
    match s.acq.ck[conv]? with
    | some c => if c.urg.isSome then refused s
                else (true, { s with acq := { s.acq with ck := lmod s.acq.ck conv fun c => { c with urg := some r } } })
    | none => (false, s)
  else if s.acq.hk.urg.isSome then refused s
  else (true, { s with acq := { s.acq with hk := { s.acq.hk with urg := some r } } })

/-- EV_ACQ_URGENT_REFUSED, at most once per second (R67). -/
def urgRefusedEvent (s : State) : State :=
  if secondPassed s s.acq.urgRefLast && decide (s.acq.urgRefNew > 0) then
    ev 0x020A (u32 s.acq.urgRefNew) { s with acq := { s.acq with urgRefNew := 0, urgRefLast := some s.now } }
  else s

/-- URG and XOUT of a fired entry (R92). -/
def entryActions (tr : Trigger) (s : State) : State :=
  let s := match tr.urg with
    | none => s
    | some (c, i) =>
      let (ok, s) := urgentRequest c ⟨i, none, (openRecord s).map ShtRec.recno⟩ s
      let s := match openRecord s with
        | some r => modRec r.recno (fun r => { r with urgConv := c, urgInput := i, urgStatus := if ok then 2 else 1 }) s
        | none => s
      if ok then s else urgRefusedEvent s
  if tr.xout then
    let line := if bit s.trg.ctl 7 then 1 else 0
    modTrg (fun g => { g with xout := lmod g.xout line (XPulse.start s.now) }) s
  else s

/-- The ring samples of a channel with stamps in a window, oldest first. -/
def ringSamples (s : State) (chid rate : Nat) (from' to' : Int) : List RingSample :=
  ((tgetD s.trg.rings chid []).filter fun x =>
    decide (from' ≤ sampleStamp (rateHz rate) x.k) && decide (sampleStamp (rateHz rate) x.k < to')).reverse

/-- The full-rate ring samples of a channel in a window, oldest first. -/
def frSamples (s : State) (ch : Nat) (from' to' : Int) : List (Nat × Word) :=
  ((tgetD s.trg.frRings ch []).filter fun x => decide (from' ≤ rawNominal x.1) && decide (rawNominal x.1 < to')).reverse

/-- What a header takes at a trigger taken now (R104). -/
def trigInfo (s : State) : TrigInfo :=
  ⟨(baseOf s (shtBase s)).st.code, (baseOf s (shtBase s)).hoErr, s.evr.optime.toNat, s.evr.pwrcyc.toNat⟩

/-- Opens a record with the window [start, stop) (R95, R102 step 1); none when no block is free. A header block of failing is bad (R103). TEST marks a record made in test mode, or with a test sample (R99). -/
def openRec (failing : List Nat) (t : Int) (src : Nat) (info : TrigInfo) (start stop : Int) (flags : List Nat) (prev ntrig : Nat) (s : State) : State :=
  match takeGood failing s.trg.nextRecno 3584 s with
  | (none, s) => s
  | (some b, s) =>
    let g := s.trg
    let n := g.nextRecno
    let rows := g.chans.map fun c => ringSamples s c.chid (shtRate s) start stop
    let test := testActive s || rows.any fun l => l.any fun x => bit x.q 11
    let r : ShtRec := {
      recno := n, prevRecno := prev, flags := foldOver (if test then rfTest :: flags else flags) (fun i f => setBit f i true) 0#16,
      tb := shtBase s, rate := shtRate s, info := info, trig := t, trigSrc := src, ntrig := ntrig,
      start := start, stop := stop, preMs := g.pre, postMs := g.post,
      urgResult := 0, urgConv := 0, urgInput := 0, urgStatus := 2, wins := [], chans := g.chans, frDescs := [], digs := g.digs,
      station := g.station, rows := rows,
      digLog := (g.digLog.filter fun d => g.digs.contains d.src).reverse, digNow := g.digs.map (srcLevel s),
      frRows := [], phase := .opened, written := 0, blocks := [b], chain := none }
    ev 0x0301 (u32 n ++ u16 src ++ u16 0 ++ w32 (stampNsWord (shtBase s) t) ++ w32 (secLo t))
      (modTrg (fun g => { g with records := g.records ++ [r], nextRecno := n + 1 }) s)

/-- A full-rate window for the open record (R97); none where the window before it covers it, and nothing is lost then (DESIGN CHOICE, log entry 187). -/
def openWindow (t : Int) (s : State) : State :=
  match openRecord s with
  | none => s
  | some r =>
    let refuse' (cause : Nat) (s : State) : State :=
      ev 0x0304 (u32 r.recno ++ u8 cause ++ zeros 3)
        (modRec r.recno (ShtRec.flag rfFrLost) (modTrg (fun g => { g with frLost := satInc g.frLost }) s))
    if s.pwr.shed ≥ 2 then refuse' 0 s
    else if r.wins.length ≥ 4 then refuse' 1 s
    else
      let to' := t + (s.trg.frPost : Int) * 1000
      let from0 := t - (s.trg.frPre : Int) * 1000
      let from' := match r.wins.getLast? with
        | some w => max from0 w.to'
        | none => from0
      if to' ≤ from' then s
      else
        let w : FrWindow := ⟨from', to', s.trg.frMask⟩
        let chs := maskChans s.trg.frMask
        let add (tb : Table (List (Nat × Word))) (c : Nat) : Table (List (Nat × Word)) :=
          tset tb c (tgetD tb c [] ++ frSamples s c from' to')
        let desc (c : Nat) : FrDesc :=
          ⟨c, (s.acq.ch.getD c AcqCh.reset).adv, (s.flt.ch.getD c FltCh.reset).scale, (s.flt.ch.getD c FltCh.reset).eofs⟩
        let union (r : ShtRec) : List FrDesc := (List.range 24).filterMap fun c =>
          match r.frDescs.find? fun d => d.n == c with
          | some d => some d
          | none => if chs.contains c then some (desc c) else none
        modRec r.recno (fun r => { r with
          wins := r.wins ++ [w]
          frRows := chs.foldl add r.frRows
          frDescs := union r }) s

/-- A chained record opens when the one before it closes (R95). -/
def openChain (failing : List Nat) (r : ShtRec) (c : Chain) (s : State) : State :=
  openRec failing c.t c.src c.info r.stop c.stop ([rfChained] ++ (if c.extended then [rfExtended] else [])) r.recno c.ntrig s

/-- Closes a record (R95). -/
def closeRec (recno : Nat) (s : State) : State := modRec recno (fun r => { r with phase := .closed, chain := none }) s

/-- The chained record of an open record whose window has ended opens (R95). -/
def realiseChain (failing : List Nat) (t : Int) (s : State) : State :=
  match openRecord s with
  | some r => match r.chain with
    | some c => if r.stop ≤ t then openChain failing r c (modRec r.recno (fun r => { r with chain := none }) s) else s
    | none => s
  | none => s

/-- The disposition of a taken trigger: RECNO and code (R108), or the cause of its loss (R98). -/
inductive Disposition where
  | taken (recno code : Nat)
  | lost (cause : Nat)
deriving DecidableEq, Repr

/-- TRG_LAST registers of a taken trigger (R110). -/
def noteTaken (tr : Trigger) (s : State) : State :=
  modTrg (fun g => { g with lastSrc := wd tr.src, lastNs := stampNsWord (shtBase s) tr.t, lastSec := secLo tr.t, lastCnt := g.lastCnt + 1 }) s

/-- A retrigger of the open record (R95). -/
def retrigger (tr : Trigger) (r : ShtRec) (s : State) : Disposition × State :=
  let limit := r.start + (s.trg.maxlen : Int) * ms
  let want := tr.t + (s.trg.post : Int) * ms
  let s := modTrg (fun g => { g with merged := satInc g.merged }) s
  if !bit s.trg.ctl 5 then (.taken r.recno 1, modRec r.recno (fun r => { r with ntrig := r.ntrig + 1 }) s)
  else
    let s := modRec r.recno (fun r => { r with ntrig := r.ntrig + 1, stop := min (max r.stop want) limit,
                                               flags := setBit r.flags rfExtended true }) s
    if want ≤ limit then (.taken r.recno 1, s)
    else match r.chain with
      | none => (.taken s.trg.nextRecno 2, modRec r.recno (fun r => { r with chain := some ⟨tr.t, trigInfo s, tr.src, want, 1, false⟩ }) s)
      | some c =>
        (.taken s.trg.nextRecno 2, modRec r.recno (fun r => { r with chain := some { c with
          stop := min (max c.stop want) (limit + (s.trg.maxlen : Int) * ms), ntrig := c.ntrig + 1, extended := true } }) s)

/-- Opens a new record for a trigger, or loses it (R95, R98). -/
def newRecord (failing : List Nat) (tr : Trigger) (s : State) : Disposition × State :=
  match ringOldest s with
  | none => (.lost 0, s)
  | some old =>
    if tr.t < old then (.lost 0, s)
    else if stageFull s then (.lost 1, s)
    else if !bit s.trg.ctl 6 && (nextFree s).isNone then (.lost 2, s)
    else
      let start := tr.t - (s.trg.pre : Int) * ms
      let n := s.trg.nextRecno
      let s' := openRec failing tr.t tr.src (trigInfo s) (max start old) (tr.t + (s.trg.post : Int) * ms) (if start < old then [rfShortPre] else [])
        0xFFFFFFFF 1 s
      if s'.trg.nextRecno = n then (.lost 2, s') else (.taken n 0, s')

/-- Replies to the TRG_FORCE command of a trigger (R108). -/
def replyForce (tr : Trigger) (d : Disposition) (s : State) : State :=
  match tr.reply with
  | none => s
  | some rt => match d with
    | .taken n c => finish rt stOk 0 (u32 n ++ u8 c ++ zeros 3) s
    | .lost _ => finish rt stExhausted 0 [] s

/-- Takes one trigger (R95 to R98, R480). -/
def takeTrigger (failing : List Nat) (tr : Trigger) (s : State) : State :=
  if s.pwr.shed ≥ 5 then replyForce tr (.lost 1) (loseTrigger 1 tr.src s)
  else if !shtRuns s then
    match tr.reply with
    | some rt => finish rt stConflict s.sys.st.code [] s
    | none => s
  else
    let s := realiseChain failing tr.t s
    let (d, s) := match openRecord s with
      | some r => if tr.t < r.stop then retrigger tr r s else newRecord failing tr s
      | none => newRecord failing tr s
    match d with
    | .lost c => replyForce tr d (entryActions tr (loseTrigger c tr.src s))
    | .taken _ _ =>
      let s := noteTaken tr s
      let s := if tr.fr then openWindow tr.t s else s
      replyForce tr d (entryActions tr s)

/-- Order of triggers within an interval (R96). -/
def trigBefore (a b : Trigger) : Bool := decide (a.t < b.t) || (decide (a.t = b.t) && decide (a.src ≤ b.src))

def insertTrig (x : Trigger) : List Trigger → List Trigger
  | [] => [x]
  | y :: r => if trigBefore y x then y :: insertTrig x r else x :: y :: r

def sortTrigs (l : List Trigger) : List Trigger := l.foldl (fun acc x => insertTrig x acc) []

/-- The windows of an open record have ended (R95). -/
def recEnded (r : ShtRec) (t : Int) : Bool := decide (r.stop ≤ t) && r.wins.all fun w => decide (w.to' ≤ t)

/-- A final slot enters the ring and the records (R89, R124): index n since the base's origin. -/
def ringPush (chid rate tb : Nat) (n : Int) (v : Word) (q : Quality) (s : State) : State :=
  if s.trg.ringFrom.isNone then s
  else
    let x : RingSample := ⟨n.toNat, v, q⟩
    let stamp := sampleStamp (rateHz rate) n
    let old := baseNs s tb - ringDepth rate
    let upd (r : ShtRec) : ShtRec :=
      if r.live && decide (r.start ≤ stamp) && decide (stamp < r.stop) && decide (r.rate = rate) && r.chans.any (fun c => c.chid == chid) then
        let r := { r with rows := imap (fun i l => if (r.chans.getD i ⟨0, 0, [], [], 0#32, 0#32⟩).chid = chid ∧ i < r.chans.length
                                                   then l ++ [x] else l) r.rows }
        if bit q 11 || testActive s then r.flag rfTest else r
      else r
    modTrg (fun g => { g with
      rings := tmodD g.rings chid [] fun l => x :: l.filter fun y => decide (old ≤ sampleStamp (rateHz rate) y.k),
      records := g.records.map upd }) s

/-- A raw sample enters the full-rate ring and the open windows (R89, R97): raw index j since the base's origin. -/
def rawPush (ch : Nat) (j : Nat) (w : Word) (s : State) : State :=
  if s.trg.ringFrom.isNone then s
  else
    let nom := rawNominal j
    let upd (r : ShtRec) : ShtRec :=
      if r.live && r.wins.any (fun x => x.mask.getLsbD ch && decide (x.from' ≤ nom) && decide (nom < x.to')) then
        { r with frRows := tmodD r.frRows ch [] (· ++ [(j, w)]) }
      else r
    modTrg (fun g => { g with
      frRings := tmodD g.frRings ch [] fun l => (j, w) :: l.take 1007999,
      records := g.records.map upd }) s

/-- Test mode begins: records made meanwhile carry TEST (R99). -/
def shutterTest (s : State) : State :=
  modTrg (fun g => { g with records := g.records.map fun r => if r.phase = .opened then r.flag rfTest else r }) s

/-- A channel's ring restarts empty (R112). -/
def ringDrop (chid : Nat) (s : State) : State := modTrg (fun g => { g with rings := tdel g.rings chid }) s

/-- The windows of an open record end at base time t. -/
def ShtRec.cutAt (t : Int) (r : ShtRec) : ShtRec :=
  { r with stop := min r.stop t, wins := r.wins.map fun w => { w with to' := min w.to' (max w.from' t) },
           phase := .closed, chain := none }

/-- A step of the Shutter's base (R99): t is the present time before the step. -/
def shutterStep (t : Int) (s : State) : State :=
  ringsRestart (modTrg (fun g => { g with records := g.records.map fun r =>
    if r.phase = .opened then (r.cutAt t).flag rfTbStep else r }) s)

/-- A warm start (R103): staging survives, the open record is closed and flagged. -/
def shutterWarm (s : State) : State :=
  let t := shtNow s
  modTrg (fun g => { g with
    queue := [], rings := [], frRings := [], digLog := [], ringFrom := none,
    records := g.records.map fun r => match r.phase with
      | .opened => ((r.cutAt t).flag rfTruncated).flag rfWarmResumed
      | .closed => r.flag rfWarmResumed
      | .committed => r }) s

/-- Header of a record that SHED5 cuts short (R103): NBLOCKS are the data blocks written. -/
def shutterShed5 (s : State) : State :=
  foldOver (s.trg.records.filter ShtRec.live) (fun r s =>
    let r' := { r.flag rfTruncated with phase := .committed }
    committedEvent r' r.written (modRec r.recno (fun _ => r') s)) s

/-- A cold start (R103): staging is lost, and with it every record whose header still has COMMITTED and TRUNCATED 0 in the store, as written when it opened. -/
def shutterCold (s : State) : State :=
  let gone := s.trg.records.filter ShtRec.live
  let s := modTrg (fun g => { g with records := g.records.filter fun r => !r.live }) s
  foldOver gone (fun r s => ev 0x0306 (u32 r.recno) s) s

/-- Level of digital channel d of a record at stamp t (log entry 13). -/
def ShtRec.digAt (r : ShtRec) (d : Nat) (t : Int) : Bool :=
  let src := r.digs.getD d 0xFFFF
  let l := r.digLog.filter fun x => x.src == src
  match (l.filter fun x => decide (x.t ≤ t)).getLast? with
  | some x => x.level
  | none => match l.head? with
    | some x => !x.level
    | none => r.digNow.getD d false

/-- A row's sample of record channel i at index n; an index that no slot has filled reads as an empty slot (log entry 13). -/
def ShtRec.sampleAt (r : ShtRec) (i n : Nat) : RingSample :=
  ((r.rows.getD i []).find? fun x => x.k == n).getD ⟨n, 0#32, qEmpty⟩

/-- Octets of a protection-rate row (R106). -/
def ShtRec.row (r : ShtRec) (n : Nat) : Bytes :=
  let xs := (List.range r.chans.length).map fun i => r.sampleAt i n
  let t := sampleStamp (rateHz r.rate) n
  xs.flatMap (fun x => w32 x.v) ++ xs.flatMap (fun x => u16 x.q.toNat)
    ++ (List.range (cdiv r.digs.length 16)).flatMap fun w =>
      u16 (ofBits ((List.range 16).map fun i => decide (16 * w + i < r.digs.length) && r.digAt (16 * w + i) t))

/-- The raw word of channel c at raw index j, 0 where none was taken. -/
def ShtRec.rawAt (r : ShtRec) (c j : Nat) : Word :=
  match (tgetD r.frRows c []).find? fun x => x.1 == j with
  | some x => x.2
  | none => 0#32

/-- Octets of a full-rate window (R106). -/
def ShtRec.winData (r : ShtRec) (w : FrWindow) : Bytes :=
  (List.range w.nraw).flatMap fun i => (maskChans w.mask).flatMap fun c => w32 (r.rawAt c (w.firstJ.toNat + i))

/-- The data stream of a closed record (R106); only what was written for a truncated one. -/
def ShtRec.data (r : ShtRec) : Bytes :=
  let d := (List.range r.nsamp).flatMap (fun i => r.row (r.firstN.toNat + i)) ++ r.wins.flatMap r.winData
  if r.flags.getLsbD rfTruncated then d.take (r.written * blockPayload) else d

/-- Analogue descriptor (R105). -/
def descOctets (chid kind flags : Nat) (name unit : Bytes) (prim sec scale : Word) (adv : Nat) (eofs : Word) : Bytes :=
  u16 chid ++ u8 kind ++ u8 flags ++ padTo 32 name ++ padTo 8 unit ++ w32 prim ++ w32 sec ++ w32 scale ++ u16 adv ++ u16 0 ++ w32 eofs

/-- The full-rate window entries of the header, each at its DATA_OFS (R104). -/
def winEntries : List FrWindow → Nat → Bytes
  | [], _ => []
  | w :: r, ofs =>
    u64 (w.firstJ / 2016000).toNat ++ u32 (nsOf (rawNominal w.firstJ)) ++ u32 (w.firstJ % 2016000).toNat ++ u32 w.nraw ++ w32 w.mask
      ++ u32 ofs ++ u32 0 ++ winEntries r (ofs + w.len)

/-- The profile's entry for the local channel of a full-rate descriptor; one that the profile does not name has KIND 2 and no name (DESIGN CHOICE, log entry 190). -/
def ShtRec.frChan (r : ShtRec) (n : Nat) : RecChan :=
  (r.chans.find? fun c => c.chid == n).getD ⟨n, 2, [], [], 0#32, 0#32⟩

/-- Octets of a full-rate descriptor (R105). -/
def ShtRec.frDesc (r : ShtRec) (d : FrDesc) : Bytes :=
  let c := r.frChan d.n
  descOctets d.n c.kind 1 c.name c.unit c.primary c.secondary d.scale d.adv d.eofs

/-- NBLOCKS: the blocks used, or for a record that SHED5 cut short the data blocks written (R103, R104). -/
def ShtRec.nblocks (r : ShtRec) : Nat :=
  if r.phase = .committed ∧ !r.flags.getLsbD rfCommitted then r.written else r.blocks.length

/-- Record header and descriptors (R104, R105). -/
def ShtRec.header (r : ShtRec) : Bytes :=
  let f := rateHz r.rate
  let kT := lastAtOrBefore f r.trig
  let first := sampleStamp f r.firstN
  let h := u32 0x4D515244 ++ u16 1 ++ u16 r.flags.toNat ++ u32 r.recno ++ u32 r.prevRecno ++ u32 r.nblocks
    ++ u8 r.tb ++ u8 r.rate ++ u8 r.wins.length ++ u8 r.info.tbstate ++ u64 (secOf r.trig).toNat ++ u32 (nsOf r.trig)
    ++ u16 r.trigSrc ++ u16 r.ntrig ++ u32 (kT % f).toNat ++ u32 (r.trig - sampleStamp f kT).toNat
    ++ u64 (secOf first).toNat ++ u32 (nsOf first) ++ u32 (r.firstN % f).toNat ++ u32 r.nsamp
    ++ u16 r.chans.length ++ u16 r.digs.length ++ u32 r.preMs ++ u32 r.postMs ++ u32 r.info.optime ++ u32 r.info.pwrcyc
    ++ s32 r.urgResult ++ u8 r.urgConv ++ u8 r.urgInput ++ u8 r.urgStatus ++ u8 0
    ++ padTo 128 (winEntries r.wins (r.nsamp * r.rowLen)) ++ padTo 16 r.station ++ zeros 8
  let descs := r.chans.flatMap (fun c => descOctets c.chid c.kind 0 c.name c.unit c.primary c.secondary 0#32 0 0#32)
    ++ r.frDescs.flatMap r.frDesc
    ++ r.digs.flatMap (fun d => u16 d ++ u16 0 ++ u32 0)
  h ++ w32 (crc32c h) ++ w32 (crc32c r.data) ++ descs

/-- Payload of block i of a record: the header block, or a slice of the data stream (R100, R106). -/
def ShtRec.payload (r : ShtRec) (i : Nat) : Bytes :=
  if i = 0 then r.header else (r.data.drop ((i - 1) * blockPayload)).take blockPayload

/-- Block i of a record as the store holds it: its block header and payload (R100). -/
def ShtRec.block (r : ShtRec) (i : Nat) : Bytes :=
  let p := r.payload i
  u32 r.recno ++ u32 i ++ u32 p.length ++ w32 (crc32c p) ++ zeros 16 ++ p

/-- What block b of the disturbance store holds, while a record has it (R100). -/
def storeBlock (s : State) (b : Nat) : Option Bytes :=
  (s.trg.records.find? fun r => r.blocks.contains b).map fun r => r.block (r.blocks.idxOf b)

end Sys2Proof.Machine
end

