-- ==== Sys2Proof/Machine/Trip.lean ====
section
/-! DEFINITION. The trip matrix, its outputs and its inputs (07_dc_trip_breaker.md R183 to R194). -/

namespace Sys2Proof.Machine

def modTrp (f : Trp → Trp) (s : State) : State := { s with trp := f s.trp }

def modRow (r : Nat) (f : Row → Row) (s : State) : State := modTrp (fun x => { x with rows := lmod x.rows r f }) s

/-- Stamp now on TRP_CTL.TBSEL (R188). -/
def trpStamp (s : State) : Int := baseNs s s.trp.tbsel

/-- Fields of TRP_ROW_CTL (R198). -/
def Row.en (r : Row) : Bool := bit r.ctl 0
def Row.close (r : Row) : Bool := bit r.ctl 1
def Row.testPass (r : Row) : Bool := bit r.ctl 2
def Row.cbWait (r : Row) : Bool := bit r.ctl 3
def Row.cbBi (r : Row) : Nat := bits r.ctl 7 4
def Row.gateZone (r : Row) : Nat := bits r.ctl 14 9
def Row.breaker (r : Row) : Nat := bits r.ctl 18 16
def Row.bkrEn (r : Row) : Bool := bit r.ctl 19

/-- MIN_PULSE and SEAL in ns, at the nearer limit of their ranges (R198). -/
def Row.minPulse (r : Row) : Nat := clampN 10 10000 (bits r.time 15 0) * 1000000
def Row.seal (r : Row) : Nat := min 10000 (bits r.time 31 16) * 1000000

/-- MAX_PULSE in ns (R198). -/
def Row.maxPulse (r : Row) : Nat := clampN 100 10000 r.maxp * 1000000

/-- The zone of an instance is in test mode (R187). -/
def instInTest (s : State) (i : Nat) : Bool :=
  match tget s.prt.insts i with
  | some x => match tget s.prt.zones x.cfg.zone with
    | some z => z.test.isSome
    | none => false
  | none => false

/-- A term is true; grant names the VF grant whose request is being accepted (R183, R187, R192). -/
def termTrue (s : State) (r : Row) (grant : Option Nat) (t : Word) : Bool :=
  let idx := bits t 21 0
  match bits t 31 29 with
  | 1 => eBit s idx && (r.testPass || !(decide (idx < 32768) && instInTest s (idx / 16)))
  | 2 => decide (idx < 48) && srcLevel s (0x10 + idx)
  | 3 => s.cyc.q.getLsbD idx
  | 4 => grant == some idx
  | _ => false

/-- A trip row of the same breaker is active (R186). -/
def breakerTripping (s : State) (b : Nat) : Bool :=
  s.trp.rows.any fun x => x.active && !x.close && x.bkrEn && x.breaker == b

/-- A close row is forced off (R186), or closing actions are cancelled (R34 step 3). -/
def closeBarred (s : State) (r : Row) : Bool :=
  r.close && (!zoneOwned s r.gateZone || breakerTripping s r.breaker || s.sys.leaving.isSome)

/-- Input of a row (R184, R186, R198). -/
def rowInput (s : State) (grant : Option Nat) (r : Row) : Bool :=
  r.en && !closeBarred s r && r.terms.any (termTrue s r grant)

/-- First true term of a row, 0xFFFF for none (R196). -/
def firstTerm (s : State) (grant : Option Nat) (r : Row) : Nat := (r.terms.findIdx? (termTrue s r grant)).getD 0xFFFF

/-- NS and SEC_LO of a record stamped on base tb (R169). -/
def stampWords (tb : Nat) (t : Int) : Bytes := w32 (stampNsWord tb t) ++ w32 (secLo t)

/-- Drives pin TOn for row n, 0 to 7 (R188, R189): the carrier returns the state of the stage unless a mismatch stands (log entry 35). -/
def setPin (n : Nat) (v : Bool) (s : State) : State :=
  if n ≥ 8 then s
  else
    let t := trpStamp s
    let s := modTrp (fun x => { x with
      pins := setBit x.pins n v
      tofb := if x.mismatch.getLsbD n then x.tofb else setBit x.tofb n v
      toNs := lset x.toNs n (stampNsWord x.tbsel t)
      toSec := lset x.toSec n (secLo t)
      toAt := lset x.toAt n s.now }) s
    srcEdge (0x50 + n) v s.trp.tbsel t s

/-- A row is accepted (R184). -/
def acceptRow (n : Nat) (grant : Option Nat) (s : State) : State :=
  let r := rowOf s n
  let t := trpStamp s
  let term := firstTerm s grant r
  let s := modRow n (fun r => { r with
    active := true, accAt := s.now, ns := stampNsWord s.trp.tbsel t, sec := secLo t, cnt := r.cnt + 1, seen := true }) s
  setPin n true (ev 0x0510 (u8 n ++ u8 1 ++ u16 term ++ stampWords s.trp.tbsel t) s)

/-- A row is released (R184, R186). -/
def releaseRow (n : Nat) (s : State) : State :=
  let t := trpStamp s
  let term := firstTerm s none (rowOf s n)
  setPin n false (ev 0x0510 (u8 n ++ u8 0 ++ u16 term ++ stampWords s.trp.tbsel t) (modRow n (fun r => { r with active := false }) s))

/-- Input v of row n taken, with the instant at which it became 0 (R184). -/
def takeInput (n : Nat) (v : Bool) (s : State) : State :=
  modRow n (fun r => { r with input := v, zeroAt := if r.input && !v then s.now else r.zeroAt }) s

/-- Input of row n taken, and the row accepted when it becomes 1 while SYS_STATE reads SERVICE (R184, R185; log entry 171). -/
def evalRow (grant : Option Nat) (n : Nat) (s : State) : State :=
  let r := rowOf s n
  let v := rowInput s grant r
  let s := takeInput n v s
  if v && !r.active && decide (s.sys.st = .service) then acceptRow n grant s else s

/-- Active close rows that are forced off are released (R186). -/
def fenceRow (n : Nat) (s : State) : State :=
  let r := rowOf s n
  if !(r.active && closeBarred s r) then s
  else if !zoneOwned s r.gateZone then
    let heard := (s.red.zones.getD r.gateZone OwnZone.reset).heard
    releaseRow n (ev 0x0519 (u8 n ++ u8 r.gateZone ++ u16 0 ++ u32 heard) (modTrp (fun x => { x with fenced := satInc x.fenced }) s))
  else releaseRow n s

/-- A row's input as it stands, without an acceptance. -/
def sampleRow (n : Nat) (s : State) : State := takeInput n (rowInput s none (rowOf s n)) s

/-- The matrix decides every row, in increasing order (R183 to R186; log entry 17). -/
def matrixDecide (grant : Option Nat) (s : State) : State :=
  let s := foldOver (List.range 16) (evalRow grant) s
  let s := foldOver (List.range 16) fenceRow s
  foldOver (List.range 16) sampleRow s

/-- The conditions of R184 for the release of an active row, the same in every state. -/
def releasable (s : State) (r : Row) : Bool :=
  r.active && decide (r.accAt + r.minPulse ≤ s.now) && !r.input && decide (r.zeroAt + r.seal ≤ s.now)
    && (!r.cbWait || !(biOf s r.cbBi).val || decide (r.accAt + r.maxPulse ≤ s.now))

/-- Edge instructions of the images in force see a transition of an I, E, G or V operand (R215). -/
def latchEdges (s : State) : State :=
  let upd (t : Task) : Task :=
    match tget s.cyc.slots t.cfg.slot with
    | none => t
    | some img =>
      { t with edges := img.edges.foldl (fun es d =>
          match img.prog[d.index]? with
          | none => es
          | some i =>
            if !(i.area == 0 || i.area == 3 || i.area == 4 || i.area == 5) || forced s i.area i.opnd then es
            else
              let v := operandBit s i.area i.opnd
              tmod es d.index fun e => ⟨v, e.pending || (if i.op = 0x28 then v && !e.mem else !v && e.mem)⟩) t.edges }
  { s with cyc := { s.cyc with tasks := s.cyc.tasks.map fun p => (p.1, upd p.2) } }

/-- After a change that terms, members or edges may see: the matrix decides, edges latch, changed GOOSE goes out (R134, R184, R215). -/
def settleWith (grant : Option Nat) (s : State) : State := gooseCheck (latchEdges (matrixDecide grant s))

def settle (s : State) : State := settleWith none s

/-- Closing actions in progress are cancelled (R34 step 3); trip rows stay until they are released. -/
def cancelCloses (s : State) : State :=
  foldOver (List.range 16) (fun n s => if (rowOf s n).active && (rowOf s n).close then releaseRow n s else s) s

/-- A record limited to 20 per second (R169, R196): whether it may be formed, with the new second and count. -/
def limit20 (now sec count : Nat) : Bool × Nat × Nat :=
  let n := now / NS
  if n ≠ sec then (true, n, 1) else (decide (count < 20), sec, count + 1)

def modBi (n : Nat) (f : BinIn → BinIn) (s : State) : State := modTrp (fun x => { x with bi := lmod x.bi n f }) s

/-- DEB of an input in ns (R198). -/
def BinIn.deb (b : BinIn) : Nat := min 200 (bits b.cfg 7 0) * 100000

/-- CHAT_N of an input (R198). -/
def BinIn.chatN (b : BinIn) : Nat := if bits b.cfg 23 16 = 1 then 2 else bits b.cfg 23 16

/-- The debounced value of an input changes, stamped t on TRP_CTL.TBSEL (R190). -/
def biChange (n : Nat) (level : Bool) (t : Int) (s : State) : State :=
  let b := biOf s n
  let (ok, sec, cnt) := limit20 s.now b.recSec b.recCount
  let ch := s.now :: b.changes.filter fun c => decide (s.now < c + NS)
  let chatter := decide (b.chatN > 0) && decide (ch.length > b.chatN)
  let s := modBi n (fun b => { b with
    val := level, seen := true, ns := stampNsWord s.trp.tbsel t, sec := secLo t, changes := ch, invalid := chatter,
    recSec := sec, recCount := cnt, dropped := if ok then 0 else b.dropped + 1 }) s
  let s := if ok then ev 0x0512 (u8 n ++ u8 (b2n level) ++ u16 0 ++ stampWords s.trp.tbsel t) s else s
  let s := if chatter then ev 0x0513 (u8 n ++ u8 1 ++ u16 0) s else s
  settle (srcEdge (0x40 + n) level s.trp.tbsel t s)

/-- BI_DEBOUNCED_CHANGE (R190): the raw level has been stable for DEB. -/
def execBiDebouncedChange (t bi : Nat) (level : Bool) (s : State) : Res :=
  let s := atTime t s
  let b := biOf s bi
  if bi ≥ 16 ∨ (b.raw = level ∧ (b.invalid ∨ b.val = level)) then go s
  else
    let s := modBi bi (fun b => { b with raw := level, rawAt := s.now - b.deb }) s
    if b.invalid || b.val == level then go s
    else go (biChange bi level (trpStamp s - b.deb) s)

/-- BI_CHATTER_RECOVER (R190): valid after 10 s without a raw change; the value follows the raw level. -/
def execBiChatterRecover (t bi : Nat) (s : State) : Res :=
  let s := atTime t s
  let b := biOf s bi
  if bi ≥ 16 ∨ !b.invalid ∨ s.now < b.rawAt + 10 * NS then go s
  else
    let s := ev 0x0513 (u8 bi ++ u8 0 ++ u16 0) (modBi bi (fun b => { b with invalid := false, changes := [] }) s)
    if b.val == b.raw then go s else go (biChange bi b.raw ((baseOf s s.trp.tbsel).ns b.rawAt) s)

/-- FB_T in ns, 0 used as 1 (R198). -/
def fbTime (s : State) : Nat := max 1 (min 200 s.trp.fbt) * 100000

/-- Elapsed instant of the latest change of TOn or of its MISMATCH. -/
def toSince (s : State) (n : Nat) : Nat := s.trp.toAt.getD n 0

/-- TO_FEEDBACK_MISMATCH (R189): TOFBn has differed from TOn for longer than FB_T; the output does not change. -/
def execToFeedbackMismatch (t n : Nat) (s : State) : Res :=
  let s := atTime t s
  if n ≥ 8 ∨ s.trp.mismatch.getLsbD n ∨ s.now ≤ toSince s n + fbTime s then go s
  else
    let v := s.trp.pins.getLsbD n
    let s := modTrp (fun x => { x with tofb := setBit x.tofb n (!v), mismatch := setBit x.mismatch n true, toMism := setBit x.toMism n true, toAt := lset x.toAt n s.now }) s
    go (settle (ev 0x0511 (u8 n ++ u8 (b2n v) ++ u8 (b2n (!v)) ++ u8 0 ++ stampWords s.trp.tbsel (trpStamp s)) s))

/-- TO_MISMATCH_CLEAR (R189): the two have agreed for FB_T. -/
def execToMismatchClear (t n : Nat) (s : State) : Res :=
  let s := atTime t s
  if n ≥ 8 ∨ !s.trp.mismatch.getLsbD n ∨ s.now < toSince s n + fbTime s then go s
  else go (settle (modTrp (fun x => { x with tofb := setBit x.tofb n (x.pins.getLsbD n), mismatch := setBit x.mismatch n false, toAt := lset x.toAt n s.now }) s))


end Sys2Proof.Machine
end

