-- ==== Sys2Proof/Machine/Store.lean ====
section
/-! DEFINITION. The channel store: final slots and everything that takes them (05_sampled_values.md R111 to R131, 14_host_vfs.md R343, R349). -/

namespace Sys2Proof.Machine

/-- The subscription a remote channel is bound to. -/
def subOf (s : State) (chid : Nat) : Option (Nat × SvSub) :=
  s.sve.subs.find? fun p => p.2.cfg.entries.any fun e => e.chid == chid

/-- The base a subscription's samples are placed on (R121). -/
def SvSub.base (u : SvSub) : Nat := if u.simulated then 3 else u.cfg.tbsel

/-- The channel as the store has it; a channel that holds nothing yet is on its present base and rate (R111). -/
def storeCh (s : State) (chid : Nat) : StoreCh :=
  match tget s.sve.chans chid with
  | some c => c
  | none =>
    if chid < 24 then ⟨s.acq.tbsel, (s.flt.ch.getD chid FltCh.reset).geom.rate, [], s.sve.since, none, []⟩ else match subOf s chid with
      | some (_, u) => ⟨u.base, u.cfg.rate, [], s.sve.since, none, []⟩
      | none => ⟨0, 0, [], s.sve.since, none, []⟩

def modCh (chid : Nat) (f : StoreCh → StoreCh) (s : State) : State :=
  modSve (fun v => { v with chans := tset v.chans chid (f (storeCh s chid)) }) s

/-- The slot of K, when K is final and still held. -/
def StoreCh.slot (c : StoreCh) (k : Nat) : Option Slot := c.slots.find? fun x => x.k == k

/-- K is final: held, or overtaken by 256 later slots (R111, R124). -/
def StoreCh.final (c : StoreCh) (k : Nat) : Bool :=
  (c.slot k).isSome || (match c.slots.head? with
    | some x => decide (k + 256 ≤ x.k)
    | none => false)

/-- Slots newest first with one more, the 256 newest held; a written one that falls out is kept for R124. -/
def StoreCh.insert (c : StoreCh) (x : Slot) : StoreCh :=
  let rec put : List Slot → List Slot
    | [] => [x]
    | y :: r => if y.k < x.k then x :: y :: r else y :: put r
  let l := put c.slots
  let out := (l.drop 256).find? fun y => y.written
  { c with slots := l.take 256, lastWritten := match out with
    | some y => some (y.k, y.v, y.q)
    | none => c.lastWritten }

/-- Value and quality of the latest final slot before K that held a sample (R124). -/
def StoreCh.before (c : StoreCh) (k : Nat) : Option (Word × Quality) :=
  match c.slots.find? fun y => y.written && decide (y.k < k) with
  | some y => some (y.v, y.q)
  | none => match c.lastWritten with
    | some (j, v, q) => if j < k then some (v, q) else none
    | none => none

/-- The count of consecutive missing samples that ends just before K: final slots that hold none (R124). -/
def StoreCh.missed (c : StoreCh) (k : Nat) : Nat :=
  ((c.slots.dropWhile fun y => decide (k ≤ y.k)).foldl (fun (r : Nat × Bool) y =>
    if r.2 && !y.written && y.k + r.1 + 1 == k then (r.1 + 1, true) else (r.1, false)) (0, true)).1

/-- The channel's slots are emptied and its ring restarts (R112). -/
def emptyCh (chid tb rate : Nat) (s : State) : State :=
  ringDrop chid (modSve (fun v => { v with chans := tset v.chans chid ⟨tb, rate, [], s.now, none, []⟩ }) s)

/-- CHIDs of a binding's masked zone slots (R349). -/
def bindChans (z : ZoneDef) (b : VfmBind) : List Nat :=
  (List.range 8).filterMap fun i => match z.slots[i]? with
    | some c => if b.chmask.getLsbD i && c != 0xFFFF then some c else none
    | none => none

/-- The octets of a SAMPLE_BLOCK whose first index is K (R343). -/
def sampleBlock (s : State) (z : ZoneDef) (b : VfmBind) (chs : List Nat) (k : Nat) : Bytes :=
  let base := zoneBase s z
  let t := kStamp s base z.rate k
  let row (j : Nat) : Bytes :=
    let xs := chs.map fun c => ((storeCh s c).slot (k + j)).getD ⟨0, 0#32, qEmpty, false⟩
    let o := xs.flatMap (fun x => w32 x.v) ++ xs.flatMap (fun x => u16 x.q.toNat)
    padTo (cdiv o.length 4 * 4) o
  u8 b.zone ++ u8 chs.length ++ u16 b.blockN ++ u8 base ++ u8 z.rate ++ u16 0 ++ u64 (secOf t).toNat ++ u32 (nsOf t)
    ++ u32 (kToN s base z.rate k % rateHz z.rate).toNat
    ++ (List.range 8).flatMap (fun i => u16 (chs.getD i 0xFFFF)) ++ (List.range b.blockN).flatMap row

/-- Blocks that index k of a channel completes, for one binding slot (R343, R349). -/
def blockForm (v slot chid k : Nat) (s : State) : State :=
  match (vfOf s v).binds[slot]? with
  | none => s
  | some bd =>
    match (bd.next.bind (fun x => x.2)).or bd.cur with
    | none => s
    | some any =>
      let k0 := k / (max 1 any.blockN) * (max 1 any.blockN)
      match bd.atK k0 with
      | none => s
      | some b =>
        let k0 := k / (max 1 b.blockN) * (max 1 b.blockN)
        match tget s.prt.zones b.zone with
        | none => s
        | some z =>
          let chs := bindChans z.cfg b
          let done := match bd.formed with
            | some f => decide (k0 ≤ f)
            | none => false
          if !nbit b.flags 0 || !chs.contains chid || done then s
          else if chs.all fun c => (List.range b.blockN).all fun j => (storeCh s c).final (k0 + j) then
            let s := modVf v (fun f => { f with binds := lmod f.binds slot fun x => { x with
              formed := some k0
              cur := some b
              next := match x.next with
                | some (fk, y) => if fk ≤ k0 then none else some (fk, y)
                | none => none } }) s
            admitBulk v ⟨1, slot, sampleBlock s z.cfg b chs k0, 0⟩ s
          else s

/-- SAMPLE_BLOCKs of every VF that a new final slot completes (R343). -/
def blocksForm (chid k : Nat) (s : State) : State :=
  foldOver s.vfm.vfs (fun p s => foldOver (List.range p.2.binds.length) (fun i s => blockForm p.1 i chid k s) s) s

/-- The ASDU of PUB p at index k, when every one of its channels runs at the stream's rate and is final (R127 to R129). -/
def pubAsdu (s : State) (u : SvPub) (k : Nat) : Option PubAsdu :=
  let xs := u.cfg.entries.map fun e =>
    if (storeCh s e.chid).rate = u.cfg.rate then ((storeCh s e.chid).slot k).map fun x => pubValue e.kind x.v x.q else none
  if xs.all Option.isSome then
    some ⟨k, u.cfg.svid, smpCntOf u.cfg.rate (kToN s s.acq.tbsel u.cfg.rate k), u.cfg.confrev, smpSynch (baseOf s s.acq.tbsel),
      if u.cfg.layout = 0 then some (rateHz u.cfg.rate, 1) else none, xs.filterMap id⟩
  else none

/-- A new final slot of a local channel advances the publications of it (R129 to R131). -/
def pubAdvance (chid k : Nat) (s : State) : State :=
  foldOver s.sve.pubs (fun p s =>
    match tget s.sve.pubs p.1 with
    | none => s
    | some u =>
      let n := max 1 u.cfg.noasdu
      if !u.running || !(u.cfg.entries.any fun e => e.chid == chid) then s
      else if k % n = 0 && u.shedStopped then s
      else match pubAsdu s u k with
        | none => s
        | some a =>
          let next := match u.gather.getLast? with
            | some l => decide (l.k + 1 = k) && k % n != 0
            | none => false
          let g := if k % n = 0 then [a] else if next then u.gather ++ [a] else []
          let s := modSve (fun v => { v with pubs := tmod v.pubs p.1 fun u => { u with gather := g } }) s
          if g.length = n then svSend p.1 s else s) s

/-- A slot becomes final: every reader of the store takes it (R24, R124). -/
def finalise (chid : Nat) (x : Slot) (s : State) : State :=
  let c := storeCh s chid
  let s := modCh chid (fun c => { c.insert x with kept := c.kept.filter fun y => y.1 != x.k }) s
  let s := ringPush chid c.rate c.tb (kToN s c.tb c.rate x.k) x.v x.q s
  let s := if chid < 24 then pubAdvance chid x.k s else s
  blocksForm chid x.k s

/-- A sample is written into its slot (R124). -/
def writeSlot (chid k : Nat) (v : Word) (q : Quality) (s : State) : State := finalise chid ⟨k, v, q, true⟩ s

/-- SUBST_MAX of a channel (R124). -/
def substMax (s : State) (chid : Nat) : Nat :=
  match subOf s chid with
  | some u => u.2.cfg.substMax
  | none => 3

/-- One record per second of a counter (R137). -/
def PerSecond.hit (p : PerSecond) (s : State) (n : Nat) : Option Nat × PerSecond :=
  if secondPassed s p.last then (some (p.count + n), ⟨some s.now, 0⟩) else (none, ⟨p.last, p.count + n⟩)

/-- A late ASDU or local output (R125, R126). -/
def svLate (s : State) : State :=
  let (e, p) := s.sve.lateEv.hit s 1
  let s := modSve (fun v => { v with late := satInc v.late, lateEv := p }) s
  match e with
  | some c => ev 0x0408 (u32 c) s
  | none => s

/-- M and ADV of a geometry (R70). -/
def geomH (g : Geom) : Nat :=
  let d1 := if g.rate = 0 then 21 else if g.rate = 3 then 42 else 35
  let d2 := if g.rate = 0 then 1 else if g.rate = 1 then 4 else 12
  (g.l1mul * d1 - 1) + (g.l2mul * d2 - 1) * d1

def geomM (g : Geom) : Nat := cdiv (geomH g) 2

/-- Expected latency E of a channel in ps, rounded up (R79, R123). -/
def latencyPs (s : State) (chid : Nat) : Nat :=
  if chid < 24 then
    let c := s.acq.ch.getD chid AcqCh.reset
    let g := (s.flt.ch.getD chid FltCh.reset).geom
    cdiv (geomM g * 31250000) 63 + 2750000 + c.skew * 500 - c.adv * 500
  else match subOf s chid with
    | some u => u.2.cfg.latUs * 1000000
    | none => 0

/-- E + ALIGN_WAIT of a channel in ns, rounded up (R123). -/
def deadlineOffset (s : State) (chid : Nat) : Nat :=
  let r := (storeCh s chid).rate
  cdiv (latencyPs s chid + s.sve.align.getD r 90 * 10000000000 / rateHz r) 1000

/-- The elapsed instant of deadline(K), which may have passed (R123). -/
def deadlineAt (s : State) (chid k : Nat) : Nat :=
  let c := storeCh s chid
  match c.kept.find? fun y => y.1 == k with
  | some y => y.2
  | none =>
    let t := kStamp s c.tb c.rate k + deadlineOffset s chid
    if baseNs s c.tb < t then instantOf s c.tb t else (baseOf s c.tb).cycleOf s.now t

/-- The deadline of K has passed while the channel was taking samples: before that no slot becomes final (R111, R124). -/
def deadlinePassed (s : State) (chid k : Nat) : Bool :=
  decide (deadlineAt s chid k ≤ s.now) && decide ((storeCh s chid).since < deadlineAt s chid k)

/-- The store holds the channel: every local one, and a remote one that is bound (R111). -/
def chDefined (s : State) (chid : Nat) : Bool := decide (chid < 24) || (subOf s chid).isSome

/-- Counts a missing sample of a channel (R124). -/
def countMiss (chid : Nat) (s : State) : State :=
  let s := modSve (fun v => { v with subst := satInc v.subst }) s
  match subOf s chid with
  | some (i, _) => modSve (fun v => { v with subs := tmod v.subs i fun u => { u with miss := satInc u.miss } }) s
  | none => s

/-- The deadline fill of a slot (R124). -/
def substitute (chid k : Nat) (s : State) : State :=
  let c := storeCh s chid
  let n := c.missed k + 1
  let prev := c.before k
  let (v, q) := match prev with
    | some (v, q) => (v, if n ≤ substMax s chid then q ||| 0x0400#16 else qLost)
    | none => (0#32, qLost)
  let s := countMiss chid s
  let s := if n = substMax s chid + 1 then
      let m := kToN s c.tb c.rate k
      ev 0x0405 (u16 chid ++ u16 0 ++ u32 (m % rateHz c.rate).toNat ++ w32 (iw (m / rateHz c.rate))) s
    else s
  finalise chid ⟨k, v, q, false⟩ s

/-- SLOT_DEADLINE (R123, R124): the deadline of index k of a channel has passed. -/
def execSlotDeadline (t ch k : Nat) (s : State) : Res :=
  let s := atTime t s
  if operational s && chDefined s ch && !(storeCh s ch).final k && deadlinePassed s ch k then go (substitute ch k s)
  else go s

/-- The store after an entry to SERVICE or MAINT from another state: every channel is empty (R111, R124). -/
def storeEmpty (s : State) : State := modSve (fun v => { v with chans := [], since := s.now }) s

/-- Numbering of a base after a step (R112): the first sample at the new phase takes the index after the last one before the step. -/
def rebase (base : Nat) (before after : Int) (s : State) : State :=
  foldOver (List.range 4) (fun r s =>
    let f := rateHz r
    let last := nToK s base r (nAtOrBefore f before)
    let c := (last : Int) + 1 - nAtOrAfter f after
    modSve (fun v => { v with numPrev := tset v.numPrev (base * 4 + r) (last, numC s base r),
                              numOffset := tset v.numOffset (base * 4 + r) c }) s) s

/-- The CHIDs that the store holds (R111). -/
def storeChids (s : State) : List Nat := List.range 24 ++ s.sve.subs.flatMap fun u => u.2.cfg.entries.map SvEntry.chid

/-- Deadlines of indices not yet final are kept as instants over a step, in a channel that holds nothing yet too (R123). -/
def keepDeadlines (base : Nat) (before : Int) (s : State) : State :=
  foldOver (storeChids s) (fun chid s =>
    let c := storeCh s chid
    if c.tb ≠ base then s
    else
      let last := nToK s base c.rate (nAtOrBefore (rateHz c.rate) before)
      let open' (k : Nat) : Bool := !c.final k && !c.kept.any (fun y => y.1 == k) && decide (c.since < deadlineAt s chid k)
      let ks := ((List.range 256).map fun i => last - i).filter open'
      if ks.isEmpty then s else modCh chid (fun c => { c with kept := c.kept ++ ks.map fun k => (k, deadlineAt s chid k) }) s) s

end Sys2Proof.Machine
end

