-- ==== Sys2Proof/Machine/Filter.lean ====
section
/-! DEFINITION. Filter chains, fast taps, flash stages and detectors (03_filter_chain.md). -/

namespace Sys2Proof.Machine

/-- D1 and D2 of a RATE code (R69). -/
def rateD1 (r : Nat) : Nat := if r = 0 then 21 else if r = 3 then 42 else 35
def rateD2 (r : Nat) : Nat := if r = 0 then 1 else if r = 1 then 4 else 12

def Geom.l1 (g : Geom) : Nat := g.l1mul * rateD1 g.rate
def Geom.l2 (g : Geom) : Nat := g.l2mul * rateD2 g.rate
def Geom.d (g : Geom) : Nat := rateD1 g.rate * rateD2 g.rate

/-- ADV of a geometry: 0 when H is even, 496 when odd (R70). -/
def geomAdv (g : Geom) : Nat := if geomH g % 2 = 0 then 0 else 496

/-- round_half_even(2^p / n). -/
def recip (p n : Nat) : Int := rdivEven (2 ^ p : Nat) n

def modFlt (n : Nat) (f : FltCh → FltCh) (s : State) : State := { s with flt := { s.flt with ch := lmod s.flt.ch n f } }

def fltOf (s : State) (n : Nat) : FltCh := s.flt.ch.getD n FltCh.reset

def acqOf (s : State) (n : Nat) : AcqCh := s.acq.ch.getD n AcqCh.reset

def modAcqCh (n : Nat) (f : AcqCh → AcqCh) (s : State) : State := { s with acq := { s.acq with ch := lmod s.acq.ch n f } }

/-- Fields of FLT_CTL (R88). -/
def FltCh.cfgGeom (c : FltCh) : Geom := ⟨bits c.ctl 1 0, if bit c.ctl 2 then 2 else 1, if bit c.ctl 3 then 2 else 1⟩
def FltCh.dcbRaw (c : FltCh) : Nat := bits c.ctl 8 4
def FltCh.freeze (c : FltCh) : Bool := bit c.ctl 9
def FltCh.cfgLf (c : FltCh) : Nat := bits c.ctl 21 16 + 1
def FltCh.ed (c : FltCh) : Nat := clampN 1 20 (bits c.ctl 28 24)

/-- K of the DC block, 0 for off (R74, R88). -/
def FltCh.dcbK (c : FltCh) : Nat := if 8 ≤ c.dcbRaw ∧ c.dcbRaw ≤ 20 then c.dcbRaw else 0

/-- DET_W in use (R85). -/
def FltCh.detWin (c : FltCh) : Nat := max 1 c.detw

/-- Fields of FLT_FS_CTL (R88). -/
def FlashStage.mode (f : FlashStage) : Nat := bits f.ctl 2 0
def FlashStage.blockQ (f : FlashStage) : Bool := bit f.ctl 3
def FlashStage.n (f : FlashStage) : Nat := bits f.ctl 19 8 + 1
def FlashStage.span (f : FlashStage) : Nat := bits f.ctl 29 20 + 1

/-- A mode whose LEVEL and HYST are bound by R81. -/
def strictMode (m : Nat) : Bool := m == 1 || m == 4 || m == 5 || m == 6

/-- A stage setting that R81 allows. -/
def stageOk (mode : Nat) (level : Int) (hyst : Nat) : Bool :=
  decide (mode < 7) && (!strictMode mode || (decide (level ≥ 1) && decide ((hyst : Int) < level)))

/-- The mode a stage acts in: OFF for a setting that breaks R81. -/
def FlashStage.acting (f : FlashStage) : Nat := if stageOk f.mode f.level f.hyst then f.mode else 0

/-- FLT_CFGERR of a channel (R74, R81, R88). -/
def FltCh.cfgErr (c : FltCh) : Bool :=
  decide (c.dcbRaw ≠ 0 ∧ c.dcbK = 0) || c.fs.any fun f => f.claimErr || !stageOk f.mode f.level f.hyst

/-- The pickup condition of R81. -/
def pickup (mode : Nat) (level q : Int) : Bool :=
  match mode with
  | 1 => decide ((q.natAbs : Int) ≥ level)
  | 2 => decide (q ≥ level)
  | 3 => decide (q ≤ level)
  | 4 => decide (q ≥ level)
  | 5 => decide (q ≤ -level)
  | 6 => decide ((q.natAbs : Int) ≥ level)
  | _ => false

/-- The condition under which OUT is held (R81). -/
def held (mode : Nat) (level : Int) (hyst : Nat) (q : Int) : Bool :=
  match mode with
  | 1 => decide ((q.natAbs : Int) ≥ level - hyst)
  | 2 => decide (q ≥ level - hyst)
  | 3 => decide (q ≤ level + hyst)
  | 4 => decide (q ≥ level - hyst)
  | 5 => decide (q ≤ -(level - hyst))
  | 6 => decide ((q.natAbs : Int) ≥ level - hyst)
  | _ => false

/-- The quantity a stage compares: f, or the difference over SPAN, with the flags that block it; none when incomplete (R80 to R82). -/
def stageQuantity (mode span : Nat) (ft : List FtSample) : Option (Int × SampFlags) :=
  match ft.head? with
  | none => none
  | some a =>
    if !a.complete then none
    else if mode < 4 then some (a.f, a.flags)
    else match ft[span]? with
      | none => none
      | some b => if b.complete then some (a.f - b.f, a.flags ||| b.flags) else none

/-- What a fast-tap sample does to a stage: OUT sets with q, clears with a cause, or nothing. -/
inductive FlashAct where
  | none
  | set (q : Int)
  | clear (cause : Nat)
deriving DecidableEq, Repr

/-- One fast-tap sample acts on a stage (R80 to R82). COUNT holds N while OUT is set, and an incomplete sample reads BLOCKED 0 (DESIGN CHOICE, log entries 181, 182). -/
def stageStep (f : FlashStage) (ft : List FtSample) : FlashStage × FlashAct :=
  let mode := f.acting
  let stop (f : FlashStage) (cause : Nat) : FlashStage × FlashAct :=
    ({ f with count := 0, out := false }, if f.out then .clear cause else .none)
  match stageQuantity mode f.span ft with
  | none => stop { f with blocked := false } 2
  | some (q, fl) =>
    let b := f.blockQ && flagsInvalid fl
    let f := { f with blocked := b }
    if mode = 0 then stop f 2
    else if b then stop f 1
    else if f.out then
      if held mode f.level f.hyst q then (f, .none) else stop f 0
    else if pickup mode f.level q then
      if f.count + 1 ≥ f.n then ({ f with count := f.n, out := true }, .set q) else ({ f with count := f.count + 1 }, .none)
    else ({ f with count := 0 }, .none)

/-- The fast tap restarts (R80). -/
def ftRestart (c : FltCh) : FltCh := { c with ftRun := 0, ft := [] }

/-- The chain restarts: sums, mean, detectors and the fast tap (R77, R85). -/
def chainRestart (c : FltCh) : FltCh :=
  ftRestart { c with
    restart := false, started := true, sinceRestart := 0, u1s := [], m := 0, ys := [], peakCount := 0, peakRun := none,
    peakMax := 0#32, peakMin := 0#32, hold := none, holdMax := 0#32, holdMin := 0#32, rms := 0#32, e := 0, env := 0#32, detq := 0#16 }

/-- One sample of the fast tap (R75, R80). -/
def ftSample (c : FltCh) : FltCh :=
  let xs := c.raw.take c.lf
  let sum := xs.foldl (fun a x => a + x.1) 0
  let fl := xs.foldl (fun (a : SampFlags) x => a ||| x.2) 0#6
  let run := c.ftRun + 1
  let f := rdivEven (sum * recip 38 c.lf) (2 ^ 32)
  { c with ftRun := run, ft := (⟨f, decide (run ≥ c.lf), fl⟩ : FtSample) :: c.ft.take 1024 }

/-- u1 of MA1 at this raw index (R73). -/
def ma1 (c : FltCh) : Int :=
  let l := c.geom.l1
  rdivEven (((c.raw.take l).foldl (fun a x => a + x.1) 0) * recip 38 l) (2 ^ 32)

/-- u2 of MA2 over the retained u1 values (R73). -/
def ma2 (c : FltCh) : Int :=
  let l := c.geom.l2
  rdivEven (((c.u1s.take l).foldl (· + ·) 0) * recip 36 l) (2 ^ 32)

/-- y × 2^-10 × SCALE + EOFS, evaluated in binary64 and rounded once (R73); otherwise a free value (log entry 12). -/
def toUnits (y : Int) (scale eofs : Word) : Word :=
  match dec32 scale, dec32 eofs with
  | some a, some b => (enc32 (((Flt64.scaled y (-10)).mul64 a).add64 b)).getD (Config.beyond [y, scale.toNat, eofs.toNat])
  | _, _ => Config.beyond [y, scale.toNat, eofs.toNat]

/-- A magnitude × 2^-10 × abs(SCALE) (R85). -/
def toMagnitude (x : Flt64) (tag : Int) (scale : Word) : Word :=
  match dec32 scale with
  | some a => (enc32 ((x.mul ⟨false, 1, -10⟩).mul a.abs)).getD (Config.beyond [tag, scale.toNat])
  | none => Config.beyond [tag, scale.toNat]

/-- Qualities ORed under R76: the worst validity, every other bit ORed. -/
def qualityOr (a b : Quality) : Quality :=
  let v := if qInvalid a || qInvalid b then 1#16 else (a ||| b) &&& 3#16
  ((a ||| b) &&& 0xFFFC#16) ||| v

/-- Outputs of which the detectors' window is formed, at most the largest DET_W (R85). -/
def detectKept (c : FltCh) (y : Int) (q : Quality) : List (Int × Quality) := ((y, q) :: c.ys).take 65535

/-- The detectors take an output (R85). -/
def detect (c : FltCh) (y : Int) (q : Quality) : FltCh :=
  let w := c.detWin
  let kept := detectKept c y q
  let ys := kept.take w
  let run := match c.peakRun with
    | none => (y, y)
    | some (a, b) => (max a y, min b y)
  let e := max (y.natAbs : Int) (c.e - rdivEven c.e (2 ^ c.ed))
  let sq := nsum (ys.map fun p => p.1.natAbs * p.1.natAbs)
  let c := { c with
    ys := kept, e := e
    rms := toMagnitude (Flt64.sqrtRat sq w) sq c.scale
    env := toMagnitude (Flt64.ofInt e) e c.scale
    detq := ys.foldl (fun (a : Quality) (p : Int × Quality) => qualityOr a p.2) 0#16 }
  if c.peakCount + 1 < w then { c with peakCount := c.peakCount + 1, peakRun := some run }
  else
    let h := match c.hold with
      | none => run
      | some (a, b) => (max a run.1, min b run.2)
    { c with
      peakCount := 0, peakRun := none, hold := some h
      peakMax := toUnits run.1 c.scale c.eofs, peakMin := toUnits run.2 c.scale c.eofs
      holdMax := toUnits h.1 c.scale c.eofs, holdMin := toUnits h.2 c.scale c.eofs }

/-- One output of the chain, index n since the base's origin (R71 to R77). -/
def chainOutput (c : FltCh) (n : Int) : FltCh :=
  let h := geomH c.geom
  let fl := (c.raw.take (h + 1)).foldl (fun (a : SampFlags) x => a ||| x.2) 0#6
  let settling := !c.started || decide (c.sinceRestart < h + 1)
  let q := qualityOf fl settling
  let u2 := ma2 c
  let k := c.dcbK
  let m0 := if c.kInForce = 0 then 0 else c.m
  let frozen := qInvalid q
  let y := if settling then 0 else if k = 0 then u2 else u2 - rdivEven m0 (2 ^ 20)
  let m := if k = 0 then 0 else if c.freeze || frozen then m0 else m0 + rdivEven (u2 * 2 ^ 20 - m0) (2 ^ k)
  let v := if settling then 0#32 else toUnits y c.scale c.eofs
  detect { c with
    m := m, kInForce := k, autoFrozen := frozen, settling := settling, out := v, outq := q
    outidx := (n % rateHz c.geom.rate).toNat } y q

/-- What a strobe does inside a chain, its configuration applied before: raw index j since the base's origin (R71, R77, R80). -/
def chainStep (c : FltCh) (x : Int) (fl : SampFlags) (j : Nat) : FltCh × Option Int :=
  let c := if c.restart then chainRestart c else c
  let c := { c with raw := ((x, fl) :: c.raw).take 1050, sinceRestart := c.sinceRestart + 1 }
  let c := ftSample c
  let m := geomM c.geom
  let c := if j % rateD1 c.geom.rate = m % rateD1 c.geom.rate then { c with u1s := (ma1 c :: c.u1s).take 24 } else c
  if j % c.geom.d = m % c.geom.d ∧ j ≥ m then
    let n : Int := ((j - m) / c.geom.d : Nat)
    (chainOutput c n, some n)
  else (c, none)

/-- Instant that raw index j of channel n describes, ns (R83). -/
def rawStamp (j : Nat) (adv : Nat) : Int := rdivEven ((j : Int) * 2 * NS - (adv : Int) * 2016000) 4032000

/-- A pickup or drop-off record, at most 10 per stage and second (R87). -/
def flashEvent (n st type : Nat) (payload : Bytes) (s : State) : State :=
  let upd (f : FlashStage → FlashStage) : State := modFlt n (fun c => { c with fs := lmod c.fs st f }) s
  if ((fltOf s n).fs.getD st FlashStage.reset).recs < 10 then ev type payload (upd fun f => { f with recs := f.recs + 1 })
  else upd fun f => { f with suppressed := f.suppressed + 1 }

/-- A stage's change reaches the recorder, the Shutter and, by settle, the matrix (R83). -/
def flashAct (n st : Nat) (j : Nat) (a : FlashAct) (s : State) : State :=
  let tb := s.acq.tbsel
  let t := rawStamp j (acqOf s n).adv
  let id := 2 * n + st
  let f := (fltOf s n).fs.getD st FlashStage.reset
  match a with
  | .none => s
  | .set q =>
    let s := modFlt n (fun c => { c with fs := lmod c.fs st fun f => { f with
      seen := true, puNs := stampNsWord tb t, puSec := secLo t, puCnt := f.puCnt + 1 } }) s
    srcEdge (0x10 + id) true tb t (flashEvent n st 0x0211 (u8 id ++ u8 f.mode ++ u16 0 ++ stampWords tb t ++ s32 q) s)
  | .clear cause =>
    srcEdge (0x10 + id) false tb t (flashEvent n st 0x0212 (u8 id ++ u8 cause ++ u16 0 ++ stampWords tb t) s)

/-- A restart of the fast tap at raw index j: OUT of both stages clears with its record, cause 2 (R80); true when one changed. -/
def flashDrop (n j : Nat) (s : State) : Bool × State :=
  let one (st : Nat) (r : Bool × State) : Bool × State :=
    if ((fltOf r.2 n).fs.getD st FlashStage.reset).out then
      (true, flashAct n st j (.clear 2) (modFlt n (fun c => { c with fs := lmod c.fs st fun f => { f with out := false, count := 0 } }) r.2))
    else r
  one 1 (one 0 (false, s))

/-- Both stages of a channel take the newest fast-tap sample; true when one changed. -/
def flashStep (n j : Nat) (s : State) : Bool × State :=
  let one (st : Nat) (r : Bool × State) : Bool × State :=
    let c := fltOf r.2 n
    let (f, a) := stageStep (c.fs.getD st FlashStage.reset) c.ft
    (r.1 || a != .none, flashAct n st j a (modFlt n (fun c => { c with fs := lset c.fs st f }) r.2))
  one 1 (one 0 (false, s))

/-- RESYNC of channels for 2,016 strobes, with its record (R46). -/
def resync (cause : Nat) (chs : List Nat) (s : State) : State :=
  if chs.isEmpty then s
  else
    let map := nsum (chs.map fun n => 2 ^ n)
    ev 0x0208 (u8 cause ++ zeros 3 ++ u32 map) (foldOver chs (fun n s => modAcqCh n (fun c => { c with resync := 2016 }) s) s)

/-! ### Flash stages claimed by a high-set (R155) -/

/-- The PIOC instance that claims stage id. -/
def claimOf (s : State) (id : Nat) : Option (Nat × Inst) := s.prt.insts.find? fun p => p.2.cfg.cls == 1 && p.2.cfg.fs == id

/-- round_half_even(FLASH_K × √2 × I_SET × 64 / abs(FLT_SCALE)). -/
def claimLevel (flashK iSet scale : Word) : Int :=
  let a := (val32 flashK).mul (val32 iSet)
  let b := val32 scale
  let r := Flt64.sqrtRat (2 * a.mag * a.mag) (b.mag * b.mag)
  ({ r with exp := r.exp + a.exp + 6 - b.exp } : Flt64).toIntScaled 1

/-- A claimed setting is valid (R155). -/
def claimValid (flashK iSet scale eofs : Word) : Bool :=
  !nonzero32 eofs && decide (claimLevel flashK iSet scale ≤ 16777215)

/-- Active group of a zone. -/
def groupOf (s : State) (z : Nat) : Nat :=
  match tget s.prt.zones z with
  | some x => x.group
  | none => 0

/-- Settings vector of an instance in a group, and its EN. -/
def Inst.vec (i : Inst) (g : Nat) : List Word := i.groups.getD g []
def Inst.en (i : Inst) (g : Nat) : Bool := nbit i.cfg.enmask g

/-- FLT_CFGERR, with its record when a bit sets (R87, R88). -/
def fltCfgErr (s : State) : Nat := ofBits (s.flt.ch.map FltCh.cfgErr)

def cfgErrEvent (before : Nat) (s : State) : State :=
  if (List.range 24).any fun i => nbit (fltCfgErr s) i && !nbit before i then ev 0x0214 (u32 (fltCfgErr s)) s else s

/-- Programs stage id from the active group of the instance that claims it (R155). -/
def claimProgram (id : Nat) (s : State) : State :=
  match claimOf s id with
  | none => s
  | some (_, i) =>
    let g := groupOf s i.cfg.zone
    let v := i.vec g
    let c := fltOf s (id / 2)
    let ok := i.en g && claimValid (v.getD 2 0#32) (v.getD 0 0#32) c.scale c.eofs
    let level := claimLevel (v.getD 2 0#32) (v.getD 0 0#32) c.scale
    let n := ((val32 (v.getD 3 0#32)).toIntScaled 1).toNat
    let prog (f : FlashStage) : FlashStage :=
      if ok then { f with ctl := setBits (setBits (setBits f.ctl 2 0 1) 3 3 1) 19 8 (n - 1), level := level, hyst := level.toNat / 20, count := 0, claimErr := false }
      else { f with ctl := setBits f.ctl 2 0 0, count := 0, claimErr := i.en g }
    let before := fltCfgErr s
    cfgErrEvent before (modFlt (id / 2) (fun c => { c with fs := lmod c.fs (id % 2) prog }) s)

/-- A claim ends: the stage goes to MODE OFF (R155). -/
def claimEnd (id : Nat) (s : State) : State :=
  if id ≥ 48 then s
  else modFlt (id / 2) (fun c => { c with fs := lmod c.fs (id % 2) fun f => { f with ctl := setBits f.ctl 2 0 0, count := 0, claimErr := false } }) s

/-- Programs every stage claimed in a zone (R143, R155). -/
def claimsOfZone (z : Nat) (s : State) : State :=
  foldOver s.prt.insts (fun p s => if p.2.cfg.zone = z ∧ p.2.cfg.cls = 1 ∧ p.2.cfg.fs < 48 then claimProgram p.2.cfg.fs s else s) s

/-- Programs every claimed stage, as each change of the committed configuration does (R155). -/
def claimsAll (s : State) : State :=
  foldOver s.prt.insts (fun p s => if p.2.cfg.cls = 1 ∧ p.2.cfg.fs < 48 then claimProgram p.2.cfg.fs s else s) s

/-- Changes of configuration take effect at a strobe (R78): geometry with ADV (R46, R70), fast-tap length. DCB_K of the record is the K in use, 0 for a field that turns the block off (DESIGN CHOICE, log entry 179). -/
def applyChain (n : Nat) (s : State) : State :=
  let s := if (fltOf s n).claimDue then
      claimProgram (2 * n + 1) (claimProgram (2 * n) (modFlt n (fun c => { c with claimDue := false }) s)) else s
  let c := fltOf s n
  let g := c.cfgGeom
  let lf := c.cfgLf
  if g = c.geom ∧ lf = c.lf then s
  else
    let moved := g != c.geom
    let s := modFlt n (fun c =>
      let c := { c with geom := g, lf := lf }
      if moved then { c with restart := true } else ftRestart c) s
    let s := ev 0x0210 (u8 n ++ u8 g.rate ++ u8 g.l1mul ++ u8 g.l2mul ++ u8 c.dcbK ++ u8 lf ++ u16 0) s
    if (acqOf s n).adv = geomAdv g then s
    else resync 3 [n] (modAcqCh n (fun a => { a with adv := geomAdv g }) s)

/-- An output reaches the channel store in SERVICE and MAINT (R111, R112, R126). -/
def chainToStore (n : Nat) (cnt : Int) (s : State) : State :=
  if !operational s then s
  else
    let c := fltOf s n
    let st := storeCh s n
    let s := if st.tb ≠ s.acq.tbsel ∨ st.rate ≠ c.geom.rate then emptyCh n s.acq.tbsel c.geom.rate s else s
    let k := nToK s s.acq.tbsel c.geom.rate cnt
    if (storeCh s n).final k then svLate s
    else writeSlot n k c.out c.outq s

/-- A raw sample goes down channel n's chain and fast tap (R69 to R88); true when a flash stage changed. -/
def chainStrobe (n : Nat) (x : Int) (fl : SampFlags) (j : Nat) (s : State) : Bool × State :=
  let lf := (fltOf s n).lf
  let s := applyChain n s
  let (drop, s) := if (fltOf s n).restart || (fltOf s n).lf != lf then flashDrop n j s else (false, s)
  let (c, out) := chainStep (fltOf s n) x fl j
  let s := modFlt n (fun _ => c) s
  let (hit, s) := flashStep n j s
  (drop || hit, match out with
    | some k => chainToStore n k s
    | none => s)

/-- Chains restart at the next strobe (R77). -/
def chainsRestart (s : State) : State := { s with flt := { s.flt with ch := s.flt.ch.map fun c => { c with restart := true } } }

/-- A change of FLT_CTL's DCB_FREEZE is recorded (R87). -/
def setFltCtl (n : Nat) (v : Word) (s : State) : State :=
  let old := (fltOf s n).freeze
  let before := fltCfgErr s
  let s := modFlt n (fun c => { c with ctl := v &&& 0x1F3F03FF#32 }) s
  let s := if bit v 9 = old then s else ev 0x0215 (u8 n ++ u8 (b2n (bit v 9)) ++ u16 0) s
  cfgErrEvent before s

/-- FLASH_SUPPRESS_SUMMARY (R87): at the end of a second in which a stage exceeded 10 records. -/
def execFlashSuppressSummary (t ch stage : Nat) (s : State) : Res :=
  let s := atTime t s
  let f := (fltOf s ch).fs.getD stage FlashStage.reset
  if ch ≥ 24 ∨ stage ≥ 2 ∨ f.suppressed = 0 then go s
  else
    go (ev 0x0213 (u8 (2 * ch + stage) ++ zeros 3 ++ u32 f.suppressed)
      (modFlt ch (fun c => { c with fs := lmod c.fs stage fun f => { f with recs := 0, suppressed := 0 } }) s))

/-! ### Registers and commands (R86, R88) -/

/-- FLT_DET_CLR (R88): FLT_HOLD_MAX and FLT_HOLD_MIN read 0.0 until the running window ends, and take that window's whole peak (DESIGN CHOICE, log entry 183). -/
def execFltDetClr (t : Nat) (by' : Master) (ch : Nat) (v : Word) (s : State) : Res :=
  let s := atTime t s
  if ch ≥ 24 then go s
  else go (regWrite by' (0x40058 + 0x400 * ch) (fun s =>
    if bit v 0 then modFlt ch (fun c => { c with hold := none, holdMax := 0#32, holdMin := 0#32 }) s else s) s)

/-- A write of FLT_CTL whose configuration fields may not change now is refused whole; DCB_FREEZE alone is writable in SERVICE and MAINT. -/
def fltCtlWrite (by' : Master) (n : Nat) (v : Word) (s : State) : State :=
  let off := 0x40000 + 0x400 * n
  let moved := decide (v &&& 0x1F3F01FF#32 ≠ (fltOf s n).ctl &&& 0x1F3F01FF#32)
  if reaches by' off && (if moved then mayConfigure by' s else operational s || by' != .host) then
    if moved then setDirty (setFltCtl n v s) else setFltCtl n v s
  else busViolate by' off s

/-- FLT_DCB_FREEZE_WRITE (R74, R88): a write of FLT_CTL. -/
def execFltDcbFreezeWrite (t : Nat) (by' : Master) (ch : Nat) (v : Word) (s : State) : Res :=
  let s := atTime t s
  if ch ≥ 24 ∨ dark s then go s else go (fltCtlWrite by' ch v s)

/-- FLT_SCALE or, eofs true, FLT_EOFS of channel n: from the next output (R78), a claimed stage at the next strobe (R155). -/
def setScale (n : Nat) (eofs : Bool) (v : Word) (s : State) : State :=
  modFlt n (fun c => { (if eofs then { c with eofs := v } else { c with scale := v }) with claimDue := true }) s

/-- FLT_SCALE_EOFS_WRITE (R78, R88, R155). -/
def execFltScaleEofsWrite (t : Nat) (by' : Master) (ch : Nat) (eofs : Bool) (v : Word) (s : State) : Res :=
  let s := atTime t s
  if ch ≥ 24 then go s
  else go (cfgWrite by' (0x40000 + 0x400 * ch + (if eofs then 8 else 4)) (setScale ch eofs v) s)

/-- FLT_SET_CHAIN against a claimed stage (R155): no MODE, and a SCALE and EOFS with which every group's setting stays valid. -/
def fltClaimOk (s : State) (p : FltSetChain) : Bool :=
  [(2 * p.channel, p.stage0), (2 * p.channel + 1, p.stage1)].all fun x => match claimOf s x.1 with
    | none => true
    | some (_, i) => x.2.mode == 0 && i.groups.all fun v => claimValid (v.getD 2 0#32) (v.getD 0 0#32) p.scale p.eofs

def fltPre (p : FltSetChain) (s : State) : Option (Nat × Nat) := firstFail [(fltClaimOk s p, stConflict, s.sys.st.code)]

def StageBlock.ok (b : StageBlock) : Bool :=
  decide (b.flags < 2) && decide (1 ≤ b.n) && decide (b.n ≤ 4096) && decide (-16777216 ≤ b.level) && decide (b.level ≤ 16777215)
    && decide (b.hyst < 16777216) && decide (1 ≤ b.span) && decide (b.span ≤ 1024) && stageOk b.mode b.level b.hyst

/-- FLT_SET_CHAIN (R86). -/
def fltCheck (p : FltSetChain) (_ : State) : Option (Nat × Nat) :=
  let two (n : Nat) : Bool := n == 1 || n == 2
  firstFail [bad (p.channel < 24), bad (p.rate < 4), bad (two p.l1mul && two p.l2mul), bad (p.dcbK = 0 ∨ (8 ≤ p.dcbK ∧ p.dcbK ≤ 20)),
    bad (p.dcbFlags < 2), bad (1 ≤ p.lf ∧ p.lf ≤ 64), bad (1 ≤ p.envEd ∧ p.envEd ≤ 20), bad (1 ≤ p.detW ∧ p.detW ≤ 65535),
    bad (finite32 p.scale && nonzero32 p.scale), bad (finite32 p.eofs), bad (p.stage0.ok && p.stage1.ok)]

/-- FLT_FS_CTL of a stage block (R88). -/
def StageBlock.word (b : StageBlock) : Word := wd (b.mode + b.flags * 8 + (b.n - 1) * 2 ^ 8 + (b.span - 1) * 2 ^ 20)

/-- FLT_SET_CHAIN takes effect (R78, R86); a claimed stage keeps what its group programs, but for SPAN. -/
def fltApply (p : FltSetChain) (s : State) : State :=
  let n := p.channel
  let ctl := p.rate + (p.l1mul - 1) * 4 + (p.l2mul - 1) * 8 + p.dcbK * 16 + p.dcbFlags * 2 ^ 9 + (p.lf - 1) * 2 ^ 16 + p.envEd * 2 ^ 24
  let stage (st : Nat) (b : StageBlock) (f : FlashStage) : FlashStage :=
    if (claimOf s (2 * n + st)).isSome then { f with ctl := setBits f.ctl 29 20 (b.span - 1) }
    else { f with ctl := b.word, level := b.level, hyst := b.hyst }
  let before := fltCfgErr s
  let s := modFlt n (fun c => { c with scale := p.scale, eofs := p.eofs, detw := p.detW
                                       fs := [stage 0 p.stage0 (c.fs.getD 0 FlashStage.reset), stage 1 p.stage1 (c.fs.getD 1 FlashStage.reset)] }) s
  let s := setFltCtl n (wd ctl) s
  cfgErrEvent before (claimProgram (2 * n + 1) (claimProgram (2 * n) s))

/-- FLT_GET_DELAY (R86): the geometry in force. -/
def execFltGetDelay (t : Nat) (e : Env) (ch : Nat) (s : State) : Res :=
  let s := atTime t s
  go (runCmd e ⟨0x0311, false, plenIs 4, 32, [.service, .maint, .safeService]⟩ (fun rt s =>
    checked e rt (firstFail [bad (ch < 24)]) (fun s =>
      let c := fltOf s ch
      let g := c.geom
      let half (n : Nat) : Nat := (rdivEven ((n : Int) * 1000000000000) 4032000).toNat
      let ns (n : Nat) : Nat := cdiv (n * NS) 2016000
      reply rt stOk 0 (u32 (rateHz g.rate) ++ u16 g.l1 ++ u16 g.l2 ++ u16 (rateD1 g.rate) ++ u16 (rateD2 g.rate) ++ u32 (half (geomH g))
        ++ u16 (geomM g) ++ u16 (geomAdv g) ++ u16 (geomH g + 1) ++ u16 c.lf ++ u32 (ns (geomH g + g.d - 1)) ++ u32 (ns c.lf)) s) s) s)

end Sys2Proof.Machine
end

