-- ==== Sys2Proof/Machine/Acq.lean ====
section
/-! DEFINITION. Converters: strobes, samples and flags, calibration, plausibility, urgent conversions (02_converters.md R43 to R68). -/

namespace Sys2Proof.Machine

def modAcq (f : Acq → Acq) (s : State) : State := { s with acq := f s.acq }

def modCk (c : Nat) (f : CkConv → CkConv) (s : State) : State := modAcq (fun a => { a with ck := lmod a.ck c f }) s

def modHk (f : HkConv → HkConv) (s : State) : State := modAcq (fun a => { a with hk := f a.hk }) s

def ckOf (s : State) (c : Nat) : CkConv := s.acq.ck.getD c CkConv.reset

/-- 18-bit saturation. -/
def sat18 (v : Int) : Int := clampI (-131072) 131071 v

/-- A saturated code. -/
def isSat18 (v : Int) : Bool := v == -131072 || v == 131071

/-- The corrected code (R49). -/
def correct (offs : Int) (gain : Nat) (x : Int) : Int := sat18 (rdivEven ((x - offs) * gain) 1048576)

/-- ACQ_RAW word of a channel (R68). -/
def AcqCh.rawWord (c : AcqCh) : Word := wd (ifield 18 c.code + c.flags.toNat * 2 ^ 24)

/-- Fields of a check converter's sequence: LEN slots (R54, R56). -/
def seqSlots (r : Nat × Word × Word) : List Nat :=
  (List.range (r.1 + 1)).map fun i => if i < 8 then bits r.2.1 (4 * i + 2) (4 * i) else bits r.2.2 (4 * (i - 8) + 2) (4 * (i - 8))

/-- The sequence its registers name. -/
def CkConv.named (c : CkConv) : Nat × Word × Word := (bits c.ctl 3 0, c.seqA, c.seqB)

/-- The sequence lacks REF or AGND (R54). -/
def CkConv.badSeq (c : CkConv) : Bool := !(seqSlots c.named).contains 6 || !(seqSlots c.named).contains 7

/-- AVG_LOG2 and AVG_SHIFT in use (R57). -/
def avgLog2 (ctl : Word) : Nat := clampN 1 8 (bits ctl 11 8)
def avgShift (ctl : Word) : Nat := min (bits ctl 19 16) (avgLog2 ctl)

/-- A write substitutes AVG_LOG2 or AVG_SHIFT (R57). -/
def avgClamps (ctl : Word) : Bool := clamped (avgLog2 ctl) (bits ctl 11 8) || clamped (avgShift ctl) (bits ctl 19 16)

/-- Fields of ACQ_PLAUS_CTL. -/
def plausTol (s : State) : Int := (bits s.acq.plausCtl 15 0 : Nat)
def plausRec (s : State) : Nat := max 4 (bits s.acq.plausCtl 23 16)
def plausLatch (s : State) : Bool := bit s.acq.plausCtl 24

/-- Raw index of the next strobe since the origin of the bound base. -/
def strobeIdx (s : State) : Nat := s.acq.sec * 2016000 + s.acq.j

/-- The next strobe is the first whose nominal instant the bound base has not passed (R17, R43). -/
def strobeAlign (s : State) : State :=
  let n := (nAtOrAfter 2016000 (baseNs s s.acq.tbsel)).toNat
  modAcq (fun a => { a with sec := n / 2016000, j := n % 2016000, ck := a.ck.map fun k => { k with prev := none } }) s

/-- The strobes move to a new phase of their base: a step (cause 0) or TBSEL (cause 1) (R46, R77). -/
def strobeMove (cause : Nat) (s : State) : State := chainsRestart (resync cause (List.range 24) (strobeAlign s))

/-- The conditions of UNCHK for channel n (R62). -/
def unchecked (s : State) (n : Nat) : Bool :=
  let c := ckOf s (n / 6)
  !bit s.acq.plausEn n || !(seqSlots c.run).contains (n % 6) || c.cal || bit s.acq.fault (24 + n / 6) || c.badSeq || !(acqOf s n).checked

/-- IMPL of channel n (R59, R60). -/
def implOf (s : State) (n : Nat) : Bool := bit s.acq.impl n

/-- UNCHK as carried: never with an IMPL, which LATCH alone keeps on an unchecked channel (R61, R62; log entry 173). -/
def unchkOf (s : State) (n : Nat) : Bool := unchecked s n && !implOf s n

/-- IMPL clears, with its record (R60, R61). -/
def implClear (n cause : Nat) (s : State) : State :=
  if bit s.acq.impl n then
    ev 0x0202 (u8 n ++ u8 cause ++ u16 0 ++ s32 (acqOf s n).diff) (modAcq (fun a => { a with impl := setBit a.impl n false }) s)
  else s

/-- Channels from which UNCHK takes IMPL away, with their pending violations: all that have become unchecked, unless LATCH = 1 (R61, R62; log entry 173). -/
def implMask (s : State) : State :=
  foldOver (List.range 24) (fun n s =>
    if !unchecked s n then s
    else
      let s := modAcqCh n (fun c => { c with implSetAt := none }) s
      if plausLatch s then s else implClear n 2 (modAcqCh n (fun c => { c with implClrAt := none, viol := 0, recov := 0 }) s)) s

/-- IMPL sets or clears from this strobe (R59, R60). -/
def implDue (n : Nat) (s : State) : State :=
  let c := acqOf s n
  let s := match c.implSetAt with
    | some (k, m) =>
      if k ≤ s.acq.strobes then
        ev 0x0201 (u8 n ++ u8 0 ++ u16 0 ++ s32 m)
          (modAcqCh n (fun c => { c with implSetAt := none }) (modAcq (fun a => { a with impl := setBit a.impl n true }) s))
      else s
    | none => s
  match c.implClrAt with
  | some k => if k ≤ s.acq.strobes then implClear n 0 (modAcqCh n (fun c => { c with implClrAt := none }) s) else s
  | none => s

/-- The sample of channel n (R47 to R49): raw code, none when the conversion did not complete in its period. -/
def takeSample (n : Nat) (code : Option Int) (s : State) : State :=
  let s := implDue n s
  let c := acqOf s n
  let miss := match code with
    | some _ => 0
    | none => c.missRun + 1
  let newFault := decide (miss ≥ 3) && !bit s.acq.fault n
  let s := if newFault then modAcq (fun a => { a with fault := setBit a.fault n true }) s else s
  let s := if newFault then ev 0x0209 (w32 s.acq.fault) s else s
  let faulty := bit s.acq.fault n || code.isNone
  let y := if c.cal || faulty then 0 else match code with
    | some x => correct c.offs c.gain x
    | none => 0
  let ovr := isSat18 y
  let rs := decide (c.resync > 0)
  let fl : SampFlags := BitVec.ofNat 6
    (fl ovr 0 + fl (implOf s n) 1 + fl (unchkOf s n) 2 + fl c.cal 3 + fl rs 4 + fl faulty 5)
  let s := modAcqCh n (fun c => { c with
    code := y, flags := fl, missRun := miss, sampleAt := s.acq.strobes, resync := if s.acq.locked then c.resync - 1 else c.resync }) s
  if ovr && !bit s.acq.ovr n then
    modAcq (fun a => { a with ovr := setBit a.ovr n true, ovrNew := setBit a.ovrNew n true }) s
  else s

/-- EV_ACQ_OVERRANGE, at most once per second (R67). -/
def ovrEvent (s : State) : State :=
  if s.acq.ovrNew ≠ 0#32 ∧ secondPassed s s.acq.ovrLast then
    ev 0x0207 (w32 s.acq.ovrNew) (modAcq (fun a => { a with ovrNew := 0#32, ovrLast := some s.now }) s)
  else s

/-- Flash records of the second that ended are forgotten, unless a summary of them is due (R87). The second is that of the bound base, raw index 0 (DESIGN CHOICE, log entry 180). -/
def flashSecond (s : State) : State :=
  let upd (f : FlashStage) : FlashStage := if f.suppressed = 0 then { f with recs := 0 } else f
  { s with flt := { s.flt with ch := s.flt.ch.map fun c => { c with fs := c.fs.map upd } } }

/-- The samples of a strobe: every converter's code, the overrange events, the strobe's number (R44 to R50). -/
def strobeSamples (codes : List (Option Int)) (s : State) : State :=
  let s := if s.acq.j = 0 then flashSecond s else s
  let s := modAcq (fun a => { a with strobes := a.strobes + 1 }) s
  let s := ovrEvent (foldOver (List.range 24) (fun n s => takeSample n (codes.getD n none) s) s)
  modAcq (fun a => if a.j + 1 = 2016000 then { a with j := 0, sec := a.sec + 1 } else { a with j := a.j + 1 }) s

/-- Channel n's sample of the strobe goes to the raw ring and through its chain; r tells whether a stage changed. -/
def strobeChain (idx : Nat) (n : Nat) (r : Bool × State) : Bool × State :=
  let c := acqOf r.2 n
  let p := chainStrobe n c.code c.flags idx (rawPush n idx c.rawWord r.2)
  (r.1 || p.1, p.2)

/-- A command of a commit has taken effect: a chain at its strobe (R78, R155), a sequence at the end of its pass (R56), a VF command after the Stop bath (R355), a binding at its index (R349). -/
def cfgDone (s : State) (c : CfgCmd) : Bool :=
  let chain (c : FltCh) : Bool := c.cfgGeom == c.geom && c.cfgLf == c.lf && !c.claimDue
  match c with
  | .fltSetChain p => chain (fltOf s p.channel)
  | .prtDefineZone _ => s.flt.ch.all fun c => !c.claimDue
  | .prtSetElement _ => s.flt.ch.all fun c => !c.claimDue
  | .acqSetSequence p => !((s.acq.ck[p.conv]?).any fun k => k.newSeq)
  | .vfmSetShare v _ => (vfOf s v).waiting.isEmpty
  | .vfmGrantTrip v _ => (vfOf s v).waiting.isEmpty
  | .vfmBindZone v p => (vfOf s v).waiting.isEmpty && bindPassed s ((vfOf s v).binds.getD p.slot ⟨none, none, none⟩)
  | _ => true

/-- A commit whose changes have all taken effect is replied (R384 step 6; log entry 120). -/
def commitReplies (s : State) : State :=
  let ready (w : CommitWait) : Bool := w.cmds.all (cfgDone s)
  if !s.cmd.commits.any ready then s
  else foldOver (s.cmd.commits.filter ready) (fun w s => finish w.rt stOk 0 w.payload s)
    { s with cmd := { s.cmd with commits := s.cmd.commits.filter fun w => !ready w } }

/-- ADC_STROBE (R43 to R49): every main converter converts once, and the samples go down their chains (R69 to R88), except in SAFE_SERVICE (R32). -/
def execAdcStrobe (t : Nat) (codes : List (Option Int)) (s : State) : Res :=
  let s := atTime t s
  if s.sys.st = .off then go s
  else
    let u := strobeSamples codes s
    if u.sys.st = .safeService then go u
    else
      let r := foldOver (List.range 24) (strobeChain (strobeIdx s)) (false, u)
      go (commitReplies (if r.1 then settle r.2 else r.2))

/-- A completed check of channel n: M from the D values summed (R58 to R60). -/
def checkDone (n : Nat) (m : Int) (s : State) : State :=
  let c := acqOf s n
  let at' := c.sampleAt + 16
  let big := decide ((m.natAbs : Int) > plausTol s)
  let small := decide ((m.natAbs : Int) ≤ plausTol s / 2)
  let implausible := (bit s.acq.impl n || c.implSetAt.isSome) && c.implClrAt.isNone
  let c := { c with diff := m, checked := true, dSum := 0, dCount := 0 }
  let c :=
    if implausible then
      if !small then { c with recov := 0 }
      else if c.recov + 1 ≥ plausRec s ∧ !plausLatch s then { c with recov := 0, viol := 0, implClrAt := some at' }
      else { c with recov := c.recov + 1 }
    else if !big then { c with viol := 0 }
    else if c.viol + 1 ≥ 3 then { c with viol := 0, recov := 0, implSetAt := some (at', m) }
    else { c with viol := c.viol + 1 }
  modAcqCh n (fun _ => c) s

/-- A check converter's code against the main sample at the same strobe (R58); a converter that is faulty, or whose sequence R54 forbids, checks nothing (R61, R62; log entry 173). -/
def plausD (n : Nat) (y : Int) (log2 : Nat) (s : State) : State :=
  let c := acqOf s n
  let usable := !(bit c.flags 0 || bit c.flags 3 || bit c.flags 4 || bit c.flags 5)
  if !bit s.acq.plausEn n || bit s.acq.fault (24 + n / 6) || (ckOf s (n / 6)).badSeq || c.sampleAt = 0 || isSat18 y || !usable then s
  else
    let sum := c.dSum + (y - c.code)
    if c.dCount + 1 ≥ 2 ^ log2 then checkDone n (rdivEven sum (2 ^ log2)) s
    else modAcqCh n (fun c => { c with dSum := sum, dCount := c.dCount + 1 }) s

/-- One conversion of an averaged input (R57): the new sum, and the result when N conversions are summed. -/
def AvgSum.add (a : AvgSum) (y : Int) (log2 shift : Nat) : AvgSum × Option Int :=
  let sum := a.sum + y
  if a.count + 1 ≥ 2 ^ log2 then (⟨0, 0⟩, some (rdivEven sum (2 ^ shift))) else (⟨sum, a.count + 1⟩, none)

/-- The self-check counts of a converter (R61): violations of REF and AGND, the pair that forms, recovery count. -/
structure SelfCheck where
  viol : List Nat
  good : Option Bool × Option Bool
  recov : Nat
deriving DecidableEq, Repr

/-- A self-check result of input i, 0 REF and 1 AGND (R61): new counts, fault declared, recovered. A pair is the latest result of each input since the last pair (DESIGN CHOICE, log entry 174). -/
def SelfCheck.result (c : SelfCheck) (i : Nat) (m tol : Int) (faulty : Bool) (rec : Nat) : SelfCheck × Bool × Bool :=
  let big := decide ((m.natAbs : Int) > tol)
  let small := decide ((m.natAbs : Int) ≤ tol / 2)
  let v := if big then c.viol.getD i 0 + 1 else 0
  let good := if i = 0 then (some small, c.good.2) else (c.good.1, some small)
  let (good, n) := match good with
    | (some a, some b) => ((none, none), if a && b then c.recov + 1 else 0)
    | g => (g, c.recov)
  let fail := decide (v ≥ 3) && !faulty
  let ok := faulty && decide (n ≥ rec)
  (⟨lset c.viol i (if v ≥ 3 then 0 else v), good, if ok || !faulty then 0 else n⟩, fail, ok)

/-- A converter's self-check fails: its channels carry UNCHK, and lose IMPL unless LATCH = 1 (R61); conv 4 is HK. -/
def selfFail (conv mux : Nat) (m : Int) (s : State) : State :=
  implMask (ev 0x0203 (u8 conv ++ u8 mux ++ u16 0 ++ s32 m) (modAcq (fun a => { a with fault := setBit a.fault (24 + conv) true }) s))

def selfRecover (conv : Nat) (s : State) : State :=
  ev 0x0204 (u8 conv ++ zeros 3) (modAcq (fun a => { a with fault := setBit a.fault (24 + conv) false }) s)

/-- After a result: the declared fault or the recovery. -/
def selfAct (conv mux : Nat) (m : Int) (r : Bool × Bool) (s : State) : State :=
  if r.1 then selfFail conv mux m s else if r.2 then selfRecover conv s else s

/-- REF or AGND of check converter c (R61). -/
def ckSelf (c i : Nat) (y : Int) (s : State) : State :=
  let k := ckOf s c
  let log2 := avgLog2 k.ctl
  let (a, r) := (k.self.getD i ⟨0, 0⟩).add y log2 log2
  let s := modCk c (fun k => { k with self := lset k.self i a }) s
  match r with
  | none => s
  | some v =>
    let m := v - (if i = 0 then 102400 else 0)
    let (q, act) := (⟨k.selfViol, k.selfGood, k.selfRec⟩ : SelfCheck).result i m (plausTol s) (bit s.acq.fault (24 + c)) (plausRec s)
    selfAct c (6 + i) m act (modCk c (fun k => { k with selfViol := q.viol, selfGood := q.good, selfRec := q.recov }) s)

/-- A new sequence starts: averages and counts from zero (R56, R62). -/
def seqRestart (c : Nat) (s : State) : State :=
  let s := modCk c (fun k => { k with
    run := k.named, newSeq := false, slot := 0, sums := List.replicate 8 ⟨0, 0⟩, self := List.replicate 2 ⟨0, 0⟩
    selfViol := [0, 0], selfGood := (none, none), selfRec := 0 }) s
  implMask (foldOver ((List.range 6).map (6 * c + ·)) (fun n s =>
    modAcqCh n (fun a => { a with dSum := 0, dCount := 0, viol := 0, recov := 0, checked := false }) s) s)

/-- The averages of a check converter and the checks of its channels start again: N of R57 has changed (log entry 175). -/
def ckAvgRestart (c : Nat) (s : State) : State :=
  let s := modCk c (fun k => { k with sums := List.replicate 8 ⟨0, 0⟩, self := List.replicate 2 ⟨0, 0⟩ }) s
  foldOver ((List.range 6).map (6 * c + ·)) (fun n s => modAcqCh n (fun a => { a with dSum := 0, dCount := 0 }) s) s

/-- ACQ_CK_CTL of converter c takes a value; another N restarts its averages (R57). -/
def setCkCtl (c : Nat) (v : Word) (s : State) : State :=
  let n := avgLog2 (ckOf s c).ctl
  let s := modCk c (fun k => { k with ctl := v }) s
  if avgLog2 v = n then s else ckAvgRestart c s

/-- ACQ_HK_CTL takes a value; another N restarts the averages (R57). -/
def setHkCtl (v : Word) (s : State) : State :=
  let n := avgLog2 s.acq.hk.ctl
  modHk (fun k => if avgLog2 v = n then { k with ctl := v }
    else { k with ctl := v, sums := List.replicate 13 ⟨0, 0⟩, self := List.replicate 2 ⟨0, 0⟩ }) s

/-- Offset of the strobe that a check converter's input samples at, from its nominal instant, in half ns (R44, R55). -/
def strobeOffset (s : State) (ck mux : Nat) : Int :=
  if mux < 6 then let c := acqOf s (6 * ck + mux); 1500 + (c.skew : Int) - c.adv else 1500

/-- The latest strobe of that input, in 1/4,032,000 ns on the bound base. -/
def strobeLatest (s : State) (ck mux : Nat) : Int := 2 * ((strobeIdx s : Int) - 1) * NS + strobeOffset s ck mux * 2016000

/-- A conversion of that input can take place at its latest strobe: a period of 496.032 ns has passed since the previous conversion (R55). -/
def ckPlaced (s : State) (ck mux : Nat) : Bool :=
  match (ckOf s ck).prev with
  | some p => decide (p + 2 * (NS : Int) ≤ strobeLatest s ck mux)
  | none => true

/-- A conversion of that input takes place at its latest strobe (R55). -/
def ckPlace (ck mux : Nat) (s : State) : State := modCk ck (fun k => { k with prev := some (strobeLatest s ck mux) }) s

/-- A pending urgent request takes the next slot (R64). -/
def CkConv.serve (k : CkConv) : CkConv := if k.urgRun.isNone then { k with urgRun := k.urg, urg := none } else k

/-- CK_SLOT_CONVERT (R54 to R61): the next slot of a check converter's pass, at a strobe where R55 places it. -/
def execCkSlotConvert (t ck : Nat) (code : Option Int) (s : State) : Res :=
  let s := atTime t s
  let k := ckOf s ck
  let mux := (seqSlots k.run).getD k.slot 7
  if ck ≥ 4 ∨ s.sys.st = .off ∨ k.cal ∨ k.urgRun.isSome ∨ !ckPlaced s ck mux then go s
  else
    let s := ckPlace ck mux s
    let s := match code with
      | none => s
      | some x =>
        let y := correct k.offs k.gain x
        let (a, r) := (k.sums.getD mux ⟨0, 0⟩).add y (avgLog2 k.ctl) (avgShift k.ctl)
        let s := modCk ck (fun k => { k with sums := lset k.sums mux a, avg := match r with
          | some v => lset k.avg mux v
          | none => k.avg }) s
        if mux < 6 then plausD (6 * ck + mux) y (avgLog2 k.ctl) s else ckSelf ck (mux - 6) y s
    let last := decide (k.slot ≥ k.run.1)
    let s := modCk ck (fun k => { k with slot := if last then 0 else k.slot + 1 }) s
    let s := if last && k.newSeq then seqRestart ck s else s
    go (modCk ck CkConv.serve s)

/-- HK self-check of REF (input 11) and AGND (input 12) (R61, R65). -/
def hkSelf (i : Nat) (y : Int) (s : State) : State :=
  let k := s.acq.hk
  let log2 := avgLog2 k.ctl
  let (a, r) := (k.self.getD i ⟨0, 0⟩).add y log2 log2
  let s := modHk (fun k => { k with self := lset k.self i a }) s
  match r with
  | none => s
  | some v =>
    let m := v - (if i = 0 then 50000 else 0)
    let (q, act) := (⟨k.selfViol, k.selfGood, k.selfRec⟩ : SelfCheck).result i m (plausTol s) (bit s.acq.fault 28) (plausRec s)
    selfAct 4 (11 + i) m act (modHk (fun k => { k with selfViol := q.viol, selfGood := q.good, selfRec := q.recov }) s)

/-- A T_DIE reading: OVERTEMP above 125 °C until below 120 °C, and the margin plan's figures (R242, R244). -/
def noteDie (v : Int) (s : State) : State :=
  let hot := if s.spd.overtemp then decide (15360 ≤ v) else decide (16000 < v)
  let s := if hot = s.spd.overtemp then s else ev 0x0C43 (s16 v ++ u8 (b2n hot) ++ u8 0) { s with spd := { s.spd with overtemp := hot } }
  { s with spd := { s.spd with
      tjMax := some (match s.spd.tjMax with | some m => max m v | none => v), tjSum := s.spd.tjSum + v, tjN := s.spd.tjN + 1 } }

/-- The latest mean of HK input h, in its LSB of R65; 0 before the first (R68). -/
def hkMean (s : State) (h : Nat) : Int := (s.acq.hk.mean.getD h none).getD 0

/-- T_BOARD, 1/128 °C. -/
def tBoard (s : State) : Int := hkMean s 7

/-- T_BOARD has a new value: ΔT of every base in holdover takes it in (R255). -/
def boardTemp (s : State) : State :=
  { s with tbs := { s.tbs with base := s.tbs.base.map fun b => match b.ho with
      | some h => if b.st = .holdover then { b with ho := some { h with dtMax := max h.dtMax (tBoard s - h.tEntry).natAbs } } else b
      | none => b } }

/-- HK_CONVERT (R65): the next input of the scan. -/
def execHkConvert (t : Nat) (code : Option Int) (s : State) : Res :=
  let s := atTime t s
  let k := s.acq.hk
  if s.sys.st = .off ∨ k.cal ∨ k.urgRun.isSome then go s
  else
    let h := k.pos
    let s := match code with
      | none => s
      | some x =>
        let y := correct k.offs k.gain x
        let sum := k.sums.getD h ⟨0, 0⟩
        let (a, r) := sum.add y (avgLog2 k.ctl) (avgShift k.ctl)
        let m := rdivEven (sum.sum + y) (2 ^ avgLog2 k.ctl)
        let s := modHk (fun k => { k with sums := lset k.sums h a }) s
        let s := match r with
          | some v => (if h = 9 then noteDie m else if h = 7 then boardTemp else id) (modHk (fun k => { k with res := lset k.res h v, mean := lset k.mean h (some m) }) s)
          | none => s
        if h ≥ 11 then hkSelf (h - 11) y s else s
    go (modHk (fun k =>
      let k := { k with pos := if h ≥ 12 then 0 else h + 1 }
      if k.urgRun.isNone then { k with urgRun := k.urg, urg := none } else k) s)

/-- T_AFE now, in 1/128 °C (R52, R65). -/
def tAfe (s : State) : Int := hkMean s 8

/-- Acceptance of new coefficients (R50 step 5). -/
def calAccept (offs gain : Int) : Bool :=
  decide (offs.natAbs ≤ 2047) && decide (996148 ≤ gain) && decide (gain ≤ 1101004)

/-- New coefficients of converter i, or none when it fails (R50, R51). -/
def calSolve (i : Nat) (r : CalResult) : Option (Int × Nat) :=
  let main := decide (i < 24)
  let span := if main then r.hi - r.lo else r.hi - r.mid
  let e : Int := if main then 245760 else if i = 28 then 50000 else 102400
  if !r.ok ∨ span ≤ 0 then none
  else
    let offs := rdivEven r.mid 256
    let gain := rdivEven (e * 1048576 * 256) span.toNat
    let linear := !main || decide ((2 * r.mid - (r.hi + r.lo)).natAbs ≤ 64 * 512)
    if calAccept offs gain && linear then some (offs, gain.toNat) else none

/-- The coefficients of converter i take a value and are stored in MRAM (R52). -/
def setCoef (i : Nat) (offs : Int) (gain : Nat) (s : State) : State :=
  let s := if i < 24 then modAcqCh i (fun c => { c with offs := offs, gain := gain }) s
    else if i < 28 then modCk (i - 24) (fun c => { c with offs := offs, gain := gain }) s
    else modHk (fun c => { c with offs := offs, gain := gain }) s
  modAcq (fun a => { a with stored := lset a.stored i ⟨offs, gain, tAfe s, s.evr.optime.toNat⟩ }) s

/-- Coefficients reloaded from MRAM (R52). -/
def loadCoefs (s : State) : State :=
  modAcq (fun a => { a with
    ch := imap (fun i c => { c with offs := (a.stored.getD i CalRec.reset).offs, gain := (a.stored.getD i CalRec.reset).gain }) a.ch
    ck := imap (fun i c => { c with offs := (a.stored.getD (24 + i) CalRec.reset).offs, gain := (a.stored.getD (24 + i) CalRec.reset).gain }) a.ck
    hk := { a.hk with offs := (a.stored.getD 28 CalRec.reset).offs, gain := (a.stored.getD 28 CalRec.reset).gain } }) s

/-- The CAL state of converter i. -/
def setCal (i : Nat) (v : Bool) (s : State) : State :=
  if i < 24 then modAcqCh i (fun c => { c with cal := v }) s
  else if i < 28 then modCk (i - 24) (fun c => { c with cal := v }) s
  else modHk (fun c => { c with cal := v }) s

/-- A calibration begins on its targets (R50, R51, R53). -/
def calStart (targets : Word) (rt : Option ReplyTo) (s : State) : State :=
  let s := modAcq (fun a => { a with calBusy := true, calTargets := targets, calReply := rt }) s
  implMask (foldOver (ones 29 targets.toNat) (setCal · true) s)

/-- The result of target i: its coefficients, or the fault of R48 and R50; the bits of CK and HK in ACQ_FAULT follow their calibration too, without a record (DESIGN CHOICE, log entry 176). -/
def calTarget (results : List CalResult) (i : Nat) (s : State) : State :=
  let s := setCal i false s
  match (results.find? fun r => r.conv == i).bind (calSolve i) with
  | some (o, g) =>
    let s := modAcq (fun a => { a with fault := setBit a.fault i false }) s
    setCoef i o g (if i < 24 then modAcqCh i (fun c => { c with missRun := 0 }) s else s)
  | none => modAcq (fun a => { a with fault := setBit a.fault i true, calFail := setBit a.calFail i true }) s

/-- T_AFE as read with a calibration that HK's own averages do not precede (log entry 177). -/
def takeAfe (v : Int) (s : State) : State :=
  if (s.acq.hk.mean.getD 8 none).isSome then s else modHk (fun k => { k with mean := lset k.mean 8 (some v) }) s

/-- CALIBRATION_COMPLETE (R50 to R53): the run has ended, its results are taken. -/
def execCalibrationComplete (t : Nat) (r : CalEnd) (s : State) : Res :=
  let s := takeAfe r.afe (atTime t s)
  if !s.acq.calBusy then go s
  else
    let targets := s.acq.calTargets
    let rt := s.acq.calReply
    let before := s.acq.fault
    let s := implMask (foldOver (ones 29 targets.toNat) (calTarget r.results) (modAcq (fun a => { a with calFail := 0#32 }) s))
    let s := modAcq (fun a => { a with calBusy := false, calTargets := 0#32, calReply := none }) s
    let s := if targets &&& 0x00FFFFFF#32 = 0x00FFFFFF#32 then
        modAcq (fun a => { a with calOptime := s.evr.optime, calTemp := wd (ifield 16 (tAfe s)) }) s else s
    let s := if (s.acq.fault &&& ~~~ before) &&& 0x00FFFFFF#32 ≠ 0#32 then ev 0x0209 (w32 s.acq.fault) s else s
    let n := (ones 29 s.acq.calFail.toNat).length
    let s := if n = 0 then ev 0x0205 (w32 targets ++ s16 (tAfe s) ++ u16 0) s else ev 0x0206 (w32 s.acq.calFail) s
    go (match rt with
      | some r => finish r (if n = 0 then stOk else stInternal) n (w32 s.acq.calFail ++ u32 0) s
      | none => s)

/-- Stamp of an urgent conversion on the bound base, ns (R44, R55, R64): of a check converter its input's strobe; of HK, which has no strobe, the time of the row (DESIGN CHOICE, log entry 178). -/
def urgentStamp (s : State) (conv input : Nat) : Int :=
  if conv = 4 then baseNs s s.acq.tbsel else rdivEven (strobeLatest s conv input) 4032000

/-- The urgent conversion that can complete now: on a check converter at a strobe where R55 places it (R64). -/
def urgentDue (s : State) (conv : Nat) : Option UrgReq :=
  if conv = 4 then s.acq.hk.urgRun
  else if conv < 4 then (ckOf s conv).urgRun.filter fun r => ckPlaced s conv r.input
  else none

/-- URGENT_CONVERSION_COMPLETE (R64): the single corrected conversion, its stamp, its reply or its record (R104). -/
def execUrgentConversionComplete (t conv : Nat) (code : Option Int) (s : State) : Res :=
  let s := atTime t s
  match urgentDue s conv with
  | none => go s
  | some r =>
    let (o, g) := if conv = 4 then (s.acq.hk.offs, s.acq.hk.gain) else ((ckOf s conv).offs, (ckOf s conv).gain)
    let (y, s) := match code with
      | some x => (correct o g x, s)
      | none => let (i, s) := drawFree s; (sat18 (Config.freeInt i), s)
    let tb := s.acq.tbsel
    let at' := urgentStamp s conv r.input
    let s := modAcq (fun a => { a with
      urgRes := y, urgNs := stampNsWord tb at', urgSec := secLo at', urgDone := a.urgDone + 1 }) s
    let s := if conv = 4 then modHk (fun k => { k with urgRun := none }) s else modCk conv (fun k => { k with urgRun := none }) (ckPlace conv r.input s)
    let s := match r.record with
      | some n => modRec n (fun x => if x.live then { x with urgResult := y, urgConv := conv, urgInput := r.input, urgStatus := 0 } else x) s
      | none => s
    go (match r.reply with
      | some rt => finish rt stOk 0 (s32 y ++ u32 (nsOf at') ++ w32 (secLo at') ++ u8 tb ++ zeros 3) s
      | none => s)

/-- CD5_LOCK_LOST (R46): the strobes go on free-running, and the channels carry RESYNC. -/
def execCd5LockLost (t : Nat) (s : State) : Res :=
  let s := atTime t s
  if !s.acq.locked then go s
  else go (resync 4 (List.range 24) (modAcq (fun a => { a with locked := false }) s))

/-- CD5_LOCK_ACQUIRED (R43, R46, R77). -/
def execCd5LockAcquired (t : Nat) (s : State) : Res :=
  let s := atTime t s
  if s.acq.locked || s.sys.st == .off then go s
  else
    let s := strobeAlign (modAcq (fun a => { a with locked := true }) s)
    go (if s.sys.st = .start then chainsRestart s else s)

/-- ACQ_URG_WRITE (R63): CONV 5 to 7, or an input its converter lacks, makes no request. -/
def execAcqUrgWrite (t : Nat) (by' : Master) (v : Word) (s : State) : Res :=
  let s := atTime t s
  go (regWrite by' 0x30020 (fun s =>
    let conv := bits v 2 0
    let inp := bits v 11 8
    if (conv < 4 ∧ inp ≤ 7) ∨ (conv = 4 ∧ inp ≤ 12) then
      let (ok, s) := urgentRequest conv ⟨inp, none, none⟩ s
      if ok then s else urgRefusedEvent s
    else s) s)

/-- ACQ_IMPL_CLEAR (R60): IMPL of each channel written 1 clears, its violation count restarts; a third violation that has completed still sets IMPL at its strobe (R9, R59). -/
def execAcqImplClear (t : Nat) (by' : Master) (v : Word) (s : State) : Res :=
  let s := atTime t s
  go (regWrite by' 0x30014 (foldOver (ones 24 v.toNat) fun n s =>
    implClear n 1 (modAcqCh n (fun c => { c with viol := 0, recov := 0, implClrAt := none }) s)) s)

/-- A new sequence waits for the end of the pass (R56). -/
def seqWritten (c : Nat) (s : State) : State := modCk c (fun k => { k with newSeq := true }) s

/-- ACQ_CK_SEQ_WRITE (R54, R56): ACQ_CK_SEQA or, b true, ACQ_CK_SEQB of converter ck. -/
def execAcqCkSeqWrite (t : Nat) (by' : Master) (ck : Nat) (b : Bool) (v : Word) (s : State) : Res :=
  let s := atTime t s
  if ck ≥ 4 then go s
  else
    let v := v &&& 0x77777777#32
    go (cfgWrite by' (0x30404 + 0x40 * ck + (if b then 4 else 0))
      (fun s => implMask (seqWritten ck (modCk ck (fun k => if b then { k with seqB := v } else { k with seqA := v }) s))) s)

/-- A new SKEW of channel n (R45, R46). -/
def setSkew (n v : Nat) (s : State) : State :=
  let w := min v 4094
  let s := if w ≠ v then modAcq (fun a => { a with cfgClamp := true }) s else s
  if (acqOf s n).skew = w then s else resync 2 [n] (modAcqCh n (fun c => { c with skew := w }) s)

/-- ACQ_SET_CHANNEL (R66): what its fields must be. -/
def acqSetChannelCheck (p : AcqSetChannel) (_ : State) : Option (Nat × Nat) :=
  firstFail [bad (p.channel < 24), bad (p.flags < 8), bad (p.skew ≤ 4094), bad (-2048 ≤ p.offs ∧ p.offs ≤ 2047),
    bad (996148 ≤ p.gain ∧ p.gain ≤ 1101004)]

def acqSetChannelApply (p : AcqSetChannel) (s : State) : State :=
  let s := implMask (modAcq (fun a => { a with plausEn := setBit a.plausEn p.channel (nbit p.flags 0) }) s)
  let s := if nbit p.flags 1 then setSkew p.channel p.skew s else s
  if nbit p.flags 2 then setCoef p.channel p.offs p.gain s else s

/-- ACQ_SET_SEQUENCE (R54, R66). -/
def acqSetSequenceCheck (p : AcqSetSequence) (_ : State) : Option (Nat × Nat) :=
  let used := p.slots.take p.len
  let ck := decide (p.conv < 4)
  firstFail [bad (p.conv ≤ 4), bad (!ck || (decide (1 ≤ p.len) && decide (p.len ≤ 16))), bad (1 ≤ p.avgLog2 ∧ p.avgLog2 ≤ 8),
    bad (p.avgShift ≤ p.avgLog2), bad (p.slots.all fun x => decide (x ≤ 7)), bad (!ck || (p.slots.drop p.len).all (· == 0)),
    bad (!ck || (used.contains 6 && used.contains 7))]

/-- Slots i to i + 7 as ACQ_CK_SEQA or ACQ_CK_SEQB hold them. -/
def packSlots (l : List Nat) (i : Nat) : Word := wd (nsum ((List.range 8).map fun k => l.getD (i + k) 0 * 16 ^ k))

def acqSetSequenceApply (p : AcqSetSequence) (s : State) : State :=
  let avg := p.avgLog2 * 2 ^ 8 + p.avgShift * 2 ^ 16
  if p.conv = 4 then setHkCtl (wd avg) s
  else implMask (seqWritten p.conv (modCk p.conv (fun k => { k with seqA := packSlots p.slots 0, seqB := packSlots p.slots 8 })
    (setCkCtl p.conv (wd (avg + (p.len - 1))) s)))

/-- Bits of ACQ_CAL_FAIL that a TARGET names (R66). -/
def calTargetMap (tg : Nat) : Option Word :=
  if tg < 24 then some (wd (2 ^ tg))
  else if 0x40 ≤ tg ∧ tg ≤ 0x43 then some (wd (2 ^ (tg - 0x40 + 24)))
  else if tg = 0x80 then some (wd (2 ^ 28))
  else if tg = 0xFF then some 0x1FFFFFFF#32
  else none

/-- ACQ_CALIBRATE (R53): the reply waits for the end of the run. -/
def execAcqCalibrate (t : Nat) (e : Env) (targets : Word) (s : State) : Res :=
  let s := atTime t s
  go (runCmd e ⟨0x0302, false, plenIs 4, 8, [.maint, .service]⟩ (fun rt s =>
    let m := (calTargetMap targets.toNat).getD 0#32
    checked8 e rt
      (firstFail [(s.sys.st == .maint || m &&& 0x00FFFFFF#32 == 0#32, stConflict, s.sys.st.code), (!s.acq.calBusy, stBusy, 0)])
      (firstFail [bad (calTargetMap targets.toNat).isSome]) (fun s => calStart m (some rt) (holdReply rt s)) s) s)

/-- ACQ_URGENT_CONVERT (R63, R66): the reply waits for the conversion. -/
def execAcqUrgentConvert (t : Nat) (e : Env) (conv input : Nat) (s : State) : Res :=
  let s := atTime t s
  go (runCmd e ⟨0x0303, false, plenIs 4, 16, [.service, .maint, .safeService]⟩ (fun rt s =>
    checked e rt (firstFail [bad (conv ≤ 4), bad (input ≤ (if conv = 4 then 12 else 7))]) (fun s =>
      let (ok, s) := urgentRequest conv ⟨input, some rt, none⟩ s
      if ok then holdReply rt s else refuse rt stBusy 0 (urgRefusedEvent s)) s) s)

end Sys2Proof.Machine
end

