-- ==== Sys2Proof/Machine/Calendar.lean ====
section
/-! DEFINITION. Calendar dates of UTC seconds by the full Gregorian rule (R247, R274). -/

namespace Sys2Proof.Machine

def leapYear (y : Nat) : Bool := y % 4 == 0 && (y % 100 != 0 || y % 400 == 0)

/-- Days of a month. -/
def monthDays (y m : Nat) : Nat :=
  if m = 2 then (if leapYear y then 29 else 28) else if m = 4 ∨ m = 6 ∨ m = 9 ∨ m = 11 then 30 else 31

/-- Leap years before year y, counted from year 1. -/
def leapsBefore (y : Nat) : Nat := (y - 1) / 4 - (y - 1) / 100 + (y - 1) / 400

/-- Days from 1970-01-01 to the first of January of y. -/
def yearStart (y : Nat) : Nat := (y - 1970) * 365 + leapsBefore y - leapsBefore 1970

/-- Month and day of a day of the year, counted from 0. -/
def monthOf (y : Nat) : Nat → Nat → Nat → Nat × Nat
  | 0, m, d => (m, d + 1)
  | n + 1, m, d => if d < monthDays y m then (m, d + 1) else monthOf y n (m + 1) (d - monthDays y m)

/-- The date of UTC seconds since 1970. -/
def civilOf (t : Nat) : Civil :=
  let days := t / 86400
  let guess := 1970 + days / 366
  let y := ((List.range 25).map (guess + ·)).foldl (fun a y => if yearStart y ≤ days then y else a) guess
  let (m, d) := monthOf y 11 1 (days - yearStart y)
  ⟨y, m, d, t % 86400 / 3600, t % 3600 / 60, t % 60⟩

/-- UTC seconds since 1970 of a date. -/
def secondsOf (c : Civil) : Nat :=
  (yearStart c.year + nsum ((List.range (c.mon - 1)).map fun i => monthDays c.year (i + 1)) + (c.day - 1)) * 86400
    + c.hour * 3600 + c.min * 60 + c.sec

/-- Weekday 1 (Monday) to 7 of a date. -/
def weekday (c : Civil) : Nat := (secondsOf { c with hour := 0, min := 0, sec := 0 } / 86400 + 3) % 7 + 1

/-- Date and microseconds of a stamp on base b, rounded half to even (R107, R247). -/
def civilUs (s : State) (b : Nat) (t : Int) : Civil × Nat :=
  let us := rdivEven (t - (baseOf s b).utcOffset * NS) 1000
  (civilOf (us / 1000000).toNat, (us % 1000000).toNat)

end Sys2Proof.Machine
end

