-- ==== Sys2Proof/Machine/Capture.lean ====
section
/-! DEFINITION. The Shutter's events, commands and COMTRADE export (04_shutter.md R92 to R110). -/

namespace Sys2Proof.Machine

/-- SHUTTER_DECISION_INTERVAL (R96): the triggers decided are taken in the order of their stamps; some header blocks cannot be written (R103). -/
def execShutterDecisionInterval (h : HeaderWrites) (s : State) : Res :=
  let s := atTime h.t s
  let l := sortTrigs s.trg.queue
  go (foldOver l (takeTrigger h.failing) (modTrg (fun g => { g with queue := [] }) s))

/-- TRIG_EDGE_QUALIFY (R91, R92): an edge of TRIG0 to TRIG3 or XLINE0, XLINE1, stamped on each base, whose new level has held until now. -/
def execTrigEdgeQualify (t line : Nat) (level : Bool) (stamp : List Int) (s : State) : Res :=
  let s := atTime t s
  if line ≥ 6 then go s else go (settle (pinEdge line level (stamp.getD (shtBase s) 0) s))

/-- XLINE_PULSE_END (R92). -/
def execXlinePulseEnd (t line : Nat) (s : State) : Res :=
  let s := atTime t s
  match s.trg.xout[line]? with
  | some p => if p.on && decide (p.to' ≤ s.now) then go (modTrg (fun g => { g with xout := lset g.xout line { p with on := false } }) s) else go s
  | none => go s

/-- A record whose windows have ended closes; its chained record opens (R95). -/
def closeEnded (failing : List Nat) (r : ShtRec) (s : State) : State :=
  if r.phase = .opened ∧ recEnded r (baseNs s r.tb) then
    let s := closeRec r.recno s
    match r.chain with
    | some c => openChain failing r c s
    | none => s
  else s

/-- SHUTTER_RECORD_CLOSE (R95); some header blocks cannot be written (R103). -/
def execShutterRecordClose (h : HeaderWrites) (s : State) : Res :=
  let s := atTime h.t s
  go (foldOver s.trg.records (closeEnded h.failing) s)

/-- Commits take place from START on, until SHED5 (R102, R103). -/
def storeRuns (s : State) : Bool := s.sys.st != .off && decide (s.pwr.shed < 5)

/-- A data block of the record is ready to be written (R102). -/
def blockReady (s : State) (r : ShtRec) : Bool :=
  r.live && (decide ((r.written + 1) * blockPayload ≤ r.readyLen (baseNs s r.tb))
    || (r.phase == .closed && decide (r.written < r.dataBlocks)))

/-- The record's block is written, or no block is free and the record is cut short (R100, R102). -/
def writeBlock (r : ShtRec) (ok : Bool) (s : State) : State :=
  match takeBlock s with
  | (none, s) => modRec r.recno (fun r => (r.cutAt (baseNs s r.tb)).flag rfTruncated) s
  | (some b, s) =>
    if ok then modRec r.recno (fun r => { r with written := r.written + 1, blocks := r.blocks ++ [b] }) s
    else storeFault b r.recno s

/-- SHUTTER_DATA_BLOCK_WRITE (R102, R103): ok is false when the MRAM write failed. -/
def execShutterDataBlockWrite (t : Nat) (ok : Bool) (s : State) : Res :=
  let s := atTime t s
  if !storeRuns s then go s
  else match s.trg.records.find? (blockReady s) with
    | some r => go (writeBlock r ok s)
    | none => go s

/-- Every block that the record can have is written (R100, R102). -/
def allWritten (s : State) (r : ShtRec) : Bool :=
  r.phase == .closed && (decide (r.dataBlocks ≤ r.written) || (r.flags.getLsbD rfTruncated && !bit s.trg.ctl 6 && (nextFree s).isNone))

/-- The header block fails when it is rewritten: the header goes to the next block (R103). -/
def headerMoves (r : ShtRec) (s : State) : State :=
  let s := storeFault (r.blocks.headD 0) r.recno s
  match takeBlock s with
  | (some b, s) => modRec r.recno (fun r => { r with blocks := b :: r.blocks.tail }) s
  | (none, s) => s

/-- SHUTTER_COMMIT_COMPLETE (R102 step 4), or the header block could not be written (R103). -/
def execShutterCommitComplete (h : HeaderEnd) (s : State) : Res :=
  let s := atTime h.t s
  if !storeRuns s then go s
  else match s.trg.records.find? (allWritten s) with
    | some r =>
      let r' := { r.flag rfCommitted with phase := .committed }
      if h.ok then go (committedEvent r' r'.blocks.length (modRec r.recno (fun _ => r') s)) else go (headerMoves r s)
    | none => go s

/-- A write of TRG_CTL: a new base restarts the rings (R89, R110). -/
def setTrgCtl (v : Word) (s : State) : State :=
  let old := shtBase s
  let s := modTrg (fun g => { g with ctl := v &&& 0xFF#32 }) s
  if shtBase s = old then s else ringsRestart s

/-- TRG_ARMED_WRITE (R99, R110): ARMED is writable in SERVICE and MAINT, the other fields are configuration. -/
def execTrgArmedWrite (t : Nat) (by' : Master) (v : Word) (s : State) : Res :=
  let s := atTime t s
  let cfg := (v ^^^ s.trg.ctl) &&& 0xFE#32 != 0#32
  if cfg || !operational s then go (cfgWrite by' 0x50000 (setTrgCtl v) s) else go (regWrite by' 0x50000 (setTrgCtl v) s)

/-- TRG_FORCE_WRITE (R91, R97, R110): a command trigger stamped at its acceptance. -/
def execTrgForceWrite (t : Nat) (by' : Master) (v : Word) (s : State) : Res :=
  let s := atTime t s
  go (regWrite by' 0x50048 (fun s =>
    if bit v 0 && shtRuns s then
      modTrg (fun g => { g with queue := g.queue ++ [⟨shtNow s, 0xFFFF, none, bit v 1, false, none, none⟩] }) s
    else s) s)

/-- ARMED set to v by a command (R108). -/
def setArmed (v : Bool) (s : State) : State := modTrg (fun g => { g with ctl := setBit g.ctl 0 v }) s

/-- TRG_DISARM (R99, R108). -/
def execTrgDisarm (t : Nat) (e : Env) (s : State) : Res :=
  let s := atTime t s
  go (runCmd e ⟨0x0320, false, fun n => decide (n ≥ 1), 0, [.service, .maint]⟩ (fun rt s => reply rt stOk 0 [] (setArmed false s)) s)

/-- OP of a TRG_ARM packet (R108). -/
def armOp (e : Env) : Nat := (e.payload.headD 0#8).toNat

/-- TRG_ARM (R108): arms with the stored profile, whose fields the TRG registers may since have changed: they are not checked again (DESIGN CHOICE, log entry 186). An OP above 3 is refused. -/
def execTrgArm (t : Nat) (e : Env) (s : State) : Res :=
  let s := atTime t s
  go (runCmd e ⟨0x0320, false, fun n => decide (n ≥ 1), 0, [.service, .maint]⟩ (fun rt s =>
    match firstFail [bad (armOp e < 4)] with
    | some f => refuse rt f.1 f.2 s
    | none => reply rt stOk 0 [] (setArmed true s)) s)

/-- TRG_ERASE_RECORDS (R108): every record that is committed or truncated and closed goes; an open or uncommitted one goes with its data. -/
def execTrgEraseRecords (t : Nat) (e : Env) (s : State) : Res :=
  let s := atTime t s
  go (runCmd e ⟨0x0320, true, fun n => decide (n ≥ 1), 0, [.maint]⟩ (fun rt s =>
    let n := s.trg.records.length
    reply rt stOk 0 [] (evCmd rt 0x0308 (u32 n) (modTrg (fun g => { g with records := [] }) s))) s)

/-- Octets of TRG_ARM's OP 2 payload (R108). -/
def trgProfileLen (p : TrgProfile) : Nat := 48 + 52 * p.chans.length + cdiv (2 * p.digs.length) 4 * 4

/-- The rate a channel runs at, when it exists (R94). -/
def chanRate (s : State) (chid : Nat) : Option Nat :=
  if chid < 24 then some (fltOf s chid).cfgGeom.rate
  else (subOf s chid).map fun u => u.2.cfg.rate

/-- Blocks of the largest record of a profile (R101). -/
def profileBlocks (p : TrgProfile) : Nat :=
  let row := 6 * p.chans.length + 2 * cdiv p.digs.length 16
  let rows := cdiv (p.maxlenMs * rateHz p.rate) 1000
  let raw := cdiv ((p.frPreUs + p.frPostUs) * 2016) 1000
  cdiv (rows * row + 4 * raw * 4 * (maskChans p.frMask).length) blockPayload + 1

/-- Data rate of a profile in bytes per second (R101). -/
def profileRate (p : TrgProfile) : Nat :=
  (6 * p.chans.length + 2 * cdiv p.digs.length 16) * rateHz p.rate + 4 * (maskChans p.frMask).length * 2016000

/-- TRG_ARM_LOAD_PROFILE (R94, R101, R108). -/
def trgProfileCheck (p : TrgProfile) (s : State) : Option (Nat × Nat) :=
  firstFail [bad (p.rate < 4), bad (p.tbsel < 4), bad (p.ctl < 8), bad (p.preMs ≤ (if p.rate = 0 then 400 else 3000)),
    bad (p.postMs ≤ 10000), bad (100 ≤ p.maxlenMs ∧ p.maxlenMs ≤ 20000 ∧ p.preMs + p.postMs ≤ p.maxlenMs),
    bad (p.chans.length ≤ 512), bad (p.digs.length ≤ 256), bad (p.frPreUs ≤ 400000), bad (p.frPreUs + p.frPostUs ≤ 500000),
    bad (p.frMask.toNat < 2 ^ 24), bad (p.chans.all fun c => chanRate s c.chid == some p.rate && decide (c.kind ≤ 2)),
    bad (p.digs.all fun d => decide (d < 0xFFFF)),
    (decide (profileBlocks p ≤ 1792), stExhausted, 0), (decide (profileRate p ≤ 50000000), stExhausted, 0)]

def trgProfileApply (p : TrgProfile) (s : State) : State :=
  let ctl := 1 + p.tbsel * 2 + p.rate * 8 + (p.ctl % 8) * 32
  setTrgCtl (wd ctl) (modTrg (fun g => { g with
    pre := p.preMs, post := p.postMs, maxlen := p.maxlenMs, frPre := p.frPreUs, frPost := p.frPostUs, frMask := p.frMask
    station := p.station, digs := p.digs
    chans := p.chans.map fun c => ⟨c.chid, c.kind, c.name, c.unit, c.primary, c.secondary⟩ }) s)

/-- TRG_SET_SOURCES (R108, R110). -/
def trgSetSourcesCheck (p : TrgSetSources) (_ : State) : Option (Nat × Nat) :=
  firstFail [bad (p.first ≤ 255), bad (1 ≤ p.count ∧ p.first + p.count ≤ 256), bad (p.entries.length = p.count),
    bad (p.entries.all fun e => decide (e.1.toNat < 2 ^ 29) && decide (e.2.toNat < 2 ^ 28))]

/-- Writes TRG_SRC_A[i] and TRG_SRC_B[i]. -/
def setSource (i : Nat) (a b : Word) (s : State) : State :=
  modTrg (fun g => { g with srcA := tset g.srcA i (a &&& 0x1FFFFFFF#32), srcB := tset g.srcB i (b &&& 0x0FFFFFFF#32) }) s

def trgSetSourcesApply (p : TrgSetSources) (s : State) : State :=
  foldOver (imap (fun i e => (i, e)) p.entries) (fun q s => setSource (p.first + q.1) q.2.1 q.2.2 s) s

/-- TRG_FORCE (R97, R98, R108): the trigger waits for the next decision interval, and its reply for the disposition. -/
def execTrgForce (t : Nat) (e : Env) (p : TrgForceCmd) (s : State) : Res :=
  let s := atTime t s
  go (runCmd e ⟨0x0322, false, plenIs 20, 8, [.service, .maint]⟩ (fun rt s =>
    let stamped := nbit p.flags 0
    let stamp : Int := if stamped then (p.sec * NS + p.ns : Nat) else shtNow s
    checked8 e rt (firstFail [(bit s.trg.ctl 0, stConflict, s.sys.st.code)])
      (firstFail [bad (p.flags < 4), bad (p.ns < NS), bad (stamped || (p.sec == 0 && p.ns == 0))])
      (fun s =>
        if stamp > shtNow s then refuse rt stBadParam 0 (loseTrigger 3 0xFFFF s)
        else holdReply rt (modTrg (fun g => { g with
          queue := g.queue ++ [⟨stamp, 0xFFFF, none, nbit p.flags 1, false, none, some rt⟩] }) s)) s) s)

/-- tmq_code of a record (R107, R255). -/
def tmqCode (r : ShtRec) : Nat :=
  match r.info.tbstate with
  | 0 => 0
  | 1 => ((List.range 11).map (· + 1)).find? (fun c => decide (r.info.hoErr ≤ 10 ^ (c - 1))) |>.getD 11
  | _ => 15

/-- The 16 hexadecimal digits of SYS_UID, the high word first (R107). -/
def uidHex : Bytes :=
  let uid := Config.uidLo.toNat + Config.uidHi.toNat * 2 ^ 32
  (List.range 16).map fun i => (ascii "0123456789ABCDEF").getD (uid / 16 ^ (15 - i) % 16) 0#8

/-- An analogue channel of an export (R107). -/
def comChan (name unit : Bytes) (adv : Nat) (primary secondary : Word) : ComChan :=
  ⟨name, unit, 1, 0, adv, ascii "P", primary, secondary⟩

/-- What every part of a record's export has in common (R107). -/
def comtradeOf (s : State) (r : ShtRec) (format samp : Nat) (first : Int) (chans : List ComChan) (digs : List Nat) (rows : List ComRow) : Comtrade :=
  { station := r.station, device := uidHex, revYear := 2013, format := format, nrates := 1, samp := samp, endsamp := rows.length
    chans := chans, invNames := chans.map (fun c => c.name ++ ascii ".INV"), digs := digs
    start := civilUs s r.tb first, trigger := civilUs s r.tb r.trig, timecode := 0, localCode := 0, tmq := tmqCode r, timemult := 1, rows := rows }

/-- Part 0 of a record: the protection-rate data (R107). -/
def comPart0 (s : State) (r : ShtRec) (format : Nat) : Comtrade :=
  let f := rateHz r.rate
  let first := sampleStamp f r.firstN
  let row (i : Nat) : ComRow :=
    let n := r.firstN.toNat + i
    let xs := (List.range r.chans.length).map fun c => r.sampleAt c n
    let at' := sampleStamp f n
    ⟨rdivEven (at' - first) 10, xs.map RingSample.v, xs.map fun x => qInvalid x.q, (List.range r.digs.length).map fun d => r.digAt d at'⟩
  comtradeOf s r format f first (r.chans.map fun c => comChan c.name c.unit 0 c.primary c.secondary) r.digs ((List.range r.nsamp).map row)

/-- Part 1 to 4: full-rate window w (R107). -/
def comWindow (s : State) (r : ShtRec) (w : FrWindow) (format : Nat) : Comtrade :=
  let first := rawNominal w.firstJ
  let chs := maskChans w.mask
  let desc (c : Nat) : FrDesc := (r.frDescs.find? fun d => d.n == c).getD ⟨c, 0, 0#32, 0#32⟩
  let row (i : Nat) : ComRow :=
    let j := w.firstJ.toNat + i
    let xs := chs.map fun c => (c, r.rawAt c j)
    ⟨rdivEven (rawNominal j - first) 10,
      xs.map fun x => toUnits (sext 18 x.2.toNat * 1024) (desc x.1).scale (desc x.1).eofs,
      xs.map fun x => flagsInvalid (BitVec.ofNat 6 (bits x.2 29 24)), []⟩
  comtradeOf s r format 2016000 first (chs.map fun c => let x := r.frChan c; comChan x.name x.unit (desc c).adv x.primary x.secondary) [] ((List.range w.nraw).map row)

/-- The export of a part, when the record is complete and the part is not empty (R108). -/
def exportOf (s : State) (p : TrgExport) : Option (ShtRec × Comtrade) :=
  match s.trg.records.find? fun r => r.recno == p.recno && r.flags.getLsbD rfCommitted with
  | none => none
  | some r =>
    if p.part = 0 then (if r.nsamp = 0 ∨ r.chans.isEmpty ∧ r.digs.isEmpty then none else some (r, comPart0 s r p.format))
    else match r.wins[p.part - 1]? with
      | some w => if w.len = 0 then none else some (r, comWindow s r w p.format)
      | none => none

/-- TRG_EXPORT_RECORD (R107, R108). -/
def execTrgExportRecord (t : Nat) (e : Env) (p : TrgExport) (s : State) : Res :=
  let s := atTime t s
  go (runCmd e ⟨0x0323, false, plenIs 24, 24, [.service, .maint, .safeService]⟩ (fun rt s =>
    checked e rt (firstFail [bad (p.part ≤ 4), bad (p.format ≤ 1), bad (exportOf s p).isSome]) (fun s =>
      match exportOf s p with
      | none => s
      | some (r, c) =>
        let (cfg, dat) := Config.comtrade c
        let f := rateHz r.rate
        match outputFault rt p.bufAddr p.bufLen (cfg ++ dat).length with
        | some (st, d) => refuse rt st d s
        | none =>
          replyWithOutput rt p.bufAddr (cfg ++ dat)
            (u32 (cfg ++ dat).length ++ u32 cfg.length ++ u64 (secOf r.trig).toNat ++ u32 (nsOf r.trig)
              ++ u32 (r.trig - sampleStamp f (lastAtOrBefore f r.trig)).toNat) s) s) s)

end Sys2Proof.Machine
end

