-- ==== Sys2Proof/Machine/TaskOps.lean ====
section
/-! DEFINITION. When the cycles of logic tasks become due (08_cyclic_logic.md R199, R202). -/

namespace Sys2Proof.Machine

def modTask (n : Nat) (f : Task → Task) (s : State) : State := { s with cyc := { s.cyc with tasks := tmod s.cyc.tasks n f } }

/-- m due starts that are skipped: the running cycle overruns (R202, R227). -/
def taskSkip (n m : Nat) (s : State) : State :=
  let s := modTask n (fun t => { t with skip := satAdd t.skip m, ovrNow := true, ovrNew := t.ovrNew + m }) s
  let s := { s with cyc := { s.cyc with ovrSeen := setBit s.cyc.ovrSeen n true } }
  match tget s.cyc.tasks n with
  | none => s
  | some t =>
    if secondPassed s t.ovrLastEv then
      evBy (0x0800 + t.cfg.blu) 0x0602 (u8 n ++ zeros 3 ++ u32 t.ovrNew ++ w32 t.execMax) (modTask n (fun t => { t with ovrLastEv := some s.now, ovrNew := 0 }) s)
    else s

/-- A cycle of task n becomes due with scheduled start st, and index k for a P task (R199, R202). -/
def taskDue (n : Nat) (st : Int) (k : Nat) (s : State) : State :=
  match tget s.cyc.tasks n with
  | none => s
  | some t =>
    if t.suspended then s
    else if t.run.isSome || t.due.isSome then taskSkip n 1 s
    else modTask n (fun t => { t with due := some (st, s.now, k), adj := 0 }) s

/-- The P tasks of a zone after it has delivered index k (R199, R142 step 6). -/
def zoneTasksDue (zone k : Nat) (st : Int) (s : State) : State :=
  foldOver s.cyc.tasks (fun p s =>
    let c := p.2.cfg
    if c.cls = 1 ∧ c.zone = zone ∧ k % (max 1 c.pmul) = 0 then taskDue p.1 st k s else s) s

/-- L starts that have come since the last look: the first becomes due unless a cycle runs or waits, the others are skipped (R199, R202). -/
def lTaskDue (n : Nat) (s : State) : State :=
  match tget s.cyc.tasks n with
  | none => s
  | some t =>
    let b := baseNs s t.cfg.tbsel
    if t.cfg.cls ≠ 2 ∨ t.suspended ∨ b < t.next then s
    else
      let p : Int := (max 1 t.cfg.periodUs : Nat) * 1000
      let m := ((b - t.next) / p).toNat + 1
      let free := t.run.isNone && t.due.isNone
      let s := modTask n (fun t => { t with
        next := t.next + (m : Int) * p
        due := if free then some (t.next, s.now - (b - t.next).toNat, 0) else t.due
        adj := if free then 0 else t.adj }) s
      let k := if free then m - 1 else m
      if k = 0 then s else taskSkip n k s

def lTasksDue (s : State) : State := foldOver s.cyc.tasks (fun p s => lTaskDue p.1 s) s

end Sys2Proof.Machine
end

