-- ==== Sys2Proof/Machine/Timebase.lean ====
section
/-! DEFINITION. Time bases: steps, servo, states, holdover, time-event generators (10_time_bases.md R246 to R256, R265). -/

namespace Sys2Proof.Machine

/-- The source of a base supplies no UTC offset and no flags (R247, R251): UTC_OFFSET is the configured value again, and TRACEABLE keeps its value in LOCKED and HOLDOVER. For PPS_IN, TRACEABLE is the configured flag. -/
def sourceGone (b : Nat) (s : State) : State :=
  modBase b (fun x =>
    let tr := x.cfg.src == 3 && nbit x.cfg.flags 1
    { x with
      utcOffset := x.cfg.utcOffset, utcKnown := x.configured, leap61 := false, leap59 := false, srcTrace := tr
      traceable := if x.st = .free then tr else x.traceable }) s

/-- Integral of the rate adjustment up to an instant. -/
def Base.areaNow (x : Base) (now : Nat) : Int := x.area + x.rate * ((now : Int) - x.areaAt)

/-- The rate adjustment of a base from now on (R246). -/
def setRate (b : Nat) (r : Int) (s : State) : State :=
  modBase b (fun x => { x.endSeg s.now with val := x.valAt s.now, ref := s.now, rate := clampI (-32768000000) 32768000000 r, area := x.areaNow s.now, areaAt := s.now }) s

/-- The latest plan record (R242). -/
def lastPlan (s : State) : Option PlanRec := s.spd.plans.head?

/-- OCXO_VALID (R240, R242). -/
def ocxoValid (s : State) : Bool :=
  match lastPlan s with
  | some p => p.ocxoValid
  | none => false


/-- Seconds in the current or latest holdover (R270). -/
def hoTimeOf (s : State) (b : Base) : Nat :=
  match b.ho with
  | some h => if b.st = .holdover then (s.now - h.enteredAt) / NS else b.hoTime
  | none => b.hoTime

/-- A base's lock to a traceable source goes on, or is broken (R240). -/
def noteTrace (b : Nat) (s : State) : State :=
  modBase b (fun x =>
    if x.st = .locked ∧ x.traceable then (match x.traceSince with
      | some _ => x
      | none => { x with traceSince := some s.now, dayArea := x.areaNow s.now })
    else { x with traceSince := none }) s

/-- EV_TIM_STATE. -/
def timState (b : Nat) (old new : BaseState) (cause hoErr : Nat) (s : State) : State :=
  noteTrace b (ev 0x0701 (u8 b ++ u8 old.code ++ u8 new.code ++ u8 cause ++ u32 hoErr) s)

/-- Mean of the servo's f from elapsed time a to now (R255): fHist newest first. -/
def meanF (a now : Nat) (last : Int) : List (Nat × Int) → Int
  | l =>
    if now ≤ a then last
    else
      let go (acc : Int × Nat) (x : Nat × Int) : Int × Nat :=
        let from' := max a x.1
        if acc.2 ≤ from' then acc else (acc.1 + x.2 * ((acc.2 - from' : Nat) : Int), from')
      let (sum, reach) := l.foldl go ((0 : Int), now)
      rdivEven (sum + last * ((reach - a : Nat) : Int)) (now - a)

/-- Entry to HOLDOVER (R251, R255). -/
def enterHoldover (b cause : Nat) (s : State) : State :=
  let x := baseOf s b
  let a := match x.lockedAt with
    | some l => max l (s.now - 1000 * NS)
    | none => s.now
  let r := meanF a s.now x.f x.fHist
  let day := match x.lockedAt with
    | some l => decide (l + 86400 * NS ≤ s.now)
    | none => false
  let h : Holdover := ⟨s.now, r, (x.recent.take 16).foldl max 0, day && ocxoValid s, tBoard s, 0⟩
  let s := setRate b r s
  let s := modBase b (fun x => { x with st := .holdover, ho := some h, hoErr := h.eLock, hoTime := 0, lockRun := 0, lockedAt := none, f := r }) s
  timState b x.st .holdover cause h.eLock s

/-- Entry to FREE (R251); after holdover the rate stays (R255). -/
def enterFree (b cause : Nat) (s : State) : State :=
  let x := baseOf s b
  if x.st = .free then s
  else
    let s := modBase b (fun x => { x with st := .free, traceable := x.srcTrace, hoTime := hoTimeOf s x, hoErr := 0, lockRun := 0, lockedAt := none }) s
    timState b x.st .free cause x.hoErr s

/-- Entry to LOCKED (R251). -/
def enterLocked (b : Nat) (s : State) : State :=
  let x := baseOf s b
  let s := modBase b (fun x => { x with st := .locked, traceable := x.srcTrace, hoTime := hoTimeOf s x, hoErr := 0, lockedAt := some s.now, fHist := [(s.now, x.f)] }) s
  timState b x.st .locked 0 x.hoErr s

/-- Fields of TEG_CTL (R270). -/
def Teg.mode (g : Teg) : Nat := if bits g.ctl 1 0 = 3 then 0 else bits g.ctl 1 0
def Teg.tb (g : Teg) : Nat := bits g.ctl 3 2
def Teg.outPin (g : Teg) : Nat := if bits g.ctl 5 4 = 3 then 0 else bits g.ctl 5 4
def Teg.start (g : Teg) : Int := ((bits g.secHi 15 0 * 2 ^ 32 + g.secLo.toNat) * NS + bits g.ns 29 0 : Nat)

/-- PERIOD, used at the nearer limit of its range (R265). -/
def Teg.period (g : Teg) : Nat := clampN 10000 1000000000000 (bits g.perHi 7 0 * 2 ^ 32 + g.perLo.toNat)

/-- Length of an output pulse in ns: PW, used at the nearer limit of its range (R266). -/
def Teg.width (g : Teg) : Nat :=
  let w := max 1 (bits g.pw 19 0)
  (if g.mode = 2 then min w ((g.period - 1) / 1000) else w) * 1000

def tegOf (s : State) (g : Nat) : Teg := s.tbs.teg.getD g Teg.zero

/-- Level of PPS_OUT0 or PPS_OUT1: the OR of the pulses of the generators that select it (R266). -/
def ppsLevel (s : State) (pin : Nat) : Bool :=
  s.tbs.teg.any fun g => g.outPin == pin + 1 && (match g.pulseEnd with
    | some e => decide (s.now < e)
    | none => false)

def modTeg (g : Nat) (f : Teg → Teg) (s : State) : State := modTbs (fun x => { x with teg := lmod x.teg g f }) s

/-- A write of TEG_CTL arms the generator (R265). -/
def tegArm (g : Nat) (s : State) : State :=
  let x := tegOf s g
  let soon := baseNs s x.tb + 10000
  let x := { x with last := none }
  modTeg g (fun _ => match x.mode with
    | 1 => if x.start < soon then { x with ctl := x.ctl &&& ~~~3#32, next := none } else { x with next := some x.start }
    | 2 => if soon ≤ x.start then { x with next := some x.start }
           else { x with next := some (x.start + -(-(soon - x.start) / (x.period : Int)) * x.period) }
    | _ => { x with next := none }) s

/-- One instant of generator g fires (R265, R269). -/
def tegFire (g : Nat) (i : Int) (s : State) : State :=
  let x := tegOf s g
  let s := tegTrigger g x.tb i s
  let sec := s.now / NS
  let n := if x.recSec = sec then x.recCount else 0
  let rec' := bit x.ctl 6 && decide (n < 10)
  let s := if rec' then ev 0x0707 (u8 g ++ u8 x.tb ++ u16 0 ++ u32 (nsOf i) ++ w32 (secLo i)) s else s
  let s := if x.outPin = 0 then s else emit (.pulse (x.outPin - 1) x.width) s
  modTeg g (fun x => { x with
    cnt := x.cnt + 1, last := some i, next := if x.mode = 2 then some (i + x.period) else none
    recSec := sec, recCount := if rec' then n + 1 else n
    pulseEnd := if x.outPin = 0 then x.pulseEnd else some (s.now + x.width) }) s

/-- An enabled entry of the Shutter names the generator. -/
def tegWatched (s : State) (g : Nat) : Bool := s.trg.srcA.any fun p => bit p.2 18 && bits p.2 15 0 == 0x60 + g

/-- Instants of generator g that a forward step to base time t passes over: each fires once (R265). -/
def tegStep (b : Nat) (t : Int) (g : Nat) (s : State) : State :=
  let x := tegOf s g
  match x.next with
  | none => s
  | some i =>
    if x.tb ≠ b ∨ t < i then s
    else
      let n := if x.mode = 2 then ((t - i) / (x.period : Int)).toNat + 1 else 1
      let k := if tegWatched s g then n else min n 10
      let s := foldOver (List.range k) (fun j s => tegFire g (i + (j * x.period : Nat)) s) s
      modTeg g (fun y => { y with
        cnt := y.cnt + BitVec.ofNat 32 (n - k), last := some (i + ((n - 1) * x.period : Nat))
        next := if x.mode = 2 then some (i + (n * x.period : Nat)) else none }) s

/-- A step of a task's base moves its running timers, and the s that they take from a cycle in hand (R206). -/
def Task.step (d : Int) (t : Task) : Task :=
  { t with timers := t.timers.map fun p => (p.1, if p.2.running then { p.2 with t0 := p.2.t0 + d } else p.2), adj := t.adj + d }

/-- A step of base b by d moves the timers of its tasks, and their next scheduled starts (R206). -/
def tasksStep (b : Nat) (d : Int) (s : State) : State :=
  let after := baseNs s b
  let upd (t : Task) : Task :=
    if t.cfg.cls = 1 ∨ t.cfg.tbsel ≠ b then t
    else { t.step d with next := if t.cfg.cls = 2 then nextLStart t.cfg after else t.next }
  { s with cyc := { s.cyc with tasks := s.cyc.tasks.map fun p => (p.1, upd p.2) } }

/-- A P task's base is its zone's: its running timers move with it (R206). -/
def zoneTasksStep (b : Nat) (d : Int) (s : State) : State :=
  let upd (t : Task) : Task :=
    if t.cfg.cls ≠ 1 ∨ ((tget s.prt.zones t.cfg.zone).map fun z => zoneBase s z.cfg) ≠ some b then t
    else t.step d
  { s with cyc := { s.cyc with tasks := s.cyc.tasks.map fun p => (p.1, upd p.2) } }

/-- The effect of a move of base b on the functions bound to it (R250), but for the time-event generators. -/
def baseMoved (b : Nat) (before : Int) (s : State) : State :=
  let s := if shtBase s = b then shutterStep before s else s
  let s := if s.acq.tbsel = b then strobeMove 0 s else s
  s

/-- A base steps by d ns in one CD6 cycle (R253), with its effect on every function bound to it (R250): cause 0 command, 1 PTP, 2 IRIG-B, 3 PPS_IN. -/
def stepBase (src b : Nat) (d : Int) (cause : Nat) (s : State) : State :=
  let before := baseNs s b
  let s := keepDeadlines b before (if inService s then lTasksDue s else s)
  let s := modBase b (fun x => { x.endSeg s.now with val := x.valAt s.now + d * FR, ref := s.now, stepCnt := x.stepCnt + 1, lockRun := 0, stepVals := [] }) s
  let after := baseNs s b
  let s := rebase b before after s
  let s := evBy src 0x0702 (u8 b ++ u8 cause ++ u16 0 ++ s64 d) s
  let s := zoneTasksStep b d (tasksStep b d (baseMoved b before s))
  foldOver (List.range 16) (tegStep b after) s

/-- The servo takes θ (R252); in HOLDOVER it resumes from the rate in force (R478). -/
def servo (b : Nat) (theta : Int) (s : State) : State :=
  let x := baseOf s b
  let tau : Int := (2 ^ x.cfg.tauLog2 : Nat)
  let dt : Int := match x.lastAccept with
    | some l => (s.now - l : Nat)
    | none => 0
  let f := x.f - rdivEven (theta * 65536 * dt) (tau * tau * NS).toNat
  let lim : Int := (x.cfg.slewMax * 1000 : Nat) * 65536
  let p := clampI (-lim) lim (rdivEven (-(14 * theta * 65536)) (10 * tau).toNat)
  let keep := x.fHist.filter fun h => decide (s.now ≤ h.1 + 1100 * NS)
  setRate b (f + p) (modBase b (fun x => { x with f := f, lastAccept := some s.now, fHist := (s.now, f) :: keep }) s)

/-- A measurement θ of base b from its source (R251, R252). -/
def measure (b : Nat) (theta : Int) (cause : Nat) (s : State) : State :=
  let x := baseOf s b
  let s := modBase b (fun x => { x with theta := satI32 theta, lastMeas := some s.now }) s
  let mag := theta.natAbs
  if mag ≤ x.cfg.stepLimit * 1000 then
    let s := servo b theta s
    let run := if mag ≤ x.cfg.lockThr then x.lockRun + 1 else 0
    let s := modBase b (fun x => { x with lockRun := min run 16, recent := (mag :: x.recent).take 16, discRun := 0, stepVals := [] }) s
    if run ≥ 16 ∧ x.st ≠ .locked then enterLocked b s else s
  else if x.st = .free then stepBase srcHw b (-theta) cause (modBase b (fun x => { x with discRun := 0 }) s)
  else
    let vals := (theta :: x.stepVals).take 4
    let agree := vals.length = 4 && decide (vals.foldl max theta - vals.foldl min theta ≤ x.cfg.lockThr)
    if nbit x.cfg.flags 2 && agree then stepBase srcHw b (-theta) cause (modBase b (fun x => { x with discRun := 0 }) s)
    else
      let s := modBase b (fun x => { x with stepVals := vals, discard := satInc x.discard, discRun := x.discRun + 1, lockRun := 0 }) s
      if x.discRun + 1 = 16 then
        let s := ev 0x0705 (u8 b ++ zeros 3 ++ s32 (satI32 theta)) s
        if x.st = .locked then enterHoldover b 2 s else s
      else s

/-- Seeds a base with a time at a start (R254): FREE, UTC_VALID 0, f of the latest plan (R252). -/
def seedBase (b : Nat) (ns : Int) (s : State) : State :=
  let f := match lastPlan s with
    | some p => if p.ocxoValid then rdivEven (p.ocxoOffset * 65536) 100 else 0
    | none => 0
  modBase b (fun x => { Base.reset b with
    cfg := x.cfg, configured := x.configured, past := (x.endSeg s.now).past, ref := s.now, val := ns * FR, rate := f, f := f, utcOffset := x.cfg.utcOffset
    utcKnown := x.configured, traceable := x.cfg.src == 3 && nbit x.cfg.flags 1, srcTrace := x.cfg.src == 3 && nbit x.cfg.flags 1
    stepCnt := x.stepCnt, discard := x.discard, capSec := x.capSec, capNs := x.capNs, capFrac := x.capFrac }) s

/-- A base bound to functions is set anew after its start has ended: they move with it, as at a step. -/
def seedMove (b : Nat) (ns : Int) (s : State) : State :=
  let before := baseNs s b
  let s := seedBase b ns s
  let after := baseNs s b
  let s := rebase b before after s
  zoneTasksStep b (after - before) (tasksStep b (after - before) (baseMoved b before s))

/-- The bases begin anew (R254): FREE, and set at the calendar's next roll-over; until then their count runs on (log entry 144). -/
def seedBegin (s : State) : State :=
  modTbs (fun x => { x with seed := true }) (foldOver (List.range 4) (fun b s => seedBase b (baseNs s b) s) s)

/-- The bases that wait are set from the calendar at its roll-over (R254), uts being its seconds; generators that are armed take up the grid of the new count. -/
def seedBases (uts : Nat) (s : State) : State :=
  if !s.tbs.seed then s
  else
    let set := if s.sys.st = .start then seedBase else seedMove
    let s := foldOver (List.range 4) (fun b s => set b (((uts : Int) + (baseOf s b).cfg.utcOffset) * NS) s) s
    let s := if s.sys.st = .start then strobeAlign s else s
    let s := foldOver ((List.range 16).filter fun g => (tegOf s g).next.isSome) tegArm s
    modTbs (fun x => { x with seed := false }) s


/-- HOLDOVER_ERROR_UPDATE (R255): each second in holdover. -/
def execHoldoverErrorUpdate (t base : Nat) (s : State) : Res :=
  let s := atTime t s
  let x := baseOf s base
  match x.ho with
  | none => go s
  | some h =>
    if base ≥ 4 ∨ x.st ≠ .holdover then go s
    else
      let secs := (s.now - h.enteredAt) / NS
      let dt := max h.dtMax (tBoard s - h.tEntry).natAbs
      let err := h.eLock + cdiv (((if h.uSmall then 2 else 20) * 640 + dt) * secs) 640
      let resumed := match x.lastAccept with
        | some l => decide (l > h.enteredAt)
        | none => false
      let s := modBase base (fun x => { x with ho := some { h with dtMax := dt }, hoErr := min err 0xFFFFFFFF }) s
      let s := match lastPlan s with
        | some p =>
          if p.ocxoValid && !resumed then
            let r := h.rHold + rdivEven (p.ocxoAge * 65536 * (secs : Int)) 86400000
            setRate base r (modBase base (fun x => { x with f := r }) s)
          else s
        | none => s
      go (if err > x.cfg.hoErrMax then enterFree base 4 s else s)

/-- HOLDOVER_LIMIT_EXPIRE (R255). -/
def execHoldoverLimitExpire (t base : Nat) (s : State) : Res :=
  let s := atTime t s
  let x := baseOf s base
  match x.ho with
  | some h => if base < 4 ∧ x.st = .holdover ∧ s.now > h.enteredAt + x.cfg.hoLimit * NS then go (enterFree base 5 s) else go s
  | none => go s

/-- The source of a base still supplies a UTC offset and flags (R247): a SLAVE port with its Announces, an IRIG-B frame accepted within 3 s. -/
def supplies (s : State) (b : Nat) : Bool :=
  let x := baseOf s b
  (x.cfg.src == 1 && x.slavePort.isSome) || (x.cfg.src == 2 && (match s.tbs.irigPrev with
    | some (_, l) => decide (s.now < l + 3 * NS)
    | none => false))

/-- SOURCE_LOSS_TIMEOUT (R251, R263, R264): no measurement accepted for 3 s. -/
def execSourceLossTimeout (t base : Nat) (s : State) : Res :=
  let s := atTime t s
  let x := baseOf s base
  let old : Bool := match x.lastAccept with
    | some l => decide (l + 3 * NS ≤ s.now)
    | none => true
  if base < 4 ∧ old then
    let s := if x.st = .locked then enterHoldover base 1 s else s
    go (if supplies s base then s else sourceGone base s)
  else go s

/-- TIM_STEP_APPLY (R253): the commanded step of a base takes effect and its reply is sent. -/
def execTimStepApply (t base : Nat) (s : State) : Res :=
  let s := atTime t s
  match (baseOf s base).pend with
  | none => go s
  | some p =>
    if base ≥ 4 ∨ baseNs s base < p.atBase then go s
    else
      let s := stepBase ((p.reply.map fun r => cmdSrc r.src).getD srcHw) base p.delta 0 (modBase base (fun x => { x with pend := none }) s)
      go (match p.reply with
        | some rt => finish rt stOk 0 (u64 (secOf p.atBase).toNat ++ u32 (nsOf p.atBase) ++ u32 0 ++ s64 p.delta) s
        | none => s)

/-- TEG_FIRE (R265): the next instant of a generator has come. -/
def execTegFire (t g : Nat) (s : State) : Res :=
  let s := atTime t s
  match (tegOf s g).next with
  | some i => if g < 16 ∧ i ≤ baseNs s (tegOf s g).tb then go (tegFire g i s) else go s
  | none => go s

/-- TEG_CTL_WRITE (R265, R270): writable in SERVICE and MAINT. -/
def execTegCtlWrite (t : Nat) (by' : Master) (g : Nat) (v : Word) (s : State) : Res :=
  let s := atTime t s
  let off := 0xA0800 + 0x20 * g
  if g ≥ 16 ∨ dark s then go s
  else if !operational s then go (busViolate by' off s)
  else go (regWrite by' off (fun s => tegArm g (modTeg g (fun x => { x with ctl := v &&& 0x7F#32 }) s)) s)

/-- LEAP_SECOND_APPLY (R247): the base instant of the end of the UTC day that the source flagged. -/
def execLeapSecondApply (t base : Nat) (s : State) : Res :=
  let s := atTime t s
  let x := baseOf s base
  let utc := (secOf (baseNs s base) - x.utcOffset) % 86400
  if base ≥ 4 then go s
  else if x.leap61 ∧ utc = 0 then
    go (ev 0x0704 (u8 base ++ u8 0 ++ s16 (x.utcOffset + 1)) (modBase base (fun x => { x with utcOffset := x.utcOffset + 1, leap61 := false }) s))
  else if x.leap59 ∧ utc = 86399 then
    go (ev 0x0704 (u8 base ++ u8 1 ++ s16 (x.utcOffset - 1)) (modBase base (fun x => { x with utcOffset := x.utcOffset - 1, leap59 := false }) s))
  else go s

/-- Every field of a base as of an instant (R248). -/
def Base.capture (now : Nat) (x : Base) : Base :=
  { x with capSec := ifield 48 (secOf (x.ns now)), capNs := nsOf (x.ns now), capFrac := ((x.valAt now % FR) / 4294967296).toNat }

/-- TBS_CAPTURE (R248): every field of all four bases from one cycle. -/
def execTbsCapture (t : Nat) (by' : Master) (s : State) : Res :=
  let s := atTime t s
  go (regWrite by' 0xA0000 (fun s => modTbs (fun x => { x with base := x.base.map (Base.capture s.now), capCnt := x.capCnt + 1 }) s) s)

end Sys2Proof.Machine
end

