-- ==== Sys2Proof/Machine/Clock.lean ====
section
/-! DEFINITION. The calendar clock and the backup domain (11_rtc_backup.md R271 to R285). -/

namespace Sys2Proof.Machine

def modRtc (f : Rtc → Rtc) (s : State) : State := { s with rtc := f s.rtc }

/-- A date and time that the calendar can hold (R274). -/
def civilOk (c : Civil) : Bool :=
  decide (2000 ≤ c.year ∧ c.year ≤ 2399 ∧ 1 ≤ c.mon ∧ c.mon ≤ 12 ∧ 1 ≤ c.day ∧ c.day ≤ monthDays c.year c.mon
    ∧ c.hour ≤ 23 ∧ c.min ≤ 59 ∧ c.sec ≤ 59)

/-- UTS of the calendar (R274). -/
def uts (s : State) : Nat := secondsOf s.rtc.cal

/-- The next second; after 2399-12-31 23:59:59 the calendar is 2000-01-01 00:00:00 (R274). -/
def nextSecond (c : Civil) : Civil :=
  let n := civilOf (secondsOf c + 1)
  if n.year > 2399 then Civil.epoch2000 else n

/-- Corrections of TRIM at periods from w to w + n − 1 of the trim window (R275). -/
def trimCount (trim : Int) (w n : Nat) : Nat :=
  ((List.range trim.natAbs).map fun i => i * 1048576 / trim.natAbs).countP fun p =>
    decide (w ≤ p ∧ p < w + n) || decide (w ≤ p + 1048576 ∧ p + 1048576 < w + n)

/-- Periods of a second that starts at period w of the window: each correction shortens (TRIM > 0) or lengthens it by one (R275). -/
def secondPeriods (trim : Int) (w : Nat) : Nat :=
  let step (_ : Nat) (l : Nat) : Nat := if trim > 0 then 32768 - trimCount trim w l else 32768 + trimCount trim w l
  foldOver (List.range 4) step 32768

/-- TB0's UTC in ns (R247). -/
def utcNow (s : State) : Int := baseNs s 0 - (baseOf s 0).utcOffset * NS

/-- The date of TB0's next top of second. -/
def nextTop (s : State) : Civil := civilOf (utcNow s / NS + 1).toNat

/-- The states in which the calendar is disciplined (R280). -/
def disciplines (s : State) : Bool :=
  s.rtc.discEn && utcValid (baseOf s 0) && (s.sys.st == .service || s.sys.st == .maint || s.sys.st == .safeService)

/-- A discipline measurement at a roll-over (R280). -/
def rtcMeasure (s : State) : State :=
  let e := utcNow s - (uts s : Nat) * (NS : Int)
  let s := modRtc (fun r => { r with
    discE := iw (satI32 (rdivEven e 1000)), discCnt := r.discCnt + 1, discLocked := decide (e.natAbs ≤ 1000000) }) s
  match s.rtc.ePrev with
  | some p =>
    if e.natAbs ≥ 100000000 then modRtc (fun r => { r with commits := r.commits ++ [⟨nextTop s, 2, true, none⟩] }) s
    else modRtc (fun r => { r with trim := clampI (-512) 511 (r.trim + rdivEven (4 * (e - p) + e) 3906250), ePrev := some e }) s
  | none => modRtc (fun r => { r with commits := r.commits ++ [⟨nextTop s, 2, true, none⟩] }) s

/-- RTC_SECOND_ROLLOVER (R254, R275, R280). -/
def execRtcSecondRollover (t : Nat) (s : State) : Res :=
  let s := atTime t s
  let s := modRtc (fun r => { r with
    cal := nextSecond r.cal, rollAt := s.now, window := (r.window + secondPeriods r.trim r.window) % 1048576 }) s
  let s := seedBases (uts s) s
  go (if disciplines s && uts s % 1024 == 0 then rtcMeasure s else s)

/-- A staged date and time is loaded (R278 to R280, R283). -/
def rtcLoad (c : RtcCommit) (s : State) : State :=
  let before := uts s
  let s := modRtc (fun r => { r with
    cal := c.date, rollAt := s.now, window := 0, timeLost := false, ePrev := if c.cause = 2 then some 0 else none
    stepCnt := if c.cause = 2 then r.stepCnt + 1 else r.stepCnt }) s
  let s := ev 0x0720 (u8 c.cause ++ zeros 3 ++ u64 before ++ u64 (uts s)) s
  match c.reply with
  | some rt => finish rt stOk 0 (u64 (uts s)) s
  | none => s

/-- The copy of every field from one tick (R277). -/
def rtcCopy (s : State) : RtcCopy :=
  let c := s.rtc.cal
  let n := uts s
  ⟨wd (c.day + c.mon * 2 ^ 8 + weekday c * 2 ^ 12 + c.year * 2 ^ 16), wd (c.sec + c.min * 2 ^ 8 + c.hour * 2 ^ 16),
    min 32767 ((s.now - s.rtc.rollAt) * 32768 / NS), wd n, wd (n / 2 ^ 32), s.rtc.swoCnt,
    s.rtc.trim, s.rtc.stgDate, s.rtc.stgTime, s.rtc.stgSec, s.rtc.discE, s.rtc.discCnt, s.rtc.stepCnt, s.rtc.bkp⟩

def takeCopy (s : State) : State := modRtc (fun r => { r with capture := false, copy := rtcCopy s }) s

/-- A commit leaves the waiting list and is loaded; a copy of the same CD7 edge shows it (R279). -/
def commitLoad (c : RtcCommit) (s : State) : State :=
  let s := rtcLoad c (modRtc (fun r => { r with commits := r.commits.erase c }) s)
  if s.rtc.copyAt = some s.now then modRtc (fun r => { r with copy := rtcCopy s }) s else s

/-- RTC_COMMIT_LOAD (R278, R279): the oldest commit that waits for a CD7 edge. -/
def execRtcCommitLoad (t : Nat) (s : State) : Res :=
  let s := atTime t s
  match s.rtc.commits.find? fun c => !c.atTop with
  | none => go s
  | some c => go (commitLoad c s)

/-- RTC_DISCIPLINE_STEP (R280, R283): a commit of TB0's UTC at the top of second it was staged for. -/
def execRtcDisciplineStep (t : Nat) (s : State) : Res :=
  let s := atTime t s
  match s.rtc.commits.find? fun c => c.atTop with
  | none => go s
  | some c =>
    if utcNow s < (secondsOf c.date : Nat) * (NS : Int) then go s
    else go (if civilOk c.date then commitLoad c s else modRtc (fun r => { r with commits := r.commits.erase c }) s)

/-- RTC_CAPTURE (R277): a write of RTC_CTL.CAPTURE. -/
def execRtcCapture (t : Nat) (by' : Master) (s : State) : Res :=
  let s := atTime t s
  go (regWrite by' 0xB0000 (modRtc (fun r => { r with capture := true })) s)

/-- RTC_CAPTURE_COMPLETE (R277). -/
def execRtcCaptureComplete (t : Nat) (s : State) : Res :=
  let s := atTime t s
  if s.rtc.capture then go (modRtc (fun r => { r with copyAt := some s.now }) (takeCopy s)) else go s

/-- The staged date (R278). -/
def stagedDate (r : Rtc) (sec : Word) : Civil :=
  ⟨bits r.stgDate 31 16, bits r.stgDate 11 8, bits r.stgDate 4 0, bits r.stgTime 12 8, bits r.stgTime 5 0, bits sec 5 0⟩

/-- RTC_STG_SEC_WRITE (R278): checks the staged set, and stages its commit or refuses it. -/
def execRtcStgSecWrite (t : Nat) (by' : Master) (v : Word) (s : State) : Res :=
  let s := atTime t s
  go (regWrite by' 0xB0014 (fun s =>
    let s := modRtc (fun r => { r with stgSec := v &&& 0x3F#32 }) s
    let c := stagedDate s.rtc s.rtc.stgSec
    if civilOk c then modRtc (fun r => { r with commits := r.commits ++ [⟨c, 0, false, none⟩] }) s
    else ev 0x0721 (w32 s.rtc.stgDate ++ w32 s.rtc.stgTime ++ w32 s.rtc.stgSec) (modRtc (fun r => { r with badDate := true }) s)) s)

/-- The backup rail goes to VBAT, or back to the 3.3 V rail, at these voltages in mV (R271). -/
def toVbat (rail vbat : Nat) : Bool := decide (rail + 50 < vbat) || decide (rail < 2700)
def backToRail (rail vbat : Nat) : Bool := decide (2850 < rail) && decide (vbat + 50 < rail)

/-- BACKUP_SUPPLY_SWITCH (R271): the 3.3 V rail and VBAT, in mV, have come to where a switch is due. -/
def execBackupSupplySwitch (t : Nat) (v : SupplyVolts) (s : State) : Res :=
  let s := atTime t s
  go (modRtc (fun r =>
    if !r.onVbat && toVbat v.rail v.vbat then { r with onVbat := true, swoCnt := satInc r.swoCnt }
    else if r.onVbat && backToRail v.rail v.vbat then { r with onVbat := false }
    else r) s)

/-- VBAT_SAMPLE (R273): the comparator's sample in mV. -/
def execVbatSample (t mv : Nat) (s : State) : Res :=
  let s := atTime t s
  let low := decide (mv < 2400)
  let n := if low then min 2 (s.rtc.vbatLows + 1) else 0
  let sets := decide (n ≥ 2) && !s.rtc.vbatLow
  let s := modRtc (fun r => { r with vbatLows := n, vbatOk := !low, vbatLow := r.vbatLow || sets }) s
  go (if sets then ev 0x0722 (u16 (hkMean s 6 * 80 / 1000).toNat ++ u16 0) s else s)

/-- RTC_STAT (R285). -/
def rtcStat (s : State) : Nat :=
  fl s.rtc.onVbat 0 + fl s.rtc.vbatLow 1 + fl s.rtc.timeLost 2 + fl s.rtc.badDate 3 + fl s.rtc.discLocked 4
    + fl (s.rtc.commits.any fun c => !c.atTop) 5

/-- RTC_SET (R283): the reply follows the commit. -/
def execRtcSet (t : Nat) (e : Env) (p : RtcSet) (s : State) : Res :=
  let s := atTime t s
  let d := p.date
  go (runCmd e ⟨0x0603, true, plenIs 12, 8, [.service, .maint, .safeService]⟩ (fun rt s =>
    let valid := utcValid (baseOf s 0)
    checked8 e rt
      (firstFail [(!(p.mode == 0 && s.rtc.discEn && valid), stConflict, s.sys.st.code), (!(p.mode == 1 && !valid), stConflict, s.sys.st.code)])
      (firstFail [bad (p.mode ≤ 1),
        bad (if p.mode = 0 then civilOk d else d.year = 0 ∧ d.mon = 0 ∧ d.day = 0 ∧ d.hour = 0 ∧ d.min = 0 ∧ d.sec = 0)])
      (fun s =>
        let c : RtcCommit := if p.mode = 0 then ⟨d, 1, false, some rt⟩ else ⟨nextTop s, 1, true, some rt⟩
        holdReply rt (modRtc (fun r => { r with commits := r.commits ++ [c] }) s)) s) s)

/-- RTC_GET (R277, R283). -/
def execRtcGet (t : Nat) (e : Env) (s : State) : Res :=
  let s := atTime t s
  go (runCmd e ⟨0x0604, false, plenIs 4, 24, [.service, .maint, .safeService]⟩ (fun rt s =>
    checked e rt none (fun s =>
      let s := takeCopy s
      let c := s.rtc.cal
      reply rt stOk 0
        (u16 c.year ++ u8 c.mon ++ u8 c.day ++ u8 c.hour ++ u8 c.min ++ u8 c.sec ++ u8 (weekday c) ++ u16 s.rtc.copy.subsec
          ++ u16 (rtcStat s) ++ s16 s.rtc.trim ++ u16 0 ++ u64 (uts s)) s) s) s)

/-- The backup domain restarts after its rail fell below 1.80 V (R272). -/
def rtcLost (s : State) : State := modRtc (fun _ => { Rtc.reset with rollAt := s.now }) s

end Sys2Proof.Machine
end

