-- ==== Sys2Proof/Machine/Images.lean ====
section
/-! DEFINITION. Pedin BL images: their octets and the checks at load (08_cyclic_logic.md R207 to R210, R216, R220). -/

namespace Sys2Proof.Machine

/-- A fault outside the program (R210). -/
abbrev imgOut : Nat := 0xFFFFFFFF

/-- An offset rounded up to 4. -/
def al4 (n : Nat) : Nat := cdiv n 4 * 4

/-- n entries of w octets at offset i, each read by f. -/
def rowsAt {α : Type} (b : Bytes) (i w n : Nat) (f : Bytes → α) : List α := tab n fun j => f (slice b (i + w * j) w)

/-- An instruction word (R207). -/
def instrOf (w : Nat) : BlInstr := ⟨w / 2 ^ 26, w / 2 ^ 22 % 16, w % 2 ^ 22⟩

/-- Section offsets of an image with these counts (R220): program, timers, counters, edges, write set, read set, channels, natives, code, data, end. -/
structure ImgLayout where
  prog : Nat
  timers : Nat
  counters : Nat
  edges : Nat
  wset : Nat
  rset : Nat
  chans : Nat
  natives : Nat
  code : Nat
  data : Nat
  fin : Nat
deriving DecidableEq, Repr

/-- Header fields of an image (R220). -/
structure ImgHead where
  ninstr : Nat
  nt : Nat
  nc : Nat
  ne : Nat
  nn : Nat
  nw : Nat
  nr : Nat
  nch : Nat
  codeLen : Nat
  dataLen : Nat
  bssLen : Nat
  id : Nat
deriving DecidableEq, Repr

def imgHead (b : Bytes) : ImgHead :=
  ⟨fld b 8 4, fld b 12 2, fld b 14 2, fld b 16 2, fld b 18 2, fld b 20 2, fld b 22 2, fld b 24 2, fld b 28 4, fld b 32 4, fld b 36 4, fld b 40 4⟩

def ImgHead.layout (h : ImgHead) : ImgLayout :=
  let timers := 64 + 4 * h.ninstr
  let counters := timers + 8 * h.nt
  let edges := counters + 12 * h.nc
  let wset := edges + 8 * h.ne
  let rset := wset + 8 * h.nw
  let chans := rset + 8 * h.nr
  let natives := chans + al4 (2 * h.nch)
  let code := natives + 16 * h.nn
  let data := code + al4 h.codeLen
  ⟨64, timers, counters, edges, wset, rset, chans, natives, code, data, data + h.dataLen⟩

/-- The header's fields, its reserved fields and its CRC are right, and the sections fill the image (R220). -/
def imgHeadOk (b : Bytes) : Bool :=
  let h := imgHead b
  let l := h.layout
  decide (64 ≤ b.length) && decide (b.length ≤ 262144) && fld b 0 4 == 0x4D514C47 && fld b 4 2 == 1 && fld b 6 2 == 0 && fld b 26 2 == 0
    && (slice b 44 16).all (· == 0#8) && decide (1 ≤ h.ninstr) && decide (h.ninstr ≤ 16384) && decide (h.ne ≤ 1024) && decide (h.nn ≤ 256)
    && decide (h.nch ≤ 32) && decide (h.codeLen ≤ 65536) && decide (h.dataLen + h.bssLen ≤ 32768)
    && decide (b.length = l.fin ∨ b.length = al4 l.fin) && (crc32c (b.take 0x3C ++ zeros 4 ++ b.drop 0x40)).toNat == fld b 0x3C 4

/-- Reserved fields of the section entries are 0 (R220). -/
def imgResvOk (b : Bytes) : Bool :=
  let h := imgHead b
  let l := h.layout
  let zero (i w n j k : Nat) : Bool := (List.range n).all fun x => fld b (i + w * x + j) k == 0
  zero l.timers 8 h.nt 3 1 && zero l.counters 12 h.nc 2 2 && zero l.edges 8 h.ne 2 2 && zero l.natives 16 h.nn 12 4
    && (List.range (h.nw + h.nr)).all fun x => decide (fld b (l.wset + 8 * x) 4 < 2 ^ 26)

/-- The image that octets spell, none when the header or a section is malformed (R210, R220). -/
def imgParse (b : Bytes) : Option Image :=
  let h := imgHead b
  let l := h.layout
  let run (r : Bytes) : BitRun := ⟨fld r 0 4 / 2 ^ 22 % 16, fld r 0 4 % 2 ^ 22, fld r 4 4⟩
  if imgHeadOk b && imgResvOk b then
    some {
      id := h.id
      prog := rowsAt b l.prog 4 h.ninstr fun r => instrOf (unle r)
      timers := rowsAt b l.timers 8 h.nt fun r => ⟨fld r 0 2, fld r 2 1, fld r 4 4⟩
      counters := rowsAt b l.counters 12 h.nc fun r => ⟨fld r 0 2, fld r 4 4, fld r 8 4⟩
      edges := rowsAt b l.edges 8 h.ne fun r => ⟨fld r 0 2, fld r 4 4⟩
      wset := rowsAt b l.wset 8 h.nw run
      rset := rowsAt b l.rset 8 h.nr run
      chans := rowsAt b l.chans 2 h.nch fun r => unle r
      natives := rowsAt b l.natives 16 h.nn fun r => ⟨fld r 0 4, fld r 4 4, fld r 8 4⟩
      code := slice b l.code h.codeLen
      data := slice b l.data h.dataLen
      bss := h.bssLen }
  else none

/-! ### Checks -/

/-- What an opcode takes: 0 nothing, 1 a readable operand, 2 a write operand, 3 a jump target, 4 a native block, 5 a timer, 6 CTU or CTD, 7 CRST, 8 an edge operand (R208). -/
def opKind (op : Nat) : Option Nat :=
  match op with
  | 0x00 => some 0 | 0x0D => some 0 | 0x15 => some 0 | 0x1C => some 0 | 0x1D => some 0
  | 0x01 => some 1 | 0x02 => some 1 | 0x03 => some 1 | 0x04 => some 1 | 0x05 => some 1 | 0x06 => some 1 | 0x07 => some 1 | 0x08 => some 1
  | 0x10 => some 1 | 0x11 => some 1 | 0x12 => some 1 | 0x13 => some 1 | 0x14 => some 1
  | 0x09 => some 2 | 0x0A => some 2 | 0x0B => some 2 | 0x0C => some 2
  | 0x18 => some 3 | 0x19 => some 3 | 0x1A => some 3
  | 0x1B => some 4
  | 0x20 => some 5 | 0x21 => some 5 | 0x22 => some 5
  | 0x24 => some 6 | 0x25 => some 6
  | 0x26 => some 7
  | 0x28 => some 8 | 0x29 => some 8
  | _ => none

/-- Bracket openers push; ) pops. -/
def opOpens (op : Nat) : Bool := decide (0x10 ≤ op) && decide (op ≤ 0x14)

/-- The instruction's opcode, area and operand obey R207 to R209. -/
def instrOk (g : Image) (i : Nat) (x : BlInstr) : Bool :=
  match opKind x.op with
  | none => false
  | some 0 => x.area == 0 && x.opnd == 0
  | some 1 => operandOk x.area x.opnd
  | some 2 => (x.area == 1 || x.area == 2) && operandOk x.area x.opnd
  | some 3 => x.area == 0 && decide (i < x.opnd) && decide (x.opnd < g.prog.length)
  | some 4 => x.area == 0 && decide (x.opnd < g.natives.length)
  | some 5 => x.area == 6 && operandOk 6 x.opnd
  | some 6 => x.area == 7 && operandOk 7 x.opnd
  | some 7 => x.area == 7 && operandOk 7 x.opnd
  | some _ => (decide (x.area < 6) || x.area == 8) && operandOk x.area x.opnd

/-- An operand lies in a set of runs. -/
def inRuns (l : List BitRun) (area n : Nat) : Bool := l.any fun r => r.area == area && decide (r.first ≤ n) && decide (n < r.first + r.count)

/-- Instructions that run after instruction i (R208). -/
def instrNext (i : Nat) (x : BlInstr) : List Nat :=
  if x.op = 0x1D then [] else if x.op = 0x18 then [x.opnd] else if x.op = 0x19 ∨ x.op = 0x1A then [i + 1, x.opnd] else [i + 1]

/-- Bracket depths along every path, forward; answers the offending indices (R210). An index no path reaches has no depth. -/
def depthFaults (g : Image) : List Nat :=
  let step (acc : Table Nat × List Nat) (ix : Nat × BlInstr) : Table Nat × List Nat :=
    let (i, x) := ix
    match tget acc.1 i with
    | none => acc
    | some d =>
      if !instrOk g i x then acc
      else if (x.op = 0x15 ∧ d = 0) ∨ (opOpens x.op = true ∧ d ≥ 16) ∨ ((x.op = 0x1C ∨ x.op = 0x1D) ∧ d ≠ 0) then (acc.1, i :: acc.2)
      else
        let d' := if x.op = 0x15 then d - 1 else if opOpens x.op then d + 1 else d
        (instrNext i x).foldl (fun (a : Table Nat × List Nat) j =>
          match tget a.1 j with
          | none => (tset a.1 j d', a.2)
          | some e => if e = d' then a else (a.1, j :: a.2)) acc
  ((imap (fun i x => (i, x)) g.prog).foldl step ([(0, 0)], [])).2

/-- Faults of the instruction at i against the tables (R210). -/
def tableFault (g : Image) (i : Nat) (x : BlInstr) : Bool :=
  let earlier (k : Nat) : Bool := (g.prog.take i).any fun y => opKind y.op == some k && y.opnd == x.opnd
  match opKind x.op with
  | some 2 => !inRuns g.wset x.area x.opnd
  | some 5 => !(g.timers.any fun t => t.t == x.opnd && t.type + 0x20 == x.op) || earlier 5
  | some 6 => !(g.counters.any fun c => c.c == x.opnd) || earlier 6
  | some 7 => !(g.prog.any fun y => opKind y.op == some 6 && y.opnd == x.opnd)
  | some 8 => !(g.edges.any fun e => e.index == i)
  | _ => false

/-- Numbers without repeats. -/
def noRepeats : List Nat → Bool
  | [] => true
  | a :: r => !r.contains a && noRepeats r

/-- The tables themselves (R210, R216, R220). -/
def tablesOk (g : Image) : Bool :=
  let named (k n : Nat) : Bool := g.prog.any fun y => opKind y.op == some k && y.opnd == n
  let runOk (r : BitRun) : Bool := decide (r.area < 10) && decide (r.first + r.count ≤ areaTop r.area)
  noRepeats (g.timers.map TimerDef.t) && (g.timers.all fun t => decide (t.t < 4096) && decide (t.type < 3) && named 5 t.t)
    && noRepeats (g.counters.map CounterDef.c) && (g.counters.all fun c => decide (c.c < 4096) && named 6 c.c)
    && noRepeats (g.edges.map EdgeDef.id) && noRepeats (g.edges.map EdgeDef.index)
    && (g.edges.all fun e => decide (e.id < 1024) && (match g.prog[e.index]? with
        | some x => opKind x.op == some 8
        | none => false))
    && (g.wset.all fun r => (r.area == 1 || r.area == 2) && runOk r) && decide (nsum (g.wset.map BitRun.count) ≤ 4096)
    && (g.rset.all runOk) && decide (nsum (g.rset.map BitRun.count) ≤ 4096) && (g.chans.all fun c => decide (c ≤ 4119))
    && (g.natives.all fun n => decide (n.entry < g.code.length) && decide (256 ≤ n.stack) && decide (n.stack ≤ 8192) && n.stack % 16 == 0)

/-- The first offending instruction of an image, 0xFFFF_FFFF outside the program, none for an image that loads (R210). -/
def imgFault (g : Image) : Option Nat :=
  let n := g.prog.length
  let ended : List Nat := if (g.prog.getLastD ⟨0, 0, 0⟩).op = 0x1D then [] else [n - 1]
  let each := (imap (fun i x => (i, x)) g.prog).filterMap fun p =>
    if !instrOk g p.1 p.2 || (p.2.op == 0x1D && p.1 + 1 != n) || tableFault g p.1 p.2 then some p.1 else none
  let bad := each ++ ended ++ depthFaults g ++ (if tablesOk g then [] else [imgOut])
  bad.foldl (fun (m : Option Nat) x => match m with
    | none => some x
    | some y => some (min x y)) none

end Sys2Proof.Machine
end

