-- ==== Sys2Proof/Machine/Fixed.lean ====
section
/-! DEFINITION. Fixed-point numbers in units of 2^-64, with the functions that the elements need (log entry 15). -/

namespace Sys2Proof.Machine

/-- One, 2^64. -/
abbrev F1 : Int := 18446744073709551616

abbrev F1n : Nat := 18446744073709551616

/-- Constants: 2π, ln 2 and √2. -/
abbrev fTwoPi : Int := 115904311329233965478
abbrev fLn2 : Int := 12786308645202655660
abbrev fSqrt2 : Int := 26087635650665564425

def fmul (a b : Int) : Int := rdivEven (a * b) F1n

/-- a / b for b not 0. -/
def fdiv (a b : Int) : Int := if b < 0 then rdivEven (-(a * F1)) (-b).toNat else rdivEven (a * F1) b.toNat

/-- n / d. -/
def frat (n : Int) (d : Nat) : Int := rdivEven (n * F1) d

def fint (n : Int) : Int := n * F1

/-- The square root of a number that is not negative. -/
def fsqrt (a : Int) : Int := isqrt (a.toNat * F1n)

/-- A binary32 word as a fixed-point number. -/
def fword (w : Word) : Int := (val32 w).toIntScaled F1n

/-- A fixed-point number rounded to binary32; a result outside the range is a free value (log entry 12). -/
def wordF (a : Int) : Word := (enc32 (Flt64.scaled a (-64))).getD (Config.beyond [a])

/-- Sum of a series whose terms follow each other: step n t is the term after t. -/
def series (step : Nat → Int → Int) : Nat → Nat → Int → Int → Int
  | 0, _, _, acc => acc
  | fuel + 1, n, t, acc => series step fuel (n + 1) (step n t) (acc + t)

/-- e^x. -/
def fexp (x : Int) : Int :=
  let k := rdivEven x fLn2.toNat
  let r := x - k * fLn2
  let v := series (fun n t => rdivEven (fmul t r) (n + 1)) 24 0 F1 0
  if k ≥ 0 then v * 2 ^ k.toNat else rdivEven v (2 ^ (-k).toNat)

/-- Natural logarithm of a positive number. -/
def fln (x : Int) : Int :=
  if x ≤ 0 then 0
  else
    let e : Int := (x.toNat.log2 : Int) - 64
    let m := if e ≥ 0 then rdivEven x (2 ^ e.toNat) else x * 2 ^ (-e).toNat
    let z := fdiv (m - F1) (m + F1)
    let z2 := fmul z z
    let odd := (List.range 24).foldl (fun (a : Int × Int) i => (a.1 + rdivEven a.2 (2 * i + 1), fmul a.2 z2)) (0, z)
    2 * odd.1 + e * fLn2

/-- a^p for a > 0. -/
def fpow (a p : Int) : Int := fexp (fmul p (fln a))

/-- Cosine and sine of an angle in turns. -/
def fcosTurns (u : Int) : Int :=
  let f := u % F1
  let x := fmul (if f > F1 / 2 then f - F1 else f) fTwoPi
  series (fun n t => -(rdivEven (fmul t (fmul x x)) ((2 * n + 1) * (2 * n + 2)))) 24 0 F1 0

def fsinTurns (u : Int) : Int := fcosTurns (u - F1 / 4)

/-- atan t in turns, 0 ≤ t ≤ 1: the argument halved three times, then the series. -/
def fatanTurns (t : Int) : Int :=
  let half (t : Int) : Int := fdiv t (F1 + fsqrt (F1 + fmul t t))
  let z := half (half (half t))
  let z2 := fmul z z
  let s := (List.range 16).foldl (fun (a : Int × Int) i => (a.1 + (if i % 2 = 0 then 1 else -1) * rdivEven a.2 (2 * i + 1), fmul a.2 z2)) (0, z)
  fdiv (8 * s.1) fTwoPi

/-- Argument of a complex number in turns, in (−1/2, 1/2]; 0 for 0. -/
def fargTurns (re im : Int) : Int :=
  let a : Int := re.natAbs
  let b : Int := im.natAbs
  if a = 0 ∧ b = 0 then 0
  else
    let q := if b ≤ a then fatanTurns (fdiv b a) else F1 / 4 - fatanTurns (fdiv a b)
    let h := if re < 0 then F1 / 2 - q else q
    if im < 0 then -h else h

/-- An angle in turns brought into (−1/2, 1/2] (R152, R158). -/
def wrapTurns (u : Int) : Int := let f := u % F1; if f > F1 / 2 then f - F1 else f

/-- cos(2πi/32). -/
def cos32 (i : Nat) : Int :=
  let q : List Int := [18446744073709551616, 18092295058859852118, 17042569291174129989, 15337907143211554842, 13043817825332782212,
    10248461903483781989, 7059263338087549767, 3598781241489102189, 0]
  let k := i % 32
  if k ≤ 8 then q.getD k 0 else if k ≤ 16 then -(q.getD (16 - k) 0) else if k ≤ 24 then -(q.getD (k - 16) 0) else q.getD (32 - k) 0

def sin32 (i : Nat) : Int := cos32 (i + 24)

end Sys2Proof.Machine
end

