-- ==== Sys2Proof/Machine/Settings.lean ====
section
/-! DEFINITION. Settings of the element classes: their tables, steps and ranges (06_ac_protection.md R146, R154 to R165; 07_dc_trip_breaker.md R171 to R180). -/

namespace Sys2Proof.Machine

/-- What an entry of a settings table may hold. -/
inductive Setting where
  /-- lo / den to hi / den in steps of step / den; 0 as well with orZero -/
  | num (lo hi step : Int) (den : Nat) (orZero : Bool)
  /-- a Pedin BL operand under R171, or −1 -/
  | opnd
deriving DecidableEq, Repr

/-- Whole numbers from lo to hi. -/
def sInt (lo hi : Int) : Setting := .num lo hi 1 1 false
/-- Times and ratios in thousandths, hundredths, tenths. -/
def sMilli (lo hi : Int) : Setting := .num lo hi 1 1000 false
def sCenti (lo hi : Int) : Setting := .num lo hi 1 100 false
def sDeci (lo hi : Int) : Setting := .num lo hi 1 10 false
/-- Times in 0.1 ms. -/
def sTenK (lo hi : Int) : Setting := .num lo hi 1 10000 false

abbrev clsPIOC : Nat := 0x01
abbrev clsPTOC : Nat := 0x02
abbrev clsRDIR : Nat := 0x03
abbrev clsPDIS : Nat := 0x04
abbrev clsPHAR : Nat := 0x05
abbrev clsPTTR : Nat := 0x06
abbrev clsPTUV : Nat := 0x07
abbrev clsPTOV : Nat := 0x08
abbrev clsPTUF : Nat := 0x09
abbrev clsPTOF : Nat := 0x0A
abbrev clsPFRC : Nat := 0x0B
abbrev clsPDDT : Nat := 0x10
abbrev clsPDSI : Nat := 0x11
abbrev clsPDLT : Nat := 0x12
abbrev clsRBRF : Nat := 0x13
abbrev clsRREC : Nat := 0x14
abbrev clsPTRC : Nat := 0x15

/-- A class of R144. -/
def clsKnown (c : Nat) : Bool := (decide (1 ≤ c) && decide (c ≤ 0x0B)) || (decide (0x10 ≤ c) && decide (c ≤ 0x15))

/-- AC classes, and the classes of a zone with FNOM 3 alone (R141, R170). -/
def clsAc (c : Nat) : Bool := decide (1 ≤ c) && decide (c ≤ 0x0B)
def clsDc (c : Nat) : Bool := decide (0x10 ≤ c) && decide (c ≤ 0x12)

/-- Classes that use the frequency of FREF (R153). -/
def clsFreq (c : Nat) : Bool := decide (9 ≤ c) && decide (c ≤ 0x0B)

/-- Measurands a class requires: IMEAS, VMEAS (R145). -/
def clsNeeds (c : Nat) : Bool × Bool :=
  (c == clsPIOC || c == clsPTOC || c == clsRDIR || c == clsPDIS || c == clsPHAR || c == clsPTTR || clsDc c || c == clsRBRF,
   c == clsRDIR || c == clsPDIS || c == clsPTUV || c == clsPTOV || c == clsPDLT)

/-- The settings table of a class, in the order P0 and up. -/
def clsTable (c : Nat) : List Setting :=
  match c with
  | 0x01 => [sInt 10 100000, sInt 0 1, sDeci 12 40, sInt 1 4096]
  | 0x02 => [sInt 10 50000, sInt 0 8, sCenti 1 1000, sMilli 0 300000, .num 10 2000000 1 10000 true, sTenK 0 100000,
      .num 100 50000 1 10000 true, sTenK 0 2000000, sInt 0 2, sMilli 0 60000, sMilli 0 10000]
  | 0x03 => [sInt 0 90, sInt 30 90, sInt 1 10000, sCenti 1 50, sMilli 0 1000, sInt 0 1]
  | 0x04 => [sCenti 1 50000, sCenti 1 50000, sInt 30 89, sInt 0 2, sMilli 0 10000, sInt 1 10000, .num 10 100000 1 100 true,
      .num 10 100000 1 100 true, sInt 5 60, .num 50 100 1 100 true]
  | 0x05 => [sCenti 5 50, sInt 1 10000, sInt 100 100000, sMilli 0 200, sMilli 0 200, .num 100 10000 1 1000 true]
  | 0x06 => [sInt 1 10000, sCenti 100 150, sInt 60 36000, sInt 60 108000, sCenti 50 100, sCenti 30 99, sCenti 0 100]
  | 0x07 => [.num 100 80000 10 1 false, sMilli 0 60000, sCenti 101 110, sInt 0 1, .num 0 40000 10 1 false]
  | 0x08 => [.num 100 80000 10 1 false, sMilli 0 60000, sCenti 90 99, sInt 0 1, sInt 0 0]
  | 0x09 => [sCenti 1500 6600, sMilli 0 60000, sCenti 1 50, sInt 1 10, sCenti 10 90]
  | 0x0A => [sCenti 1500 6600, sMilli 0 60000, sCenti 1 50, sInt 1 10, sCenti 10 90]
  | 0x0B => [sCenti 5 1000, sInt 0 2, sInt 2 20, sMilli 0 60000, sCenti 10 90]
  | 0x10 => [.num 1000 5000000 100 1 false, sTenK 1 100, sInt 0 2, sTenK 0 10000, sCenti 50 95]
  | 0x11 => [.num 1000 5000000 100 1 false, sTenK 1 100, sInt 50 50000, sMilli 1 1000, sInt 0 2, sTenK 0 10000, sCenti 10 90, sMilli 1 100]
  | 0x12 => [sCenti 10 10000, sMilli 50 2000, sMilli 10 1000, sMilli 100 5000, sDeci 1 1000, sInt 10 2000, .opnd]
  | 0x13 => [sInt 5 20000, sMilli 0 500, sMilli 50 1000, sInt (-1) 15, .opnd, sInt 0 1, sInt 0 15]
  | 0x14 => [sInt 1 4, sCenti 10 30000, sCenti 10 30000, sCenti 10 30000, sCenti 10 30000, sInt 1 600, sMilli 50 1000, sInt 0 15, sInt 0 15,
      sInt (-1) 2047, sCenti 5 500]
  | 0x15 => [.opnd, .opnd, .opnd, .opnd, .opnd, .opnd, .opnd, .opnd, sMilli 0 1000]
  | _ => []

/-- n / d as the nearest binary32. -/
def ratWord (n : Int) (d : Nat) : Word := (enc32 (Flt64.ofRat (decide (n < 0)) n.natAbs d)).getD 0#32

/-- A number × n / d, rounded half to even. -/
def Flt64.timesRat (a : Flt64) (n d : Nat) : Int :=
  let v : Int := (if a.neg then -(a.mag * n : Nat) else (a.mag * n : Nat) : Int)
  if a.exp ≥ 0 then rdivEven (v * 2 ^ a.exp.toNat) d else rdivEven v (d * 2 ^ (-a.exp).toNat)

/-- A whole number held in a setting. -/
def setInt (w : Word) : Int := (val32 w).toIntScaled 1

/-- A number is whole. -/
def wholeWord (w : Word) : Bool :=
  let a := val32 w
  decide (a.exp ≥ 0) || a.mag % 2 ^ (-a.exp).toNat == 0

/-- Area and operand of an operand setting, none for −1 (R171). -/
def opndSetting (w : Word) : Option (Nat × Nat) :=
  let v := setInt w
  if v < 0 then none else some (v.toNat / 1048576, v.toNat % 1048576)

/-- An operand setting is −1 or names an operand (R171). -/
def opndSettingOk (w : Word) : Bool :=
  finite32 w && wholeWord w && (match opndSetting w with
    | some (a, n) => operandOk a n
    | none => setInt w == -1)

/-- A setting as stored: none outside its range (R146). A limit is taken as its nearest binary32. -/
def storeSetting (k : Setting) (w : Word) : Option Word :=
  match k with
  | .opnd => if opndSettingOk w then some w else none
  | .num lo hi step den orZero =>
    match dec32 w with
    | none => none
    | some a =>
      if orZero && a.isZero then some 0#32
      else if a.lt (val32 (ratWord lo den)) || (val32 (ratWord hi den)).lt a then none
      else some (ratWord (a.timesRat den step.toNat * step) den)

/-- A settings vector as stored: entries that the class does not use must be 0 (R146). -/
def storeVector (c : Nat) (v : List Word) : Option (List Word) :=
  let ks := clsTable c
  let xs := imap (fun i w => match ks[i]? with
    | some k => storeSetting k w
    | none => if nonzero32 w then none else some 0#32) v
  if v.length = 16 ∧ xs.all Option.isSome then some (xs.filterMap id) else none

/-- Setting P of a vector. -/
def pOf (v : List Word) (i : Nat) : Word := v.getD i 0#32

/-- Setting P as a fixed-point number, and as a whole number. -/
def pF (v : List Word) (i : Nat) : Int := fword (pOf v i)
def pN (v : List Word) (i : Nat) : Nat := (setInt (pOf v i)).toNat

/-- Indices that a time takes at a rate: ceil(t / Ts) from the stored value (R151). -/
def indicesOf (rate : Nat) (w : Word) : Nat :=
  let a := val32 w
  if a.exp ≥ 0 then a.mag * 2 ^ a.exp.toNat * rate else cdiv (a.mag * rate) (2 ^ (-a.exp).toNat)

/-- Whole indices within a time at a rate: floor(t / Ts) from the stored value. -/
def indicesWithin (rate : Nat) (w : Word) : Nat :=
  let a := val32 w
  if a.exp ≥ 0 then a.mag * 2 ^ a.exp.toNat * rate else a.mag * rate / 2 ^ (-a.exp).toNat

/-- Tracking range of FNOM in fixed point (R152). -/
def trackRange : Nat → Int × Int
  | 0 => (fint 15, fint 18)
  | 1 => (fint 45, fint 55)
  | 2 => (fint 54, fint 66)
  | _ => (0, 0)

/-- Nominal frequency of FNOM (R139). -/
def fNom : Nat → Int
  | 0 => frat 167 10
  | 1 => fint 50
  | 2 => fint 60
  | _ => 0

/-- Tracking range of FNOM in Hz (R152). -/
def trackHz : Nat → Int × Int
  | 0 => (15, 18)
  | 1 => (45, 55)
  | 2 => (54, 66)
  | _ => (0, 0)

/-- F_SET as the command gives it lies in the tracking range: a setting outside its range is refused before it is rounded (R146, R164). -/
def fsetGiven (c fnom : Nat) (v : List Word) : Bool :=
  !(c == clsPTUF || c == clsPTOF) || (match dec32 (pOf v 0) with
    | some a => !(a.lt (val32 (ratWord (trackHz fnom).1 1))) && !((val32 (ratWord (trackHz fnom).2 1)).lt a)
    | none => false)

/-- A vector is one that its class accepts beyond its table (R157, R164). -/
def vectorOk (c fnom : Nat) (v : List Word) : Bool :=
  if c = clsPTOC then
    let curve := pN v 1
    let reset := pN v 8
    !(reset == 2 && (decide (curve ≤ 4) || (curve == 8 && !nonzero32 (pOf v 7)))) && !(curve == 8 && (!nonzero32 (pOf v 4) || !nonzero32 (pOf v 6)))
  else if c = clsPTUF ∨ c = clsPTOF then decide ((trackRange fnom).1 ≤ pF v 0) && decide (pF v 0 ≤ (trackRange fnom).2)
  else true

end Sys2Proof.Machine
end

