-- ==== Sys2Proof/Machine/Estimate.lean ====
section
/-! DEFINITION. Measurands, estimators and the frequency tracker of a zone (06_ac_protection.md R140, R149 to R153). -/

namespace Sys2Proof.Machine

/-- No measurand. -/
def Measurand.none' (m : Measurand) : Bool := m.slot1 == 0xFF

/-- A measurand with what does not count set apart: SLOT2 of COMB 0 (R140). -/
def Measurand.norm (m : Measurand) : Measurand := if m.comb = 0 then { m with slot2 := 0xFF } else m

/-- Lists without repeats, first entries kept. -/
def distinct (l : List Measurand) : List Measurand := l.foldl (fun acc m => if acc.contains m then acc else acc ++ [m]) []

/-- The distinct measurands of a zone: FREF and those of its instances (R140). -/
def measurandsOf (z : ZoneDef) (insts : List ElemDef) : List Measurand :=
  distinct (((z.fref :: insts.flatMap fun i => [i.imeas, i.vmeas]).filter fun m => !m.none').map Measurand.norm)

/-- The sample of a measurand from its slot values (R140). -/
def combine (m : Measurand) (x : Nat → Int × Cond) : Int × Cond :=
  let (a, ca) := x m.slot1
  let (b, cb) := x m.slot2
  match m.comb with
  | 0 => (a, ca)
  | 1 => (a - b, ca.worse cb)
  | 2 => (rdivEven (a - b) 2, ca.worse cb)
  | _ => (a + b, ca.worse cb)

/-- Depth of a measurand's history: 2 cycles at the lowest tracked frequency, and in a DC zone the longest span (R150, R171). -/
def histDepth (fnom rate : Nat) : Nat :=
  match fnom with
  | 0 => 2 * rate / 15 + 3
  | 1 => 2 * rate / 45 + 3
  | 2 => 2 * rate / 54 + 3
  | _ => rate / 100 + 3

/-- Estimator kinds (R149). -/
inductive Est where
  | fc
  | hc
  | h2
  | rms
deriving DecidableEq, Repr

/-- First point an estimator uses (R149). -/
def Est.first : Est → Nat
  | .hc => 16
  | _ => 0

/-- Indices back of point i, as quotient and remainder over the denominator (R149). -/
def pointBack (rate : Nat) (ftr : Int) (i : Nat) : Nat × Int × Nat :=
  let n : Int := ((31 - i : Nat) : Int) * rate * F1
  let d := (32 * ftr).toNat
  ((n / d).toNat, n % d, d)

/-- Point i: linear interpolation between the two indices that bracket it (R149). -/
def MeasHist.point (h : MeasHist) (rate : Nat) (ftr : Int) (i : Nat) : Int :=
  let (q, r, d) := pointBack rate ftr i
  let at' (k : Nat) : Int := (h.xs[k]?.map MeasSample.x).getD 0
  if r = 0 then at' q else at' q + rdivEven ((at' (q + 1) - at' q) * r) d

/-- Indices back that an estimator's window reaches. -/
def estBack (rate : Nat) (ftr : Int) (e : Est) : Nat :=
  let (q, r, _) := pointBack rate ftr e.first
  if r = 0 then q else q + 1

/-- Indices for which a BLOCK is carried forward: those within one window length, a cycle or for HC half a cycle, and the window's own (R150). -/
def carryBack (rate : Nat) (ftr : Int) (e : Est) : Nat :=
  max (estBack rate ftr e) (rate * F1 / (max 1 ftr.toNat * (if e = .hc then 2 else 1)) : Int).toNat

/-- Condition of a window that reaches n indices back, a BLOCK being carried forward for m indices (R150, R172). -/
def MeasHist.condBack (h : MeasHist) (resumeK n m : Nat) : Cond :=
  match h.xs.head? with
  | none => .block
  | some x =>
    if x.k < resumeK + n ∨ h.xs.length ≤ n then .block
    else if (h.xs.take (m + 1)).any fun y => y.cond == .block then .block
    else if x.cond = .hold then .hold else .use

/-- Phasor of an estimator (R149). -/
def MeasHist.phasor (h : MeasHist) (rate : Nat) (ftr : Int) (e : Est) : Cx :=
  let m := if e = .h2 then 2 else 1
  let k := if e = .hc then 2 else 1
  let idx := (List.range 32).drop e.first
  let sum (f : Nat → Int) : Int := idx.foldl (fun a i => a + h.point rate ftr i * f (m * i)) 0
  let sc (v : Int) : Int := rdivEven (k * fSqrt2 * v) (32 * F1n * F1n)
  ⟨sc (sum cos32), sc (-(sum sin32))⟩

/-- Magnitude of a phasor. -/
def Cx.abs (c : Cx) : Int := isqrt (c.re.natAbs * c.re.natAbs + c.im.natAbs * c.im.natAbs)

/-- Product with the conjugate of b. -/
def Cx.mulConj (a b : Cx) : Cx := ⟨fmul a.re b.re + fmul a.im b.im, fmul a.im b.re - fmul a.re b.im⟩

/-- Argument of a / b in turns. -/
def Cx.argFrom (a b : Cx) : Int := fargTurns (a.re * b.re + a.im * b.im) (a.im * b.re - a.re * b.im)

/-- True RMS (R149). -/
def MeasHist.rms (h : MeasHist) (rate : Nat) (ftr : Int) : Int :=
  let s := (List.range 32).foldl (fun a i => let x := h.point rate ftr i; a + x * x) 0
  isqrt (s.toNat / 32)

/-- History of a measurand in a zone. -/
def Zone.hist (z : Zone) (m : Measurand) : MeasHist := (z.hists.find? fun h => h.m == m.norm).getD ⟨m.norm, [], []⟩

/-- Appends the samples of index k, and the FC phasors in an AC zone (R142 step 3). -/
def Zone.append (z : Zone) (ms : List Measurand) (k : Nat) (x : Nat → Int × Cond) : Zone :=
  let rate := rateHz z.cfg.rate
  let depth := histDepth z.cfg.fnom rate
  let one (m : Measurand) : MeasHist :=
    let h := z.hist m
    let (v, c) := combine m x
    let h := { h with xs := (⟨k, v, c⟩ :: h.xs).take depth }
    if z.cfg.fnom = 3 then h else { h with fc := (h.phasor rate z.ftr .fc :: h.fc).take depth }
  { z with hists := ms.map one }

/-- Indices of one nominal cycle (R152). -/
def cycleN (fnom rate : Nat) : Nat := (rdivEven (rate * F1) (max 1 (fNom fnom).toNat)).toNat

/-- f_avg(K − back, n): the mean of f_meas over n × Nn indices, none where one was frozen (R152). -/
def Zone.fAvg (z : Zone) (back n : Nat) : Option Int :=
  let nn := cycleN z.cfg.fnom (rateHz z.cfg.rate)
  let l := (z.fmeas.drop back).take (n * nn)
  if l.length = n * nn ∧ l.all Option.isSome then some (rdivEven ((l.filterMap id).foldl (· + ·) 0) (n * nn)) else none

/-- State of the tracker (R153). -/
def Zone.trackCode (z : Zone) (frozen : Bool) : Nat :=
  if frozen then 1 else if z.ftr = (trackRange z.cfg.fnom).1 ∨ z.ftr = (trackRange z.cfg.fnom).2 then 2 else 0

/-- The tracker takes index k (R152, R153). -/
def Zone.track (z : Zone) (k : Nat) : Zone :=
  if z.cfg.fref.none' || z.cfg.fnom == 3 then z
  else
    let rate := rateHz z.cfg.rate
    let nn := cycleN z.cfg.fnom rate
    let h := z.hist z.cfg.fref
    let x := h.fc.headD ⟨0, 0⟩
    let lim := frat (if z.cfg.fkind = 0 then z.cfg.vnom else z.cfg.inom) 10
    let cause := h.condBack z.resumeK (estBack rate z.ftr .fc) (carryBack rate z.ftr .fc) != .use || decide (x.abs < lim)
    let old := z.frefFc[nn - 1]?
    let left := if cause then nn else z.frozenLeft - 1
    let frozen := cause || decide (z.frozenLeft > 0)
    let f : Option Int := match old with
      | some o => if frozen then none else
          some (z.ftr + rdivEven (wrapTurns (x.argFrom o - rdivEven (z.ftr * nn) rate) * rate) nn)
      | none => none
    let frozen := frozen || f.isNone
    let z := { z with fmeas := (f :: z.fmeas).take (21 * nn), frefFc := (x :: z.frefFc).take nn, frozenLeft := left }
    let (lo, hi) := trackRange z.cfg.fnom
    let z := if k % nn = 0 then
        match z.fAvg 0 1 with
        | some a => { z with ftr := clampI lo hi (z.ftr + rdivEven (a - z.ftr) 2) }
        | none => z
      else z
    { z with trackSt := z.trackCode frozen }

/-- f_tr at the start of a zone (R152). -/
def fStart (fnom : Nat) : Int := fNom fnom

end Sys2Proof.Machine
end

