-- ==== Sys2Proof/Machine/Elements.lean ====
section
/-! DEFINITION. The element classes at one index (06_ac_protection.md R147 to R165; 07_dc_trip_breaker.md R171 to R180). -/

namespace Sys2Proof.Machine

/-- What an instance reads at index k: the state, its zone with the samples of k, and the zone's ownership. -/
structure ElemCtx where
  s : State
  z : Zone
  k : Nat
  owned : Bool

def ElemCtx.rate (c : ElemCtx) : Nat := rateHz c.z.cfg.rate
def ElemCtx.dc (c : ElemCtx) : Bool := c.z.cfg.fnom == 3

/-- f_tr with which the estimators of k were formed; the tracker has moved on already. -/
def ElemCtx.ph (c : ElemCtx) (ftr : Int) (m : Measurand) (e : Est) : Cx :=
  match e with
  | .fc => (c.z.hist m).fc.headD ⟨0, 0⟩
  | _ => (c.z.hist m).phasor c.rate ftr e

def ElemCtx.cond (c : ElemCtx) (ftr : Int) (m : Measurand) (e : Est) : Cond :=
  if m.none' then .use else (c.z.hist m).condBack c.z.resumeK (estBack c.rate ftr e) (carryBack c.rate ftr e)

/-- Condition of a window of K − n to K, a BLOCK being carried forward for m indices (R172). -/
def ElemCtx.condBack (c : ElemCtx) (m : Measurand) (n carry : Nat) : Cond :=
  if m.none' then .use else (c.z.hist m).condBack c.z.resumeK n carry

/-- x(K − back) (R171). -/
def ElemCtx.x (c : ElemCtx) (m : Measurand) (back : Nat) : Int := ((c.z.hist m).xs[back]?.map MeasSample.x).getD 0

/-- An operand setting reads 1. -/
def ElemCtx.opnd (c : ElemCtx) (w : Word) : Bool :=
  match opndSetting w with
  | some (a, n) => operandBit c.s a n
  | none => false

def ElemCtx.bi (c : ElemCtx) (w : Word) : Bool := (biOf c.s (setInt w).toNat).val

/-- Indices of a time setting. -/
def ElemCtx.n (c : ElemCtx) (v : List Word) (p : Nat) : Nat := indicesOf c.rate (pOf v p)

/-- One index more, from 0 (R151). -/
def tick (t : Option Nat) : Option Nat :=
  match t with
  | some n => some (n + 1)
  | none => some 0

def reached (t : Option Nat) (n : Nat) : Bool :=
  match t with
  | some x => decide (n ≤ x)
  | none => false

/-- a < k × b with k = n / d. -/
def below (a : Int) (n d : Nat) (b : Int) : Bool := decide (a * d < b * n)

/-- START by a hysteresis: sets, else clears, else stays. -/
def latch (old sets clears : Bool) : Bool := if old then !clears else sets

/-- OPERATE after START through the delay timer (R151). -/
def delayed (td : Nat) (es : ElemState) : ElemState :=
  let t := if es.st then tick es.timer else none
  { es with timer := t, op := reached t td }

/-! ### AC classes -/

/-- PIOC (R154). -/
def stepPioc (c : ElemCtx) (ftr : Int) (i : Inst) (v : List Word) (es : ElemState) : ElemState :=
  let x := (c.ph ftr i.cfg.imeas (if pN v 1 = 1 then .fc else .hc)).abs
  let st := latch es.st (decide (pF v 0 ≤ x)) (below x 95 100 (pF v 0))
  { es with st := st, op := st }

/-- A, B, p and TR of a curve (R156). -/
def curve (v : List Word) : Int × Int × Int × Int :=
  let f (a b p t : Int) : Int × Int × Int × Int := (frat a 10000, frat b 10000, frat p 10000, frat t 10000)
  match pN v 1 with
  | 1 => f 1400 0 200 0
  | 2 => f 135000 0 10000 0
  | 3 => f 800000 0 20000 0
  | 4 => f 1200000 0 10000 0
  | 5 => f 515 1140 200 48500
  | 6 => f 196100 4910 20000 216000
  | 7 => f 282000 1217 20000 291000
  | 8 => (pF v 4, pF v 5, pF v 6, pF v 7)
  | _ => (0, 0, 0, 0)

/-- Ts / t(G) (R156, R157). -/
def psiRise (rate : Nat) (v : List Word) (g : Int) : Int :=
  let (a, b, p, _) := curve v
  let d := fpow g p - F1
  if d ≤ 0 then 0
  else
    let t := fmul (pF v 2) (fdiv a d + b)
    if t ≤ 0 then F1 else rdivEven (fdiv F1 t) rate

/-- Ts / tr(G) (R157). -/
def psiFall (rate : Nat) (v : List Word) (g : Int) : Int :=
  let (_, _, _, tr) := curve v
  let t := fmul (pF v 2) tr
  if t ≤ 0 then F1 else rdivEven (fdiv (F1 - fmul g g) t) rate

/-- PTOC (R156, R157). -/
def stepPtoc (c : ElemCtx) (ftr : Int) (i : Inst) (v : List Word) (es : ElemState) : ElemState :=
  let x := (c.ph ftr i.cfg.imeas .fc).abs
  let st := latch es.st (decide (pF v 0 ≤ x)) (below x 95 100 (pF v 0))
  let g := min (fdiv x (pF v 0)) (20 * F1)
  let dt := pN v 1 = 0
  let reset := pN v 8
  let es := { es with st := st, sinceStart := if st then tick es.sinceStart else none, sinceClear := if st then none else tick es.sinceClear }
  let es :=
    if st then
      { es with psi := if dt || decide (g < F1) then es.psi else es.psi + psiRise c.rate v g
                timer := if dt then tick es.timer else none }
    else if reset = 1 then (if reached es.sinceClear (c.n v 9) then { es with psi := 0, timer := none } else es)
    else if reset = 2 then { es with psi := max 0 (es.psi - psiFall c.rate v g) }
    else { es with psi := 0, timer := none }
  let op := if dt then st && reached es.timer (c.n v 3) else st && decide (F1 ≤ es.psi) && reached es.sinceStart (c.n v 10)
  { es with op := op }

/-- Degrees in turns. -/
def degTurns (d : Int) : Int := rdivEven d 360

/-- Two cycles at f_tr, in indices. -/
def twoCycles (rate : Nat) (ftr : Int) : Nat := (rdivEven (2 * rate * F1) (max 1 ftr.toNat)).toNat

/-- The polarising voltage: |V| at or above its limit, else the memory for MEM_T (R158). -/
def polarise (c : ElemCtx) (ftr : Int) (vm : Measurand) (vmin : Int) (memN : Nat) (d : DirState) : Option Cx × DirState :=
  let vs := (c.z.hist vm).fc
  let x := vs.headD ⟨0, 0⟩
  if vmin ≤ x.abs then (some x, { d with okRun := d.okRun + 1, mem := none })
  else
    let n2 := twoCycles c.rate ftr
    let d := if d.okRun ≥ n2 ∧ d.mem.isNone then { d with mem := (vs[n2]?).map fun p => (p, c.k - n2, c.k) } else d
    let d := { d with okRun := 0 }
    match d.mem with
    | none => (none, d)
    | some (p, k0, k1) =>
      if c.k - k1 > memN then (none, { d with mem := none })
      else
        let u := rdivEven (ftr * (c.k - k0 : Nat)) c.rate
        (some ⟨fmul p.re (fcosTurns u) - fmul p.im (fsinTurns u), fmul p.re (fsinTurns u) + fmul p.im (fcosTurns u)⟩, d)

/-- FWD and REV (R158); angles in turns. -/
def direction (c : ElemCtx) (ftr : Int) (i : Inst) (mta sector imin vmin : Int) (memN : Nat) (d : DirState) : DirState :=
  let (vp, d) := polarise c ftr i.cfg.vmeas vmin memN d
  let x := c.ph ftr i.cfg.imeas .fc
  match vp with
  | none => { d with fwd := false, rev := false }
  | some p =>
    if x.abs < imin ∨ x.abs = 0 ∨ p.abs = 0 then { d with fwd := false, rev := false }
    else
      let δ := wrapTurns (x.argFrom p + mta)
      let a : Int := δ.natAbs
      let b : Int := (wrapTurns (δ - F1 / 2)).natAbs
      let out := sector + degTurns (fint 2)
      { d with fwd := decide (a ≤ sector) || (d.fwd && decide (a ≤ out)), rev := decide (b ≤ sector) || (d.rev && decide (b ≤ out)) }

/-- RDIR (R158). -/
def stepRdir (c : ElemCtx) (ftr : Int) (i : Inst) (v : List Word) (es : ElemState) : ElemState :=
  let d := direction c ftr i (degTurns (pF v 0)) (degTurns (pF v 1)) (pF v 2) (pF v 3 * c.z.cfg.vnom) (indicesWithin c.rate (pOf v 4)) es.dir
  let st := if pN v 5 = 1 then d.rev else d.fwd
  { es with dir := d, aux1 := d.fwd, aux2 := d.rev, st := st, op := st }

/-- Z lies inside the characteristic of PDIS for a reach factor s (R159). -/
def insidePdis (v : List Word) (d : DirState) (volt cur : Cx) (s : Int) : Bool :=
  let mag2 := fmul cur.re cur.re + fmul cur.im cur.im
  if cur.abs < pF v 5 ∨ mag2 = 0 then false
  else
    let q := volt.mulConj cur
    let r := fdiv q.re mag2
    let x := fdiv q.im mag2
    let ang := degTurns (pF v 2)
    let cot := fdiv (fcosTurns ang) (fsinTurns ang)
    let xr := fmul s (pF v 0)
    let rr := fmul s (pF v 1)
    let quad (r x : Int) : Bool := decide (x ≤ xr) && decide (-xr ≤ 10 * x) && decide (r ≤ rr + fmul x cot) && decide (10 * (fmul x cot) - rr ≤ 10 * r)
    let lb := degTurns (pF v 8)
    let load (lim r x : Int) : Bool := decide (0 < lim) && decide (lim < r) && decide (((fargTurns r x).natAbs : Int) < lb)
    let shape := match pN v 3 with
      | 0 => quad r x && d.fwd
      | 1 => quad (-r) (-x) && d.rev
      | _ => quad r x || quad (-r) (-x)
    shape && !load (pF v 6) r x && !load (pF v 7) (-r) (-x)

/-- PDIS (R159, R160). -/
def stepPdis (c : ElemCtx) (ftr : Int) (i : Inst) (v : List Word) (es : ElemState) : ElemState :=
  let d := direction c ftr i (degTurns (pF v 2)) (F1 / 4) (pF v 5) (frat c.z.cfg.vnom 20) (c.rate / 2) es.dir
  let fc (s : Int) : Bool := insidePdis v d (c.ph ftr i.cfg.vmeas .fc) (c.ph ftr i.cfg.imeas .fc) s
  let hc := nonzero32 (pOf v 9) && insidePdis v d (c.ph ftr i.cfg.vmeas .hc) (c.ph ftr i.cfg.imeas .hc) (pF v 9)
  let run := if fc F1 || hc then es.insideRun + 1 else 0
  let st := latch es.st (decide (run ≥ 2)) (!fc (frat 105 100) && !hc)
  delayed (c.n v 4) { es with dir := d, insideRun := run, aux1 := hc, st := st }

/-- PHAR (R161). -/
def stepPhar (c : ElemCtx) (ftr : Int) (i : Inst) (v : List Word) (es : ElemState) : ElemState :=
  let x := (c.ph ftr i.cfg.imeas .fc).abs
  let x2 := (c.ph ftr i.cfg.imeas .h2).abs
  let hc := (c.ph ftr i.cfg.imeas .hc).abs
  let low := decide (hc < pF v 1)
  let energ := if es.hcLow && !low then some 0 else es.energ.map (· + 1)
  let h := if x = 0 then 0 else fdiv x2 x
  let h2 := if pF v 0 ≤ h then true else if below h 9 10 (pF v 0) then false else es.h2On
  let within := match energ with
    | some a => decide (a < c.n v 3)
    | none => false
  let raw := decide (pF v 1 ≤ x) && decide (x < pF v 2) && (h2 || within)
  let off := if raw then none else tick es.rawOff
  let absent := reached off (c.n v 4)
  let barred := es.barred && !absent
  let op := !barred && (raw || (es.op && !absent))
  let on := if op then tick (if es.op then es.onRun else none) else none
  let above := nonzero32 (pOf v 5) && reached on (c.n v 5)
  { es with energ := energ, hcLow := low, h2On := h2, rawOff := off, st := raw
            op := op && !above, onRun := if above then none else on, barred := barred || above }

/-- PTTR: θ moves towards θ_eq (R162). -/
def stepTheta (c : ElemCtx) (v : List Word) (es : ElemState) : ElemState :=
  let tau := if es.cold then pF v 3 else pF v 2
  let e := fexp (-(fdiv F1 (tau * c.rate)))
  let th := es.thetaEq + fmul (es.theta - es.thetaEq) e
  let al := latch es.aux1 (decide (pF v 4 ≤ th)) (decide (th < pF v 4 - frat 2 100))
  { es with theta := th, aux1 := al }

/-- PTTR in USE (R162). -/
def stepPttr (c : ElemCtx) (ftr : Int) (i : Inst) (v : List Word) (es : ElemState) : ElemState :=
  let x := (c.z.hist i.cfg.imeas).rms c.rate ftr
  let q := fdiv x (fmul (pF v 1) (pF v 0))
  let es := stepTheta c v { es with thetaEq := fmul q q, cold := below x 5 100 (pF v 0) }
  { es with st := es.aux1, op := latch es.op (decide (F1 ≤ es.theta)) (decide (es.theta < pF v 5)) }

/-- PTUV (R163). -/
def stepPtuv (c : ElemCtx) (ftr : Int) (i : Inst) (v : List Word) (es : ElemState) : ElemState :=
  let x := (c.ph ftr i.cfg.vmeas (if pN v 3 = 1 then .fc else .hc)).abs
  let st := latch es.st (decide (x ≤ pF v 0) && decide (pF v 4 ≤ x)) (decide (fmul (pF v 2) (pF v 0) < x) || decide (x < pF v 4))
  delayed (c.n v 1) { es with st := st }

/-- PTOV (R163). -/
def stepPtov (c : ElemCtx) (ftr : Int) (i : Inst) (v : List Word) (es : ElemState) : ElemState :=
  let x := (c.ph ftr i.cfg.vmeas (if pN v 3 = 1 then .fc else .hc)).abs
  delayed (c.n v 1) { es with st := latch es.st (decide (pF v 0 ≤ x)) (decide (x < fmul (pF v 2) (pF v 0))) }

/-- |X| of FREF is below V_MIN × VNOM (R164). -/
def frefLow (c : ElemCtx) (vmin : Int) : Bool := decide (((c.z.hist c.z.cfg.fref).fc.headD ⟨0, 0⟩).abs < vmin * c.z.cfg.vnom)

/-- PTUF (R164). -/
def stepPtuf (c : ElemCtx) (v : List Word) (es : ElemState) : ElemState :=
  match c.z.fAvg 0 (pN v 3) with
  | some f => delayed (c.n v 1) { es with st := latch es.st (decide (f ≤ pF v 0)) (decide (pF v 0 + pF v 2 < f)) }
  | none => es

/-- PTOF (R164). -/
def stepPtof (c : ElemCtx) (v : List Word) (es : ElemState) : ElemState :=
  match c.z.fAvg 0 (pN v 3) with
  | some f => delayed (c.n v 1) { es with st := latch es.st (decide (pF v 0 ≤ f)) (decide (f < pF v 0 - pF v 2)) }
  | none => es

/-- r(K) of PFRC, where both averages exist (R165). -/
def rocof (c : ElemCtx) (v : List Word) : Option Int :=
  let nn := cycleN c.z.cfg.fnom c.rate
  let n := pN v 2 * nn
  match c.z.fAvg 0 1, c.z.fAvg n 1 with
  | some a, some b => some (rdivEven ((a - b) * c.rate) (max 1 n))
  | _, _ => none

/-- PFRC (R165). -/
def stepPfrc (c : ElemCtx) (v : List Word) (es : ElemState) : ElemState :=
  match rocof c v with
  | none => es
  | some r =>
    let q : Int := match pN v 1 with
      | 0 => r
      | 1 => -r
      | _ => r.natAbs
    delayed (c.n v 3) { es with st := latch es.st (decide (pF v 0 ≤ q)) (below q 9 10 (pF v 0)) }

/-! ### DC classes -/

/-- N of T_DT (R171). -/
def spanN (rate : Nat) (w : Word) : Nat := max 2 ((val32 w).timesRat rate 1).toNat

/-- d(K) over N (R171). -/
def slope (c : ElemCtx) (m : Measurand) (n : Nat) : Int := rdivEven ((c.x m 0 - c.x m n) * c.rate) (max 1 n)

/-- PDDT (R173). -/
def stepPddt (c : ElemCtx) (i : Inst) (v : List Word) (es : ElemState) : ElemState :=
  let d := slope c i.cfg.imeas (spanN c.rate (pOf v 1))
  let q : Int := match pN v 2 with
    | 0 => d
    | 1 => -d
    | _ => d.natAbs
  delayed (c.n v 3) { es with st := latch es.st (decide (pF v 0 ≤ q)) (decide (q < fmul (pF v 4) (pF v 0))) }

/-- A rise closes (R174 item 5). -/
def closeRise (es : ElemState) : ElemState :=
  if es.rise.isSome then { es with rise := none, armed := false, st := false, op := false, timer := none, eval := 0#32 } else es

/-- PDSI (R174). -/
def stepPdsi (c : ElemCtx) (i : Inst) (v : List Word) (es : ElemState) : ElemState :=
  let m := i.cfg.imeas
  let n := spanN c.rate (pOf v 1)
  let d := slope c m n
  let fin := fmul (pF v 6) (pF v 0)
  let es :=
    if es.rise.isSome then es
    else if !es.armed then (if es.sgn * d < fin then { es with armed := true } else es)
    else
      let sg : Int := match pN v 4 with
        | 0 => 1
        | 1 => -1
        | _ => if d < 0 then -1 else 1
      if pF v 0 ≤ sg * d then { es with rise := some ⟨c.k, sg, c.x m n, false, none⟩, sgn := sg, st := true } else es
  match es.rise with
  | none => es
  | some r =>
    let di := r.s * (c.x m 0 - r.xref)
    let ok := decide (pF v 2 ≤ di)
    let inW := decide (c.k - r.k0 < c.n v 3)
    let held := r.held || (inW && ok)
    let low := if r.s * d < fin then tick r.low else none
    let es := { es with rise := some { r with held := held, low := low }, eval := wordF di }
    if reached low (c.n v 7) || (!inW && !held) then closeRise es
    else
      let t := if held && ok then tick es.timer else none
      { es with timer := t, op := reached t (c.n v 5) || (es.op && !below di 95 100 (pF v 2)) }

/-- Indices of T_MEAS of a line test, as ages from its start (R176). -/
def ltWindow (c : ElemCtx) (v : List Word) : Nat × Nat :=
  let a := fword (pOf v 1)
  let e := a + fword (pOf v 2)
  (c.n v 1, cdiv (e * c.rate).toNat F1n)

/-- A line test ends with a result: 0 HEALTHY, 1 FAULTED, 2 FAILED, 3 TIMEOUT, 4 FENCED (R176, R196). -/
def endTest (res : Nat) (r volt cur : Option Word) (es : ElemState) : ElemState :=
  { es with st := false, op := res == 1, ltDone := some (res, r, volt, cur, es.test.bind LineTest.byRrec), test := none, eval := r.getD es.eval }

/-- Infinity in binary32. -/
abbrev infWord : Word := 0x7F800000#32

/-- PDLT (R176, R179): cond is that of its measurands at k. The windows run on in HOLD (R172); only the result then waits for an index without it (log entry 92). -/
def stepPdlt (c : ElemCtx) (i : Inst) (v : List Word) (cond : Cond) (es : ElemState) : ElemState :=
  let init := c.opnd (pOf v 6)
  let rising := init && !es.initPrev
  let es := { es with initPrev := init, ltDone := none }
  let es :=
    if es.test.isNone && (rising || es.ltReq.isSome) then { es with test := some ⟨0, 0, 0, 0, es.ltReq⟩, ltReq := none, st := true, op := false } else es
  match es.test with
  | none => es
  | some t =>
    if !c.owned then endTest 4 none none none es
    else
      let (a, b) := ltWindow c v
      let inW := decide (a ≤ t.age) && decide (t.age < b)
      if inW && cond == .block then endTest 2 none none none es
      else
        let t := if inW then { t with vSum := t.vSum + c.x i.cfg.vmeas 0, iSum := t.iSum + c.x i.cfg.imeas 0, n := t.n + 1 } else t
        if t.age + 1 ≥ b ∧ t.n > 0 ∧ !(inW && cond == .hold) then
          let va := rdivEven t.vSum t.n
          let ia := rdivEven t.iSum t.n
          let es := { es with test := some t }
          if pF v 4 ≤ ia then
            let r := fdiv va ia
            endTest (if r < pF v 0 then 1 else 0) (some (wordF r)) (some (wordF va)) (some (wordF ia)) es
          else if pF v 5 ≤ va then endTest 0 (some infWord) (some (wordF va)) (some (wordF ia)) es
          else endTest 2 none (some (wordF va)) (some (wordF ia)) es
        else if t.age ≥ c.n v 3 then endTest 3 none none none es
        else { es with test := some { t with age := t.age + 1 } }

/-- Samples of the last 1 ms (R177). -/
def lastMs (rate : Nat) : Nat := cdiv rate 1000

/-- RBRF (R177): the timer runs while initiation and check both hold, and keeps its value between the check and the drop-off; usable tells whether the current check applies (R172). -/
def stepRbrf (c : ElemCtx) (ftr : Int) (i : Inst) (v : List Word) (usable : Bool) (es : ElemState) : ElemState :=
  let row := setInt (pOf v 3)
  let init := (decide (row ≥ 0) && (rowOf c.s row.toNat).active) || c.opnd (pOf v 4)
  let m := lastMs c.rate
  let x := if c.dc then rdivEven (((c.z.hist i.cfg.imeas).xs.take m).foldl (fun a y => a + (y.x.natAbs : Int)) 0) (max 1 m)
           else (c.ph ftr i.cfg.imeas .hc).abs
  let contact := pN v 5 == 1 && c.bi (pOf v 6)
  let above := usable && decide (pF v 0 ≤ x)
  let under := !usable || below x 95 100 (pF v 0)
  let t := if !init || (under && !contact) then none else if above || contact then tick es.timer else es.timer
  { es with timer := t, st := reached t (c.n v 1), op := reached t (c.n v 2) }

def RrecSt.code : RrecSt → Nat
  | .ready => 0
  | .waitOpen => 1
  | .dead => 2
  | .lineTest => 3
  | .closing => 4
  | .reclaim => 5
  | .lockout => 6

/-- PRT_EVAL of RREC: 16 × state + shot (R197). -/
def rrecEval (st : RrecSt) (shot : Nat) : Word := wordF (fint (16 * st.code + shot : Nat))

/-- RREC enters a state (R178). -/
def rrecGo (tgt : RrecSt) (cause : Nat) (es : ElemState) : ElemState :=
  let shot := if tgt = .ready then 0 else es.shot
  { es with rrec := tgt, cause := cause, shot := shot, stateAge := 0, cbRun := none, ltResult := none, ltWant := tgt == .lineTest, ltOwned := false
            st := !(tgt == .ready || tgt == .lockout), op := tgt == .closing }

/-- RREC (R178, R179). -/
def stepRrec (c : ElemCtx) (v : List Word) (es : ElemState) : ElemState :=
  let cb := c.bi (pOf v 8)
  let cnt := (rowOf c.s (pN v 7)).cnt
  let acc := match es.rowCnt with
    | some n => n != cnt
    | none => false
  let es := { es with rowCnt := some cnt, ltWant := false, stateAge := es.stateAge + 1 }
  let past (p : Nat) : Bool := decide (c.n v p ≤ es.stateAge)
  let again (cause : Nat) (tgt : RrecSt) : ElemState :=
    if es.shot < pN v 0 then rrecGo tgt 0 { es with shot := es.shot + 1 } else rrecGo .lockout cause es
  match es.rrec with
  | .ready => if acc then rrecGo .waitOpen 0 { es with shot := 1 } else es
  | .waitOpen => if !cb then rrecGo .dead 0 es else if past 10 then rrecGo .lockout 1 es else es
  | .dead =>
    if !past es.shot then es
    else if setInt (pOf v 9) ≥ 0 then { rrecGo .lineTest 0 es with ltOwned := c.owned }
    else if c.owned then rrecGo .closing 0 es else rrecGo .lockout 2 es
  | .lineTest =>
    if es.ltOwned && !c.owned then rrecGo .lockout 2 es
    else match es.ltResult with
      | none => { es with ltOwned := c.owned }
      | some 0 => if c.owned then rrecGo .closing 0 es else rrecGo .lockout 2 es
      | some _ => again 3 .dead
  | .closing =>
    if !c.owned then rrecGo .lockout 2 es
    else if !past 6 then es
    else if cb then rrecGo .reclaim 0 es else rrecGo .lockout 5 es
  | .reclaim => if acc then again 0 .waitOpen else if past 5 then rrecGo .ready 0 es else es
  | .lockout =>
    let run := if cb then tick es.cbRun else none
    if reached run (c.n v 5) then rrecGo .ready 0 es else { es with cbRun := run }

/-- PTRC (R180). -/
def stepPtrc (c : ElemCtx) (v : List Word) (es : ElemState) : ElemState :=
  let st := (v.take 8).any c.opnd
  let op := st || (es.op && decide (es.pulse + 1 < c.n v 8))
  { es with st := st, op := op, pulse := if op && es.op then es.pulse + 1 else 0 }

/-! ### One instance at one index -/

/-- The condition of an instance (R150, R164, R172). -/
def elemCond (c : ElemCtx) (ftr : Int) (i : Inst) (v : List Word) : Cond :=
  let im := i.cfg.imeas
  let vm := i.cfg.vmeas
  let est (m : Measurand) (p : Nat) : Cond := c.cond ftr m (if pN v p = 1 then .fc else .hc)
  match i.cfg.cls with
  | 0x01 => est im 1
  | 0x02 => c.cond ftr im .fc
  | 0x03 => (c.cond ftr im .fc).worse (c.cond ftr vm .fc)
  | 0x04 => ((c.cond ftr im .fc).worse (c.cond ftr vm .fc)).worse ((c.cond ftr im .hc).worse (c.cond ftr vm .hc))
  | 0x05 => ((c.cond ftr im .fc).worse (c.cond ftr im .h2)).worse (c.cond ftr im .hc)
  | 0x06 => c.cond ftr im .rms
  | 0x07 => est vm 3
  | 0x08 => est vm 3
  | 0x09 => if (c.z.fAvg 0 (pN v 3)).isNone || frefLow c (pF v 4) then .block else .use
  | 0x0A => if (c.z.fAvg 0 (pN v 3)).isNone || frefLow c (pF v 4) then .block else .use
  | 0x0B => if (rocof c v).isNone || frefLow c (pF v 4) then .block else .use
  | 0x10 => c.condBack im (spanN c.rate (pOf v 1)) (spanN c.rate (pOf v 1))
  | 0x11 => c.condBack im (spanN c.rate (pOf v 1)) (spanN c.rate (pOf v 1))
  | 0x12 => .use
  | 0x13 => if c.dc then c.condBack im (lastMs c.rate - 1) (max (lastMs c.rate - 1) (c.rate / 1000)) else c.cond ftr im .hc
  | _ => .use

/-- BLK reads 1, an invalid G bit as BLKINV (R145, R148). -/
def blkReads (s : State) (d : ElemDef) : Bool :=
  if d.blk = 0xFFFFFFFF then false
  else
    let a := d.blk / 4194304
    let n := d.blk % 4194304
    if a = 4 ∧ !s.sve.gvalid.getLsbD n then d.blkinv == 1 else operandBit s a n

/-- Blocked under R148. -/
def elemBlocked (s : State) (d : ElemDef) : Bool :=
  blkReads s d || (d.dirsup != 0xFFFF && !signalOf s d.dirsup (4 + d.dirreq)) || (d.restr != 0xFFFF && signalOf s d.restr 1)

/-- Timers and integrators cleared, START and OPERATE 0 (R114, R148): a rise closes, a running line test ends FAILED. -/
def clearEs (es : ElemState) : ElemState :=
  let es := closeRise es
  let es := if es.test.isSome then endTest 2 none none none es else { es with ltDone := none }
  { es with st := false, op := false, timer := none, sinceStart := none, sinceClear := none, psi := 0, insideRun := 0, energ := none
            hcLow := false, h2On := false, rawOff := none, onRun := none, barred := false, pulse := 0, ltReq := none }

/-- BLOCK: what follows from the measurement goes too (R114, R150). -/
def blockEs (es : ElemState) : ElemState := { clearEs es with aux1 := false, aux2 := false, dir := DirState.reset, eval := 0#32 }

/-- Step of a class in USE. -/
def stepUse (c : ElemCtx) (ftr : Int) (i : Inst) (v : List Word) (es : ElemState) : ElemState :=
  match i.cfg.cls with
  | 0x01 => stepPioc c ftr i v es
  | 0x02 => stepPtoc c ftr i v es
  | 0x03 => stepRdir c ftr i v es
  | 0x04 => stepPdis c ftr i v es
  | 0x05 => stepPhar c ftr i v es
  | 0x06 => stepPttr c ftr i v es
  | 0x07 => stepPtuv c ftr i v es
  | 0x08 => stepPtov c ftr i v es
  | 0x09 => stepPtuf c v es
  | 0x0A => stepPtof c v es
  | 0x0B => stepPfrc c v es
  | 0x10 => stepPddt c i v es
  | 0x11 => stepPdsi c i v es
  | 0x13 => stepRbrf c ftr i v true es
  | 0x14 => stepRrec c v es
  | 0x15 => stepPtrc c v es
  | _ => es

/-- One instance at one index: its new state, its condition and whether it is blocked (R114, R142, R148, R172). -/
def elemStep (c : ElemCtx) (ftr : Int) (i : Inst) (v : List Word) : ElemState × Cond × Bool :=
  let es := i.es
  let blocked := elemBlocked c.s i.cfg
  let cls := i.cfg.cls
  if cls = clsPDLT then
    let cond := (c.condBack i.cfg.imeas 0 0).worse (c.condBack i.cfg.vmeas 0 0)
    let (a, b) := ltWindow c v
    let inW := match es.test with
      | some t => decide (a ≤ t.age) && decide (t.age < b)
      | none => false
    (if blocked then clearEs es else stepPdlt c i v cond es, if inW then cond else .use, blocked)
  else if cls = clsRREC then
    (if blocked then (if es.rrec = .lockout then { es with ltWant := false, cbRun := none } else rrecGo .lockout 4 es) else stepRrec c v es, .use, blocked)
  else
    let cond := elemCond c ftr i v
    let es := if cls = clsPDDT ∧ cond ≠ .block then { es with eval := wordF (slope c i.cfg.imeas (spanN c.rate (pOf v 1))) } else es
    let es' :=
      if cls = clsPTTR then
        if blocked || cond == .block then { stepTheta c v es with st := false, op := false }
        else if cond = .hold then es else stepPttr c ftr i v es
      else if blocked then
        (if cls = clsRDIR ∨ cls = clsPDIS then
          (if cond = .use then clearEs (stepUse c ftr i v es) else if cond = .hold then clearEs es else blockEs es) else clearEs es)
      else match cond with
        | .use => stepUse c ftr i v es
        | .hold => es
        | .block => if cls = clsRBRF ∧ pN v 5 = 1 then stepRbrf c ftr i v false es else blockEs es
    (es', cond, blocked)

/-- PRT_EVAL (R197); rate is the zone's. -/
def Inst.evalWord (i : Inst) (rate : Nat) : Word :=
  let e := i.es
  match i.cfg.cls with
  | 0x02 => wordF e.psi
  | 0x06 => wordF e.theta
  | 0x10 => e.eval
  | 0x11 => e.eval
  | 0x12 => e.eval
  | 0x13 => wordF (match e.timer with
    | some n => frat n rate
    | none => 0)
  | 0x14 => rrecEval e.rrec e.shot
  | _ => 0#32

/-- Signals of an instance from its state (R147). -/
def elemSignals (es : ElemState) (cond : Cond) (blocked : Bool) : Signals := ⟨es.st, es.op, cond == .block, blocked, es.aux1, es.aux2⟩

end Sys2Proof.Machine
end

