-- ==== Sys2Proof/Machine/Zones.lean ====
section
/-! DEFINITION. Evaluation of zones (06_ac_protection.md R142 to R150, R169; 07_dc_trip_breaker.md R185, R194, R196). -/

namespace Sys2Proof.Machine

def modPrt (f : Prt → Prt) (s : State) : State := { s with prt := f s.prt }

def modZone (n : Nat) (f : Zone → Zone) (s : State) : State := modPrt (fun p => { p with zones := tmod p.zones n f }) s

def modInst (n : Nat) (f : Inst → Inst) (s : State) : State := modPrt (fun p => { p with insts := tmod p.insts n f }) s

/-- Instances of a zone, in increasing number. -/
def instsOf (s : State) (z : Nat) : List (Nat × Inst) := s.prt.insts.filter fun p => p.2.cfg.zone == z

/-- A record of a zone's core, stamped on the zone's base (R417). -/
def zoneEv (core base type : Nat) (t : Int) (payload : Bytes) (s : State) : State := evFull (0x0800 + core) type (convStamp s base 0 t) payload s

/-! ### Inputs -/

/-- The value that a zone in test mode reads for slot i at stamp t (R194). -/
def testValue (z : ZoneDef) (m : TestMode) (i : Nat) (t : Int) : Int :=
  let e := m.slots.getD i ⟨0#32, 0#32, 0#32, 0#32, 0#32, 0#32⟩
  let fault := decide (m.t1 ≤ t) && decide (t < m.t1 + (m.durMs : Int) * 1000000)
  let since := frat (t - m.t1) NS
  let decay := if nonzero32 e.tau then fexp (-(fdiv since (fword e.tau))) else 0
  if z.fnom = 3 then
    if fault then fword e.fltMag + fmul (fword e.preMag - fword e.fltMag) decay else fword e.preMag
  else
    let turns := rdivEven (fNom z.fnom * nsOf t) NS
    let wave (mag ang : Word) : Int := fmul (fmul fSqrt2 (fword mag)) (fcosTurns (turns + degTurns (fword ang)))
    if fault then wave e.fltMag e.fltAng + fmul (fword e.fltDc) decay else wave e.preMag e.preAng

/-- Value and condition of slot i at index k (R114, R121, R140, R194). -/
def slotInput (s : State) (z : Zone) (base k i : Nat) : Int × Cond :=
  match z.cfg.slots[i]? with
  | none => (0, .block)
  | some c =>
    if c = 0xFFFF then (0, .block)
    else match z.test with
      | some m => (testValue z.cfg m i (kStamp s base z.cfg.rate k), .use)
      | none =>
        let ch := storeCh s c
        if ch.tb ≠ base then (0, .block)
        else match ch.slot k with
          | some x => (fword x.v, condOf false x.q)
          | none => (0, .block)

/-- The channels that a zone waits for: those on its base (R20, R121). -/
def zoneChans (s : State) (z : ZoneDef) : List Nat := z.slots.filter fun c => c != 0xFFFF && (storeCh s c).tb == zoneBase s z

/-- Index k may be evaluated (R20): the next one, or where evaluation resumes one above every index of this numbering evaluated before. -/
def zoneReady (s : State) (z : Zone) (k : Nat) : Bool :=
  let base := zoneBase s z.cfg
  (match tget z.doneK base with
    | some l => if z.resume then decide (l < k) else k == l + 1
    | none => true) &&
  decide (k ≤ nowK s base z.cfg.rate) && (zoneChans s z.cfg).all fun c => (storeCh s c).final k

/-- Some slot of k was filled at its deadline (R197). -/
def zoneLate (s : State) (z : Zone) (k : Nat) : Bool :=
  (zoneChans s z.cfg).any fun c => match (storeCh s c).slot k with
    | some x => !x.written
    | none => true

/-! ### Instances -/

/-- An instance re-initialised (R143): kept are the thermal image, the voltage memory and RREC's state. -/
def Inst.reinit (i : Inst) : ElemState :=
  let e := i.es
  let armed := e.armed && e.rise.isNone
  { ElemState.reset with
    dir := { e.dir with fwd := false, rev := false }
    theta := e.theta, thetaEq := e.thetaEq, cold := e.cold, aux1 := i.cfg.cls == clsPTTR && e.aux1
    armed := armed, sgn := e.sgn, rrec := e.rrec, shot := e.shot, cause := e.cause, stateAge := e.stateAge, cbRun := e.cbRun
    eval := if i.cfg.cls = clsPDLT then e.eval else 0#32 }

/-- RREC in LOCKOUT with cause 4 (R178). -/
def Inst.lock (i : Inst) (e : ElemState) : ElemState := if i.cfg.cls = clsRREC ∧ e.rrec ≠ .lockout then rrecGo .lockout 4 e else e

/-- The voltage memory goes with the histories (R150). -/
def ElemState.forget (e : ElemState) : ElemState := { e with dir := DirState.reset, armed := true }

/-- EV_PRT_RREC (R196). -/
def rrecEventBy (src n : Nat) (e : ElemState) (s : State) : State :=
  evBy src 0x0516 (u16 n ++ u8 e.rrec.code ++ u8 e.shot ++ u8 (if e.rrec = .lockout then e.cause else 0) ++ zeros 3) s

def rrecEvent (core n : Nat) (e : ElemState) (s : State) : State := rrecEventBy (0x0800 + core) n e s

/-- EV_PRT_THERMAL (R169). -/
def thermalEvent (src n kind : Nat) (e : ElemState) (s : State) : State := evBy src 0x0506 (u16 n ++ u8 kind ++ u8 0 ++ w32 (wordF e.theta)) s

/-- A free word in place of a value the rules do not give. -/
def wordOrFree (w : Option Word) (s : State) : Word × State :=
  match w with
  | some x => (x, s)
  | none => let (i, s) := drawFree s; (Config.freeWord i, s)

/-- Records of a class that follow from its state (R162, R176 to R178, R196). -/
def classEvents (z : Zone) (n : Nat) (i : Inst) (old new : ElemState) (t : Int) (base : Nat) (s : State) : State :=
  let core := z.cfg.core
  match i.cfg.cls with
  | 0x06 => if old.aux1 = new.aux1 then s else thermalEvent (0x0800 + core) n (if new.aux1 then 0 else 1) new s
  | 0x12 => match new.ltDone with
    | none => s
    | some (res, r, v, a, by') =>
      let (r, s) := wordOrFree r s
      let (v, s) := wordOrFree v s
      let (a, s) := wordOrFree a s
      let s := zoneEv core base 0x0517 t (u16 n ++ u8 res ++ u8 0 ++ w32 r ++ w32 v ++ w32 a) s
      match by' with
      | some q => modInst q (fun j => { j with es := { j.es with ltResult := some res } }) s
      | none => s
  | 0x13 =>
    let one (stage : Nat) (was is : Bool) (s : State) : State :=
      if is && !was then zoneEv core base 0x0515 t (u16 n ++ u8 stage ++ u8 0 ++ stampWords base t) s else s
    one 1 old.op new.op (one 0 old.st new.st s)
  | 0x14 =>
    let s := if old.rrec = new.rrec ∧ old.shot = new.shot then s else rrecEvent core n new s
    let lt := setInt (pOf (i.vec z.group) 9)
    if new.ltWant && decide (lt ≥ 0) then modInst lt.toNat (fun j => { j with es := { j.es with ltReq := some n } }) s else s
  | _ => s

/-- Evaluates instance n of zone zn at index k (R142 step 5). -/
def evalInst (zn k : Nat) (ftr t : Int) (base : Nat) (n : Nat) (s : State) : State :=
  match tget s.prt.insts n, tget s.prt.zones zn with
  | some i, some z =>
    if !i.en z.group then modInst n (fun i => { i with sig := Signals.reset, cond := .use, es := i.reinit }) s
    else
      let c : ElemCtx := ⟨s, z, k, zoneOwned s zn⟩
      let (e, cond, blocked) := elemStep c ftr i (i.vec z.group)
      let s := modInst n (fun i => { i with es := e, cond := cond, sig := elemSignals e cond blocked }) s
      classEvents z n i i.es e t base s
  | _, _ => s

/-! ### Delivery -/

/-- EVENT deliveries of a signal (R342, R349). -/
def signalDeliver (zone n sig : Nat) (v : Bool) (base : Nat) (t : Int) (s : State) : State :=
  deliverBound (fun c => c.zone == zone && nbit c.flags 1) (fun i _ => ⟨3, i, u16 n ++ u8 sig ++ u8 (b2n v) ++ stampWords base t, 0⟩) s

/-- START or OPERATE of an instance changes (R90, R91, R169). -/
def outputChange (core zone n sig : Nat) (v : Bool) (base : Nat) (t : Int) (s : State) : State :=
  match tget s.prt.insts n with
  | none => s
  | some i =>
    let (ok, sec, cnt) := limit20 s.now i.recSec i.recCount
    let s := modInst n (fun i => { i with recSec := sec, recCount := cnt, dropped := if ok then 0 else i.dropped + 1 }) s
    let s := if ok then zoneEv core base (0x0502 + sig) t (u16 n ++ u8 i.cfg.cls ++ u8 (b2n v) ++ stampWords base t ++ u16 (min i.dropped 0xFFFF) ++ u16 0) s else s
    signalDeliver zone n sig v base t (srcEdge ((if sig = 0 then 0x1000 else 0x1800) + n) v base t s)

/-- BLOCKED_Q of an instance changes: recorded once it has stayed so for 1 s (R169). -/
def blockedChange (zone n : Nat) (v : Bool) (base : Nat) (t : Int) (s : State) : State :=
  signalDeliver zone n 2 v base t (modInst n (fun i => { i with bqSince := if i.bqRecorded = v then none else some s.now }) s)

/-- What an instance delivers after an index: the signals that changed (R142 step 6). -/
def deliverInst (core zone base : Nat) (t : Int) (n : Nat) (old : Signals) (s : State) : State :=
  match tget s.prt.insts n with
  | none => s
  | some i =>
    let g := i.sig
    let s := if g.start = old.start then s else outputChange core zone n 0 g.start base t s
    let s := if g.operate = old.operate then s else outputChange core zone n 1 g.operate base t s
    if g.blockedQ = old.blockedQ then s else blockedChange zone n g.blockedQ base t s

/-- Every change of a zone's instances since the signals of before. -/
def deliverZone (zone core base : Nat) (t : Int) (before : List (Nat × Inst)) (s : State) : State :=
  foldOver before (fun p s => deliverInst core zone base t p.1 p.2.sig s) s

/-! ### One index -/

/-- Group that the zone runs from k on, with the source of a change: 0 command, 1 logic (R143). -/
def wantedGroup (s : State) (z : Zone) : Nat × Nat :=
  if z.cfg.grpLo = 0xFFFFFFFF then z.groupReq.getD (z.group, 0)
  else (b2n (operandBit s 2 z.cfg.grpLo) + 2 * b2n (operandBit s 2 z.cfg.grpHi), 1)

/-- The zone's evaluation resumes at k: histories start afresh (R150). -/
def Zone.resumeAt (z : Zone) (k : Nat) : Zone :=
  { z with resume := false, resumeK := k, hists := [], fmeas := [], frefFc := [], frozenLeft := 0 }

/-- What takes effect at the boundary of index k: resumption, test mode, group (R143, R150, R194); the zone is re-initialised once (R478). -/
def zoneBoundary (zn k : Nat) (s : State) : State :=
  match tget s.prt.zones zn with
  | none => s
  | some z =>
    let core := z.cfg.core
    let (g, src) := wantedGroup s z
    let newGroup := g != z.group
    let newTest := match z.testReq with
      | some m => m != z.test
      | none => false
    let forget := z.resume || newTest
    let lock := newGroup || newTest
    let s := modZone zn (fun z =>
      let z := if forget then z.resumeAt k else z
      { z with group := g, groupReq := none, test := if newTest then z.testReq.getD none else z.test, testReq := none }) s
    let s := if forget || lock then
        foldOver (instsOf s zn) (fun p s =>
          let e := p.2.reinit
          let e := if forget then e.forget else e
          let e' := if lock then p.2.lock e else e
          let s := modInst p.1 (fun i => { i with es := e' }) s
          if e'.rrec = p.2.es.rrec then s else rrecEvent core p.1 e' s) s
      else s
    let s := if newTest then
        let on := (z.testReq.getD none).isSome
        let s := evBy (0x0800 + core) 0x0518 (u8 zn ++ u8 (b2n on) ++ u16 0) s
        if on then shutterTest s else s
      else s
    if newGroup then claimsOfZone zn (evBy (0x0800 + core) 0x0501 (u8 zn ++ u8 z.group ++ u8 g ++ u8 src) s) else s

/-- The zone takes the samples of k and its tracker moves (R142 steps 3 and 4); f_tr of the estimators is answered too. -/
def zoneSamples (zn k base : Nat) (s : State) : Int × State :=
  match tget s.prt.zones zn with
  | none => (0, s)
  | some z =>
    let ms := measurandsOf z.cfg ((instsOf s zn).map fun p => p.2.cfg)
    let z1 := z.append ms k (slotInput s z base k)
    let z2 := z1.track k
    let s := modZone zn (fun _ => z2) s
    (z1.ftr, if z2.trackSt = z.trackSt then s else evBy (0x0800 + z.cfg.core) 0x0505 (u8 zn ++ u8 z2.trackSt ++ u16 0 ++ w32 (wordF z2.ftr)) s)

/-- Zone zn evaluates index k (R142). -/
def zoneEval (zn k : Nat) (s : State) : State :=
  match tget s.prt.zones zn with
  | none => s
  | some z =>
    let base := zoneBase s z.cfg
    let t := kStamp s base z.cfg.rate k
    let late := zoneLate s z k
    let before := instsOf s zn
    let s := zoneBoundary zn k s
    let (ftr, s) := zoneSamples zn k base s
    let s := foldOver (before.map Prod.fst) (evalInst zn k ftr t base) s
    let s := modZone zn (fun z => { z with lastK := some k, doneK := tset z.doneK base k, late := if late then satInc z.late else z.late }) s
    let s := settle (deliverZone zn z.cfg.core base t before s)
    zoneTasksDue zn k t s

/-- ZONE_EVALUATE (R20, R142). -/
def execZoneEvaluate (t zone k : Nat) (s : State) : Res :=
  let s := atTime t s
  match tget s.prt.zones zone with
  | none => go s
  | some z => if inService s && zoneReady s z k then go (zoneEval zone k s) else go s

/-- BLOCKED_Q_HOLD_EXPIRE (R169): BLOCKED_Q has stayed changed for 1 s. -/
def execBlockedQHoldExpire (t inst : Nat) (s : State) : Res :=
  let s := atTime t s
  match tget s.prt.insts inst with
  | none => go s
  | some i =>
    let due : Bool := match i.bqSince with
      | some f => decide (f + NS ≤ s.now)
      | none => false
    if !due then go s
    else
      let core := match tget s.prt.zones i.cfg.zone with
        | some z => z.cfg.core
        | none => 0
      go (evBy (0x0800 + core) 0x0504 (u16 inst ++ u8 (b2n i.sig.blockedQ) ++ u8 0)
        (modInst inst (fun i => { i with bqRecorded := i.sig.blockedQ, bqSince := none }) s))

/-- Test mode of a zone ends at once when it is not evaluated, else at its next index (R194). -/
def endTestMode (zn : Nat) (s : State) : State :=
  match tget s.prt.zones zn with
  | none => s
  | some z =>
    if inService s then modZone zn (fun z => { z with testReq := some none }) s
    else if z.test.isSome then
      evBy (0x0800 + z.cfg.core) 0x0518 (u8 zn ++ u8 0 ++ u16 0) (modZone zn (fun z => { z with test := none, testReq := none, resume := true }) s)
    else modZone zn (fun z => { z with testReq := none }) s

/-- TEST_MODE_EXPIRE (R194): 600 s after t1 + DUR. -/
def execTestModeExpire (t zone : Nat) (s : State) : Res :=
  let s := atTime t s
  match tget s.prt.zones zone with
  | none => go s
  | some z =>
    match z.test with
    | none => go s
    | some m =>
      if m.t1 + (m.durMs : Int) * 1000000 + 600 * (NS : Int) ≤ baseNs s (zoneBase s z.cfg) ∧ z.testReq.isNone then go (settle (endTestMode zone s)) else go s

/-! ### Entering and leaving SERVICE -/

/-- Zones are evaluated from now on: each resumes at its first index (R150). -/
def zonesStart (s : State) : State := modPrt (fun p => { p with zones := p.zones.map fun z => (z.1, { z.2 with resume := true }) }) s

/-- Zones stop: every signal reads 0 and reclosing in progress is cancelled (R34, R185). -/
def zoneStop (zn : Nat) (s : State) : State :=
  match tget s.prt.zones zn with
  | none => s
  | some z =>
    let base := zoneBase s z.cfg
    let t := match z.lastK with
      | some k => kStamp s base z.cfg.rate k
      | none => baseNs s base
    let before := instsOf s zn
    let s := foldOver before (fun p s =>
      let e := if p.2.es.rrec = .ready then p.2.reinit else p.2.lock p.2.reinit
      let s := modInst p.1 (fun i => { i with es := e, sig := Signals.reset, cond := .use }) s
      if e.rrec = p.2.es.rrec then s else rrecEvent z.cfg.core p.1 e s) s
    deliverZone zn z.cfg.core base t before s

def zonesStop (s : State) : State := foldOver (s.prt.zones.map Prod.fst) zoneStop s

end Sys2Proof.Machine
end

