-- ==== Sys2Proof/Machine/PrtCommands.lean ====
section
/-! DEFINITION. Protection commands: zones, element instances, matrix rows, groups and test injection (06_ac_protection.md R139 to R146, R155; 07_dc_trip_breaker.md R183, R194, R195). -/

namespace Sys2Proof.Machine

/-- A CHID of a channel slot that is unused (R139). -/
abbrev noCh : Nat := 0xFFFF

/-! ### Zones -/

/-- Rate and base a channel is configured for (R139, R141). -/
def chConfigured (s : State) (c : Nat) : Nat × Nat :=
  if c < 24 then ((fltOf s c).cfgGeom.rate, s.acq.tbsel) else match subOf s c with
    | some (_, u) => (u.cfg.rate, u.cfg.tbsel)
    | none => (4, 4)

/-- A measurand whose slots are bound and whose COMB is known (R140). -/
def measOk (slots : List Nat) (m : Measurand) : Bool :=
  let bound (i : Nat) : Bool := decide (i < 8) && slots.getD i noCh != noCh
  decide (m.comb < 4) && bound m.slot1 && (if m.comb = 0 then m.slot2 == 0xFF || decide (m.slot2 < 8) else bound m.slot2)

/-- GRP_BITS are two M operands, or none (R139). -/
def grpOk (lo hi : Nat) : Bool := (lo == 0xFFFFFFFF && hi == 0xFFFFFFFF) || (decide (lo < 65536) && decide (hi < 65536))

/-- A bound channel suits its zone (R139, R141). -/
def zoneSlotOk (s : State) (p : ZoneDef) (c : Nat) : Bool :=
  c == noCh || (decide (c ≤ 4119) && chDefined s c && chConfigured s c == (p.rate, p.tbsel)
    && !(s.prt.zones.any fun z => z.1 != p.zone && z.2.cfg.slots.contains c))

/-- Fields of a definition alone (R139, R140). -/
def zoneFieldsOk (p : ZoneDef) : Bool :=
  decide (p.core < 16) && decide (p.rate < 4) && decide (p.tbsel < 4) && decide (p.fnom < 4) && decide (100 ≤ p.vnom) && decide (p.vnom ≤ 80000)
    && decide (1 ≤ p.inom) && decide (p.inom ≤ 20000) && decide (p.slots.length = 8) && grpOk p.grpLo p.grpHi && !(p.rate == 0 && p.fnom != 3)
    && (if p.fref.none' then p.fkind == 0 else measOk p.slots p.fref && decide (p.fkind < 2))

/-- An instance of the zone stays valid under the definition (R141). -/
def zoneInstOk (p : ZoneDef) (d : ElemDef) : Bool :=
  (if p.fnom = 3 then !clsAc d.cls else !clsDc d.cls) && (d.imeas.none' || measOk p.slots d.imeas) && (d.vmeas.none' || measOk p.slots d.vmeas)
    && !(clsFreq d.cls && p.fref.none')

/-- A claimed stage stays the zone's own channel: IMEAS is still local channel n with FS in 2n, 2n + 1 (R155). -/
def zoneFsOk (p : ZoneDef) (d : ElemDef) : Bool := d.cls != clsPIOC || d.fs == 0xFF || p.slots.getD d.imeas.slot1 noCh == d.fs / 2

/-- PRT_DEFINE_ZONE, refusals by state (R195). -/
def zonePre (p : ZoneDef) (s : State) : Option (Nat × Nat) :=
  firstFail [(!(p.op == 0 && s.prt.insts.any fun i => i.2.cfg.zone == p.zone), stConflict, s.sys.st.code)]

/-- PRT_DEFINE_ZONE (R139 to R141, R195), BUDGET_EXCEEDED apart. -/
def zoneCheck (p : ZoneDef) (s : State) : Option (Nat × Nat) :=
  let insts := (instsOf s p.zone).map fun x => x.2.cfg
  let vecs := (instsOf s p.zone).flatMap fun x => x.2.groups.map fun v => (x.2.cfg.cls, v)
  if p.op = 0 then firstFail [bad (p.zone < 64), bad (tget s.prt.zones p.zone).isSome]
  else firstFail [bad (p.zone < 64), bad (p.op = 1), bad (zoneFieldsOk p), bad (p.slots.all (zoneSlotOk s p)),
    bad (insts.all fun d => zoneInstOk p d && zoneFsOk p d), bad (vecs.all fun x => vectorOk x.1 p.fnom x.2),
    (decide ((measurandsOf p insts).length ≤ 16), stExhausted, 0)]

/-- A zone as a definition leaves it: evaluation resumes at its first index (R150). -/
def Zone.fresh (p : ZoneDef) (group : Nat) : Zone where
  cfg := p
  group := group
  groupReq := none
  testReq := none
  test := none
  lastK := none
  doneK := []
  resume := true
  resumeK := 0
  hists := []
  ftr := fStart p.fnom
  fmeas := []
  frefFc := []
  frozenLeft := 0
  trackSt := 0
  late := 0#32

/-- Bindings of a zone that is deleted or redefined are removed (R349). -/
def unbindZone (zn : Nat) (s : State) : State :=
  foldOver s.vfm.vfs (fun p s =>
    foldOver (imap (fun i b => (i, b)) p.2.binds) (fun q s =>
      let last := match q.2.next with
        | some (_, x) => x
        | none => q.2.cur
      let named (x : Option VfmBind) : Bool := match x with
        | some c => c.zone == zn
        | none => false
      if named q.2.cur || named last then
        ev 0x0906 (u16 p.1 ++ u8 q.1 ++ u8 2 ++ u8 zn ++ zeros 3)
          (modVf p.1 (fun f => { f with binds := lset f.binds q.1 ⟨if named q.2.cur then none else q.2.cur, if named last then none else q.2.next, none⟩ }) s)
      else s) s) s

/-- PRT_DEFINE_ZONE takes effect. -/
def zoneApply (p : ZoneDef) (s : State) : State :=
  let s := unbindZone p.zone s
  if p.op = 0 then modPrt (fun x => { x with zones := tdel x.zones p.zone }) s
  else
    let late := match tget s.prt.zones p.zone with
      | some z => z.late
      | none => 0#32
    modPrt (fun x => { x with zones := tset x.zones p.zone { Zone.fresh p (groupOf s p.zone) with late := late } }) s

/-! ### Element instances -/

/-- Some instance names n as DIRSUP, RESTR or LTEST (R195). -/
def elemReferenced (s : State) (n : Nat) : Bool :=
  s.prt.insts.any fun p =>
    p.1 != n && (p.2.cfg.dirsup == n || p.2.cfg.restr == n || (p.2.cfg.cls == clsRREC && p.2.groups.any fun v => setInt (pOf v 9) == n))

/-- PRT_SET_ELEMENT, refusals by state (R195). -/
def elemPre (p : ElemDef) (s : State) : Option (Nat × Nat) :=
  firstFail [(!(p.op == 0 && elemReferenced s p.inst), stConflict, s.sys.st.code)]

/-- BLK is an operand of area I, M, G, E or S, or none (R145). -/
def blkOk (b : Nat) : Bool :=
  b == 0xFFFFFFFF || (let a := b / 4194304; (a == 0 || a == 2 || a == 3 || a == 4 || a == 8) && operandOk a (b % 4194304))

/-- A lower-numbered instance of class c in the same zone (R145). -/
def refOk (s : State) (p : ElemDef) (c r : Nat) : Bool :=
  decide (r < p.inst) && (match tget s.prt.insts r with
    | some i => i.cfg.cls == c && i.cfg.zone == p.zone
    | none => false)

/-- The group vectors that a command would leave (R145, R146): for OP 2 the named group's alone is new. -/
def elemVectors (s : State) (p : ElemDef) : Option (List (List Word)) :=
  let new := p.groups.map (storeVector p.cls)
  if !new.all Option.isSome then none
  else
    let new := new.filterMap id
    if p.op = 1 then (if new.length = 4 then some new else none)
    else match tget s.prt.insts p.inst, new with
      | some i, [v] => some (lset i.groups p.group v)
      | _, _ => none

/-- The claim of a flash stage suits channel, offset and every group (R155). -/
def fsOk (s : State) (z : ZoneDef) (p : ElemDef) (vs : List (List Word)) : Bool :=
  p.fs == 0xFF || (p.cls == clsPIOC && decide (p.fs < 48) && p.imeas.comb == 0 && z.slots.getD p.imeas.slot1 noCh == p.fs / 2
    && vs.all (fun v => claimValid (pOf v 2) (pOf v 0) (fltOf s (p.fs / 2)).scale (fltOf s (p.fs / 2)).eofs)
    && !(s.prt.insts.any fun i => i.1 != p.inst && i.2.cfg.cls == clsPIOC && i.2.cfg.fs == p.fs))

/-- LTEST of an RREC names a PDLT of the same zone, or none (R178). -/
def ltestOk (s : State) (p : ElemDef) (v : List Word) : Bool :=
  p.cls != clsRREC || (let n := setInt (pOf v 9)
    decide (n < 0) || (match tget s.prt.insts n.toNat with
      | some i => i.cfg.cls == clsPDLT && i.cfg.zone == p.zone
      | none => false))

/-- Fields of a definition beside the settings (R141, R144, R145). -/
def elemFieldsOk (s : State) (z : ZoneDef) (p : ElemDef) : Bool :=
  let need := clsNeeds p.cls
  let meas (n : Bool) (m : Measurand) : Bool := if m.none' then !n else measOk z.slots m
  decide (p.dirreq < 2) && p.imeasK == 0 && p.vmeasK == 0 && meas (need.1 && !(clsFreq p.cls)) p.imeas && meas need.2 p.vmeas && blkOk p.blk
    && decide (p.blkinv < 2) && decide (p.enmask < 16)
    && (p.dirsup == 0xFFFF || ((p.cls == clsPIOC || p.cls == clsPTOC) && refOk s p clsRDIR p.dirsup))
    && (p.restr == 0xFFFF || ((p.cls == clsPIOC || p.cls == clsPTOC || p.cls == clsPDIS) && refOk s p clsPHAR p.restr))
    && !(clsAc p.cls && (z.rate == 0 || z.fnom == 3)) && !(clsDc p.cls && z.fnom != 3) && !(clsFreq p.cls && z.fref.none')

/-- The definition that a command would leave: OP 2 keeps everything but a group's settings. -/
def elemAfter (s : State) (p : ElemDef) : ElemDef :=
  if p.op = 2 then match tget s.prt.insts p.inst with
    | some i => i.cfg
    | none => p
  else { p with op := 1, group := 0, groups := [] }

/-- PRT_SET_ELEMENT (R140, R141, R144 to R146, R155, R195), BUDGET_EXCEEDED apart. -/
def elemCheck (p : ElemDef) (s : State) : Option (Nat × Nat) :=
  let old := tget s.prt.insts p.inst
  if p.op = 0 then firstFail [bad (p.inst < 2048), bad old.isSome]
  else
    let d := elemAfter s p
    match tget s.prt.zones d.zone, elemVectors s { d with op := p.op, group := p.group, groups := p.groups } with
    | some z, some vs =>
      let others := (instsOf s d.zone).filter fun x => x.1 != p.inst
      let same : Bool := match old with
        | some i => i.cfg.cls == p.cls
        | none => p.op == 1
      firstFail [bad (p.inst < 2048), bad (p.op = 1 ∨ p.op = 2), bad (p.group < 4), bad (clsKnown d.cls), bad same, bad (elemFieldsOk s z.cfg d),
        bad (p.groups.all fun v => fsetGiven d.cls z.cfg.fnom v), bad (vs.all fun v => vectorOk d.cls z.cfg.fnom v && ltestOk s d v), bad (fsOk s z.cfg d vs),
        (decide (others.length < 40) && decide ((measurandsOf z.cfg (d :: others.map fun x => x.2.cfg)).length ≤ 16), stExhausted, 0)]
    | _, _ => some (stBadParam, 0)

/-- The thermal image starts at THETA_INIT of the active group (R162). -/
def thetaStart (n src kind : Nat) (s : State) : State :=
  match tget s.prt.insts n with
  | none => s
  | some i =>
    if i.cfg.cls ≠ clsPTTR then s
    else
      let th := pF (i.vec (groupOf s i.cfg.zone)) 6
      let e := { i.es with theta := th, thetaEq := th }
      thermalEvent src n kind e (modInst n (fun i => { i with es := e }) s)

/-- The stage that an instance claims, 0xFF for none. -/
def Inst.claims (i : Inst) : Nat := if i.cfg.cls = clsPIOC then i.cfg.fs else 0xFF

/-- PRT_SET_ELEMENT takes effect; src is that of its records. -/
def elemApply (src : Nat) (p : ElemDef) (s : State) : State :=
  let before := match tget s.prt.insts p.inst with
    | some i => i.claims
    | none => 0xFF
  if p.op = 0 then claimEnd before (modPrt (fun x => { x with insts := tdel x.insts p.inst }) s)
  else
    let d := elemAfter s p
    let vs := (elemVectors s { d with op := p.op, group := p.group, groups := p.groups }).getD []
    let locked : Bool := match tget s.prt.insts p.inst with
      | some i => i.cfg.cls == clsRREC && i.es.rrec != .lockout
      | none => false
    let new : Inst := ⟨d, vs, Signals.reset, .use, ElemState.reset, 0, 0, 0, false, none⟩
    let s := modPrt (fun x => { x with insts := tset x.insts p.inst new }) s
    let s := if before ≠ new.claims then claimEnd before s else s
    let s := if new.claims < 48 then claimProgram new.claims s else s
    let s := if locked then rrecEventBy src p.inst ElemState.reset s else s
    thetaStart p.inst src 2 s

/-- Octets of a measurand in the FREF layout (R195). -/
def Measurand.octets (m : Measurand) (k : Nat) : Bytes := u8 m.slot1 ++ u8 m.slot2 ++ u8 m.comb ++ u8 k

/-- PRT_SET_ELEMENT's payload for OP 1 (R195). -/
def elemOctets (d : ElemDef) (groups : List (List Word)) : Bytes :=
  u16 d.inst ++ u8 d.zone ++ u8 d.cls ++ u8 1 ++ u8 0 ++ u8 d.fs ++ u8 d.dirreq ++ d.imeas.octets 0 ++ d.vmeas.octets 0 ++ u32 d.blk ++ u8 d.blkinv
    ++ u8 d.enmask ++ u16 d.dirsup ++ u16 d.restr ++ zeros 6 ++ groups.flatMap fun v => v.flatMap w32

/-- PRT_GET_ELEMENT (R195). -/
def execPrtGetElement (t : Nat) (e : Env) (inst : Nat) (s : State) : Res :=
  let s := atTime t s
  go (runCmd e ⟨0x0402, false, plenIs 4, 288, [.service, .maint, .safeService]⟩ (fun rt s =>
    checked e rt (firstFail [bad (tget s.prt.insts inst).isSome]) (fun s =>
      match tget s.prt.insts inst with
      | some i => reply rt stOk 0 (elemOctets i.cfg i.groups) s
      | none => s) s) s)

/-! ### Matrix rows -/

/-- A term of R183 that is not refused. -/
def termOk (t : Word) : Bool :=
  let idx := bits t 21 0
  bits t 28 22 == 0 && (match bits t 31 29 with
    | 1 => decide (idx < 32768)
    | 2 => decide (idx < 48)
    | 3 => decide (idx < 4160)
    | 4 => decide (idx < 256)
    | _ => true)

/-- PRT_TRIP_MATRIX (R183, R195). -/
def matrixCheck (p : TripMatrix) (_ : State) : Option (Nat × Nat) :=
  firstFail [bad (p.row < 16), bad (p.nterm ≤ 32 ∧ p.terms.length = p.nterm), bad (p.terms.all termOk)]

/-- Writable bits of TRP_ROW_CTL (R198). -/
abbrev rowCtlMask : Word := 0x000F7EFF#32

/-- PRT_TRIP_MATRIX takes effect. -/
def matrixApply (p : TripMatrix) (s : State) : State :=
  settle (modRow p.row (fun r => { r with ctl := p.ctl &&& rowCtlMask, time := p.time, maxp := bits p.maxp 15 0, terms := p.terms }) s)

/-! ### Groups and test mode -/

/-- A group change outside evaluation takes effect at once (R143). -/
def setGroupNow (zn g src : Nat) (s : State) : State :=
  match tget s.prt.zones zn with
  | none => s
  | some z =>
    if z.group = g then s
    else
      let s := evBy src 0x0501 (u8 zn ++ u8 z.group ++ u8 g ++ u8 0) (modZone zn (fun z => { z with group := g }) s)
      let s := foldOver (instsOf s zn) (fun p s =>
        let e := p.2.lock p.2.reinit
        let s := modInst p.1 (fun i => { i with es := e }) s
        if e.rrec = p.2.es.rrec then s else rrecEvent z.cfg.core p.1 e s) s
      claimsOfZone zn s

/-- PRT_SET_GROUP (R143, R195). -/
def execPrtSetGroup (t : Nat) (e : Env) (zone group : Nat) (s : State) : Res :=
  let s := atTime t s
  go (runCmd e ⟨0x0403, false, plenIs 4, 0, [.service, .maint]⟩ (fun rt s =>
    let byLogic : Bool := match tget s.prt.zones zone with
      | some z => z.cfg.grpLo != 0xFFFFFFFF
      | none => false
    checked8 e rt (firstFail [(!byLogic, stConflict, s.sys.st.code)]) (firstFail [bad (tget s.prt.zones zone).isSome, bad (group < 4)]) (fun s =>
      let s := if inService s then modZone zone (fun z => { z with groupReq := some (group, 0) }) s else setGroupNow zone group (cmdSrc rt.src) s
      reply rt stOk 0 [] s) s) s)

/-- A slot entry whose words are numbers, TAU not below 0 (R195). -/
def InjectSlot.ok (x : InjectSlot) : Bool :=
  [x.preMag, x.preAng, x.fltMag, x.fltAng, x.fltDc, x.tau].all finite32 && !(val32 x.tau).lt Flt64.zero

/-- PRT_TEST_INJECT's own checks (R194, R195). -/
def injectCheck (p : TestInject) (s : State) : Option (Nat × Nat) :=
  match tget s.prt.zones p.zone with
  | none => some (stBadParam, 0)
  | some z =>
    let d := (p.sec : Int) * NS + p.ns - baseNs s (zoneBase s z.cfg)
    if p.op = 0 then none
    else firstFail [bad (p.op = 1), bad (1 ≤ p.durMs ∧ p.durMs ≤ 60000), bad (p.ns < NS), bad (10000000 ≤ d ∧ d ≤ 60 * (NS : Int)),
      bad (p.slots.length = 8 ∧ p.slots.all InjectSlot.ok)]

/-- PRT_TEST_INJECT (R194, R195): from the zone's next index. -/
def execPrtTestInject (t : Nat) (e : Env) (p : TestInject) (s : State) : Res :=
  let s := atTime t s
  go (runCmd e ⟨0x0405, true, plenIs (if p.op = 0 then 4 else 216), 0, [.service]⟩ (fun rt s =>
    checked e rt (injectCheck p s) (fun s =>
      let s := if p.op = 0 then endTestMode p.zone s
        else modZone p.zone (fun z => { z with testReq := some (some ⟨(p.sec : Int) * NS + p.ns, p.durMs, p.slots⟩) }) s
      reply rt stOk 0 [] s) s) s)

end Sys2Proof.Machine
end

