-- ==== Sys2Proof/Machine/Wake.lean ====
section
/-! DEFINITION. A wake source acts (18_power_start_sleep.md R448 to R450; R295). -/

namespace Sys2Proof.Machine

/-- Wake classes of R452. -/
abbrev wakePattern : Nat := 0
abbrev wakeLinkClass : Nat := 1

/-- A wake source acts: during entry or from SHED2 on it is held, during a wake it is the second and has no effect (R448, R450). A port's source is recorded with its pattern (R310); INDEX is the port there (log entry 36). -/
def wakeStart (src : WakeSrc) (s : State) : State :=
  if s.sys.st ≠ .safelight ∨ s.pwr.waking.isSome then s
  else if s.pwr.entry.isSome || decide (s.pwr.shed ≥ 2) then
    if s.pwr.wakeHeld.isSome then s else { s with pwr := { s.pwr with wakeHeld := some src } }
  else
    let t := baseNs s 0
    let s := { s with pwr := { s.pwr with wakeHeld := none, waking := some ⟨src, s.now, ifield 32 (secOf t), nsOf t⟩ } }
    if src.cls = wakePattern then ev 0x080D (u8 src.index ++ u8 (macOf s src.index).wakePat ++ u16 0) s
    else if src.cls = wakeLinkClass then ev 0x080D (u8 src.index ++ u8 8 ++ u16 0) s
    else s

end Sys2Proof.Machine
end

