-- ==== Sys2Proof/Machine/Network.lean ====
section
/-! DEFINITION. Links, PAUSE, the ingress filter, wake patterns and the redundancy stage (12_ports_redundancy.md R286 to R303). -/

namespace Sys2Proof.Machine

abbrev portAddr (by' : Nat) : Nat := Config.mac by'

/-- Modes of R286 that a port may take. -/
def modeAllowed (p m : Nat) : Bool := m == 0 || (if p < 2 then decide (m ≤ 3) else decide (4 ≤ m) && decide (m ≤ 7))

/-- MODE in effect on port p: a mode that the port may not take is used as 0 (R286, R311). -/
def MacPort.mode (m : MacPort) (p : Nat) : Nat := if modeAllowed p (bits m.ctl 2 0) then bits m.ctl 2 0 else 0

/-- LINK_HOLD in ns, values above 1,000 ms used as 1,000 (R287, R311). -/
def MacPort.linkHold (m : MacPort) : Nat := min 1000 (bits m.ctl 25 16) * 1000000

/-- The PHY's in-band status: up and full duplex, with a speed (R286, R287). -/
def inbandOk (c : LinkCond) : Bool :=
  match c.inband with
  | some (up, hdx, sp) => up && !hdx && decide (sp ≤ 2)
  | none => false

def inbandHdx (c : LinkCond) : Bool :=
  match c.inband with
  | some (_, hdx, _) => hdx
  | none => false

/-- Lock conditions of a mode (R287). -/
def condOk (p : Nat) (m : MacPort) (c : LinkCond) : Bool :=
  match m.mode p with
  | 0 => false
  | 1 => c.pcsLock && !c.hiBer && !c.localFault && !c.remoteFault
  | 2 => c.pcsLock && (!bit m.ctl 3 || c.anDone)
  | 3 => c.pcsLock
  | 4 => c.pcsLock && (!bit m.ctl 3 || c.anDone) && inbandOk c
  | _ => c.pcsLock && !inbandHdx c

/-- Speed code in force in a mode (R286, R287). -/
def modeSpeed (p : Nat) (m : MacPort) (c : LinkCond) : Nat :=
  match m.mode p with
  | 1 => 3
  | 2 => 2
  | 3 => 1
  | 5 => 2
  | 6 => 1
  | 4 => match c.inband with | some (_, _, sp) => sp | none => 0
  | _ => 0

/-- The port has power: SA and SB are off from SHED3 on, and a gated module keeps its wake ports only (R436, R447). -/
def wakePort (s : State) (p : Nat) : Bool := (macOf s p).wakeCtl != 0#9
def portPowered (s : State) (p : Nat) : Bool :=
  decide (p < 4) && s.sys.st != .off && !portOff s p && (!s.pwr.gated || wakePort s p)

/-- A link change or a pattern in SAFELIGHT sets MAC_WAKE_STAT (R295). -/
def linkWake (p : Nat) (s : State) : State :=
  if s.sys.st = .safelight ∧ bit (macOf s p).wakeCtl 8 then
    wakeStart ⟨wakeLinkClass, p⟩ (modMac p (fun m => { m with wakeLink := true, wakeSeen := true }) s)
  else s

/-- Adds the paused time up to now to TX_PAUSED_NS (R291). -/
def pauseAccrue (p : Nat) (s : State) : State :=
  match (macOf s p).pauseEnd with
  | none => s
  | some e => modMac p (fun m => { m with pausedFrom := max m.pausedFrom s.now }) (macCount p 16 (min s.now e - (macOf s p).pausedFrom) s)

def pauseEnds (p : Nat) (s : State) : State := modMac p (fun m => { m with pauseEnd := none }) (pauseAccrue p s)

/-! ### Bracket mode -/

/-- The preferred port number of pair q. -/
def prefPort (s : State) (q : Nat) : Nat := 2 * q + (pairOf s q).cfg.pref

/-- Subscriptions that admit both ports of pair q; only PA and PB feed the SVE (R116, R300). -/
def pairStreams (s : State) (q : Nat) : List Nat :=
  if q = 0 then (s.sve.subs.filter fun u => u.2.cfg.flags % 4 == 3).map Prod.fst else []

/-- The revert hold runs, restarts or stops (R303 step 1). -/
def holdUpdate (q : Nat) (restart : Bool) (s : State) : State :=
  let p := pairOf s q
  let run := p.cfg.mode == 2 && nbit p.cfg.flags 0 && !p.bothDown && p.revert.isNone && p.active != p.cfg.pref && linkUp s (prefPort s q)
  modPair q (fun p => { p with holdFrom := if !run then none else if restart || p.holdFrom.isNone then some s.now else p.holdFrom }) s

/-- A failover (R301); the record names no stream where none caused it. -/
def failover (q new cause : Nat) (stream : Option Nat) (s : State) : State :=
  let s := modPair q (fun p => { p with active := new, bothDown := false, revert := none, missAct := [], missPref := [], failover := satInc p.failover }) s
  let (n, s) := match stream with
    | some n => (n, s)
    | none => let (i, s) := drawFree s; ((Config.freeWord i).toNat % 65536, s)
  holdUpdate q true (ev 0x0803 (u8 q ++ u8 new ++ u8 cause ++ u8 0 ++ u16 n ++ u16 0) s)

/-- A revert ends with result 0 or 2: the preferred port is active (R303). -/
def revertDone (q result : Nat) (s : State) : State :=
  let s := modPair q (fun p => { p with active := p.cfg.pref, revert := none, missAct := [], missPref := []
                                        reverts := if result = 0 then satInc p.reverts else p.reverts }) s
  holdUpdate q false (ev 0x0804 (u8 q ++ u8 result ++ u16 0) s)

/-- A revert aborts (R303 result 1). -/
def revertAbort (q : Nat) (s : State) : State :=
  let s := modPair q (fun p => { p with revert := none, missPref := [], revertAbort := satInc p.revertAbort }) s
  holdUpdate q true (ev 0x0804 (u8 q ++ u8 1 ++ u16 0) s)

/-- A stream switches to the preferred port; with the last one the revert completes (R303 steps 3 and 4). -/
def streamSwitch (q stream : Nat) (s : State) : State :=
  match (pairOf s q).revert with
  | none => s
  | some r =>
    let sw := if r.switched.contains stream then r.switched else r.switched ++ [stream]
    let s := modPair q (fun p => { p with revert := some { r with switched := sw, kept := r.kept.filter fun k => k.1 != stream } }) s
    if (pairStreams s q).all sw.contains then revertDone q 0 s else s

/-- Bracket mode follows a LINK: up names a port whose LINK has just set (R301, R303, R478). -/
def bracketLink (q : Nat) (up : Option Nat) (s : State) : State :=
  let p := pairOf s q
  if p.cfg.mode ≠ 2 then s
  else
    let a := linkUp s (2 * q)
    let b := linkUp s (2 * q + 1)
    if !a && !b then modPair q (fun p => { p with bothDown := true, revert := none, holdFrom := none }) s
    else if p.bothDown then
      match up with
      | some port => failover q (port % 2) 2 none s
      | none => s
    else if p.revert.isSome then
      if !linkUp s (prefPort s q) then revertAbort q s
      else if !linkUp s (2 * q + p.active) then revertDone q 2 s
      else s
    else if !linkUp s (2 * q + p.active) then failover q (1 - p.active) 0 none s
    else holdUpdate q false s

/-- smpCnt period of a subscription (R118). -/
def smpPeriod (rate : Nat) : Nat := if rate = 0 then 48000 else rateHz rate

/-- Two misses with consecutive smpCnt: the later one now, the earlier one within half a period of at least 0.5 s. -/
def consecutive (s : State) (last : Option (Nat × Nat)) (lim cnt : Nat) : Bool :=
  match last with
  | some (c, at') => (c + 1) % lim == cnt && decide (s.now ≤ at' + NS / 4)
  | none => false

/-- A frame missed on a side of pair q (R300, R301, R303). -/
def frameMissed (q stream cnt side : Nat) (s : State) : State :=
  match tget s.sve.subs stream with
  | none => s
  | some u =>
    let p := pairOf s q
    let lim := smpPeriod u.cfg.rate
    let switched := match p.revert with
      | some r => r.switched.contains stream
      | none => false
    let act := if switched then p.cfg.pref else p.active
    let onPref := p.revert.isSome && side == p.cfg.pref
    let again := consecutive s (tget (if onPref then p.missPref else p.missAct) stream) lim cnt
    let note (p : Pair) : Pair :=
      if onPref then { p with missPref := tset p.missPref stream (cnt, s.now) }
      else if side = act then { p with missAct := tset p.missAct stream (cnt, s.now) } else p
    let s := modPair q note s
    if side = act then
      let s := modPair q (fun p => { p with missActCnt := satInc p.missActCnt }) s
      if !again || p.bothDown then s else if onPref then revertAbort q s else failover q (1 - side) 1 (some stream) s
    else
      let s := modPair q (fun p => { p with missStbyCnt := satInc p.missStbyCnt, lastMissStby := s.now, lastMissStream := stream }) s
      let s := if (pairOf s q).stbyFault then s
        else ev 0x0805 (u8 q ++ u8 1 ++ u16 stream) (modPair q (fun p => { p with stbyFault := true }) s)
      if onPref then (if again then revertAbort q s else s)
      else if side = p.cfg.pref then holdUpdate q true s else s

/-- What the redundancy stage has seen of a frame of a stream: whether the other side has it too, within PATH_SKEW (R300). -/
def pairNote (q stream cnt side : Nat) (s : State) : Bool × State :=
  let p := pairOf s q
  let recent := p.arrived.filter fun w => decide (s.now ≤ w.rx + NS / 4)
  let same (d : Nat) (w : BrWait) : Bool := w.stream == stream && w.smpCnt == cnt && w.port == d
  match recent.find? (same (1 - side)) with
  | some w =>
    (decide (s.now ≤ w.rx + p.cfg.pathSkewNs),
     modPair q (fun p => { p with arrived := recent ++ [⟨stream, cnt, side, s.now⟩]
                                  waits := p.waits.filter fun x => !(same (1 - side) x && decide (s.now ≤ x.rx + p.cfg.pathSkewNs)) }) s)
  | none =>
    if recent.any (same side) then (false, s)
    else (false, modPair q (fun p => { p with arrived := recent ++ [⟨stream, cnt, side, s.now⟩], waits := p.waits ++ [⟨stream, cnt, side, s.now⟩] }) s)

/-- The pair's state as every start restarts it (R312). -/
def pairRestart (q : Nat) (s : State) : State :=
  let up := linkUp s (prefPort s q)
  modPair q (fun p => { p with nodes := [], revert := none, holdFrom := none, stbyFault := false, waits := [], arrived := [], missAct := [], missPref := []
                               active := p.cfg.pref, bothDown := p.cfg.mode == 2 && !up }) s

/-! ### Ownership clocks that LINK drives (R306) -/

/-- A port of pair 0 has LINK set. -/
def pair0Up (s : State) : Bool := linkUp s 0 || linkUp s 1

/-- The listening count of every zone runs only while a port of pair 0 has LINK set; both clear starts the silence (R306). -/
def pair0Changed (s : State) : State :=
  let up := pair0Up s
  let one (z : OwnZone) : OwnZone :=
    if z.st ≠ .listening then z
    else match up, z.runFrom with
      | true, none => { z with runFrom := some s.now }
      | false, some f => { z with listened := z.listened + (s.now - f), runFrom := none }
      | _, _ => z
  { s with red := { s.red with zones := s.red.zones.map one
                               silentFrom := if up then none else s.red.silentFrom.or (some s.now) } }

/-- A change of LINK of port p with its record and its effects (R287, R291, R301, R306, R328). -/
def linkChange (p : Nat) (up : Bool) (s : State) : State :=
  let s := if up then s else pauseEnds p (modMac p (fun m => { m with xoffSent := none }) s)
  let s := ev 0x0801 (u8 p ++ u8 (b2n up) ++ u8 (macOf s p).speed ++ u8 0) (modMac p (fun m => { m with link := up }) s)
  let o := logical s p
  let s := if !up && !outUp s o then swcFlush o s else s
  let s := bracketLink (p / 2) (if up then some p else none) s
  if p < 2 then pair0Changed s else s

/-- A change of LINK that its conditions make: it may wake the module (R295). -/
def setLink (p : Nat) (up : Bool) (s : State) : State := linkWake p (linkChange p up s)

/-- The lock conditions of a port as they are now; while LINK is set and they hold, SPEED is the speed in force (R287). -/
def linkCond (port : Nat) (c : LinkCond) (s : State) : State :=
  modMac port (fun m => { m with cond := c, speed := if m.link && condOk port m c then modeSpeed port m c else m.speed }) s

/-- LINK_UP (R287): the lock conditions have held for LINK_HOLD at least; with LINK set already, a new in-band status. -/
def execLinkUp (t port : Nat) (c : LinkHeld) (s : State) : Res :=
  let s := atTime t s
  if !portPowered s port then go s
  else
    let s := linkCond port c.cond s
    let m := macOf s port
    if m.link || !condOk port m c.cond || decide (s.now < c.since + m.linkHold) then go s
    else go (setLink port true (modMac port (fun m => { m with speed := modeSpeed port m c.cond }) s))

/-- LINK_DOWN (R287): a lock condition has failed. -/
def execLinkDown (t port : Nat) (c : LinkCond) (s : State) : Res :=
  let s := atTime t s
  if !portPowered s port then go s
  else
    let s := linkCond port c s
    let m := macOf s port
    if !m.link || condOk port m c then go s else go (setLink port false s)

/-! ### PAUSE -/

/-- A PAUSE received by port p (R290, R291, R310). -/
def pauseReceive (p n : Nat) (s : State) : State :=
  let s := macCount p 10 1 s
  let m := macOf s p
  if !bit m.ctl 4 then s
  else
    let hold := cdiv (n * quantumPs s p) 1000
    let s := pauseAccrue p s
    let s :=
      if n = 0 then modMac p (fun m => { m with pauseEnd := none }) s
      else modMac p (fun m => let from' := max s.now m.txUntil; { m with pauseEnd := some (from' + hold), pausedFrom := from' }) s
    let s := modMac p (fun m => { m with pauseEvNew := m.pauseEvNew + 1 }) s
    if secondPassed s (macOf s p).pauseEvLast then
      ev 0x0802 (u8 p ++ zeros 3 ++ u32 (macOf s p).pauseEvNew) (modMac p (fun m => { m with pauseEvNew := 0, pauseEvLast := some s.now }) s)
    else s

/-- PAUSE_RECEIVE (R290, R291). -/
def execPauseReceive (t port quanta : Nat) (s : State) : Res :=
  let s := atTime t s
  if !portPowered s port || !linkUp s port then go s else go (pauseReceive port (quanta % 65536) s)

/-- PAUSE_EXPIRE (R291): the pause has run out. -/
def execPauseExpire (t port : Nat) (s : State) : Res :=
  let s := atTime t s
  match (macOf s port).pauseEnd with
  | some e => if e ≤ s.now then go (pauseEnds port s) else go s
  | none => go s

/-- PAUSE_REFRESH (R292): half of TX_QUANTA has passed and the cells held are still above XON; at or below XON the pause is released. -/
def execPauseRefresh (t port : Nat) (s : State) : Res :=
  let s := swcSettle (atTime t s)
  let m := macOf s port
  match m.xoffSent with
  | some due =>
    if bit m.ctl 5 ∧ due ≤ s.now ∧ cellsPort s port > m.xon then
      go (sendPause port m.quanta (modMac port (fun m => { m with xoffSent := some (s.now + m.quanta * quantumPs s port / 2000) }) s))
    else go (pauseCheck port s)
  | none => go (pauseCheck port s)

/-! ### Reception -/

/-- The fields of a received frame (R288, R318): octets from the destination address, the FCS not among them. -/
def parseFrame (b : Bytes) : NetFrame :=
  let ty := unbe (slice b 12 2)
  let tci := unbe (slice b 14 2)
  let tag := if ty = 0x8100 then some (tci / 8192, tci % 4096) else none
  let etype := if ty = 0x8100 then unbe (slice b 16 2) else ty
  let body := b.drop (if ty = 0x8100 then 18 else 14)
  let appid := if etype = 0x88BA ∨ etype = 0x88B8 then some (unbe (slice body 0 2)) else none
  ⟨unle (slice b 0 6), unle (slice b 6 6), tag, etype, appid, b.length + 4, .raw body⟩

abbrev pauseMac : Nat := 0x010000C28001
abbrev ptpMacs : List Nat := [0x000000191B01, 0x0E0000C28001, 0x8101005E0001, 0x6B00005E0001]

/-- The supervision address of pair q (R297). -/
def supMac (s : State) (q : Nat) : Nat := 0x0001004E1501 + (pairOf s q).cfg.supAddrLsb * 2 ^ 40

/-- Hash bit of an address (R293). -/
def hashHit (m : MacPort) (a : Nat) : Bool :=
  let h := (crc32 (macBytes a)).toNat % 512
  (m.hash.getD (h / 32) 0#32).getLsbD (h % 32)

/-- The ingress filter (R293). -/
def filterPass (s : State) (p : Nat) (f : NetFrame) : Bool :=
  let m := macOf s p
  let c := m.filtCtl
  if !bit c 0 then true
  else if (f.etype = 0x88BA ∨ f.etype = 0x88B8) ∧ bit c 3 then
    m.ranges.any fun r => decide (r.1 ≤ f.appid.getD 0) && decide (f.appid.getD 0 ≤ r.2)
  else if ptpMacs.contains f.dst || (pairMode s p == 1 && f.dst == supMac s (p / 2)) then true
  else if f.dst = Config.mac p ∨ m.uaddr.any (fun u => u.2 && u.1 == f.dst) then true
  else if f.dst = broadcast then bit c 1
  else if isGroup f.dst then bit c 2 && hashHit m f.dst
  else false

/-- A wake pattern matches the octets of a good frame, its FCS among them (R295). -/
def wakeMatch (w : WakePat) (b : Bytes) : Bool :=
  let is := ones 128 w.mask.toNat
  match is.getLast? with
  | none => false
  | some top => decide (w.ofs + top + 1 ≤ b.length) && crc32c (is.map fun i => b.getD (w.ofs + i) 0#8) == w.chk

/-- The wake patterns of a port against a good frame (R295): status, count, and in SAFELIGHT the wake. -/
def wakePatterns (p : Nat) (b : Bytes) (s : State) : State :=
  foldOver (List.range 8) (fun k s =>
    match (macOf s p).wake[k]? with
    | none => s
    | some w =>
      if wakeMatch w b then
        let s := modMac p (fun m => { m with wakePat := k, wakeSeen := true, wakeCnt := satInc m.wakeCnt }) s
        if s.sys.st = .safelight ∧ bit (macOf s p).wakeCtl k then wakeStart ⟨wakePattern, p⟩ (modMac p (fun m => { m with wakeLink := false }) s)
        else s
      else s) s

/-- Counts a good frame (R311). -/
def countGood (p : Nat) (f : NetFrame) (s : State) : State :=
  macCount p (if f.dst = broadcast then 4 else if isGroup f.dst then 3 else 2) 1 (macCount p 1 f.len (macCount p 0 1 s))

/-- A redundancy control trailer at the end of a frame: SeqNr and LanId, when the suffix and LSDUsize match (R297). -/
def trailerOf (b : Bytes) (hdr : Nat) : Option (Nat × Nat) :=
  let n := b.length
  let w := unbe (slice b (n - 4) 2)
  if n ≥ hdr + 6 ∧ unbe (slice b (n - 2) 2) = 0x88FB ∧ w % 4096 = (n - hdr) % 4096 then some (unbe (slice b (n - 6) 2), w / 4096) else none

/-- One record per second for a pair's counter (R310). -/
def wrongLan (q : Nat) (first : Bool) (s : State) : State :=
  let s := modPair q (fun p => { p with wrongA := if first then satInc p.wrongA else p.wrongA, wrongB := if first then p.wrongB else satInc p.wrongB
                                        wrongNew := p.wrongNew + 1 }) s
  if secondPassed s (pairOf s q).wrongLast then
    ev 0x0806 (u8 q ++ zeros 3 ++ u32 (pairOf s q).wrongNew) (modPair q (fun p => { p with wrongNew := 0, wrongLast := some s.now }) s)
  else s

def nodesFull (q : Nat) (s : State) : State :=
  let s := modPair q (fun p => { p with ntFull := satInc p.ntFull, fullNew := p.fullNew + 1 }) s
  if secondPassed s (pairOf s q).fullLast then
    ev 0x0807 (u8 q ++ zeros 3 ++ u32 (pairOf s q).fullNew) (modPair q (fun p => { p with fullNew := 0, fullLast := some s.now }) s)
  else s

/-- The rows that bring a frame to the redundancy stage: one copy may come with FRAME_RECEIVE and with the row of the engine that takes it (log entry 45). -/
abbrev prpFrame : Nat := 0
abbrev prpSv : Nat := 1
abbrev prpGoose : Nat := 2
abbrev prpBeacon : Nat := 3

/-- The entry of the copy with sequence number seq that port p has brought with other rows already. -/
def sameCopy (row p seq : Nat) (x : PrpSeq) : Bool := x.seq == seq && x.port == p && !x.rows.contains row

/-- Whether a copy passes, and the entries then (R297): it passes unless one has passed within ENTRY_FORGET; a copy that another row has brought is decided already. The third answer says that it is a new copy. -/
def prpDecide (row p seq now : Nat) (l : List PrpSeq) : Bool × List PrpSeq × Bool :=
  match l.find? (sameCopy row p seq) with
  | some c => (c.passed, l.map (fun x => if x = c then { x with rows := row :: x.rows } else x), false)
  | none =>
    let pass := !l.any fun x => x.seq == seq && x.passed
    (pass, l ++ [⟨seq, now, p, [row], pass⟩], true)

/-- PRP reception (R297): node table and duplicate discard; whether the frame passes. -/
def prpReceive (row p src : Nat) (rct : Option (Nat × Nat)) (sup : Bool) (s : State) : Bool × State :=
  let q := p / 2
  let win := (pairOf s q).cfg.entryForgetMs * 1000000
  let live (n : PrpNode) : List PrpSeq := n.seqs.filter fun x => decide (s.now < x.at' + win)
  let again := match rct with
    | some (seq, _) => (pairOf s q).nodes.any fun n => n.src == src && (live n).any (sameCopy row p seq)
    | none => false
  let s := modPair q (fun x => { x with nodes := x.nodes.map fun n => if n.src = src then { n with seen := s.now } else n }) s
  let s := if sup then modPair q (fun x => { x with supRx := satInc x.supRx }) s else s
  let s := match rct with
    | some (_, lan) => if lan == 0xA + p % 2 || again then s else wrongLan q (decide (p % 2 = 0)) s
    | none => s
  if rct.isNone ∧ !sup then (true, s)
  else
    let known := (pairOf s q).nodes.any fun n => n.src == src
    if !known ∧ (pairOf s q).nodes.length ≥ 1024 then (true, nodesFull q s)
    else
      let s := if known then s else modPair q (fun x => { x with nodes := x.nodes ++ [⟨src, s.now, []⟩] }) s
      match rct with
      | none => (true, s)
      | some (seq, _) =>
        let seen := ((pairOf s q).nodes.find? fun n => n.src == src).map live
        let (pass, l, new) := prpDecide row p seq s.now (seen.getD [])
        let s := modPair q (fun x => { x with nodes := x.nodes.map fun n => if n.src = src then { n with seqs := l } else n }) s
        (pass, if new && !pass then modPair q (fun x => { x with dup := satInc x.dup }) s else s)

/-- A stream that has switched during REVERTING is accepted from the preferred port, every other frame from the active one (R298, R303). -/
def bracketAccepts (s : State) (p : Nat) (f : NetFrame) : Bool :=
  let q := p / 2
  let x := pairOf s q
  let moved := match x.revert with
    | some r => f.etype == 0x88BA && r.switched.any fun n => match tget s.sve.subs n with
        | some u => some u.cfg.appid == f.appid && u.cfg.dst == f.dst
        | none => false
    | none => false
  if moved then p == prefPort s q else activePort s q == some p

/-- The redundancy stage and the switch core for a frame past the filter (R289 stages 5 to 7). -/
def stage567 (p : Nat) (rx : RxFrame) (f : NetFrame) (good : Bool) (s : State) : State :=
  let inp := logical s p
  if f.etype = 0x88F7 then swcIn inp p rx.stamp good f s
  else if p ≥ 2 ∧ udpPtp f then s
  else match pairMode s p with
    | 0 => swcIn inp p rx.stamp good f s
    | 1 =>
      if !good then swcIn inp p rx.stamp false f s
      else
        let rct := trailerOf rx.octets (if f.tag.isSome then 18 else 14)
        let sup := f.etype == 0x88FB && f.dst == supMac s (p / 2)
        let (pass, s) := prpReceive prpFrame p f.src rct sup s
        if !pass || sup then s
        else
          let f := if rct.isSome then { parseFrame (rx.octets.take (rx.octets.length - 6)) with len := f.len - 6 } else f
          swcIn inp p rx.stamp true f s
    | _ =>
      if bracketAccepts s p f then swcIn inp p rx.stamp good f s
      else modPair (p / 2) (fun x => { x with stbyDisc := if good then satInc x.stbyDisc else x.stbyDisc }) s

/-- Stage 4 and what follows (R293). -/
def stage4 (p : Nat) (rx : RxFrame) (f : NetFrame) (good : Bool) (s : State) : State :=
  if filterPass s p f then stage567 p rx f good s else if good then macCount p 9 1 s else s

/-- FRAME_RECEIVE (R288, R289). -/
def execFrameReceive (t : Nat) (f : RxFrame) (s : State) : Res :=
  let s := atTime t s
  let p := f.port
  if !portPowered s p || !linkUp s p then go s
  else
    let s := if f.pcsErr = 0 then s else macCount p 8 f.pcsErr s
    let n := f.octets.length + 4
    let x := parseFrame f.octets
    let awake := s.sys.st != .safelight
    if n > (macOf s p).lenMax then
      let s := macCount p 7 1 s
      go (if awake && x.etype != 0x8808 then stage4 p f x false s else s)
    else if !f.fcsOk then
      let s := macCount p 5 1 (if n < 64 then macCount p 6 1 s else s)
      go (if awake && decide (n ≥ 64) && x.etype != 0x8808 then stage4 p f x false s else s)
    else if n < 64 then go (macCount p 6 1 s)
    else
      let s := countGood p x s
      if x.etype = 0x8808 then
        let body := f.octets.drop 14
        let op := unbe (slice body 0 2)
        if op ≠ 1 then go (macCount p 17 1 s)
        else if x.dst = pauseMac ∨ x.dst = Config.mac p then go (pauseReceive p (unbe (slice body 2 2)) s)
        else go s
      else
        let s := wakePatterns p (f.octets ++ le 4 (crc32 f.octets).toNat) s
        go (if awake then stage4 p f x true s else s)

/-! ### PRP and Bracket clocks -/

/-- PRP_SUPERVISION_TRANSMIT (R297). -/
def execPrpSupervisionTransmit (t pair : Nat) (s : State) : Res :=
  let s := atTime t s
  let p := pairOf s pair
  if pair ≥ 2 ∨ p.cfg.mode ≠ 1 ∨ s.now < p.nextLife ∨ s.sys.st = .off ∨ s.pwr.gated then go s
  else
    let s := modPair pair (fun p => { p with nextLife := s.now + p.cfg.lifeCheckMs * 1000000 }) s
    go (swcOwn .pair (2 * pair) (mkFrame (supMac s pair) (Config.mac (2 * pair)) none 0x88FB none (.prpSup (Config.mac (2 * pair)))) s)

/-- PRP_NODE_FORGET (R297). -/
def execPrpNodeForget (t pair src : Nat) (s : State) : Res :=
  let s := atTime t s
  let old (n : PrpNode) : Bool := n.src == src && decide (n.seen + (pairOf s pair).cfg.nodeForgetS * NS ≤ s.now)
  go (modPair pair (fun p => { p with nodes := p.nodes.filter fun n => !old n }) s)

/-- A frame that waited for the other side longer than PATH_SKEW (R300). -/
def missDue (s : State) (pair stream smpCnt : Nat) (w : BrWait) : Bool :=
  w.stream == stream && w.smpCnt == smpCnt && decide (w.rx + (pairOf s pair).cfg.pathSkewNs ≤ s.now)

/-- BRACKET_MISS_DECIDE (R300): PATH_SKEW has passed without the frame on the other side. -/
def execBracketMissDecide (t pair stream smpCnt : Nat) (s : State) : Res :=
  let s := atTime t s
  let p := pairOf s pair
  match p.waits.find? (missDue s pair stream smpCnt) with
  | some w =>
    if pair < 2 ∧ p.cfg.mode = 2 then
      go (frameMissed pair stream smpCnt (1 - w.port) (modPair pair (fun p => { p with waits := p.waits.filter fun x => !missDue s pair stream smpCnt x }) s))
    else go s
  | none => go s

/-- STANDBY_FAULT_CLEAR (R300): 10 s without a miss on the standby port. -/
def execStandbyFaultClear (t pair : Nat) (s : State) : Res :=
  let s := atTime t s
  let p := pairOf s pair
  if p.stbyFault && decide (p.lastMissStby + 10 * NS ≤ s.now) then
    go (ev 0x0805 (u8 pair ++ u8 0 ++ u16 p.lastMissStream) (modPair pair (fun p => { p with stbyFault := false }) s))
  else go s

/-- REVERT_HOLD_EXPIRE (R303 step 2): REVERTING begins; a pair without streams completes at once. -/
def execRevertHoldExpire (t pair : Nat) (s : State) : Res :=
  let s := atTime t s
  let p := pairOf s pair
  match p.holdFrom with
  | none => go s
  | some h =>
    if pair ≥ 2 ∨ s.now < h + p.cfg.revertHoldS * NS then go s
    else
      let s := modPair pair (fun p => { p with holdFrom := none, revert := some ⟨p.active, [], []⟩, missPref := [] }) s
      go (if (pairStreams s pair).isEmpty then revertDone pair 0 s else s)

/-! ### Commands (R309) -/

/-- NET_PORT_CONFIG: what its fields must be (R286, R292, R309). -/
def netPortCheck (p : NetPortCfg) : Option (Nat × Nat) :=
  firstFail [bad (p.port < 4), bad (modeAllowed p.port p.mode), bad (p.flags < 8), bad (1518 ≤ p.maxLen ∧ p.maxLen ≤ 9600),
    bad (p.linkHoldMs ≤ 1000), bad (1 ≤ p.txQuanta ∧ p.txQuanta < 65536), bad (p.xon < p.xoff)]

/-- MAC_CTL takes a value: a mode that the port may not take is used as 0 (R286, R311); a change of mode ends the link. -/
def setMacCtl (p : Nat) (v : Word) (s : State) : State :=
  let old := (macOf s p).mode p
  let ok := modeAllowed p (bits v 2 0)
  let used := if ok then bits v 2 0 else 0
  let s := if used ≠ old ∧ (macOf s p).link then setLink p false s else s
  modMac p (fun m => { m with ctl := v &&& 0x03FF003F#32, cfgErr := m.cfgErr || !ok }) s

/-- NET_PORT_CONFIG takes effect. -/
def netPortApply (p : NetPortCfg) (s : State) : State :=
  let v := wd (p.mode + p.flags * 8 + p.linkHoldMs * 65536)
  modMac p.port (fun m => { m with maxLen := p.maxLen, txQuanta := p.txQuanta, xoff := p.xoff, xon := p.xon }) (setMacCtl p.port v s)

/-- NET_FILTER (R294, R309). -/
def netFilterCheck (p : NetFilter) : Option (Nat × Nat) :=
  firstFail [bad (p.port < 4), bad (p.flags < 16), bad (p.addrs.length = 4 ∧ p.hash.length = 16 ∧ p.ranges.length = 8)]

def netFilterApply (p : NetFilter) (s : State) : State :=
  modMac p.port (fun m => { m with filtCtl := BitVec.ofNat 4 p.flags, uaddr := p.addrs, hash := p.hash, ranges := p.ranges }) s

/-- NET_WAKE_PATTERN (R295, R309). -/
def netWakeCheck (p : NetWake) : Option (Nat × Nat) :=
  firstFail [bad (p.port < 4), bad (p.k < 8), bad (p.flags < 4), bad (p.ofs ≤ 1408)]

def netWakeApply (p : NetWake) (s : State) : State :=
  modMac p.port (fun m => { m with
    wakeCtl := setBit (setBit m.wakeCtl p.k (nbit p.flags 0)) 8 (nbit p.flags 1)
    wake := lset m.wake p.k ⟨p.ofs, p.mask, p.chk⟩ }) s

/-- Counters of a pair in register order (R309, R312). -/
def Pair.counters (p : Pair) : List Word :=
  [p.failover, p.reverts, p.revertAbort, p.stbyDisc, p.missActCnt, p.missStbyCnt, p.dup, p.wrongA, p.wrongB, p.noRct, p.ntFull, p.supRx]

def Pair.clearCounters (p : Pair) : Pair :=
  { p with failover := 0#32, reverts := 0#32, revertAbort := 0#32, stbyDisc := 0#32, missActCnt := 0#32, missStbyCnt := 0#32
           dup := 0#32, wrongA := 0#32, wrongB := 0#32, noRct := 0#32, ntFull := 0#32, supRx := 0#32 }

/-- NET_COUNTERS (R309). -/
def execNetCounters (t : Nat) (e : Env) (p : NetCounters) (s : State) : Res :=
  let s := atTime t s
  let isPort := decide (p.target < 4)
  let isPair := p.target == 0x10 || p.target == 0x11
  go (runCmd e ⟨0x0706, false, plenIs 4, if isPort then 144 else 48, [.service, .maint, .safeService]⟩ (fun rt s =>
    checked e rt (firstFail [bad (isPort || isPair), bad (p.flags < 2)]) (fun s =>
      if isPort then
        let s := pauseAccrue p.target s
        let out := (macOf s p.target).cnt.flatMap fun c => u64 c.toNat
        reply rt stOk 0 out (if nbit p.flags 0 then modMac p.target (fun m => { m with cnt := List.replicate 18 0#64 }) s else s)
      else
        let q := p.target - 0x10
        let out := (pairOf s q).counters.flatMap w32
        reply rt stOk 0 out (if nbit p.flags 0 then modPair q Pair.clearCounters s else s)) s) s)

end Sys2Proof.Machine
end

