-- ==== Sys2Proof/Machine/SwitchTables.lean ====
section
/-! DEFINITION. The switch core's clocks, tables and policy by command (13_switch_core.md R317, R321 to R323, R329 to R331). -/

namespace Sys2Proof.Machine

/-- SWC_FRAME_TRANSMIT (R323): an output's scheduler starts its next frame. -/
def execSwcFrameTransmit (t port : Nat) (s : State) : Res :=
  let s := atTime t s
  if s.sys.st = .off ∨ s.sys.st = .safelight then go s else go (swcTransmit port (udpOut s))

/-- AGE_TIME as it is used, in s; 0 for no ageing (R331). -/
def ageTime (s : State) : Nat := if s.swc.ageTime = 0 then 0 else clampN 10 1000000 s.swc.ageTime

/-- FDB_AGE_OUT (R321): a dynamic entry that has not been refreshed for AGE_TIME goes. -/
def execFdbAgeOut (t mac vid : Nat) (s : State) : Res :=
  let s := atTime t s
  let old (e : FdbEnt) : Bool := e.mac == mac && e.vid == vid && !e.static && decide (e.seen + ageTime s * NS ≤ s.now)
  if ageTime s = 0 then go s else go (modSwc (fun w => { w with fdb := w.fdb.filter fun e => !old e }) s)

/-- SWC_VOQ_SEL_WRITE (R331): the depth of the selected VOQ in cells and frames. -/
def execSwcVoqSelWrite (t : Nat) (by' : Master) (v : Word) (s : State) : Res :=
  let s := atTime t s
  go (regWrite by' 0x0E0030 (fun s =>
    let s := swcSettle s
    let i := bits v 2 0
    let o := bits v 5 3
    let c := bits v 8 6
    let q := s.swc.voqs.filter fun x => x.1 == i && x.2.1 == o && x.2.2.1 == c
    let cells := nsum (q.map fun x => match s.swc.frames.find? fun h => h.id == x.2.2.2 with | some h => h.cells | none => 0)
    modSwc (fun w => { w with voqSel := maskWrite 0x1FF v, voqDepth := wd (min cells 65535 + min q.length 65535 * 65536) }) s) s)

/-- An APPID entry is the same as another: APPID, kind and destination. -/
def AppidRow.same (a b : AppidRow) : Bool := a.appid == b.appid && a.etype == b.etype && a.dst == b.dst

/-- Entries of the SVE are not written or deleted by command (R329). -/
def swcOwned (s : State) (p : SwcTable) : Bool :=
  match p.rows with
  | .appid rows => rows.any fun r => s.swc.appid.any fun e => e.sve != 0 && e.row.same r
  | _ => false

def SwcRows.length : SwcRows → Nat
  | .fdb r => r.length
  | .vlan r => r.length
  | .mcast r => r.length
  | .appid r => r.length

def SwcRows.code : SwcRows → Nat
  | .fdb _ => 0
  | .vlan _ => 1
  | .mcast _ => 2
  | .appid _ => 3

/-- Ranges of the entries (R329); a station address is a fixed entry (R320). -/
def SwcRows.ok : SwcRows → Bool
  | .fdb rows => rows.all fun r => decide (r.port ≤ 5) && decide (1 ≤ r.vid) && decide (r.vid ≤ 4094) && !isStation r.mac
  | .vlan rows => rows.all fun r => decide (1 ≤ r.vid) && decide (r.vid ≤ 4094)
  | .mcast rows => rows.all fun r => isGroup r.mac && decide (1 ≤ r.vid) && decide (r.vid ≤ 4094)
  | .appid rows => rows.all fun r => decide (r.appid < 65536) && decide (r.etype ≤ 1)

/-- One FDB entry written: it is static (R329). -/
def fdbPut (r : FdbRow) (l : List FdbEnt) : List FdbEnt :=
  let e : FdbEnt := ⟨r.mac, r.vid, r.port, true, 0, 0⟩
  if l.any (fun x => x.mac == r.mac && x.vid == r.vid) then l.map fun x => if x.mac = r.mac ∧ x.vid = r.vid then e else x
  else l ++ [e]

def mcastPut (r : McastRow) (l : List McastRow) : List McastRow :=
  if l.any (fun x => x.mac == r.mac && x.vid == r.vid) then l.map fun x => if x.mac = r.mac ∧ x.vid = r.vid then r else x else l ++ [r]

def appidPut (r : AppidRow) (l : List AppidEnt) : List AppidEnt :=
  if l.any (fun x => x.row.same r) then l.map fun x => if x.row.same r then { x with row := r } else x else l ++ [⟨r, 0⟩]

/-- The tables with the entries written, in payload order. -/
def swcPut (rows : SwcRows) (w : Swc) : Swc :=
  match rows with
  | .fdb l => { w with fdb := foldOver l fdbPut w.fdb }
  | .vlan l => { w with vlan := foldOver l (fun r t => tset t r.vid r) w.vlan }
  | .mcast l => { w with mcast := foldOver l mcastPut w.mcast }
  | .appid l => { w with appid := foldOver l appidPut w.appid }

/-- A dynamic entry that learning has made or refreshed at this instant: a write by command goes before it (R322). -/
def FdbEnt.fresh (now : Nat) (e : FdbEnt) : Bool := !e.static && e.seen == now

/-- The tables without the entries of these keys; what is learned in the same instant comes after the delete (R322). -/
def swcDrop (now : Nat) (rows : SwcRows) (w : Swc) : Swc :=
  match rows with
  | .fdb l => { w with fdb := w.fdb.filter fun x => x.fresh now || !l.any fun r => x.mac == r.mac && x.vid == r.vid }
  | .vlan l => { w with vlan := w.vlan.filter fun x => !l.any fun r => x.1 == r.vid }
  | .mcast l => { w with mcast := w.mcast.filter fun x => !l.any fun r => x.mac == r.mac && x.vid == r.vid }
  | .appid l => { w with appid := w.appid.filter fun x => !l.any fun r => x.row.same r }

/-- The tables keep their limits (R329). -/
def swcFits (w : Swc) : Bool :=
  decide (w.fdb.length ≤ 16384) && decide (w.mcast.length ≤ 1024) && decide (w.appid.length ≤ 1024)
    && w.fdb.all fun e => decide ((w.fdb.filter fun x => fdbBucket x.mac x.vid == fdbBucket e.mac e.vid).length ≤ 4)

/-- An entry that only this instant's learning has made, in a bucket that a write by command fills (R322). -/
def crowded (now : Nat) (l : List FdbEnt) (e : FdbEnt) : Bool :=
  e.fresh now && e.born == now && decide ((l.filter fun x => fdbBucket x.mac x.vid == fdbBucket e.mac e.vid).length > 4)

/-- A write of entries by command: it goes before a learning write of the same instant, which fails where the bucket is then full (R321, R322). -/
def swcWrite (now : Nat) (rows : SwcRows) (w : Swc) : Swc × Nat :=
  let w := swcPut rows w
  let lost := w.fdb.filter (crowded now w.fdb)
  ({ w with fdb := w.fdb.filter fun e => !crowded now w.fdb e }, lost.length)

/-- Refusals of SWC_TABLE_UPDATE with OP 1 or 2 at R375 step 8, then at steps 9 and 10 (R329). -/
def swcTablePre (p : SwcTable) (s : State) : Option (Nat × Nat) := if swcOwned s p then some (stConflict, s.sys.st.code) else none

def swcTableCheck (write : Bool) (p : SwcTable) (s : State) : Option (Nat × Nat) :=
  firstFail [bad (p.table < 4 ∧ p.table = p.rows.code), bad (1 ≤ p.count ∧ p.count ≤ 64 ∧ p.count = p.rows.length), bad (p.index = 0),
    bad p.rows.ok, (!write || swcFits (swcWrite s.now p.rows s.swc).1, stExhausted, 0)]

/-- SWC_TABLE_UPDATE with OP 1 takes effect (R329, R330); a reload of the stored configuration counts no entry as written by command (R331). -/
def swcTableWrite (src : Option Nat) (p : SwcTable) (s : State) : State :=
  let (w, lost) := swcWrite s.now p.rows s.swc
  let s := { s with swc := { w with tblWrites := w.tblWrites + wd (if src.isSome then p.count else 0) } }
  learnFailed lost (evCfg src 0x0841 (u8 p.table ++ u8 1 ++ u16 p.count) s)

/-- SWC_TABLE_UPDATE with OP 2 takes effect. -/
def swcTableDelete (src : Option Nat) (p : SwcTable) (s : State) : State :=
  evCfg src 0x0841 (u8 p.table ++ u8 2 ++ u16 p.count) (modSwc (swcDrop s.now p.rows) s)

/-- Octets of an entry as SWC_TABLE_UPDATE reads it (R329). -/
def FdbEnt.octets (e : FdbEnt) : Bytes := macBytes e.mac ++ u16 e.vid ++ u8 e.port ++ u8 (b2n e.static) ++ zeros 6
def VlanRow.octets (r : VlanRow) : Bytes := u16 r.vid ++ u8 r.member.toNat ++ u8 r.untag.toNat ++ u8 (fl r.valid 0 + fl r.floodUnkMc 1) ++ zeros 11
def McastRow.octets (r : McastRow) : Bytes := macBytes r.mac ++ u16 r.vid ++ u8 r.mask.toNat ++ zeros 7
def AppidEnt.octets (e : AppidEnt) : Bytes :=
  u16 e.row.appid ++ u8 e.row.etype ++ u8 e.row.mask.toNat ++ macBytes e.row.dst ++ u8 (b2n (e.sve != 0)) ++ zeros 5

/-- The entries of a table, in order. -/
def swcEntries (s : State) (table : Nat) : List Bytes :=
  match table with
  | 0 => s.swc.fdb.map FdbEnt.octets
  | 1 => s.swc.vlan.map fun p => p.2.octets
  | 2 => s.swc.mcast.map McastRow.octets
  | _ => s.swc.appid.map AppidEnt.octets

/-- SWC_TABLE_UPDATE with OP 0 (R329). -/
def execSwcTableRead (t : Nat) (e : Env) (p : SwcTable) (s : State) : Res :=
  let s := atTime t s
  go (runCmd e ⟨0x0704, false, fun n => n == 8 || n == 8 + 16 * p.count, 8 + 16 * p.count, [.service, .maint]⟩ (fun rt s =>
    checked e rt (firstFail [bad (p.table < 4), bad (1 ≤ p.count ∧ p.count ≤ 64)]) (fun s =>
      let l := swcEntries s p.table
      let out := (l.drop p.index).take p.count
      let next := if p.index + out.length < l.length then p.index + out.length else 0xFFFFFFFF
      reply rt stOk 0 (u32 next ++ u16 out.length ++ u16 0 ++ out.flatten) s) s) s)

/-- SWC_TABLE_UPDATE with OP 3 (R329): the dynamic FDB entries go. -/
def execSwcTableFlush (t : Nat) (e : Env) (p : SwcTable) (s : State) : Res :=
  let s := atTime t s
  go (runCmd e ⟨0x0704, false, plenIs 8, 0, [.service, .maint]⟩ (fun rt s =>
    checked e rt (firstFail [bad (p.table < 4), bad (p.count = 0), bad (p.index = 0)]) (fun s =>
      reply rt stOk 0 [] (evCmd rt 0x0841 (u8 p.table ++ u8 3 ++ u16 0) (modSwc (fun w => { w with fdb := w.fdb.filter fun e => e.static || e.fresh s.now }) s))) s) s)

/-- SWC_BUFFER_POLICY: the limits of R317. -/
def swcPolicyCheck (p : SwcPolicy) : Option (Nat × Nat) :=
  let in' (hi : Nat) (l : List Nat) : Bool := l.all fun x => decide (x ≤ hi)
  firstFail [bad (p.guar.length = 8 ∧ p.cap.length = 8 ∧ p.classCap.length = 8 ∧ p.strict.length = 8 ∧ p.weight.length = 8),
    bad (in' 4096 p.guar), bad (p.protRes ≤ 4096), bad (nsum p.guar + p.protRes ≤ 16384), bad (in' 32768 p.cap), bad (in' 32768 p.classCap),
    bad (p.mirrorCap ≤ 4096), bad (p.weight.all fun w => w.length == 6 && w.all fun x => decide (x ≤ 127))]

/-- SWC_BUFFER_POLICY takes effect (R317, R330). -/
def swcPolicyApply (src : Option Nat) (p : SwcPolicy) (s : State) : State :=
  let s := modSwc (fun w => { w with policy := p }) s
  evCfg src 0x0842 (u16 (sharedPool p) ++ u16 p.protRes) s

end Sys2Proof.Machine
end

