-- ==== Sys2Proof/Machine/CfgOctets.lean ====
section
/-! DEFINITION. Configuration commands as octets: opcodes and payloads as their chapters lay them out, and the records of CFG_READ (15_mailbox_commands.md R386, R387). -/

namespace Sys2Proof.Machine

/-- An address as six octets, first on the wire first. -/
abbrev mac6 (a : Nat) : Bytes := le 6 a

/-- Octets padded to a multiple of four. -/
def pad4 (b : Bytes) : Bytes := b ++ zeros (al4 b.length - b.length)

/-- A run of bits in the set layouts of R220. -/
def BitRun.octets (r : BitRun) : Bytes := u32 (r.area * 4194304 + r.first) ++ u32 r.count

/-- An image in the layout of R220. -/
def Image.octets (g : Image) : Bytes :=
  let body := g.prog.flatMap (fun i => u32 (i.op * 2 ^ 26 + i.area * 2 ^ 22 + i.opnd))
    ++ g.timers.flatMap (fun t => u16 t.t ++ u8 t.type ++ u8 0 ++ u32 t.pt)
    ++ g.counters.flatMap (fun c => u16 c.c ++ u16 0 ++ u32 c.pv ++ u32 c.rv)
    ++ g.edges.flatMap (fun e => u16 e.id ++ u16 0 ++ u32 e.index)
    ++ g.wset.flatMap BitRun.octets ++ g.rset.flatMap BitRun.octets ++ pad4 (g.chans.flatMap u16)
    ++ g.natives.flatMap (fun n => u32 n.entry ++ u32 n.wcet ++ u32 n.stack ++ u32 0) ++ pad4 g.code ++ g.data
  let head := u32 0x4D514C47 ++ u16 1 ++ u16 0 ++ u32 g.prog.length ++ u16 g.timers.length ++ u16 g.counters.length ++ u16 g.edges.length
    ++ u16 g.natives.length ++ u16 g.wset.length ++ u16 g.rset.length ++ u16 g.chans.length ++ u16 0 ++ u32 g.code.length ++ u32 g.data.length
    ++ u32 g.bss ++ u32 g.id ++ zeros 16
  head ++ w32 (crc32c (head ++ zeros 4 ++ body)) ++ body

/-- A stage block of FLT_SET_CHAIN (R86). -/
def StageBlock.octets (b : StageBlock) : Bytes := u8 b.mode ++ u8 b.flags ++ u16 b.n ++ s32 b.level ++ u32 b.hyst ++ u16 b.span ++ u16 0

/-- Entries of SWC_TABLE_UPDATE (R329). -/
def SwcRows.octets : SwcRows → Bytes
  | .fdb l => l.flatMap fun r => mac6 r.mac ++ u16 r.vid ++ u8 r.port ++ zeros 7
  | .vlan l => l.flatMap VlanRow.octets
  | .mcast l => l.flatMap McastRow.octets
  | .appid l => l.flatMap fun r => u16 r.appid ++ u8 r.etype ++ u8 r.mask.toNat ++ mac6 r.dst ++ zeros 6

def SwcTable.octets (op : Nat) (p : SwcTable) : Bytes := u8 p.table ++ u8 op ++ u16 p.count ++ u32 p.index ++ p.rows.octets

/-- Payload of TRG_ARM with OP 2 (R108). -/
def TrgProfile.octets (p : TrgProfile) : Bytes :=
  u8 2 ++ u8 p.rate ++ u8 p.tbsel ++ u8 p.ctl ++ u16 p.preMs ++ u16 p.postMs ++ u16 p.maxlenMs ++ u16 p.chans.length ++ u16 p.digs.length ++ u16 0
    ++ u32 p.frPreUs ++ u32 p.frPostUs ++ w32 p.frMask ++ u32 0 ++ padTo 16 p.station
    ++ p.chans.flatMap (fun c => u16 c.chid ++ u8 c.kind ++ u8 0 ++ padTo 32 c.name ++ padTo 8 c.unit ++ w32 c.primary ++ w32 c.secondary)
    ++ pad4 (p.digs.flatMap u16)

/-- Payload of SVE_SUBSCRIBE (R136). -/
def SvSubDef.octets (p : SvSubDef) : Bytes :=
  u16 p.stream ++ u8 p.rate ++ u8 p.noasdu ++ u8 p.layout ++ u8 p.nval ++ u8 p.flags ++ u8 p.syncReq ++ u16 p.appid ++ u16 p.vid ++ mac6 p.dst
    ++ u8 p.tbsel ++ u8 p.substMax ++ u32 p.confrev ++ u16 p.latUs ++ u8 p.macReq ++ u8 0 ++ u16 p.keyA ++ u16 p.keyB ++ padTo 64 p.svid
    ++ u16 p.datsetLen ++ u16 0
    ++ p.entries.flatMap fun e => u16 e.chid ++ u16 e.offset ++ u8 e.type ++ u8 e.qflag ++ u16 0 ++ w32 e.scale

/-- Payload of SVE_PUBLISH (R136). -/
def SvPubDef.octets (p : SvPubDef) : Bytes :=
  let head := u8 p.pub ++ u8 p.op ++ u8 p.layout ++ u8 p.rate
  if p.op = 0 then head
  else head ++ u8 p.noasdu ++ u8 p.nval ++ u8 p.flags ++ u8 p.pcp ++ u16 p.vid ++ u16 p.appid ++ mac6 p.dst ++ u16 0 ++ u32 p.confrev ++ u8 p.macalg
    ++ u8 0 ++ u16 p.keySlot ++ u32 0 ++ padTo 64 p.svid ++ p.entries.flatMap fun e => u8 e.chid ++ u8 e.kind ++ u16 0

/-- Payload of SVE_GOOSE_SUBSCRIBE (R136). -/
def GsubDef.octets (p : GsubDef) : Bytes :=
  let head := u8 p.gsub ++ u8 p.op ++ u8 p.nmem ++ u8 p.flags
  if p.op = 0 then head
  else head ++ u16 p.appid ++ u16 0 ++ mac6 p.dst ++ u8 p.macReq ++ u8 0 ++ u32 p.confrev ++ u16 p.keyA ++ u16 p.keyB ++ padTo 64 p.gocbref
    ++ padTo 64 p.goid ++ p.members.flatMap fun m => u16 m.gbit ++ u8 m.mtype ++ u8 m.subst

/-- Payload of SVE_GOOSE_PUBLISH (R136). -/
def GpubDef.octets (p : GpubDef) : Bytes :=
  let head := u8 p.gpub ++ u8 p.op ++ u8 p.nmem ++ u8 p.flags
  if p.op = 0 then head
  else head ++ u16 p.appid ++ u16 p.vid ++ mac6 p.dst ++ u8 p.pcp ++ u8 p.macalg ++ u32 p.confrev ++ u16 p.keySlot ++ u16 p.gateZone
    ++ u32 p.maxtimeMs ++ u32 0 ++ padTo 64 p.gocbref ++ padTo 64 p.datset ++ padTo 64 p.goid
    ++ p.members.flatMap fun m => u32 (m.area * 2 ^ 22 + m.operand + m.rsv * 2 ^ 26 + fl m.quality 31)

/-- Payload of PRT_DEFINE_ZONE (R195). -/
def ZoneDef.octets (p : ZoneDef) : Bytes :=
  let head := u8 p.zone ++ u8 p.op ++ u8 p.core ++ u8 p.rate
  if p.op = 0 then head
  else head ++ u8 p.tbsel ++ u8 p.fnom ++ u16 0 ++ u32 p.vnom ++ u32 p.inom ++ p.slots.flatMap u16 ++ p.fref.octets p.fkind ++ u32 p.grpLo
    ++ u32 p.grpHi ++ u32 0

/-- Payload of PRT_SET_ELEMENT (R195): OP 0 ends before the settings. -/
def ElemDef.octets (p : ElemDef) : Bytes :=
  u16 p.inst ++ u8 p.zone ++ u8 p.cls ++ u8 p.op ++ u8 p.group ++ u8 p.fs ++ u8 p.dirreq ++ p.imeas.octets p.imeasK ++ p.vmeas.octets p.vmeasK
    ++ u32 p.blk ++ u8 p.blkinv ++ u8 p.enmask ++ u16 p.dirsup ++ u16 p.restr ++ zeros 6 ++ p.groups.flatMap fun v => v.flatMap w32

/-- Payload of LOG_ACTIVATE (R226). -/
def LogActivate.octets (p : LogActivate) : Bytes :=
  let head := u8 p.task ++ u8 p.op ++ u8 p.cls ++ u8 p.blu
  if p.op = 0 then head
  else head ++ u8 p.slot ++ u8 p.tbsel ++ u8 p.zone ++ u8 p.flags ++ u16 p.pmul ++ u16 0 ++ u32 p.periodUs ++ u32 p.phaseUs

/-- Payload of TIM_CONFIG_BASE (R268). -/
def TimCfg.octets (p : TimCfg) : Bytes :=
  u8 p.tb ++ u8 p.src ++ u8 p.profile ++ u8 p.role ++ u8 p.domain ++ u8 p.ports ++ u8 p.udp ++ u8 p.flags ++ u8 p.prio1 ++ u8 p.prio2 ++ u8 p.tauLog2
    ++ u8 p.irigTqMax ++ u16 p.slewMax ++ u16 p.lockThr ++ u32 p.stepLimit ++ u32 p.hoLimit ++ u32 p.hoErrMax ++ s16 p.utcOffset ++ u16 p.gmId ++ u32 0

/-- Payloads of the network commands (R309). -/
def NetPortCfg.octets (p : NetPortCfg) : Bytes :=
  u8 p.port ++ u8 p.mode ++ u8 p.flags ++ u8 0 ++ u16 p.maxLen ++ u16 p.linkHoldMs ++ u16 p.txQuanta ++ u16 0 ++ u16 p.xoff ++ u16 p.xon

def NetRedundancy.octets : NetRedundancy → Bytes
  | .pair c => u8 c.pair ++ u8 c.mode ++ u8 c.pref ++ u8 c.flags ++ u16 c.revertHoldS ++ u16 c.lifeCheckMs ++ u32 c.pathSkewNs ++ u16 c.entryForgetMs
      ++ u16 c.nodeForgetS ++ u8 c.supAddrLsb ++ zeros 7
  | .own c => u8 0x80 ++ u8 c.macalg ++ u16 c.unitId ++ u16 c.appid ++ u16 c.keySlot ++ mac6 c.dst ++ u16 0 ++ u64 c.ownEn.toNat

def NetFilter.octets (p : NetFilter) : Bytes :=
  u8 p.port ++ u8 p.flags ++ u16 0 ++ p.addrs.flatMap (fun a => mac6 a.1 ++ u8 (b2n a.2) ++ u8 0) ++ p.hash.flatMap w32
    ++ p.ranges.flatMap fun r => u16 r.1 ++ u16 r.2

def NetWake.octets (p : NetWake) : Bytes :=
  u8 p.port ++ u8 p.k ++ u8 p.flags ++ u8 0 ++ u16 p.ofs ++ u16 0 ++ le 16 p.mask.toNat ++ w32 p.chk

/-- Payload of SWC_BUFFER_POLICY (R329). -/
def SwcPolicy.octets (p : SwcPolicy) : Bytes :=
  p.guar.flatMap u16 ++ p.cap.flatMap u16 ++ p.classCap.flatMap u16 ++ u16 p.protRes ++ u16 p.mirrorCap
    ++ (imap (fun i (x : BitVec 8) => u8 x.toNat ++ u8 0 ++ (p.weight.getD i []).flatMap u8) p.strict).flatten

/-- Opcode of a configuration command (R386). -/
def CfgCmd.opcode : CfgCmd → Nat
  | .acqSetChannel _ => 0x0300
  | .acqSetSequence _ => 0x0301
  | .fltSetChain _ => 0x0310
  | .trgArmProfile _ => 0x0320
  | .trgSetSources _ => 0x0321
  | .sveSubscribe _ => 0x0330
  | .sveUnsubscribe _ => 0x0331
  | .svePublish _ => 0x0332
  | .sveGooseSubscribe _ => 0x0333
  | .sveGoosePublish _ => 0x0334
  | .prtDefineZone _ => 0x0400
  | .prtSetElement _ => 0x0401
  | .prtTripMatrix _ => 0x0404
  | .logLoad _ => 0x0500
  | .logActivate _ => 0x0501
  | .timConfigBase _ => 0x0600
  | .netPortConfig _ => 0x0700
  | .netRedundancy _ => 0x0701
  | .netFilter _ => 0x0702
  | .netWakePattern _ => 0x0703
  | .swcTableWrite _ => 0x0704
  | .swcTableDelete _ => 0x0704
  | .swcBufferPolicy _ => 0x0705
  | .vfmSetShare _ _ => 0x0800
  | .vfmBindZone _ _ => 0x0801
  | .vfmGrantTrip _ _ => 0x0802
  | .pwrSetThresholds _ => 0x0B00

/-- Payload octets of a configuration command; LOG_LOAD with ADDR 0 and its image (R387). -/
def CfgCmd.octets : CfgCmd → Bytes
  | .acqSetChannel p => u8 p.channel ++ u8 p.flags ++ u16 p.skew ++ s16 p.offs ++ u16 0 ++ u32 p.gain ++ u32 0
  | .acqSetSequence p => u8 p.conv ++ u8 p.len ++ u8 p.avgLog2 ++ u8 p.avgShift ++ p.slots.flatMap u8
  | .fltSetChain p =>
    u8 p.channel ++ u8 p.rate ++ u8 p.l1mul ++ u8 p.l2mul ++ u8 p.dcbK ++ u8 p.dcbFlags ++ u8 p.lf ++ u8 p.envEd ++ u16 p.detW ++ u16 0
      ++ w32 p.scale ++ w32 p.eofs ++ p.stage0.octets ++ p.stage1.octets
  | .trgArmProfile p => p.octets
  | .trgSetSources p => u16 p.first ++ u16 p.count ++ p.entries.flatMap fun e => w32 e.1 ++ w32 e.2
  | .sveSubscribe p => p.octets
  | .sveUnsubscribe n => u16 n ++ u16 0
  | .svePublish p => p.octets
  | .sveGooseSubscribe p => p.octets
  | .sveGoosePublish p => p.octets
  | .prtDefineZone p => p.octets
  | .prtSetElement p => p.octets
  | .prtTripMatrix p => u8 p.row ++ u8 p.nterm ++ u16 0 ++ w32 p.ctl ++ w32 p.time ++ w32 p.maxp ++ p.terms.flatMap w32
  | .logLoad p => u8 p.slot ++ zeros 3 ++ u32 p.len ++ u64 p.addr ++ p.image
  | .logActivate p => p.octets
  | .timConfigBase p => p.octets
  | .netPortConfig p => p.octets
  | .netRedundancy p => p.octets
  | .netFilter p => p.octets
  | .netWakePattern p => p.octets
  | .swcTableWrite p => p.octets 1
  | .swcTableDelete p => p.octets 2
  | .swcBufferPolicy p => p.octets
  | .vfmSetShare _ p => u16 p.weight ++ u16 p.vid ++ u32 p.shareKib ++ mac6 p.mac ++ u8 p.flags ++ u8 0
  | .vfmBindZone _ p =>
    u8 p.slot ++ u8 p.op ++ u8 p.zone ++ u8 p.chmask.toNat ++ u8 p.blockN ++ u8 p.flags ++ u16 p.gFirst ++ u16 p.gCount ++ u16 0
  | .vfmGrantTrip _ p => u8 p.grant ++ u8 p.op ++ u16 p.rowMask.toNat ++ u8 p.maxAgeMs ++ zeros 3
  | .pwrSetThresholds p => u16 p.unV ++ u8 p.floorPct ++ u8 p.flags ++ u32 p.extC ++ u16 p.htAutoH ++ u16 0

/-- A record of CFG_READ (R387). -/
def CfgCmd.recordOctets (c : CfgCmd) : Bytes := u16 c.opcode ++ u16 0 ++ u32 c.octets.length ++ pad4 c.octets

end Sys2Proof.Machine
end

