-- ==== Sys2Proof/Machine/Ownership.lean ====
section
/-! DEFINITION. Ownership epochs: beacons, listening, claim and release (12_ports_redundancy.md R304 to R309). -/

namespace Sys2Proof.Machine

def modZoneOwn (z : Nat) (f : OwnZone → OwnZone) (s : State) : State := { s with red := { s.red with zones := lmod s.red.zones z f } }

def zoneOwnOf (s : State) (z : Nat) : OwnZone := s.red.zones.getD z OwnZone.reset

/-- Ownership is in force for a zone: OWN_EN is 1 and UNIT_ID is not 0 (R304). -/
def ownEff (s : State) (z : Nat) : Bool := s.red.own.unitId != 0 && s.red.own.ownEn.getLsbD z && decide (z < 64)

def OwnState.code : OwnState → Nat
  | .owner => 0
  | .fenced => 1
  | .listening => 2
  | .conflict => 3
  | .released => 4

/-- State as reported: OWNER where ownership is not in force (R304, R312). -/
def ownCode (s : State) (z : Nat) : Nat := if ownEff s z then (zoneOwnOf s z).st.code else 0

/-- OWN_EPOCH as reported: 0 where ownership is not in force (R304). -/
def ownEpoch (s : State) (z : Nat) : Nat := if ownEff s z then (zoneOwnOf s z).epoch else 0

/-- A zone enters LISTENING, with its record: cause 0 start, 1 wake, 2 links down, 3 claim, 4 OWN_EN set (R306, R310). -/
def ownListen (z cause : Nat) (s : State) : State :=
  let from' := if pair0Up s then some s.now else none
  let s := modZoneOwn z (fun x => { x with st := .listening, listened := 0, runFrom := from', heardNow := none }) s
  ev 0x080C (u8 z ++ u8 cause ++ u16 0) s

/-- A zone enters FENCED (R306, R310). -/
def ownFence (z unit heard : Nat) (s : State) : State :=
  let s := ev 0x0809 (u8 z ++ u8 0 ++ u16 unit ++ u32 (zoneOwnOf s z).epoch ++ u32 heard) (modZoneOwn z (fun x => { x with st := .fenced }) s)
  s

/-- A zone enters CONFLICT (R306, R310). -/
def ownConflict (z unit : Nat) (s : State) : State :=
  ev 0x080A (u8 z ++ u8 0 ++ u16 unit ++ u32 (zoneOwnOf s z).epoch) (modZoneOwn z (fun x => { x with st := .conflict }) s)

/-- Beacons are sent now for a zone (R305). -/
def beaconing (s : State) (z : Nat) : Bool :=
  ownEff s z && operational s && ((zoneOwnOf s z).st == .owner || (zoneOwnOf s z).st == .conflict)

/-- Sends the beacon of a zone: a new epoch takes the next stNum (R305). -/
def sendBeacon (z : Nat) (s : State) : State :=
  if !beaconing s z then s
  else
    let x := zoneOwnOf s z
    let same := match x.lastSent with
      | some (_, e) => e == x.epoch
      | none => false
    let st := if same then x.stNum else (x.stNum + 1) % 2 ^ 32
    let sq := if same then (x.sqNum + 1) % 2 ^ 32 else 0
    let s := modZoneOwn z (fun x => { x with stNum := st, sqNum := sq, lastSent := some (s.now, x.epoch) }) s
    let o := s.red.own
    let msg : BeaconMsg := ⟨ascii "LLN0$GO$OWN", ascii "MQ16-OWN", z, x.epoch, o.unitId, st, sq, 300, false, false⟩
    let mk (ext : Option MacExt) : FrameBody := .beacon msg ext
    let ext := pubExt s o.macalg o.keySlot attrGooseMac (mk none).octets
    let f := mkFrame o.dst (Config.mac 0) none 0x88B8 (some o.appid) (mk ext)
    swcIn 6 8 ((List.range 4).map (baseNs s)) true f s

/-- OWN_BEACON_TRANSMIT (R305): every 100 ms. -/
def execOwnBeaconTransmit (t zone : Nat) (s : State) : Res :=
  let s := atTime t s
  let due := match (zoneOwnOf s zone).lastSent with
    | some (l, _) => decide (l + 100000000 ≤ s.now)
    | none => true
  go (if due then sendBeacon zone s else s)

/-- The MAC of a frame under R117: 0 not verified, 1 verified when there is an extension, 2 required. -/
def macAccepts (s : State) (req slotA slotB attr : Nat) (ext : Option MacExt) (octets : Bytes) : Bool :=
  if req = 0 then true
  else match ext with
    | none => req == 1
    | some x => [slotA, slotB].any fun sl => match frameKey s sl attr x.alg with
      | some k => k.keyId.toNat == x.keyId && frameMac x.alg k.key octets == x.mac
      | none => false

/-- The extension of a beacon. -/
def Beacon.ext (b : Beacon) : Option MacExt := b.keyId.map fun k => ⟨k, b.alg, b.mac⟩

/-- OWN_BEACON_RECEIVE (R305, R306, R308). -/
def execOwnBeaconReceive (t : Nat) (b : Beacon) (s : State) : Res :=
  let s := atTime t s
  let disc (s : State) : State := { s with red := { s.red with ownDisc := satInc s.red.ownDisc } }
  if b.port ≥ 4 ∨ s.sys.st = .off ∨ s.sys.st = .safelight ∨ !linkUp s b.port then go s
  else if b.port ≥ 2 then go (disc s)
  else if pairMode s 0 = 2 ∧ activePort s 0 ≠ some b.port then go s
  else
  let (pass, s) := if pairMode s 0 = 1 then prpReceive prpBeacon b.port b.src b.rct false s else (true, s)
  if !pass then go s
  else if b.unit = s.red.own.unitId ∨ !b.wellFormed ∨ b.zone ≥ 64
      ∨ (s.red.own.macalg ≠ 0 ∧ !macAccepts s 2 s.red.own.keySlot 0xFFFF attrGooseMac b.ext b.octets) then go (disc s)
  else
    let z := b.zone
    let x := zoneOwnOf s z
    let s := modZoneOwn z (fun x => { x with
      heard := max x.heard b.epoch
      heardUnit := if b.epoch > x.heard then b.unit else x.heardUnit
      heardNow := match x.heardNow with
        | some (h, u) => if b.epoch > h then some (b.epoch, b.unit) else some (h, u)
        | none => some (b.epoch, b.unit) }) s
    if !ownEff s z || x.claim.isSome then go s
    else if b.epoch > x.epoch ∧ (x.st = .owner ∨ x.st = .listening ∨ x.st = .conflict) then go (settle (ownFence z b.unit b.epoch s))
    else if b.epoch = x.epoch ∧ x.st = .owner then go (settle (ownConflict z b.unit s))
    else go s

/-- Listening time counted so far (R306). -/
def listenedFor (s : State) (z : Nat) : Nat :=
  let x := zoneOwnOf s z
  x.listened + (match x.runFrom with | some f => s.now - f | none => 0)

abbrev listenNs : Nat := 300000000

/-- OWN_LISTEN_EXPIRE (R306): 300 ms of listening have passed. -/
def execOwnListenExpire (t zone : Nat) (s : State) : Res :=
  let s := atTime t s
  let x := zoneOwnOf s zone
  if !ownEff s zone || x.st != .listening || x.claim.isSome || decide (listenedFor s zone < listenNs) then go s
  else
    let plain (s : State) : State := settle (modZoneOwn zone (fun x => { x with st := if x.epoch = 0 then .released else .owner }) s)
    match x.heardNow with
    | some (h, u) => if h > x.epoch then go (ownFence zone u h s) else if h = x.epoch then go (ownConflict zone u s) else go (plain s)
    | none => go (plain s)

/-- OWN_SILENCE_DETECT (R306): both links of pair 0 have been clear for 100 ms. -/
def execOwnSilenceDetect (t : Nat) (s : State) : Res :=
  let s := atTime t s
  match s.red.silentFrom with
  | none => go s
  | some f =>
    if s.now < f + 100000000 then go s
    else
      let one (z : Nat) (s : State) : State :=
        let x := zoneOwnOf s z
        if ownEff s z && (x.st == .owner || x.st == .conflict) then ownListen z 2 s else s
      go (settle (foldOver (List.range 64) one s))

/-- The reply of PRT_OWNERSHIP. -/
def ownReply (s : State) (z : Nat) : Bytes :=
  let x := zoneOwnOf s z
  u32 (ownEpoch s z) ++ u32 x.heard ++ u16 x.heardUnit ++ u8 (ownCode s z) ++ u8 0 ++ u32 0

/-- OWN_CLAIM_COMPLETE (R308): the 300 ms of a claim have passed. -/
def execOwnClaimComplete (t zone : Nat) (s : State) : Res :=
  let s := atTime t s
  let x := zoneOwnOf s zone
  match x.claim with
  | none => go s
  | some (_, rt) =>
    if x.st ≠ .listening ∨ listenedFor s zone < listenNs then go s
    else
      let e := max x.epoch x.heard + 1
      let s := modZoneOwn zone (fun x => { x with claim := none }) s
      if e ≥ 2 ^ 32 then
        go (match rt with
          | some rt => finish rt stExhausted 0 [] s
          | none => s)
      else
        let src := match rt with
          | some rt => cmdSrc rt.src
          | none => srcHw
        let s := modZoneOwn zone (fun x => { x with epoch := e, st := .owner }) s
        let s := settle (sendBeacon zone (evBy src 0x0808 (u8 zone ++ zeros 3 ++ u32 e) s))
        go (match rt with
          | some rt => finish rt stOk 0 (ownReply s zone) s
          | none => s)

/-- PRT_OWNERSHIP with OP 0 (R195). -/
def execPrtOwnershipRead (t : Nat) (e : Env) (zone : Nat) (s : State) : Res :=
  let s := atTime t s
  go (runCmd e ⟨0x0406, false, plenIs 4, 16, [.service, .maint]⟩ (fun rt s =>
    checked e rt (firstFail [bad (zone < 64)]) (fun s => reply rt stOk 0 (ownReply s zone) s) s) s)

/-- PRT_OWNERSHIP with OP 1 (R308). -/
def execPrtOwnershipClaim (t : Nat) (e : Env) (zone : Nat) (s : State) : Res :=
  let s := atTime t s
  go (runCmd e ⟨0x0406, true, plenIs 4, 16, [.service, .maint]⟩ (fun rt s =>
    let x := zoneOwnOf s zone
    let pre : Option (Nat × Nat) :=
      if zone ≥ 64 then none
      else if !ownEff s zone then some (stConflict, s.sys.st.code)
      else if x.claim.isSome then some (stBusy, 0)
      else none
    let full := if x.st = .owner then decide (x.epoch + 1 < 2 ^ 32) else decide (max x.epoch x.heard + 1 < 2 ^ 32)
    checked8 e rt pre (firstFail [bad (zone < 64), (full, stExhausted, 0)]) (fun s =>
      if x.st = .owner then
        let s := modZoneOwn zone (fun x => { x with epoch := x.epoch + 1 }) s
        let s := sendBeacon zone (evCmd rt 0x0808 (u8 zone ++ zeros 3 ++ u32 (x.epoch + 1)) s)
        reply rt stOk 0 (ownReply s zone) s
      else holdReply rt (settle (ownListen zone 3 (modZoneOwn zone (fun x => { x with claim := some (s.now, some rt) }) s)))) s) s)

/-- PRT_OWNERSHIP with OP 2 (R308). -/
def execPrtOwnershipRelease (t : Nat) (e : Env) (zone : Nat) (s : State) : Res :=
  let s := atTime t s
  go (runCmd e ⟨0x0406, true, plenIs 4, 16, [.service, .maint]⟩ (fun rt s =>
    let x := zoneOwnOf s zone
    let pre : Option (Nat × Nat) :=
      if zone ≥ 64 then none
      else if !ownEff s zone then some (stConflict, s.sys.st.code)
      else if x.claim.isSome then some (stBusy, 0)
      else none
    checked8 e rt pre (firstFail [bad (zone < 64)]) (fun s =>
      let s := evCmd rt 0x080B (u8 zone ++ zeros 3 ++ u32 x.epoch) (modZoneOwn zone (fun x => { x with st := .released }) s)
      let s := settle s
      reply rt stOk 0 (ownReply s zone) s) s) s)

/-! ### NET_REDUNDANCY (R296, R299, R304, R309) -/

/-- NET_REDUNDANCY refused while a subscription forbids Bracket mode (R299). -/
def netRedundancyPre (p : NetRedundancy) (s : State) : Option (Nat × Nat) :=
  match p with
  | .pair c => if c.pair = 0 ∧ c.mode = 2 ∧ (s.sve.subs.any fun u => u.2.cfg.flags % 4 == 3 && u.2.cfg.noasdu != 1) then some (stConflict, s.sys.st.code) else none
  | .own _ => none

def netRedundancyCheck (p : NetRedundancy) : Option (Nat × Nat) :=
  match p with
  | .pair c => firstFail [bad (c.pair < 2), bad (c.mode < 3), bad (c.pref < 2), bad (c.flags < 2), bad (1 ≤ c.revertHoldS ∧ c.revertHoldS ≤ 600),
      bad (100 ≤ c.lifeCheckMs ∧ c.lifeCheckMs ≤ 10000), bad (100 ≤ c.pathSkewNs ∧ c.pathSkewNs ≤ 1000000),
      bad (10 ≤ c.entryForgetMs ∧ c.entryForgetMs ≤ 10000), bad (1 ≤ c.nodeForgetS ∧ c.nodeForgetS ≤ 3600), bad (c.supAddrLsb < 256)]
  | .own c => firstFail [bad (c.macalg < 3), bad (1 ≤ c.unitId ∧ c.unitId < 65536), bad (c.appid < 0x4000), bad (c.keySlot < 256 ∨ c.keySlot = 0xFFFF),
      bad (isGroup c.dst)]

/-- NET_REDUNDANCY takes effect: a change of MODE restarts the pair, another value applies from now (R296); a zone whose OWN_EN newly sets listens (R309). -/
def netRedundancyApply (p : NetRedundancy) (s : State) : State :=
  match p with
  | .pair c =>
    let q := c.pair
    let old := (pairOf s q).cfg
    let s := modPair q (fun p => { p with cfg := c }) s
    if c.mode ≠ old.mode then
      bracketLink q none (modPair q (fun p => { p.clearCounters with nextLife := 0, seqNr := 0#16, bothDown := false }) (pairRestart q s))
    else if c.pref ≠ old.pref ∧ (pairOf s q).revert.isSome then revertAbort q s
    else holdUpdate q (c.pref != old.pref) s
  | .own c =>
    let was := (List.range 64).filter (ownEff s)
    let s := { s with red := { s.red with own := c } }
    let one (z : Nat) (s : State) : State :=
      if ownEff s z && !was.contains z then ownListen z 4 s
      else if !ownEff s z && was.contains z then
        match (zoneOwnOf s z).claim with
        | some (_, some rt) => finish rt stConflict s.sys.st.code [] (modZoneOwn z (fun x => { x with claim := none }) s)
        | _ => s
      else s
    settle (foldOver (List.range 64) one s)

end Sys2Proof.Machine
end

