-- ==== Sys2Proof/Machine/SvReceive.lean ====
section
/-! DEFINITION. Reception of sampled values and the SVE's registers (05_sampled_values.md R115 to R125, R136 to R138; R299 to R303). -/

namespace Sys2Proof.Machine

/-- Characters of a NUL-padded string. -/
def cstr (b : Bytes) : Bytes := b.takeWhile (· != 0#8)

def modSub (n : Nat) (f : SvSub → SvSub) (s : State) : State := modSve (fun v => { v with subs := tmod v.subs n f }) s

/-- The template of a subscription; that of LAYOUT 1 is the module's own (R119). -/
def SvSubDef.template (c : SvSubDef) : List SvEntry :=
  if c.layout = 1 then imap (fun i e => { e with offset := 8 * i, type := 0, qflag := 1 }) c.entries else c.entries

/-- The subscription a frame matches on its port (R116 step 2). -/
def svMatch (s : State) (f : SvFrame) : Option (Nat × SvSub) :=
  s.sve.subs.find? fun p =>
    let c := p.2.cfg
    c.appid == f.appid && c.dst == f.link.dst && nbit c.flags f.link.port && (!nbit c.flags 3 || f.link.vid == some c.vid)

/-- Zones with one of the channels start their evaluation on another base (R121, R150). -/
def zonesResume (chids : List Nat) (s : State) : State :=
  let one (z : Nat × Zone) : Nat × Zone :=
    if z.2.cfg.slots.any (fun c => chids.contains c) then (z.1, { z.2 with resume := true }) else z
  { s with prt := { s.prt with zones := s.prt.zones.map one } }

/-- A subscription starts or stops taking simulated frames: its channels go to TB3 or back (R121). -/
def setSimulated (n : Nat) (on : Bool) (s : State) : State :=
  match tget s.sve.subs n with
  | none => s
  | some u =>
    let s := modSub n (fun u => { u with simulated := on, lastK := none }) s
    let chids := u.cfg.entries.map SvEntry.chid
    let s := foldOver chids (fun c s => emptyCh c (if on then 3 else u.cfg.tbsel) u.cfg.rate s) s
    ev 0x0407 (u16 n ++ u8 (b2n on) ++ u8 0) (zonesResume chids s)

/-- A frame refused by the MAC rule (R116 step 4). -/
def svMacFail (n : Nat) (s : State) : State :=
  let (e, p) := s.sve.macFailEv.hit s 1
  let s := modSub n (fun u => { u with err := satInc u.err }) (modSve (fun v => { v with macFail := satInc v.macFail, macFailEv := p }) s)
  match e with
  | some c => ev 0x0403 (u16 n ++ u16 0 ++ u32 c) s
  | none => s

/-- A frame refused by a structure check (R116 step 5). -/
def svDecodeErr (n check : Nat) (s : State) : State :=
  let (e, p) := s.sve.decodeErrEv.hit s 1
  let s := modSub n (fun u => { u with err := satInc u.err }) (modSve (fun v => { v with decodeErr := satInc v.decodeErr, decodeErrEv := p }) s)
  match e with
  | some c => ev 0x0404 (u16 n ++ u8 check ++ u8 0 ++ u32 c) s
  | none => s

/-- The first structure check that fails (R116 step 5, R118, R137): 0 noASDU, 1 svID, 2 confRev, 3 length, 4 smpCnt. -/
def svCheck (c : SvSubDef) (f : SvFrame) : Option Nat :=
  let one (a : Asdu) : Option Nat :=
    if cstr a.svid ≠ cstr c.svid then some 1
    else if a.confRev ≠ c.confrev then some 2
    else if a.seqData.length ≠ c.datsetLen then some 3
    else if a.smpCnt ≥ smpPeriod c.rate then some 4
    else none
  if f.noAsdu ≠ c.noasdu ∨ f.asdus.length ≠ c.noasdu then some 0 else f.asdus.findSome? one

/-- The sample count that an smpCnt stands for: the one whose stamp lies in [A − LAT − P/2, A − LAT + P/2), in integer ticks (R14, R118). -/
def svPlace (rate latUs smpCnt : Nat) (a : Int) : Int :=
  let m : Int := smpPeriod rate
  let half : Int := if rate = 0 then NS / 4 else NS / 2
  let lo := firstAtOrAfter (rateHz rate) (a - (latUs : Int) * 1000 - half)
  lo + ((smpCnt : Int) - lo) % m

/-- Value and quality of one template entry (R119). -/
def svValue (e : SvEntry) (data : Bytes) : Word × Quality :=
  let raw := unbe (slice data e.offset 4)
  let q := if e.qflag = 1 then qReceived (unbe (slice data (e.offset + 4) 4)) else 0#16
  let scaled (x : Flt64) : Word := (enc32 (x.mul64 (val32 e.scale))).getD (Config.beyond [raw, e.scale.toNat])
  if e.type = 0 then (scaled (Flt64.ofInt (sext 32 raw)), q)
  else match dec32 (wd raw) with
    | some x => (scaled x, q)
    | none => (0#32, (q &&& 0xFFFC#16) ||| 0x0041#16)

/-- One ASDU into the store (R116 step 6, R120, R121, R125): whether it was written. -/
def svAsdu (n : Nat) (u : SvSub) (a : Asdu) (cnt : Int) (s : State) : Bool × State :=
  let k := nToK s u.base u.cfg.rate cnt
  let chids := u.cfg.entries.map SvEntry.chid
  let s := if u.lastAt.isSome ∧ a.smpSynch ≠ (match tget s.sve.subs n with | some x => x.smpSynch | none => 0) then
      ev 0x0406 (u16 n ++ u8 (match tget s.sve.subs n with | some x => x.smpSynch | none => 0) ++ u8 a.smpSynch) s else s
  let s := modSub n (fun x => { x with smpSynch := a.smpSynch }) s
  if sampleStamp (rateHz u.cfg.rate) cnt > baseNs s u.base + (128 * NS / rateHz u.cfg.rate : Nat) then
    (false, modSve (fun v => { v with outwin := satInc v.outwin }) s)
  else if chids.any fun c => (storeCh s c).final k then
    let dup := chids.any fun c => (storeCh s c).slots.any fun y => y.written && y.k % 65536 == k % 65536
    (false, if dup then modSve (fun v => { v with dup := satInc v.dup }) s else svLate s)
  else
    let put (e : SvEntry) (s : State) : State :=
      let (v, q) := svValue e a.seqData
      let q := if a.smpSynch < u.cfg.syncReq then qResync q else q
      let q := if u.simulated then q ||| 0x0800#16 else q
      writeSlot e.chid k v q s
    (true, foldOver u.cfg.template put s)

/-- Stream states on an accepted frame (R122). -/
def svAccepted (n : Nat) (first last smpFirst : Nat) (s : State) : State :=
  match tget s.sve.subs n with
  | none => s
  | some u =>
    let two := u.lastK.map (· + 1) == some first
    let s := modSub n (fun u => { u with lastK := some last, lastAt := some s.now, st := if two then .running else u.st }) s
    if two && u.st == .lost then ev 0x0402 (u16 n ++ u16 0 ++ u32 smpFirst) s else s

/-- R116 steps 2 to 6 for a frame the redundancy stage has accepted. -/
def svIntake (f : SvFrame) (s : State) : State :=
  match svMatch s f with
  | none => modSve (fun v => { v with unmatched := satInc v.unmatched }) s
  | some (n, u) =>
    if (f.sim && !(s.sve.sim && nbit u.cfg.flags 2)) || (!f.sim && u.simulated) then modSve (fun v => { v with simDisc := satInc v.simDisc }) s
    else if !macAccepts s u.cfg.macReq u.cfg.keyA u.cfg.keyB attrSvMac f.ext f.link.octets then svMacFail n s
    else match svCheck u.cfg f with
      | some c => svDecodeErr n c s
      | none =>
        let s := if f.sim && !u.simulated then setSimulated n true s else s
        match tget s.sve.subs n with
        | none => s
        | some u =>
          let a := f.link.stamp.getD u.base 0
          let cnts := f.asdus.map fun x => svPlace u.cfg.rate u.cfg.latUs x.smpCnt a
          let ks := cnts.map (nToK s u.base u.cfg.rate)
          let one (x : Asdu × Int) (r : Bool × State) : Bool × State :=
            let (w, s) := svAsdu n u x.1 x.2 r.2
            (r.1 || w, s)
          let (wrote, s) := foldOver (f.asdus.zip cnts) one (false, s)
          let lat := clampI 0 0x7FFFFF (a - sampleStamp (rateHz u.cfg.rate) (cnts.getLast?.getD 0))
          let lastCnt := (f.asdus.getLast?.map Asdu.smpCnt).getD 0
          let s := modSub n (fun x => { x with
            frames := satInc x.frames, path := f.link.port, lastCnt := lastCnt
            lat := if wrote then lat.toNat else x.lat, latMax := if wrote then max x.latMax lat.toNat else x.latMax }) s
          svAccepted n (ks.headD 0) (ks.getLast?.getD 0) ((f.asdus.head?.map Asdu.smpCnt).getD 0) s

/-- Ten frame periods of a subscription, in ns (R122, R303). -/
def tenFrames (c : SvSubDef) : Nat := cdiv (10 * c.noasdu * NS) (rateHz c.rate)

/-- The redundancy stage of a Bracket pair for a frame of a stream that admits both ports (R300, R303): the frames that pass. -/
def svBracket (n : Nat) (u : SvSub) (f : SvFrame) (s : State) : List SvFrame × State :=
  let side := f.link.port
  let cnt := (f.asdus.head?.map Asdu.smpCnt).getD 0
  let (paired, s) := pairNote 0 n cnt side s
  let p := pairOf s 0
  match p.revert with
  | none => (if !p.bothDown && side == p.active then [f] else [], s)
  | some r =>
    if r.switched.contains n then (if side = p.cfg.pref then [f] else [], s)
    else if side = p.cfg.pref then
      let quiet := match u.lastAt with
        | some l => decide (l + tenFrames u.cfg ≤ s.now)
        | none => true
      if paired then ([], streamSwitch 0 n s)
      else if quiet then ([f], streamSwitch 0 n s)
      else ([], modPair 0 (fun p => { p with revert := some { r with kept := r.kept.filter (fun k => k.1 != n) ++ [(n, f, s.now)] } }) s)
    else if paired then
      let next := r.kept.filter fun k => k.1 == n && (k.2.1.asdus.head?.map Asdu.smpCnt) == some ((cnt + 1) % smpPeriod u.cfg.rate)
      (f :: next.map (fun k => k.2.1), streamSwitch 0 n s)
    else ([f], s)

/-- SV_FRAME_RECEIVE (R116, R111). -/
def execSvFrameReceive (t : Nat) (f : SvFrame) (s : State) : Res :=
  let s := atTime t s
  let p := f.link.port
  if p ≥ 2 ∨ !linkUp s p ∨ s.sys.st = .off ∨ s.sys.st = .safelight then go s
  else
    let (l, s) :=
      if pairMode s 0 = 1 then
        let (pass, s) := prpReceive prpSv p f.link.src f.link.rct false s
        (if pass then [f] else [], s)
      else if pairMode s 0 = 2 then
        match svMatch s f with
        | some (n, u) => if u.cfg.flags % 4 = 3 then svBracket n u f s else (if activePort s 0 = some p then [f] else [], s)
        | none => (if activePort s 0 = some p then [f] else [], s)
      else ([f], s)
    go (if operational s then foldOver l svIntake s else s)

/-- SV_STREAM_LOST_TIMEOUT (R122): no frame accepted for 10 frame periods. -/
def execSvStreamLostTimeout (t sub : Nat) (s : State) : Res :=
  let s := atTime t s
  match tget s.sve.subs sub with
  | none => go s
  | some u =>
    let old : Bool := match u.lastAt with
      | some l => decide (l + tenFrames u.cfg ≤ s.now)
      | none => true
    if u.st = .running ∧ old then
      go (ev 0x0401 (u16 sub ++ u16 0 ++ u32 u.lastCnt) (modSub sub (fun u => { u with st := .lost, lastK := none }) s))
    else go s

/-! ### Registers (R121, R138) -/

/-- SVE_SIM_WRITE (R121, R138): SIM is writable in SERVICE and MAINT; at 0 every subscription goes back to normal frames. -/
def execSveSimWrite (t : Nat) (by' : Master) (v : Word) (s : State) : Res :=
  let s := atTime t s
  if dark s then go s
  else if !operational s then go (busViolate by' 0x060000 s)
  else go (regWrite by' 0x060000 (fun s =>
    let on := bit v 0
    let s := modSve (fun x => { x with sim := on }) s
    if on then s
    else
      let subs := (s.sve.subs.filter fun p => p.2.simulated).map Prod.fst
      let s := foldOver subs (fun n s => setSimulated n false s) s
      modSve (fun x => { x with gsubs := x.gsubs.map fun g => (g.1, { g.2 with simulated := false }) }) s) s)

/-- SVE_CS_SEL_WRITE (R138): the channel's latest final slot. -/
def execSveCsSelWrite (t : Nat) (by' : Master) (v : Word) (s : State) : Res :=
  let s := atTime t s
  go (regWrite by' 0x060020 (fun s =>
    let chid := bits v 12 0
    let c := storeCh s chid
    match (if chDefined s chid then c.slots.head? else none) with
    | some x => modSve (fun z => { z with csSel := chid, csVal := x.v, csQ := wd (x.q.toNat + (condOf false x.q).code * 65536)
                                          csK := (kToN s c.tb c.rate x.k % rateHz c.rate).toNat }) s
    | none => modSve (fun z => { z with csSel := chid, csVal := 0#32, csQ := 0x00060081#32, csK := 0 }) s) s)

/-! ### Subscriptions (R115, R136) -/

/-- Frames per second over a list of subscriptions, in 1/840 (R115). -/
def fps840 (l : List SvSubDef) : Nat := nsum (l.map fun c => rateHz c.rate * 840 / max 1 c.noasdu)

/-- APPID steering that a subscription adds (R320): an entry for CP. -/
def steerRow (appid etype dst : Nat) : AppidRow := ⟨appid, etype, 0x20#8, dst⟩

def steerAdd (r : AppidRow) (l : List AppidEnt) : List AppidEnt :=
  if l.any (fun e => e.sve != 0 && e.row == r) then l.map fun e => if e.sve ≠ 0 ∧ e.row = r then { e with sve := e.sve + 1 } else e
  else l ++ [⟨r, 1⟩]

def steerDrop (r : AppidRow) (l : List AppidEnt) : List AppidEnt :=
  l.flatMap fun e => if e.sve ≠ 0 ∧ e.row = r then (if e.sve = 1 then [] else [{ e with sve := e.sve - 1 }]) else [e]

/-- SVE_SUBSCRIBE: fields, then the limits of R115 (R136, R299). -/
def svSubCheck (p : SvSubDef) (s : State) : Option (Nat × Nat) :=
  let others := s.sve.subs.filter fun u => u.1 != p.stream
  let chids := p.entries.map SvEntry.chid
  let bound := others.flatMap fun u => u.2.cfg.entries.map SvEntry.chid
  let slot (k : Nat) : Bool := decide (k < 256) || k == 0xFFFF
  let n := (cstr p.svid).length
  let entry (e : SvEntry) : Bool :=
    decide (24 ≤ e.chid) && decide (e.chid ≤ 4119) && !bound.contains e.chid && finite32 e.scale && nonzero32 e.scale &&
    (if p.layout = 1 then e.offset == 0 && e.type == 0 && e.qflag == 0
     else decide (e.type ≤ 1) && decide (e.qflag ≤ 1) && decide (e.offset + 4 + 4 * e.qflag ≤ p.datsetLen))
  let defs := p :: others.map fun u => u.2.cfg
  let steer := (steerAdd (steerRow p.appid 0 p.dst) (match tget s.sve.subs p.stream with
    | some u => steerDrop (steerRow u.cfg.appid 0 u.cfg.dst) s.swc.appid
    | none => s.swc.appid)).length
  firstFail [bad (p.stream < 512), bad (p.rate < 4), bad (1 ≤ p.noasdu ∧ p.noasdu ≤ 8), bad (p.layout < 3),
    bad (1 ≤ p.nval ∧ p.nval ≤ 64 ∧ p.entries.length = p.nval), bad (p.flags < 16), bad (p.syncReq < 3),
    bad (0x4000 ≤ p.appid ∧ p.appid ≤ 0x7FFF), bad (p.vid ≤ 4094), bad (isGroup p.dst), bad (p.tbsel < 4), bad (p.substMax < 4),
    bad (p.latUs ≤ 4000), bad (p.macReq < 3), bad (slot p.keyA && slot p.keyB), bad (1 ≤ n ∧ n ≤ 63), bad (4 ≤ p.datsetLen ∧ p.datsetLen ≤ 1024),
    bad (p.layout ≠ 1 ∨ (p.rate = 3 ∧ p.noasdu = 1 ∧ p.nval = 8 ∧ p.datsetLen = 64)), bad (p.entries.all entry), bad chids.Nodup,
    bad (!(pairMode s 0 = 2 ∧ p.flags % 4 = 3 ∧ p.noasdu ≠ 1)),
    (decide (defs.length ≤ 512), stExhausted, 1), (decide (fps840 defs ≤ 2457600 * 840), stExhausted, 2),
    (decide (bound.length + p.nval ≤ 4096), stExhausted, 3), (decide (steer ≤ 1024), stExhausted, 4)]

/-- A channel that no subscription binds any more holds nothing (R111). -/
def unbindCh (chid : Nat) (s : State) : State := ringDrop chid (modSve (fun v => { v with chans := tdel v.chans chid }) s)

/-- A subscription goes (R136). -/
def svUnsubApply (n : Nat) (s : State) : State :=
  match tget s.sve.subs n with
  | none => s
  | some u =>
    let s := modSwc (fun w => { w with appid := steerDrop (steerRow u.cfg.appid 0 u.cfg.dst) w.appid }) s
    foldOver (u.cfg.entries.map SvEntry.chid) unbindCh (modSve (fun v => { v with subs := tdel v.subs n }) s)

/-- SVE_SUBSCRIBE takes effect (R112, R115, R122): channels that keep their base and rate keep their slots. -/
def svSubApply (p : SvSubDef) (s : State) : State :=
  let keep (c : Nat) : Option StoreCh := match tget s.sve.subs p.stream with
    | some u => if u.cfg.entries.any (fun e => e.chid == c) && (storeCh s c).tb == p.tbsel && (storeCh s c).rate == p.rate then some (storeCh s c) else none
    | none => none
  let chids := p.entries.map SvEntry.chid
  let kept := chids.filterMap fun c => (keep c).map fun x => (c, x, tget s.trg.rings c)
  let s := svUnsubApply p.stream s
  let u : SvSub := ⟨p, .waiting, 0, false, 0, 0, 0, 0, 0#32, 0#32, 0#32, none, none⟩
  let s := modSwc (fun w => { w with appid := steerAdd (steerRow p.appid 0 p.dst) w.appid }) (modSve (fun v => { v with subs := tset v.subs p.stream u }) s)
  let one (c : Nat) (s : State) : State :=
    match kept.find? fun x => x.1 == c with
    | some (_, x, ring) =>
      let s := modSve (fun v => { v with chans := tset v.chans c x }) s
      match ring with
      | some r => modTrg (fun g => { g with rings := tset g.rings c r }) s
      | none => s
    | none => emptyCh c p.tbsel p.rate s
  foldOver chids one s

/-- SVE_UNSUBSCRIBE: a channel bound to a zone or to a VF holds it (R136). -/
def svUnsubPre (n : Nat) (s : State) : Option (Nat × Nat) :=
  match tget s.sve.subs n with
  | none => none
  | some u =>
    let chids := u.cfg.entries.map SvEntry.chid
    if s.prt.zones.any (fun z => z.2.cfg.slots.any fun c => chids.contains c) then some (stConflict, s.sys.st.code) else none

def svUnsubCheck (n : Nat) (s : State) : Option (Nat × Nat) := firstFail [bad (n < 512 ∧ (tget s.sve.subs n).isSome)]

/-! ### Publications (R127, R136) -/

/-- SVE_PUBLISH (R127, R136). -/
def svPubCheck (p : SvPubDef) (s : State) : Option (Nat × Nat) :=
  let kinds := p.entries.map PubEntry.kind
  if p.op = 0 then firstFail [bad (p.pub < 8)]
  else firstFail [bad (p.pub < 8), bad (p.op = 1), bad (p.layout < 2), bad (p.rate < 4), bad (1 ≤ p.noasdu ∧ p.noasdu ≤ 8),
    bad (1 ≤ p.nval ∧ p.nval ≤ 24 ∧ p.entries.length = p.nval), bad (p.flags < 4), bad (p.pcp < 8), bad (p.vid ≤ 4094),
    bad (0x4000 ≤ p.appid ∧ p.appid ≤ 0x7FFF), bad (p.macalg < 3), bad (p.keySlot < 256 ∨ p.keySlot = 0xFFFF), bad ((cstr p.svid).length ≤ 64),
    bad (p.layout ≠ 1 ∨ (p.rate = 3 ∧ p.noasdu = 1 ∧ p.nval = 8 ∧ kinds = [0, 0, 0, 0, 1, 1, 1, 1])),
    bad (p.entries.all fun e => decide (e.chid < 24) && decide (e.kind < 2) && (fltOf s e.chid).cfgGeom.rate == p.rate)]

def svPubApply (p : SvPubDef) (s : State) : State :=
  if p.op = 0 then modSve (fun v => { v with pubs := tdel v.pubs p.pub }) s
  else
    let frames := match tget s.sve.pubs p.pub with
      | some u => u.frames
      | none => 0#32
    modSve (fun v => { v with pubs := tset v.pubs p.pub ⟨p, true, decide (s.pwr.shed ≥ 3) && !nbit p.flags 0, frames, 0, []⟩ }) s

end Sys2Proof.Machine
end

