-- ==== Sys2Proof/Machine/Goose.lean ====
section
/-! DEFINITION. GOOSE subscriptions and publications (05_sampled_values.md R132 to R137). -/

namespace Sys2Proof.Machine

def modGsub (g : Nat) (f : Gsub → Gsub) (s : State) : State := modSve (fun v => { v with gsubs := tmod v.gsubs g f }) s

/-- A G bit takes a value and a validity, stamped on the Shutter's base (R90, R91, R132). -/
def setGBit (n : Nat) (v valid : Bool) (t : Int) (s : State) : State :=
  if n ≥ 1024 then s
  else
    let old := s.sve.gbits.getLsbD n
    let s := modSve (fun x => { x with gbits := setBit x.gbits n v, gvalid := setBit x.gvalid n valid }) s
    if old = v then s else srcEdge (0x2000 + n) v (shtBase s) t s

/-- GOOSE_CHANGE deliveries of the ranges in which a bit changed value or validity (R342, R349). -/
def gooseDeliver (before : State) (t : Int) (s : State) : State :=
  let changed (n : Nat) : Bool := before.sve.gbits.getLsbD n != s.sve.gbits.getLsbD n || before.sve.gvalid.getLsbD n != s.sve.gvalid.getLsbD n
  let ns := (List.range 1024).filter changed
  if ns.isEmpty then s
  else
    deliverBound (fun c => ns.any fun n => decide (c.gFirst ≤ n) && decide (n < c.gFirst + c.gCount))
      (fun i c => ⟨4, i, stampWords (shtBase s) t ++ u16 c.gFirst ++ u16 c.gCount
        ++ rangeWords s.sve.gbits c.gFirst c.gCount ++ rangeWords s.sve.gvalid c.gFirst c.gCount, 0⟩) s

/-- Sets G bits, then everything that takes them. -/
def setGBits (l : List (Nat × Bool × Bool)) (t : Int) (s : State) : State :=
  let s' := foldOver l (fun p s => setGBit p.1 p.2.1 p.2.2 t s) s
  settle (gooseDeliver s t s')

/-- The quality member that follows member i, if there is one (R132). -/
def memberInvalid (c : GsubDef) (vals : List GooseVal) (i : Nat) : Bool :=
  match c.members[i + 1]?, vals[i + 1]? with
  | some m, some (.quality q) => m.mtype == 2 && qInvalid q
  | _, _ => false

/-- Value and validity that member i of a frame gives its bit; ok is false for a confRev mismatch or ndsCom (R132). -/
def gooseBit (s : State) (c : GsubDef) (ok : Bool) (vals : List GooseVal) (i : Nat) (m : GsMember) : Option (Nat × Bool × Bool) :=
  if m.gbit ≥ 1024 ∨ m.mtype ≥ 2 then none
  else
    let old := s.sve.gbits.getLsbD m.gbit
    if !ok then some (m.gbit, old, false)
    else
      let good := !memberInvalid c vals i
      match m.mtype, vals[i]? with
      | 0, some (.bool b) => some (m.gbit, b, good)
      | 1, some (.dbpos d) => some (m.gbit, d == 2#2, good && (d == 1#2 || d == 2#2))
      | _, _ => some (m.gbit, old, false)

/-- Bits mapped by a subscription. -/
def GsubDef.bits (c : GsubDef) : List GsMember := c.members.filter fun m => decide (m.gbit < 1024) && decide (m.mtype < 2)

/-- The redundancy stage of a port (R298, R132). -/
def pairAdmits (s : State) (p : Nat) : Bool := decide (p ≥ 4) || decide (pairMode s p ≠ 2) || activePort s (p / 2) == some p

/-- Duplicate discard of a pair in PRP (R297, R132). -/
def gooseStage (s : State) (f : GooseFrame) : Bool × State :=
  if f.link.port < 4 ∧ pairMode s f.link.port = 1 then prpReceive prpGoose f.link.port f.link.src f.link.rct false s else (true, s)

/-- Port p receives: its link is up, or HP. -/
def portReceives (s : State) (p : Nat) : Bool := p == 4 || (decide (p < 4) && linkUp s p)

/-- The subscription a frame matches (R132). -/
def gooseMatch (s : State) (f : GooseFrame) : Option (Nat × Gsub) :=
  s.sve.gsubs.find? fun p =>
    p.2.cfg.dst == f.link.dst && p.2.cfg.appid == f.appid && cstr p.2.cfg.gocbref == cstr f.gocbref && cstr p.2.cfg.goid == cstr f.goid

/-- A matched frame is accepted: simulation, MAC rule and sequence numbers (R132). -/
def gooseAccepts (s : State) (g : Gsub) (f : GooseFrame) : Bool :=
  (if f.sim then s.sve.sim && nbit g.cfg.flags 0 else !g.simulated)
    && macAccepts s g.cfg.macReq g.cfg.keyA g.cfg.keyB attrGooseMac f.ext f.link.octets
    && !(g.seen && decide (f.stNum = g.stNum) && decide (f.sqNum ≤ g.sqNum))

/-- What a subscription holds after an accepted frame (R132, R133). -/
def Gsub.take (f : GooseFrame) (now : Nat) (g : Gsub) : Gsub :=
  { g with
    seen := true, valid := f.confRev == g.cfg.confrev && !f.ndsCom, talExpired := false, ndsCom := f.ndsCom, confrevBad := f.confRev != g.cfg.confrev
    simulated := f.sim, stNum := f.stNum, sqNum := f.sqNum, talEnd := some (now + f.tal * 1000000) }

/-- The G bits that an accepted frame sets (R132). -/
def gooseBits (s : State) (g : Gsub) (f : GooseFrame) : List (Nat × Bool × Bool) :=
  (imap (fun i m => gooseBit s g.cfg (f.confRev == g.cfg.confrev && !f.ndsCom) f.members i m) g.cfg.members).filterMap id

/-- A frame accepted for subscription n (R132, R133). -/
def gooseTake (n : Nat) (g : Gsub) (f : GooseFrame) (s : State) : State :=
  let s := modGsub n (Gsub.take f s.now) s
  let s := if g.talExpired then ev 0x040B (u8 n ++ zeros 3 ++ u32 f.stNum) s else s
  setGBits (gooseBits s g f) (f.link.stamp.getD (shtBase s) 0) s

/-- GOOSE_FRAME_RECEIVE (R132, R133). -/
def execGooseFrameReceive (t : Nat) (f : GooseFrame) (s : State) : Res :=
  let s := atTime t s
  if !operational s || !portReceives s f.link.port || !pairAdmits s f.link.port then go s
  else
    let (pass, s) := gooseStage s f
    if !pass then go s
    else match gooseMatch s f with
    | none => go s
    | some (n, g) => if gooseAccepts s g f then go (gooseTake n g f s) else go (modGsub n (fun g => { g with err := satInc g.err }) s)

/-- GOOSE_TAL_EXPIRE (R133). -/
def execGooseTalExpire (t gsub : Nat) (s : State) : Res :=
  let s := atTime t s
  match tget s.sve.gsubs gsub with
  | none => go s
  | some g =>
    let past : Bool := match g.talEnd with
      | some e => decide (e ≤ s.now)
      | none => false
    if g.talExpired || !past || !operational s then go s
    else
      let s := modGsub gsub (fun g => { g with valid := false, talExpired := true, talEnd := none }) s
      let s := ev 0x040A (u8 gsub ++ zeros 3 ++ u32 g.stNum) s
      go (setGBits (g.cfg.bits.map fun m => (m.gbit, m.subst == 1, false)) (shtNow s) s)

/-- GOOSE_RETRANSMIT (R134): the interval doubles up to MAXTIME. -/
def execGooseRetransmit (t gpub : Nat) (s : State) : Res :=
  let s := atTime t s
  match tget s.sve.gpubs gpub with
  | none => go s
  | some g =>
    let due : Bool := match g.next with
      | some n => decide (n ≤ s.now)
      | none => false
    if !g.running || !due || !operational s then go s
    else if gooseGated s g then go (modSve (fun v => { v with gpubs := tmod v.gpubs gpub fun g => { g with gatedOff := true } }) s)
    else if g.gatedOff || g.cfg.members.map (gooseMember s) != g.values then go (gooseChange gpub s)
    else go (gooseSend gpub (modSve (fun v => { v with gpubs := tmod v.gpubs gpub fun g =>
      { g with sqNum := (g.sqNum + 1) % 2 ^ 32, interval := min (2 * g.interval) g.cfg.maxtimeMs } }) s))

/-! ### Commands (R136) -/

/-- A key slot operand: 0 to 255, or none. -/
def slotOk (k : Nat) : Bool := decide (k < 256) || k == 0xFFFF

/-- The APPID entry of a GOOSE subscription (R320). -/
def GsubDef.steer (c : GsubDef) : AppidRow := steerRow c.appid 1 c.dst

/-- SVE_GOOSE_SUBSCRIBE (R132, R136; the APPID limit of R115). -/
def gsubCheck (p : GsubDef) (s : State) : Option (Nat × Nat) :=
  if p.op = 0 then firstFail [bad (p.gsub < 128)]
  else
    let l := match tget s.sve.gsubs p.gsub with
      | some g => steerDrop g.cfg.steer s.swc.appid
      | none => s.swc.appid
    let member (m : GsMember) : Bool := (decide (m.gbit < 1024) || m.gbit == 0xFFFF) && decide (m.mtype < 4) && decide (m.subst < 2)
    firstFail [bad (p.gsub < 128), bad (p.op = 1), bad (1 ≤ p.nmem ∧ p.nmem ≤ 64 ∧ p.members.length = p.nmem), bad (p.flags < 2),
      bad (p.appid ≤ 0x3FFF), bad (p.macReq < 3), bad (slotOk p.keyA && slotOk p.keyB), bad (p.members.all member),
      (decide ((steerAdd p.steer l).length ≤ 1024), stExhausted, 4)]

/-- The subscription goes: its bits read 0 and invalid. -/
def gsubDrop (n : Nat) (s : State) : State :=
  match tget s.sve.gsubs n with
  | none => s
  | some g =>
    let s := modSwc (fun w => { w with appid := steerDrop g.cfg.steer w.appid }) (modSve (fun v => { v with gsubs := tdel v.gsubs n }) s)
    setGBits (g.cfg.bits.map fun m => (m.gbit, false, false)) (shtNow s) s

def gsubApply (p : GsubDef) (s : State) : State :=
  let s := gsubDrop p.gsub s
  if p.op = 0 then s
  else modSwc (fun w => { w with appid := steerAdd p.steer w.appid })
    (modSve (fun v => { v with gsubs := tset v.gsubs p.gsub ⟨p, false, false, false, false, false, false, 0, 0, 0#32, none⟩ }) s)

/-- SVE_GOOSE_PUBLISH (R134, R136). -/
def gpubCheck (p : GpubDef) (_ : State) : Option (Nat × Nat) :=
  if p.op = 0 then firstFail [bad (p.gpub < 32)]
  else
    let member (m : GpMember) : Bool := decide (1 ≤ m.area) && decide (m.area ≤ 3) && operandOk m.area m.operand && m.rsv == 0
    firstFail [bad (p.gpub < 32), bad (p.op = 1), bad (1 ≤ p.nmem ∧ p.nmem ≤ 64 ∧ p.members.length = p.nmem), bad (p.flags < 4),
      bad (p.appid ≤ 0x3FFF), bad (p.vid ≤ 4094), bad (p.pcp < 8), bad (p.macalg < 3), bad (slotOk p.keySlot), bad (p.gateZone < 64),
      bad (100 ≤ p.maxtimeMs ∧ p.maxtimeMs ≤ 60000), bad (p.members.all member)]

/-- A defined publication starts with a change; its stNum goes on over a redefinition. -/
def gpubApply (p : GpubDef) (s : State) : State :=
  if p.op = 0 then modSve (fun v => { v with gpubs := tdel v.gpubs p.gpub }) s
  else
    let st := match tget s.sve.gpubs p.gpub with
      | some g => g.stNum
      | none => 0
    let s := modSve (fun v => { v with gpubs := tset v.gpubs p.gpub ⟨p, true, false, st, 0, 1, none, []⟩ }) s
    gooseCheck s

end Sys2Proof.Machine
end

