-- ==== Sys2Proof/Machine/Admission.lean ====
section
/-! DEFINITION. Budget costs and admission (06_ac_protection.md R168; 07_dc_trip_breaker.md R182; 08_cyclic_logic.md R225; 09_speed_budgets.md R232 to R234). -/

namespace Sys2Proof.Machine

/-- A quantity that is computed exactly (R234). -/
structure Frac where
  num : Nat
  den : Nat
deriving DecidableEq, Repr

def Frac.add (a b : Frac) : Frac :=
  let n := a.num * b.den + b.num * a.den
  let d := a.den * b.den
  let g := Nat.gcd n d
  ⟨n / g, d / g⟩

def Frac.le (a b : Frac) : Bool := decide (a.num * b.den ≤ b.num * a.den)

/-- In 0.001, rounded up. -/
def Frac.milli (a : Frac) : Nat := cdiv (a.num * 1000) a.den

def fracSum (l : List Frac) : Frac := l.foldl Frac.add ⟨0, 1⟩

/-! ### Costs -/

/-- Budget units of an estimator (R168). -/
def Est.bu : Est → Nat
  | .fc => 520
  | .hc => 300
  | .h2 => 180
  | .rms => 60

/-- Some group's vector has setting P at n. -/
def anyGroup (i : Inst) (p n : Nat) : Bool := i.groups.any fun v => pN v p == n

/-- Estimators an instance uses in an AC zone, over its four groups (R154 to R168, R177). -/
def Inst.ests (i : Inst) : List (Measurand × Est) :=
  let im := i.cfg.imeas.norm
  let vm := i.cfg.vmeas.norm
  let kind (m : Measurand) (p : Nat) : List (Measurand × Est) :=
    (if anyGroup i p 1 then [(m, Est.fc)] else []) ++ (if i.groups.any fun v => pN v p != 1 then [(m, Est.hc)] else [])
  match i.cfg.cls with
  | 0x01 => kind im 1
  | 0x02 => [(im, .fc)]
  | 0x03 => [(im, .fc), (vm, .fc)]
  | 0x04 => [(im, .fc), (vm, .fc)] ++ (if i.groups.any fun v => nonzero32 (pOf v 9) then [(im, .hc), (vm, .hc)] else [])
  | 0x05 => [(im, .fc), (im, .h2), (im, .hc)]
  | 0x06 => [(im, .rms)]
  | 0x07 => kind vm 3
  | 0x08 => kind vm 3
  | 0x13 => [(im, .hc)]
  | _ => []

/-- Class cost of an instance (R168, R182). -/
def Inst.bu (i : Inst) (dc : Bool) : Nat :=
  match i.cfg.cls with
  | 0x01 => 40
  | 0x02 => if i.groups.any fun v => pN v 1 != 0 then 260 else 60
  | 0x03 => 140
  | 0x04 => 620
  | 0x05 => 50
  | 0x06 => 110
  | 0x07 => 40
  | 0x08 => 40
  | 0x09 => 40
  | 0x0A => 40
  | 0x0B => 70
  | 0x10 => 60
  | 0x11 => 90
  | 0x12 => 80
  | 0x13 => if dc then 70 else 50
  | 0x14 => 40
  | 0x15 => 30
  | _ => 0

/-- The list without repeats. -/
def distinctEsts (l : List (Measurand × Est)) : List (Measurand × Est) := l.foldl (fun acc m => if acc.contains m then acc else acc ++ [m]) []

/-- Bz: work of a zone at one index (R168, R182). Estimators are costed in AC zones, once per zone. -/
def zoneBu (s : State) (zn : Nat) (z : ZoneDef) : Nat :=
  let is := (instsOf s zn).map Prod.snd
  let ac := z.fnom != 3
  let fref := if ac && !z.fref.none' then [(z.fref.norm, Est.fc)] else []
  400 + (if z.fref.none' then 0 else 150) + nsum (is.map fun i => i.bu (!ac))
    + (if ac then nsum ((distinctEsts (fref ++ is.flatMap Inst.ests)).map fun x => x.2.bu) else 0)

/-- The slot a task runs once its pending change is carried out (R224). -/
def Task.plan (t : Task) : Nat :=
  match t.pend with
  | some c => c.slot
  | none => t.cfg.slot

/-- BU of an instruction (R208). -/
def opBu (op : Nat) : Nat :=
  if op = 0x1B then 20
  else if 0x10 ≤ op ∧ op ≤ 0x15 then 2
  else if 0x20 ≤ op ∧ op ≤ 0x22 then 4
  else if 0x24 ≤ op ∧ op ≤ 0x26 then 3
  else if op = 0x28 ∨ op = 0x29 then 2 else 1

/-- C of an image (R225). -/
def Image.cost (g : Image) : Nat := 150 + 2 * g.wset.length + nsum (g.prog.map fun i => opBu i.op)

/-- WCET_BU charged to the core: once for each CALLN (R225). -/
def Image.wcet (g : Image) : Nat :=
  nsum ((g.prog.filter fun i => i.op == 0x1B).map fun i => (g.natives[i.opnd]?.map NativeDef.wcet).getD 0)

/-- Runs per second of a P or L task, none for B (R234). -/
def taskRate (s : State) (t : LogActivate) : Option Frac :=
  match t.cls with
  | 1 => match tget s.prt.zones t.zone with
    | some z => some ⟨rateHz z.cfg.rate, max 1 t.pmul⟩
    | none => none
  | 2 => some ⟨1000000, max 1 t.periodUs⟩
  | _ => none

/-! ### Admission -/

/-- Costs per second of the tasks of unit b that cost f, without L tasks unless all (R234). -/
def tasksLoad (s : State) (b : Nat) (all : Bool) (f : Image → Nat) : Frac :=
  fracSum (s.cyc.tasks.filterMap fun p =>
    let c := p.2.cfg
    if c.blu ≠ b ∨ (c.cls = 2 ∧ !all) then none
    else match taskRate s c, tget s.cyc.slots c.slot with
      | some r, some g => some ⟨f g * r.num, r.den⟩
      | _, _ => none)

/-- Zones of core c with their BU. -/
def coreZones (s : State) (c : Nat) : List (Nat × Nat) :=
  (s.prt.zones.filter fun p => p.2.cfg.core == c).map fun p => (zoneBu s p.1 p.2.cfg, rateHz p.2.cfg.rate)

/-- Σ Bz + 200 of a core that holds a zone, else 0 (R234). -/
def coreBu (s : State) (c : Nat) : Nat :=
  match coreZones s c with
  | [] => 0
  | zs => nsum (zs.map Prod.fst) + 200

/-- x / 425,000,000: 85 % of the reference rate (R234). -/
def Frac.ofRate (x : Frac) : Frac := ⟨x.num, x.den * 425000000⟩

def coreUtil (s : State) (all : Bool) (c : Nat) : Frac :=
  (Frac.add ⟨nsum ((coreZones s c).map fun z => z.1 * z.2), 1⟩ (tasksLoad s c all Image.wcet)).ofRate

def bluUtil (s : State) (all : Bool) (b : Nat) : Frac := (tasksLoad s b all Image.cost).ofRate

/-- The latency term: 37.5 µs at SI 1.00 (R234). -/
def coreLat (s : State) (c : Nat) : Frac := ⟨coreBu s c, 18750⟩

/-- The quantities of R234 with their LIMIT codes, in rising order of the code. -/
def siTerms (s : State) (all : Bool) : List (Frac × Nat) :=
  tab 16 (fun c => (coreUtil s all c, c))
    ++ (List.range 16).filterMap (fun c => if coreBu s c = 0 then none else some (coreLat s c, 16 + c))
    ++ tab 16 (fun b => (bluUtil s all b, 32 + b))

/-- The largest quantity; of equal ones the lowest code. -/
def siMax (l : List (Frac × Nat)) : Frac × Nat := l.foldl (fun m x => if x.1.le m.1 then m else x) (⟨0, 1⟩, 0)

/-- SI_REQ with its LIMIT, and SI_REQ_SHED4 (R234). -/
def siReq (s : State) : Frac × Nat := siMax (siTerms s true)
def siReqShed4 (s : State) : Frac := (siMax (siTerms s false)).1

/-- The configuration once every pending on-line change is carried out (R223, R233). -/
def planned (s : State) : State :=
  { s with cyc := { s.cyc with tasks := s.cyc.tasks.map fun p => (p.1, { p.2 with cfg := { p.2.cfg with slot := p.2.plan } }) } }

/-- The failing quantity in 0.001 with its LIMIT, none for a configuration that is admitted (R233, R234). -/
def admitFault (s : State) : Option (Nat × Nat) :=
  let r := siReq (planned s)
  let q := siReqShed4 (planned s)
  if !r.1.le ⟨s.spd.siPlan, 1000⟩ then some (min r.1.milli 0xFFFF, r.2)
  else if !q.le ⟨96, 100⟩ then some (min q.milli 0xFFFF, 48) else none

/-- DETAIL of BUDGET_EXCEEDED (R233). -/
def admitDetail (f : Nat × Nat) : Nat := f.1 + f.2 * 65536

/-- EV_SPD_ADMIT_REFUSED (R233, R244). -/
def admitRefused (src opcode : Nat) (f : Nat × Nat) (s : State) : State := evBy src 0x0C44 (u16 f.1 ++ u8 f.2 ++ u8 0 ++ u16 opcode ++ u16 0) s

def modSpd (f : Spd → Spd) (s : State) : State := { s with spd := f s.spd }

/-- EV_SPD_VCORE_OVR (R236). -/
def vcoreOvrEvent (code st : Nat) (s : State) : State := ev 0x0C45 (u8 code ++ u8 st ++ u16 0) s

/-- The registers that describe the admitted configuration (R245). -/
def admitStore (s : State) : State :=
  let c := planned s
  let r := siReq c
  modSpd (fun d => { d with
    siReq := min r.1.milli 0xFFFF
    siReqLimit := r.2
    siShed4 := min (siReqShed4 c).milli 0xFFFF
    admCore := tab 16 fun n => (min (coreUtil c true n).milli 0xFFFF, min (coreLat c n).milli 0xFFFF)
    admBlu := tab 16 fun b => min (bluUtil c true b).milli 0xFFFF
    admBu := tab 16 (coreBu c) }) s

end Sys2Proof.Machine
end

