-- ==== Sys2Proof/Machine/Logic.lean ====
section
/-! DEFINITION. Logic tasks: due cycles, snapshot, Pedin BL, native calls, commit (08_cyclic_logic.md R199 to R224). -/

namespace Sys2Proof.Machine

/-- Key of an operand: area × 2^22 + operand. -/
abbrev opKey (area n : Nat) : Nat := area * 4194304 + n

/-- The image a task runs; an empty one when its slot holds none. -/
def imageOf (s : State) (slot : Nat) : Image := tgetD s.cyc.slots slot ⟨0, [], [], [], [], [], [], [], [], [], [], 0⟩

/-- Base of a task (R199). -/
def taskBase (s : State) (c : LogActivate) : Nat :=
  if c.cls = 1 then (match tget s.prt.zones c.zone with
    | some z => zoneBase s z.cfg
    | none => 0)
  else c.tbsel

/-- Period in seconds, 0 for B (R199). -/
def taskPeriod (s : State) (c : LogActivate) : Frac :=
  match taskRate s c with
  | some r => ⟨r.den, r.num⟩
  | none => ⟨0, 1⟩

/-- The forced value in effect on an operand (R221). -/
def forceVal (s : State) (area n : Nat) : Option Bool := (s.cyc.forces.find? fun f => f.area == area && f.opnd == n).bind Force.held

/-! ### Scheduling -/

/-- Task a goes before task b on a BLU: P, L, B, then the shorter period, then the lower number (R201). -/
def ranksBefore (s : State) (a b : Nat × Task) : Bool :=
  if a.2.cfg.cls ≠ b.2.cfg.cls then decide (a.2.cfg.cls < b.2.cfg.cls)
  else
    let p := taskPeriod s a.2.cfg
    let q := taskPeriod s b.2.cfg
    if p.le q && q.le p then decide (a.1 < b.1) else p.le q

/-- A task's cycle is running or waits to run. -/
def Task.busy (t : Task) : Bool := t.run.isSome || t.due.isSome

/-- The other B tasks of a task's BLU that are not suspended. -/
def bPeers (s : State) (n : Nat) (t : Task) : List (Nat × Task) :=
  s.cyc.tasks.filter fun p => p.1 != n && p.2.cfg.blu == t.cfg.blu && p.2.cfg.cls == 3 && !p.2.suspended

/-- It is task n's turn among the B tasks of its BLU: in each round the lower number goes first (R201; log entry 198). -/
def bTurn (s : State) (n : Nat) (t : Task) : Bool :=
  (bPeers s n t).all fun p => if t.turn then p.2.turn && decide (n < p.1) else p.2.turn || decide (n < p.1)

/-- Task n has its turn; one that had it already begins a new round. -/
def takeTurn (n : Nat) (s : State) : State :=
  match tget s.cyc.tasks n with
  | none => s
  | some t =>
    let s := if t.turn then foldOver (bPeers s n t) (fun p s => modTask p.1 (fun t => { t with turn := false }) s) s else s
    modTask n (fun t => { t with turn := true, adj := 0 }) s

/-- The BLU serves task n now: no task before it has work, and no cycle of its rank runs; a B task runs when no P or L cycle is due (R199, R201). -/
def served (s : State) (n : Nat) (t : Task) : Bool :=
  !(s.cyc.tasks.any fun p => p.1 != n && p.2.cfg.blu == t.cfg.blu && p.2.busy
    && (ranksBefore s p (n, t) || (t.cfg.cls == 3 && p.2.cfg.cls == 3)))
    && (t.cfg.cls != 3 || bTurn s n t)

/-- A cycle of a task that goes before task n runs on its BLU: n's cycle is preempted and goes on after it (R201). -/
def preempted (s : State) (n : Nat) (t : Task) : Bool :=
  s.cyc.tasks.any fun p => p.1 != n && p.2.cfg.blu == t.cfg.blu && p.2.run.isSome && ranksBefore s p (n, t)

/-- Task n's native call is the one its core runs: of the calls that wait on one core, the first in the order of R201 (R216). -/
def callRuns (s : State) (n : Nat) (t : Task) : Bool :=
  !(s.cyc.tasks.any fun p => p.1 != n && p.2.cfg.blu == t.cfg.blu && (match p.2.run with
    | some c => c.inCall.isSome && ranksBefore s p (n, t)
    | none => false))

/-! ### Snapshot -/

/-- Value of an operand in a task's input image (R200, R211, R221). -/
def snapVal (s : State) (t : Task) (area n : Nat) : Bool :=
  match forceVal s area n with
  | some v => v
  | none =>
    if area = 8 then
      if n = 0 then t.first else if n = 1 then t.ovrLast else if n = 3 then t.changed else sBit s (taskBase s t.cfg) n
    else operandBit s area n

/-- The operands that a program names, as keys. -/
def Image.keys (g : Image) : List Nat :=
  g.prog.filterMap fun i => match opKind i.op with
    | some 1 => some (opKey i.area i.opnd)
    | some 8 => some (opKey i.area i.opnd)
    | _ => none

/-- The bits of the read set and of the write set, in order (R218). -/
def Image.inBits (g : Image) : List (Nat × Nat) := g.rset.flatMap fun r => tab r.count fun i => (r.area, r.first + i)
def Image.outBits (g : Image) : List (Nat × Nat) := g.wset.flatMap fun r => tab r.count fun i => (r.area, r.first + i)

/-- FLAGS of the context (R218). -/
def ctxFlags (s : State) (t : Task) : Nat := fl t.first 0 + fl t.ovrLast 1 + fl (forceActive s) 2 + fl t.changed 3

/-- A channel of the context: its latest final slot (R218); a channel without one reads 0.0, the empty slot's quality and K 0 (DESIGN CHOICE, log entry 199). -/
def ctxChan (s : State) (chid : Nat) : Word × Quality × Nat :=
  match (storeCh s chid).slots.head? with
  | some x => (x.v, x.q, x.k)
  | none => (0#32, qEmpty, 0)

/-- Edge memories at a snapshot: the pending edges, and memories that take the snapshot's values (R204, R215). -/
def edgeSnap (s : State) (t : Task) (g : Image) : Table EdgeSt × Table Bool :=
  g.edges.foldl (fun (acc : Table EdgeSt × Table Bool) d =>
    match g.prog[d.index]? with
    | none => acc
    | some i =>
      let v := snapVal s t i.area i.opnd
      let e := tgetD acc.1 d.index ⟨v, false⟩
      let hit := e.pending || (if i.op = 0x28 then v && !e.mem else !v && e.mem)
      (tset acc.1 d.index ⟨v, false⟩, tset acc.2 d.index (hit && !t.first))) (t.edges, [])

/-! ### Execution -/

/-- A cycle that executes: what the program reads and changes. -/
structure Exec where
  c : Cycle
  /-- the s that timers take (R206, R212) -/
  ts : Int
  timers : Table TimerSt
  counters : Table CounterSt
  data : Bytes
  /-- returns of native calls still to come -/
  natives : List NativeRet
deriving DecidableEq, Repr

/-- The value an instruction reads (R200, R207). -/
def execRead (s : State) (g : Image) (x : Exec) (area n : Nat) : Bool :=
  if area = 1 ∨ area = 2 then
    match forceVal s area n with
    | some v => v
    | none => tgetD x.c.writes (opKey area n) (tgetD x.c.snap (opKey area n) false)
  else if area = 6 then (match tget x.timers n with
    | some t => t.q
    | none => tgetD x.c.snap (opKey area n) false)
  else if area = 7 then (match tget x.counters n with
    | some c => counterQ g n c
    | none => tgetD x.c.snap (opKey area n) false)
  else if area = 9 then n == 1
  else tgetD x.c.snap (opKey area n) false

/-- A write of a Q or M bit; a bit with a force in effect is not written (R221). -/
def execWrite (s : State) (area n : Nat) (v : Bool) (x : Exec) : Exec :=
  if (forceVal s area n).isSome then x else { x with c := { x.c with writes := tset x.c.writes (opKey area n) v } }

/-- Elapsed time of a timer in µs (R212). -/
def timerEt (st : Int) (t : TimerSt) : Nat := min ((st - t.t0) / 1000).toNat 0xFFFFFFFF

/-- A timer that has not run: no edge is seen in the first cycle (R204, R212). -/
def timerFresh (type : Nat) : TimerSt := ⟨false, 0, type == 2, false⟩

/-- A timer instruction (R212, R213); type 0 TON, 1 TOF, 2 TP. -/
def timerStep (type pt : Nat) (st : Int) (inp : Bool) (t : TimerSt) : TimerSt :=
  match type with
  | 0 =>
    let t := if !inp then { t with running := false } else if t.running then t else { t with running := true, t0 := st }
    { t with inp := inp, q := t.running && decide (pt ≤ timerEt st t) }
  | 1 =>
    let t := if inp then { t with running := false } else if t.inp && !t.running then { t with running := true, t0 := st } else t
    { t with inp := inp, q := inp || (t.running && decide (timerEt st t < pt)) }
  | _ =>
    let t := if t.running && decide (pt ≤ timerEt st t) then { t with running := false } else t
    let t := if inp && !t.inp && !t.running then { t with running := true, t0 := st } else t
    { t with inp := inp, q := t.running && decide (timerEt st t < pt) }

/-- CTU, or CTD with down (R214). -/
def counterStep (down : Bool) (cr : Bool) (c : CounterSt) : CounterSt :=
  let cv := if cr && !c.prev then (if down then c.cv - 1 else min (c.cv + 1) 0xFFFFFFFF) else c.cv
  ⟨cv, cr⟩

/-- CR := CR op b, op 1 LD to 8 XORN (R208). -/
def bitOp (op : Nat) (cr b : Bool) : Bool :=
  match op with
  | 1 => b
  | 2 => !b
  | 3 => cr && b
  | 4 => cr && !b
  | 5 => cr || b
  | 6 => cr || !b
  | 7 => xor cr b
  | _ => xor cr (!b)

/-- The operation of a bracket opener, of its opcode (R208). -/
def bracketOp (op : Nat) (v cr : Bool) : Bool :=
  match op with
  | 0x10 => v && cr
  | 0x11 => v || cr
  | 0x12 => xor v cr
  | 0x13 => v && !cr
  | _ => v || !cr

/-- Sets CR and goes on. -/
def Exec.cr (x : Exec) (v : Bool) : Exec := { x with c := { x.c with cr := v } }


/-- A native call that returns: CR, the output staging and the task's data (R216 to R218). -/
def execReturn (s : State) (g : Image) (r : NativeRet) (x : Exec) : Exec :=
  let x := (imap (fun i k => (i, k)) g.outBits).foldl (fun (x : Exec) p =>
    match r.out[p.1]? with
    | some v => execWrite s p.2.1 p.2.2 v x
    | none => x) x
  { x with c := { x.c with cr := r.cr, inCall := none }, data := padTo x.data.length r.data }

/-- One instruction; the index of the next is already in pc (R208). A CALLN without a return waits. -/
def execInstr (s : State) (g : Image) (i : Nat) (ins : BlInstr) (x : Exec) : Exec :=
  let op := ins.op
  let cr := x.c.cr
  match opKind op with
  | some 1 =>
    let b := execRead s g x ins.area ins.opnd
    if opOpens op then ({ x with c := { x.c with stack := (cr, op) :: x.c.stack } }).cr b else x.cr (bitOp op cr b)
  | some 2 =>
    if op = 0x09 then execWrite s ins.area ins.opnd cr x
    else if op = 0x0A then execWrite s ins.area ins.opnd (!cr) x
    else if !cr then x else execWrite s ins.area ins.opnd (op == 0x0B) x
  | some 3 => if op = 0x18 ∨ (op = 0x19 ∧ cr) ∨ (op = 0x1A ∧ !cr) then { x with c := { x.c with pc := ins.opnd } } else x
  | some 4 => match x.natives with
    | r :: rest => execReturn s g r { x with natives := rest }
    | [] => { x with c := { x.c with inCall := some ins.opnd } }
  | some 5 =>
    let d := (g.timers.find? fun t => t.t == ins.opnd).getD ⟨0, 0, 0⟩
    let t := timerStep d.type d.pt x.ts cr (tgetD x.timers ins.opnd (timerFresh d.type))
    ({ x with timers := tset x.timers ins.opnd t }).cr t.q
  | some 6 =>
    let c := counterStep (op == 0x25) cr (tgetD x.counters ins.opnd ⟨0, true⟩)
    ({ x with counters := tset x.counters ins.opnd c }).cr (counterQ g ins.opnd c)
  | some 7 =>
    if !cr then x
    else
      let d := (g.counters.find? fun c => c.c == ins.opnd).getD ⟨0, 0, 0⟩
      { x with counters := tmodD x.counters ins.opnd ⟨0, true⟩ fun c => { c with cv := d.rv } }
  | some 8 => ({ x with c := { x.c with edges := tset x.c.edges i false } }).cr (tgetD x.c.edges i false)
  | _ =>
    if op = 0x0D then x.cr (!cr)
    else if op = 0x15 then match x.c.stack with
      | (v, o) :: rest => ({ x with c := { x.c with stack := rest } }).cr (bracketOp o v cr)
      | [] => x
    else if op = 0x1D ∨ (op = 0x1C ∧ cr) then { x with c := { x.c with ended := true } }
    else x

/-- The program from pc on, until it ends or waits in a native call (R200, R208). -/
def execProg (s : State) (g : Image) : Nat → Exec → Exec
  | 0, x => x
  | n + 1, x =>
    if x.c.ended || x.c.inCall.isSome then x
    else match g.prog[x.c.pc]? with
      | none => { x with c := { x.c with ended := true } }
      | some ins => execProg s g n (execInstr s g x.c.pc ins { x with c := { x.c with pc := x.c.pc + 1 } })

/-! ### Native calls -/

/-- Bits as words, the first in bit 0 of the first word. -/
def boolWords (l : List Bool) : Bytes := (List.range (cdiv l.length 32)).flatMap fun i => u32 (ofBits ((l.drop (32 * i)).take 32))

/-- PERIOD_NS of a task, 0 for B (R218, R228). -/
def periodNs (s : State) (c : LogActivate) : Word :=
  let p := taskPeriod s c
  sat32 (rdivEven ((p.num * NS : Nat) : Int) p.den).toNat

/-- The context of a native call (R218): IN_OFS follows the header, CHAN_OFS the read set (DESIGN CHOICE, log entry 199). -/
def nativeContext (s : State) (n : Nat) (t : Task) (g : Image) (c : Cycle) (block : Nat) : Bytes :=
  let ins := g.inBits
  let inw := boolWords (ins.map fun k => tgetD c.snap (opKey k.1 k.2) false)
  u32 1 ++ u16 n ++ u8 t.cfg.cls ++ u8 c.flags ++ u64 (secOf c.s).toNat ++ u32 (nsOf c.s) ++ w32 (periodNs s t.cfg)
    ++ u32 (if t.cfg.cls = 1 then c.k else 0) ++ w32 t.cycles ++ u16 ins.length ++ u16 g.outBits.length ++ u16 g.chans.length ++ u16 block
    ++ u32 0x40 ++ u32 (0x40 + inw.length) ++ zeros 16 ++ inw
    ++ c.chans.flatMap fun x => w32 x.1 ++ u16 x.2.1.toNat ++ u16 0 ++ u32 x.2.2

/-- Largest STACK of an image's blocks (R217). -/
def Image.stackMax (g : Image) : Nat := g.natives.foldl (fun m n => max m n.stack) 0

/-- Image code offset of a task on its core: the code of the tasks with a lower number on that BLU comes before it (DESIGN CHOICE, log entry 199). -/
def codeOffset (s : State) (n blu : Nat) : Nat :=
  nsum ((s.cyc.tasks.filter fun p => decide (p.1 < n) && p.2.cfg.blu == blu).map fun p => cdiv (imageOf s p.2.cfg.slot).code.length 4 * 4)

/-- Size of the task data window (R217). -/
def Image.dataWindow (g : Image) : Nat := g.data.length + g.bss + g.stackMax

/-- The windows that the PMP opens during a call; nothing else is reachable (R217). -/
def pmpWindows (s : State) (n : Nat) (t : Task) (g : Image) : List PmpWindow :=
  [⟨0x08020000 + codeOffset s n t.cfg.blu, g.code.length, false, false, true⟩, ⟨0x18030000, 8192, true, false, false⟩,
   ⟨0x18032000, 512, true, true, false⟩, ⟨0x18034000, g.dataWindow, true, true, false⟩]

/-- The entry of a native call (R216): u32 block(ctx, cr), sp aligned to 16 at the top of the data window, frm RNE, fflags 0. -/
def nativeCall (s : State) (n : Nat) (t : Task) (g : Image) (x : Exec) (block : Nat) : NativeCall where
  block := block
  pc := 0x08020000 + codeOffset s n t.cfg.blu + (g.natives[block]?.map NativeDef.entry).getD 0
  a0 := 0x18030000
  a1 := b2n x.c.cr
  sp := (0x18034000 + g.dataWindow) / 16 * 16
  frm := 0
  fflags := 0
  windows := pmpWindows s n t g
  ctx := nativeContext s n t g x.c block
  out := boolWords (g.outBits.map fun k => execRead s g x k.1 k.2)

/-- Goes on with the cycle of task n (R200, R216). -/
def taskRun (n : Nat) (natives : List NativeRet) (s : State) : State :=
  match tget s.cyc.tasks n with
  | none => s
  | some t => match t.run with
    | none => s
    | some c =>
      let g := imageOf s t.cfg.slot
      let x := execProg s g (g.prog.length + 1) ⟨c, c.s + t.adj, t.timers, t.counters, t.data, natives⟩
      let call := x.c.inCall.map (nativeCall s n t g x)
      modTask n (fun t => { t with run := some { x.c with call := call }, timers := x.timers, counters := x.counters, data := x.data }) s

/-- A cycle of task n starts: scheduled start st, due instant, K (R200). -/
def taskStart (n : Nat) (st : Int) (due k : Nat) (natives : List NativeRet) (s : State) : State :=
  match tget s.cyc.tasks n with
  | none => s
  | some t =>
    let g := imageOf s t.cfg.slot
    let keys := g.keys ++ g.inBits.map fun k => opKey k.1 k.2
    let snap := keys.foldl (fun (a : Table Bool) x => tset a x (snapVal s t (x / 4194304) (x % 4194304))) []
    let (mem, pend) := edgeSnap s t g
    let c : Cycle := ⟨st, due, s.now, k, 0, false, [], snap, pend, [], ctxFlags s t, g.chans.map (ctxChan s), none, none, false, false⟩
    taskRun n natives (modTask n (fun t => { t with run := some c, due := none, edges := mem }) s)

/-- A native call that waits returns with the first of the results, and the cycle goes on (R216). -/
def taskReturn (n : Nat) (natives : List NativeRet) (s : State) : State :=
  match natives, tget s.cyc.tasks n with
  | r :: rest, some t => match t.run with
    | none => s
    | some c =>
      let g := imageOf s t.cfg.slot
      let x := execReturn s g r ⟨c, c.s + t.adj, t.timers, t.counters, t.data, rest⟩
      taskRun n rest (modTask n (fun t => { t with run := some x.c, data := x.data }) s)
  | _, _ => s

/-- TASK_CYCLE_START (R200, R201): the BLU serves a due cycle, or goes on with one whose native call has returned. -/
def execTaskCycleStart (t task : Nat) (natives : List NativeRet) (s : State) : Res :=
  let s := atTime t s
  let s := if inService s then lTasksDue s else s
  match tget s.cyc.tasks task with
  | none => go s
  | some k =>
    match k.run with
    | some c => if c.inCall.isSome && !natives.isEmpty && callRuns s task k then go (taskReturn task natives s) else go s
    | none =>
      if !inService s || k.suspended || !served s task k then go s
      else match k.due with
        | some (st, due, idx) => go (taskStart task st due idx natives s)
        | none => if k.cfg.cls = 3 then go (taskStart task (baseNs s k.cfg.tbsel) s.now 0 natives (takeTurn task s)) else go s

/-! ### Commit -/

/-- Q or M bit n becomes v, visible to every consumer (R200); an LTRIG line triggers with stamp st on base b (R91). -/
def setQM (b : Nat) (st : Int) (key : Nat) (v : Bool) (s : State) : State :=
  let n := key % 4194304
  if key / 4194304 = 2 then { s with cyc := { s.cyc with m := setBit s.cyc.m n v } }
  else if s.cyc.q.getLsbD n = v then s
  else
    let s := { s with cyc := { s.cyc with q := setBit s.cyc.q n v } }
    if n < 4096 then s
    else srcEdge (0x100 + (n - 4096)) v b st (modTrg (fun g => { g with ltrig := setBit g.ltrig (n - 4096) v }) s)

/-- Forces of the write set's bits, set before the cycle began, take effect at its end (R221). -/
def forcesDue (g : Image) (started b : Nat) (st : Int) (s : State) : State :=
  let hit (f : Force) : Bool := f.held != some f.val && decide (f.since ≤ started) && inRuns g.wset f.area f.opnd
  let new := s.cyc.forces.filter hit
  let s := { s with cyc := { s.cyc with forces := s.cyc.forces.map fun f => if hit f then { f with held := some f.val } else f } }
  foldOver new (fun f s => setQM b st (opKey f.area f.opnd) f.val s) s

/-- Suspension level of a class (R199), none for P. -/
def suspendLevel (cls : Nat) : Option Nat := if cls = 2 then some 4 else if cls = 3 then some 1 else none

/-- The shed level suspends a task. -/
def shedSuspends (s : State) (t : Task) : Bool :=
  match suspendLevel t.cfg.cls with
  | some l => decide (l ≤ s.pwr.shed)
  | none => false

/-- EV_LOG_SHED (R204, R227). -/
def logShedEvent (s : State) : State :=
  let on := nsum (s.cyc.tasks.map fun p => if p.2.suspended then 2 ^ p.1 else 0)
  evBy srcSvc 0x0607 (u32 on ++ u32 (on / 2 ^ 32) ++ u8 s.pwr.shed ++ zeros 3) s

/-- A task is suspended at its cycle boundary (R204). -/
def suspendTask (n : Nat) (s : State) : State :=
  match tget s.cyc.tasks n with
  | none => s
  | some t =>
    let s := modTask n (fun t => { t with suspended := true, due := none }) s
    if !nbit t.cfg.flags 0 then s
    else
      let b := taskBase s t.cfg
      foldOver ((imageOf s t.cfg.slot).outBits.filter fun k => k.1 == 1 && !(forceVal s 1 k.2).isSome) (fun k s => setQM b (baseNs s b) (opKey 1 k.2) false s) s

/-! ### On-line change -/

/-- Edge memories for an image: kept by EDGE_ID, opcode and operand, else the present value with nothing pending (R204, R224). -/
def edgesFor (s : State) (t : Task) (old : Option Image) (g : Image) : Table EdgeSt :=
  g.edges.foldl (fun (acc : Table EdgeSt) d =>
    match g.prog[d.index]? with
    | none => acc
    | some i =>
      let kept := match old with
        | none => none
        | some o => match o.edges.find? fun (e : EdgeDef) => e.id == d.id && o.prog[e.index]? == some i with
          | some e => tget t.edges e.index
          | none => none
      tset acc d.index (kept.getD ⟨snapVal s t i.area i.opnd, false⟩)) []

/-- Data of a native task as an image initialises it: DATA then BSS (R217). -/
def Image.freshData (g : Image) : Bytes := g.data ++ zeros g.bss

/-- Step 3 and 4 of an on-line change (R224). -/
def changeApply (n slot src : Nat) (s : State) : State :=
  match tget s.cyc.tasks n with
  | none => s
  | some t =>
    let old := imageOf s t.cfg.slot
    let g := imageOf s slot
    let b := taskBase s t.cfg
    let timers := g.timers.foldl (fun (a : Table TimerSt) d =>
      let kept := if old.timers.any fun o => o.t == d.t && o.type == d.type then tget t.timers d.t else none
      tset a d.t (kept.getD (timerFresh d.type))) []
    let counters := g.counters.foldl (fun (a : Table CounterSt) d =>
      let kept := if old.counters.any fun o => o.c == d.c then tget t.counters d.c else none
      tset a d.c (kept.getD ⟨0, true⟩)) []
    let edges := edgesFor s t (some old) g
    let gone := old.outBits.filter fun k => k.1 == 1 && !inRuns g.wset 1 k.2 && (forceVal s 1 k.2).isNone
    let s := modTask n (fun t => { t with
      cfg := { t.cfg with slot := slot }, timers := timers, counters := counters, edges := edges, data := g.freshData, changed := true, pend := none }) s
    let s := foldOver gone (fun k s => setQM b (baseNs s b) (opKey 1 k.2) false s) s
    let s := if gone.isEmpty then s else evBy src 0x0608 (u8 n ++ u8 0 ++ u16 (min gone.length 0xFFFF)) s
    evBy src 0x0604 (u8 n ++ zeros 3 ++ u32 old.id ++ u32 g.id ++ w32 t.cycles) { s with cmd := { s.cmd with dirty := true } }

/-- Payload of LOG_ONLINE_CHANGE's reply (R226). -/
def changeReply (old new : Image) : Bytes := u32 old.id ++ u32 new.id

/-- A pending change is carried out, and its reply sent if it waits (R224). -/
def changeDue (n : Nat) (s : State) : State :=
  match tget s.cyc.tasks n with
  | none => s
  | some t => match t.pend with
    | none => s
    | some p =>
      let pay := changeReply (imageOf s t.cfg.slot) (imageOf s p.slot)
      let s := changeApply n p.slot p.src s
      match p.reply with
      | some rt => finish rt stOk 0 pay s
      | none => s

/-- The bits and registers of a commit (R200, R202, R228). -/
def commitCycle (n : Nat) (c : Cycle) (s : State) : State :=
  match tget s.cyc.tasks n with
  | none => s
  | some t =>
    let b := taskBase s t.cfg
    let g := imageOf s t.cfg.slot
    let s := forcesDue g c.started b c.s s
    let s := foldOver c.writes (fun w s => if (forceVal s (w.1 / 4194304) (w.1 % 4194304)).isSome then s else setQM b c.s w.1 w.2 s) s
    let exec := min (s.now - c.due) 0xFFFFFFFF
    let pct := clampN 50 100 s.cyc.ctl
    let p := taskPeriod s t.cfg
    let warn := t.cfg.cls != 3 && !t.ovrNow && decide ((pct * p.num * NS : Int) < (baseNs s b - c.s - t.adj) * (100 * p.den))
    let second := s.now - NS
    let s := { s with cyc := { s.cyc with busy := (t.cfg.blu, c.started, s.now) :: s.cyc.busy.filter fun x => decide (second < x.2.2) } }
    let s := modTask n (fun t => { t with
      run := none, cycles := t.cycles + 1, exec := wd exec, execMax := wd (max t.execMax.toNat exec), lastNs := stampNsWord b c.s, lastSec := secLo c.s
      ovrLast := t.ovrNow, ovrNow := false, aborted := c.aborted, first := false, changed := false
      warn := if warn then satInc t.warn else t.warn, warnNew := if warn then t.warnNew + 1 else t.warnNew
      edges := t.edges.map fun e => (e.1, { e.2 with pending := e.2.pending || tgetD c.edges e.1 false }) }) s
    if !warn then s
    else
      let s := { s with cyc := { s.cyc with warnSeen := setBit s.cyc.warnSeen n true } }
      match tget s.cyc.tasks n with
      | none => s
      | some t =>
        if secondPassed s t.warnLastEv then
          evBy (0x0800 + t.cfg.blu) 0x0603 (u8 n ++ zeros 3 ++ u32 t.warnNew) (modTask n (fun t => { t with warnLastEv := some s.now, warnNew := 0 }) s)
        else s

/-- The change that waits for a task that is suspended now is answered with ACCEPTED_PENDING; it is carried out at resume (R224, R478). -/
def changeWaits (n : Nat) (s : State) : State :=
  match tget s.cyc.tasks n with
  | none => s
  | some t => match t.pend with
    | some ⟨slot, some rt, src⟩ =>
      finish rt stPending 0 (changeReply (imageOf s t.cfg.slot) (imageOf s slot)) (modTask n (fun t => { t with pend := some ⟨slot, none, src⟩ }) s)
    | _ => s

/-- After a commit: suspension, or a pending change (R204, R224). -/
def cycleBoundary (n : Nat) (s : State) : State :=
  match tget s.cyc.tasks n with
  | none => s
  | some t =>
    if inService s && shedSuspends s t && !t.suspended then changeWaits n (logShedEvent (suspendTask n s)) else changeDue n s

/-! ### SERVICE, shedding, starts -/

/-- A task as on entering SERVICE (R204, R214). -/
def Task.enter (s : State) (t : Task) : Task :=
  let g := imageOf s t.cfg.slot
  { t with
    run := none, due := none, adj := 0, turn := false, suspended := false, first := true, ovrLast := false, ovrNow := false, aborted := false
    next := nextLStart t.cfg (baseNs s t.cfg.tbsel)
    timers := g.timers.foldl (fun (a : Table TimerSt) d => tset a d.t (timerFresh d.type)) []
    counters := t.counters.map fun c => (c.1, { c.2 with prev := true })
    edges := edgesFor s { t with first := true } none g }

/-- Some task writes a bit (R221). -/
def hasWriter (s : State) (area n : Nat) : Bool := s.cyc.tasks.any fun p => inRuns (imageOf s p.2.cfg.slot).wset area n

/-- A force takes effect at once (R221). -/
def forceNow (area n : Nat) (s : State) : State :=
  let hit (f : Force) : Bool := f.area == area && f.opnd == n
  let v := (s.cyc.forces.find? hit).map Force.val
  let s := { s with cyc := { s.cyc with forces := s.cyc.forces.map fun f => if hit f then { f with held := some f.val } else f } }
  match v with
  | some v => if area = 1 ∨ area = 2 then setQM 0 (baseNs s 0) (opKey area n) v s else s
  | none => s

/-- Tasks run from now on (R204); every force applies from here (R221), and tasks that the shed level suspends do not start. -/
def tasksStart (s : State) : State :=
  let s := foldOver s.cyc.forces (fun f s => forceNow f.area f.opnd s) s
  let enter (p : Nat × Task) : Nat × Task := (p.1, p.2.enter s)
  let s := { s with cyc := { s.cyc with tasks := s.cyc.tasks.map enter } }
  let due := s.cyc.tasks.filter fun p => shedSuspends s p.2
  if due.isEmpty then s else logShedEvent (foldOver due (fun p s => suspendTask p.1 s) s)

/-- The cycle of task n commits if it has reached its end and is not preempted. -/
def commitEnded (n : Nat) (s : State) : State :=
  match tget s.cyc.tasks n with
  | none => s
  | some t => match t.run with
    | some c => if c.ended && !preempted s n t then commitCycle n c s else s
    | none => s

/-- Cycles that have reached their end commit, in the order of R201, and no due cycle starts any more; one that waits in a native call runs on (R34 step 2). -/
def tasksFinish (s : State) : State :=
  let s := foldOver s.cyc.tasks (fun _ s => foldOver s.cyc.tasks (fun (p : Nat × Task) s => commitEnded p.1 s) s) s
  { s with cyc := { s.cyc with tasks := s.cyc.tasks.map fun p => (p.1, { p.2 with due := none }) } }

/-- A cycle still runs. -/
def tasksRun (s : State) : Bool := s.cyc.tasks.any fun p => p.2.run.isSome

/-- Tasks stop, none running (R34 step 2, R204, R478): pending changes are carried out, and every Q bit is committed as 0. -/
def tasksStop (s : State) : State :=
  let stop (p : Nat × Task) : Nat × Task := (p.1, { p.2 with run := none, due := none, suspended := false })
  let s := modCyc (fun y => { y with tasks := y.tasks.map stop }) s
  let s := foldOver s.cyc.tasks (fun p s => changeDue p.1 s) s
  let s := foldOver (List.range 64) (fun i s => setQM 0 (baseNs s 0) (opKey 1 (4096 + i)) false s) s
  modCyc (fun y => { y with q := 0#4160 }) s
where
  modCyc (f : Cyc → Cyc) (s : State) : State := { s with cyc := f s.cyc }

/-- The shed level has changed: tasks at a cycle boundary are suspended, and those below their level resume (R204). -/
def tasksShed (s : State) : State :=
  if !inService s then s
  else
    let down := s.cyc.tasks.filter fun p => shedSuspends s p.2 && !p.2.suspended && p.2.run.isNone
    let s := if down.isEmpty then s else logShedEvent (foldOver down (fun p s => suspendTask p.1 s) s)
    let up := s.cyc.tasks.filter fun p => !shedSuspends s p.2 && p.2.suspended
    if up.isEmpty then settle s
    else
      let s := foldOver up (fun p s => changeDue p.1 (modTask p.1 (fun t => t.enter s) s)) s
      settle (logShedEvent s)

/-- A task that a definition makes: nothing runs, and its data are those of the image (R205, R217). -/
def Task.fresh (s : State) (c : LogActivate) : Task :=
  let g := imageOf s c.slot
  { cfg := c, run := none, due := none, adj := 0, turn := false, next := nextLStart c (baseNs s c.tbsel)
    timers := g.timers.foldl (fun (a : Table TimerSt) d => tset a d.t (timerFresh d.type)) []
    counters := g.counters.foldl (fun (a : Table CounterSt) d => tset a d.c ⟨0, true⟩) []
    edges := g.edges.foldl (fun (a : Table EdgeSt) d => tset a d.index ⟨false, false⟩) []
    cycles := 0#32, skip := 0#32, warn := 0#32, exec := 0#32, execMax := 0#32, lastNs := 0#32, lastSec := 0#32
    ovrLast := false, ovrNow := false, aborted := false, suspended := false, first := true, changed := false, pend := none, data := g.freshData
    ovrLastEv := none, ovrNew := 0, warnLastEv := none, warnNew := 0, abortLastEv := none }

end Sys2Proof.Machine
end

