-- ==== Sys2Proof/Machine/LogicCommands.lean ====
section
/-! DEFINITION. Logic commands (08_cyclic_logic.md R210, R217, R221 to R226). -/

namespace Sys2Proof.Machine

/-- Slot n is used by a task, or is about to be (R226). -/
def slotUsed (s : State) (n : Nat) : Bool := s.cyc.tasks.any fun p => p.2.cfg.slot == n || (match p.2.pend with
  | some c => c.slot == n
  | none => false)

/-- LOG_LOAD (R210, R220, R226). Over UDP the image follows in the packet (R378). -/
def execLogLoad (t : Nat) (e : Env) (p : LogLoad) (s : State) : Res :=
  let s := atTime t s
  let udp := isUdp e.src
  go (runCmd e ⟨0x0500, false, plenIs (if udp then 16 + p.len else 16), 8, [.service, .maint]⟩ (fun rt s =>
    let g := imgParse p.image
    let fault : Option Nat := match g with
      | none => some imgOut
      | some g => imgFault g
    checked8 e rt (firstFail [(!slotUsed s p.slot, stConflict, s.sys.st.code)])
      (firstFail [bad (p.slot < 32), bad (64 ≤ p.len ∧ p.len ≤ 262144), bad (!udp || p.addr == 0), bad (p.image.length = p.len),
        (fault.isNone, stBadParam, fault.getD 0)]) (fun s =>
      match g with
      | none => s
      | some g =>
        reply rt stOk 0 (u32 g.id ++ u32 g.cost)
          { s with cyc := { s.cyc with slots := tset s.cyc.slots p.slot g }, cmd := { s.cmd with dirty := true } }) s) s)

/-- Two images write no bit and own no timer and no counter in common (R223). -/
def Image.apart (g o : Image) : Bool :=
  !(o.outBits.any fun k => inRuns g.wset k.1 k.2) && !(g.timers.any fun x => o.timers.any fun y => x.t == y.t)
    && !(g.counters.any fun x => o.counters.any fun y => x.c == y.c)

/-- An image overlaps no task but n, neither the image that it runs nor the one it is to run (R223). -/
def imageFree (s : State) (n : Nat) (g : Image) : Bool :=
  s.cyc.tasks.all fun p => p.1 == n || (g.apart (imageOf s p.2.cfg.slot) && g.apart (imageOf s p.2.plan))

/-- A slot that no task but n runs or is to run. -/
def slotFree (s : State) (n slot : Nat) : Bool := s.cyc.tasks.all fun p => p.1 == n || (p.2.cfg.slot != slot && p.2.plan != slot)

/-- The images on BLU b when task n runs image g there. -/
def bluImages (s : State) (b n : Nat) (g : Image) : List Image :=
  g :: (s.cyc.tasks.filter fun p => p.1 != n && p.2.cfg.blu == b).map fun p => imageOf s p.2.cfg.slot

/-- Program memory, I-TCM and D-TCM of the core hold the images (R217, R223). -/
def bluFits (l : List Image) : Bool :=
  decide (l.length ≤ 8) && decide (nsum (l.map fun g => g.prog.length) ≤ 16384) && decide (nsum (l.map fun g => g.code.length) ≤ 65536)
    && decide (nsum (l.map Image.dataWindow) ≤ 49152)

/-- The images fit as the tasks are and as pending changes will leave them (R223). -/
def bluRoom (s : State) (b n : Nat) (g : Image) : Bool := bluFits (bluImages s b n g) && bluFits (bluImages (planned s) b n g)

/-- Fields of a definition by class; those that a class does not use are 0 (R199, R226). -/
def logFieldsOk (s : State) (p : LogActivate) : Bool :=
  decide (p.blu < 16) && decide (p.slot < 32) && decide (p.flags < 2) && (match p.cls with
    | 1 => p.tbsel == 0 && p.periodUs == 0 && p.phaseUs == 0 && decide (1 ≤ p.pmul) && decide (p.pmul ≤ 64) && (tget s.prt.zones p.zone).isSome
    | 2 => decide (p.tbsel < 4) && p.zone == 0 && p.pmul == 0 && decide (250 ≤ p.periodUs) && decide (p.periodUs ≤ 1000000) && p.periodUs % 250 == 0
        && decide (p.phaseUs < p.periodUs)
    | 3 => decide (p.tbsel < 4) && p.zone == 0 && p.pmul == 0 && p.periodUs == 0 && p.phaseUs == 0
    | _ => false)

/-- LOG_ACTIVATE (R199, R217, R226), BUDGET_EXCEEDED apart. -/
def logCheck (p : LogActivate) (s : State) : Option (Nat × Nat) :=
  if p.op = 0 then firstFail [bad (p.task < 64), bad (tget s.cyc.tasks p.task).isSome]
  else
    let g := imageOf s p.slot
    firstFail [bad (p.task < 64), bad (p.op = 1), bad (logFieldsOk s p), bad (tget s.cyc.slots p.slot).isSome,
      bad (slotFree s p.task p.slot), bad (imageFree s p.task g), (bluRoom s p.blu p.task g, stExhausted, 0)]

/-- LOG_ACTIVATE takes effect; its record has source src, none when a start loads it. -/
def logApply (src : Option Nat) (p : LogActivate) (s : State) : State :=
  let id := if p.op = 0 then (match tget s.cyc.tasks p.task with
      | some t => (imageOf s t.cfg.slot).id
      | none => 0) else (imageOf s p.slot).id
  let slot := if p.op = 0 then (match tget s.cyc.tasks p.task with
      | some t => t.cfg.slot
      | none => 0) else p.slot
  let s := { s with cyc := { s.cyc with tasks := if p.op = 0 then tdel s.cyc.tasks p.task else tset s.cyc.tasks p.task (Task.fresh s p) } }
  evCfg src 0x0601 (u8 p.task ++ u8 p.op ++ u8 slot ++ u8 0 ++ u32 id) s

/-- The state whose admission LOG_ONLINE_CHANGE asks for (R223, R233). -/
def changedState (n slot : Nat) (s : State) : State := modTask n (fun t => { t with cfg := { t.cfg with slot := slot } }) s

/-- LOG_ONLINE_CHANGE's refusals of R375 steps 8 to 10, BUDGET_EXCEEDED apart (R223). -/
def changePre (task : Nat) (s : State) : Option (Nat × Nat) :=
  let pending : Bool := match tget s.cyc.tasks task with
    | some t => t.pend.isSome
    | none => false
  firstFail [(!pending, stBusy, 0)]

def changeCheck (task slot : Nat) (s : State) : Option (Nat × Nat) :=
  match tget s.cyc.tasks task, tget s.cyc.slots slot with
  | some t, some g =>
    firstFail [bad (slotFree s task slot), bad (imageFree s task g), (bluRoom s t.cfg.blu task g, stExhausted, 0)]
  | _, _ => some (stBadParam, 0)

/-- An accepted change: at once, after the running cycle, or at resume (R224). -/
def changeAccept (rt : ReplyTo) (task slot : Nat) (s : State) : State :=
  match tget s.cyc.tasks task with
  | none => s
  | some t =>
    let pay := changeReply (imageOf s t.cfg.slot) (imageOf s slot)
    let src := cmdSrc rt.src
    if decide (s.sys.st ≠ .service) || (!t.suspended && t.run.isNone) then reply rt stOk 0 pay (settle (changeApply task slot src s))
    else if t.suspended then reply rt stPending 0 pay (modTask task (fun t => { t with pend := some ⟨slot, none, src⟩ }) s)
    else holdReply rt (modTask task (fun t => { t with pend := some ⟨slot, some rt, src⟩ }) s)

/-- LOG_ONLINE_CHANGE (R223, R224). -/
def execLogOnlineChange (t : Nat) (e : Env) (task slot : Nat) (s : State) : Res :=
  let s := atTime t s
  go (runCmd e ⟨0x0502, true, plenIs 4, 8, [.service, .maint]⟩ (fun rt s =>
    checked8 e rt (changePre task s) (changeCheck task slot s) (fun s =>
      let n := changedState task slot s
      match admitFault n with
      | some f => refuse rt stBudget (admitDetail f) (admitRefused (cmdSrc rt.src) 0x0502 f s)
      | none => changeAccept rt task slot { s with spd := (admitStore n).spd }) s) s)

/-- Entries in use, as replied (R226). -/
def forceReply (s : State) : Bytes := u16 s.cyc.forces.length ++ u16 0

/-- EV_LOG_FORCE (R222, R227): action 1 set, 0 cleared, 2 all cleared. -/
def forceEvent (rt : ReplyTo) (code val action : Nat) (s : State) : State :=
  evCmd rt 0x0605 (u32 code ++ u8 val ++ u8 action ++ u16 s.cyc.forces.length) s

/-- LOG_FORCE_SET (R221, R222, R226). -/
def execLogForceSet (t : Nat) (e : Env) (area opnd val : Nat) (s : State) : Res :=
  let s := atTime t s
  go (runCmd e ⟨0x0503, true, plenIs 8, 4, [.service, .maint]⟩ (fun rt s =>
    let same (f : Force) : Bool := f.area == area && f.opnd == opnd
    checked e rt (firstFail [bad (area < 6 && operandOk area opnd), bad (val < 2), (decide (s.cyc.forces.length < 256) || s.cyc.forces.any same, stExhausted, 0)]) (fun s =>
      let f : Force := ⟨area, opnd, val == 1, none, s.now⟩
      let forces := if s.cyc.forces.any same then s.cyc.forces.map fun g => if same g then { f with held := g.held } else g
        else s.cyc.forces ++ [f]
      let s := { s with cyc := { s.cyc with forces := forces } }
      let s := if inService s && !((area == 1 || area == 2) && hasWriter s area opnd) then settle (forceNow area opnd s) else s
      let s := forceEvent rt (opKey area opnd) val 1 s
      reply rt stOk 0 (forceReply s) s) s) s)

/-- LOG_FORCE_CLEAR (R221, R222, R226): a bit that is not forced is left as it is. -/
def execLogForceClear (t : Nat) (e : Env) (all area opnd : Nat) (s : State) : Res :=
  let s := atTime t s
  go (runCmd e ⟨0x0504, true, plenIs 4, 4, [.service, .maint]⟩ (fun rt s =>
    checked e rt (firstFail [bad (all ≠ 0 ∨ (area < 6 ∧ operandOk area opnd))]) (fun s =>
      let same (f : Force) : Bool := f.area == area && f.opnd == opnd
      if all ≠ 0 then
        let s := forceEvent rt 0xFFFFFFFF 0 2 { s with cyc := { s.cyc with forces := [] } }
        reply rt stOk 0 (forceReply s) (settle s)
      else if s.cyc.forces.any same then
        let s := forceEvent rt (opKey area opnd) 0 0 { s with cyc := { s.cyc with forces := s.cyc.forces.filter fun f => !same f } }
        reply rt stOk 0 (forceReply s) (settle s)
      else reply rt stOk 0 (forceReply s) s) s) s)

/-! ### Task registers (R228) -/

def taskCfgWord (t : Task) : Word :=
  let c := t.cfg
  wd (c.cls + c.blu * 4 + c.slot * 64 + c.flags * 2 ^ 11 + c.tbsel * 2 ^ 12 + c.zone * 2 ^ 14 + (c.pmul - 1) * 2 ^ 20)

def taskStatWord (s : State) (t : Task) : Word :=
  let st := if !inService s then 3 else if t.suspended then 2 else 1
  wd (st + fl t.pend.isSome 2 + fl t.ovrLast 3 + fl t.aborted 4)

/-- Register r, 0 to 11, of task n: CYC_T_CFG to CYC_T_LAST_SEC. -/
def taskReg (s : State) (n r : Nat) : Word :=
  match tget s.cyc.tasks n with
  | none => 0#32
  | some t =>
    let g := imageOf s t.cfg.slot
    match r with
    | 0 => taskCfgWord t
    | 1 => periodNs s t.cfg
    | 2 => taskStatWord s t
    | 3 => t.cycles
    | 4 => t.skip
    | 5 => t.warn
    | 6 => t.exec
    | 7 => t.execMax
    | 8 => wd g.cost
    | 9 => wd g.id
    | 10 => t.lastNs
    | _ => t.lastSec

/-- LOG_GET_STATUS (R226). -/
def execLogGetStatus (t : Nat) (e : Env) (task : Nat) (s : State) : Res :=
  let s := atTime t s
  go (runCmd e ⟨0x0505, false, plenIs 4, 48, [.service, .maint, .safeService]⟩ (fun rt s =>
    checked e rt (firstFail [bad (task < 64)]) (fun s =>
      reply rt stOk 0 ((List.range 12).flatMap fun r => w32 (taskReg s task r)) s) s) s)

end Sys2Proof.Machine
end

