-- ==== Sys2Proof/Machine/Ptp.lean ====
section
/-! DEFINITION. PTP, IRIG-B, PPS and the time commands (10_time_bases.md R251 to R264, R268). The clock comparison and the peer-delay exchange follow IEEE 1588 (log entry 21). -/

namespace Sys2Proof.Machine

/-- clockIdentity of the module: the EUI-64 of the first MAC (log entry 21). -/
def ownClock : Nat := unbe ((macBytes (Config.mac 0)).take 3 ++ [0xFF#8, 0xFE#8] ++ (macBytes (Config.mac 0)).drop 3)

/-- Ports of a base's instance. -/
def instPorts (s : State) (b : Nat) : List Nat := ones 4 (baseOf s b).cfg.ports

/-- Dataset comparison of two announced clocks (log entry 21). -/
def lexLt : List Nat → List Nat → Bool
  | a :: x, b :: y => decide (a < b) || (a == b && lexLt x y)
  | [], _ :: _ => true
  | _, [] => false

def annKey (m : PtpAnnounce) : List Nat :=
  [m.prio1, m.clockClass, m.accuracy, m.variance, m.prio2, m.gmIdentity, m.stepsRemoved, m.hdr.srcId, m.hdr.srcPort]

def annBetter (a b : PtpAnnounce) : Bool :=
  if a.gmIdentity = b.gmIdentity then lexLt [a.stepsRemoved, a.hdr.srcId, a.hdr.srcPort] [b.stepsRemoved, b.hdr.srcId, b.hdr.srcPort]
  else lexLt (annKey a) (annKey b)

/-- The best of a list of Announces. -/
def annBest : List PtpAnnounce → Option PtpAnnounce
  | [] => none
  | a :: r => match annBest r with
    | some b => some (if annBetter b a then b else a)
    | none => some a

/-- The best Announce that port p has received for a domain within the receipt timeout, 3 intervals of 1 s (R257). -/
def portBest (s : State) (p domain : Nat) : Option PtpAnnounce :=
  annBest (((ptpOf s p).announces.filter fun a =>
    a.1.hdr.domain == domain && decide (s.now < a.2 + 3 * NS) && decide (a.1.stepsRemoved < 255)).map Prod.fst)

/-- The module's own dataset is better than an Announce (log entry 21). -/
def ownBetter (c : TimCfg) (m : PtpAnnounce) : Bool :=
  lexLt [c.prio1, if c.role = 0 then 255 else 248, 0xFE, 0xFFFF, c.prio2, ownClock] ((annKey m).take 6)

/-- clockClass and traceability announced as master (R259). -/
def announcedClass (b : Base) : Nat :=
  match b.st with
  | .locked => if b.traceable then 6 else 248
  | .holdover => 7
  | .free => 248

/-- IEEE 1588 portState codes. -/
abbrev psListening : Nat := 4
abbrev psMaster : Nat := 6
abbrev psPassive : Nat := 7
abbrev psSlave : Nat := 9

/-- UTC_OFFSET, TRACEABLE, the leap flags and the TLV of the current grandmaster (R247, R251, R257); TRACEABLE keeps its value in HOLDOVER. -/
def takeSource (b : Nat) (m : PtpAnnounce) (s : State) : State :=
  noteTrace b (modBase b (fun x => { x with
    srcTrace := m.timeTraceable, traceable := if x.st = .holdover then x.traceable else m.timeTraceable
    utcOffset := if m.utcValid then m.utcOffset else x.cfg.utcOffset
    utcKnown := m.utcValid || x.configured, leap61 := m.leap61, leap59 := m.leap59
    gmTlv := if x.cfg.profile = 1 then m.tlv else none }) s)

/-- The grandmaster and the SLAVE port of a base, with the record of a change (R269). -/
def setMaster (b : Nat) (port : Option Nat) (gm cls steps : Nat) (s : State) : State :=
  let x := baseOf s b
  let s := modBase b (fun x => { x with slavePort := port, gmId := BitVec.ofNat 64 gm, gmClass := cls, stepsRemoved := steps }) s
  if x.slavePort = port ∧ x.gmId.toNat = gm then s
  else ev 0x0703 (u8 b ++ u8 (port.getD 0xFF) ++ u8 cls ++ u8 0 ++ be 8 gm) s

/-- The port states of a base's instance by the BMCA (R257, R258). -/
def bmca (b : Nat) (s : State) : State :=
  let x := baseOf s b
  let c := x.cfg
  let ps := instPorts s b
  let states (f : Nat → Nat) (s : State) : State := foldOver ps (fun p s => modInstPort b p (fun q => { q with portState := f p }) s) s
  if c.src ≠ 1 then s
  else
    let bests := ps.filterMap fun p => (portBest s p c.domain).map fun m => (p, m)
    match (if c.role = 1 then none else annBest (bests.map Prod.snd)) with
    | none =>
      if c.role = 0 then setMaster b none x.gmId.toNat x.gmClass x.stepsRemoved (states (fun _ => psListening) (sourceGone b s))
      else setMaster b none ownClock (announcedClass x) 0 (states (fun _ => psMaster) (sourceGone b s))
    | some m =>
      if c.role = 2 ∧ ownBetter c m then setMaster b none ownClock (announcedClass x) 0 (states (fun _ => psMaster) (sourceGone b s))
      else
        let same := bests.filter fun q => q.2.gmIdentity == m.gmIdentity
        let stay := same.find? fun q => x.slavePort == some q.1
        match stay.or (bests.find? fun q => q.2 == m) with
        | none => s
        | some (p, m) =>
          let s := states (fun q => if q = p then psSlave else if same.any (fun z => z.1 == q) then psPassive
                                    else if c.role = 0 then psListening else psMaster) s
          takeSource b m (setMaster b (some p) m.gmIdentity m.clockClass m.stepsRemoved s)

/-- θ of a Sync (R261, R262): receive instant at the connector less the origin, its corrections and the link delay; none while the delay is not measured. -/
def syncTheta (s : State) (port : Nat) (rx origin corr : Int) : Option Int :=
  (ptpOf s port).mpd.map fun d => rdivEven ((rx - origin - (d : Int)) * 65536 - corr) 65536

/-- The SLAVE port of a base delivers no measurements: its LINK is down, or no θ has come for 2 s (R258; log entry 21). -/
def slaveDead (s : State) (b : Nat) : Bool :=
  let x := baseOf s b
  match x.slavePort, x.lastMeas with
  | some q, some l => !linkUp s q || decide (l + 2 * NS ≤ s.now)
  | _, _ => true

/-- The best PASSIVE port of a base, by the Announce it receives, among those with LINK set and a θ within 2 s (R258). -/
def bestPassive (s : State) (b : Nat) : Option Nat :=
  let live := (instPorts s b).filter fun p =>
    (instPort s b p).portState == psPassive && linkUp s p && (match (instPort s b p).theta with
      | some (_, l) => decide (s.now < l + 2 * NS)
      | none => false)
  let anns := live.filterMap fun p => (portBest s p (baseOf s b).cfg.domain).map fun m => (p, m)
  match annBest (anns.map Prod.snd) with
  | some m => (anns.find? fun q => q.2 == m).map Prod.fst
  | none => live.head?

/-- A Sync's offset reaches the base whose instance received it (R258, R261). -/
def syncDone (b port : Nat) (rx origin corr : Int) (s : State) : State :=
  match syncTheta s port rx origin corr with
  | none => s
  | some th =>
    let x := baseOf s b
    if x.slavePort = some port then measure b th 1 s
    else if (instPort s b port).portState ≠ psPassive then s
    else
      let s := modInstPort b port (fun q => { q with theta := some (th, s.now) }) s
      if !slaveDead s b || bestPassive s b != some port then s
      else
        let s := match x.slavePort with
          | some q => modInstPort b q (fun z => { z with portState := psPassive }) s
          | none => s
        let s := modInstPort b port (fun q => { q with portState := psSlave }) s
        let s := setMaster b (some port) x.gmId.toNat x.gmClass x.stepsRemoved s
        if x.st = .locked ∧ th.natAbs > x.cfg.lockThr then measure b th 1 (enterHoldover b 1 s) else measure b th 1 s

/-- PTP_SYNC_RECEIVE (R252, R258, R261): a one-step Sync measures at once, a two-step one waits for its Follow_Up. -/
def execPtpSyncReceive (t : Nat) (m : PtpSync) (s : State) : Res :=
  let s := atTime t s
  let p := m.hdr.port
  match instanceOf s p m.hdr.udp m.hdr.domain with
  | none => go s
  | some b =>
    if !linkUp s p then go s
    else
      let rx := m.hdr.stamp.getD b 0 - rxLat s p
      if m.twoStep then
        let w : WaitSync := ⟨b, m.hdr.seqId, m.hdr.srcId, m.hdr.srcPort, rx, m.hdr.corr, p, s.now⟩
        go (modPtp p (fun q => { q with waits := q.waits ++ [w] }) s)
      else go (syncDone b p rx m.origin m.hdr.corr s)

/-- A waiting Sync is the one that a Follow_Up completes: same sequence and sender, within 1 s, same instance (R261). -/
def followsUp (s : State) (m : PtpFollowUp) (w : WaitSync) : Bool :=
  w.seqId == m.hdr.seqId && w.srcId == m.hdr.srcId && w.srcPort == m.hdr.srcPort
    && decide (s.now ≤ w.at' + NS) && (instanceOf s m.hdr.port m.hdr.udp m.hdr.domain) == some w.tb

/-- PTP_FOLLOW_UP_RECEIVE (R261). -/
def execPtpFollowUpReceive (t : Nat) (m : PtpFollowUp) (s : State) : Res :=
  let s := atTime t s
  let p := m.hdr.port
  match (ptpOf s p).waits.find? (followsUp s m) with
  | none => go s
  | some w => go (syncDone w.tb p w.rx m.precise (w.corr + m.hdr.corr) (modPtp p (fun q => { q with waits := q.waits.filter fun x => !followsUp s m x }) s))

/-- FOLLOW_UP_TIMEOUT (R261): Syncs whose Follow_Up has not come within 1 s are discarded. -/
def execFollowUpTimeout (t port : Nat) (s : State) : Res :=
  let s := atTime t s
  go (modPtp port (fun q => { q with waits := q.waits.filter fun w => decide (s.now < w.at' + NS) }) s)

/-- A kept Announce is of another master than m (R257). -/
def otherMaster (m : PtpAnnounce) (a : PtpAnnounce × Nat) : Bool :=
  !(a.1.hdr.domain == m.hdr.domain && a.1.hdr.srcId == m.hdr.srcId && a.1.hdr.srcPort == m.hdr.srcPort)

/-- PTP_ANNOUNCE_RECEIVE (R257, R258). -/
def execPtpAnnounceReceive (t : Nat) (m : PtpAnnounce) (s : State) : Res :=
  let s := atTime t s
  match instanceOf s m.hdr.port m.hdr.udp m.hdr.domain with
  | none => go s
  | some b =>
    if !linkUp s m.hdr.port then go s
    else go (bmca b (modPtp m.hdr.port (fun q => { q with announces := q.announces.filter (otherMaster m) ++ [(m, s.now)] }) s))

/-- ANNOUNCE_RECEIPT_TIMEOUT (R251, R257, R258): the SLAVE port has received no Announce for 3 s. -/
def execAnnounceReceiptTimeout (t base : Nat) (s : State) : Res :=
  let s := atTime t s
  let x := baseOf s base
  match x.slavePort with
  | none => go s
  | some p =>
    if base ≥ 4 ∨ x.cfg.src ≠ 1 ∨ (portBest s p x.cfg.domain).isSome then go s
    else
      let s := bmca base s
      let x := baseOf s base
      let covered : Bool := match x.slavePort with
        | some q => q != p && (match (instPort s base q).theta with
          | some (th, _) => decide (th.natAbs ≤ x.cfg.lockThr)
          | none => false)
        | none => false
      go (if x.st = .locked ∧ !covered then enterHoldover base 1 s else s)

abbrev ptpMac : Nat := 0x000000191B01
abbrev pdelayMac : Nat := 0x0E0000C28001

/-- Multicast addresses of PTP over UDP/IPv4, 224.0.1.129 and 224.0.0.107 (R257), and their station addresses. -/
abbrev ptpIp : Nat := 0xE0000181
abbrev pdelayIp : Nat := 0xE000006B
abbrev ptpIpMac : Nat := 0x8101005E0001
abbrev pdelayIpMac : Nat := 0x6B00005E0001

/-- General messages go to UDP port 320, event messages to 319 (R257). -/
def ptpGeneral : FrameBody → Bool
  | .ptp kind _ _ _ _ => kind == .announce
  | .ptpResp mtype _ _ _ => mtype == 8 || mtype == 10
  | _ => false

/-- Sends a PTP message on a port (R257): from CP to that port, outside the path-redundancy stage (R258, R313). -/
def ptpSend (p : Nat) (udp peer : Bool) (body : FrameBody) (s : State) : State :=
  swcOwn (.port p) (logical s p)
    (if udp then mkFrame (if peer then pdelayIpMac else ptpIpMac) (Config.mac p) none 0x0800 none
      (.ptpUdp (if peer then pdelayIp else ptpIp) (if ptpGeneral body then 320 else 319) body)
    else mkFrame (if peer then pdelayMac else ptpMac) (Config.mac p) none 0x88F7 none body) s

/-- What an instance announces from its base's state (R257, R259): the IEEE_C37_238 TLV with PROFILE 1, its totalTimeInaccuracy a free value (log entry 204). -/
def annBody (x : Base) (s : State) : AnnBody × State :=
  let held := x.st == .locked && x.traceable
  let (tlv, s) := if x.cfg.profile = 1 then (let (n, s) := drawFree s; (some (x.cfg.gmId, Config.freeWord n), s)) else (none, s)
  (⟨x.cfg.prio1, announcedClass x, x.cfg.prio2, held || (x.st == .holdover && x.traceable), held || x.st == .holdover, x.utcOffset, utcValid x, tlv⟩, s)

/-- A port's peer-delay messages go over UDP with its instance (R257). -/
def pdelayUdp (s : State) (p : Nat) : Bool := ((portInstance s p).map fun b => (baseOf s b).cfg.udp == 1).getD false

/-- A base's instance is MASTER on a port (R258). -/
def isMaster (s : State) (port base : Nat) : Bool :=
  decide (base < 4) && (baseOf s base).cfg.src == 1 && nbit (baseOf s base).cfg.ports port && (instPort s base port).portState == psMaster

/-- PTP_MESSAGE_TRANSMIT (R259, R261, R262): Sync and Announce of a base's instance on a MASTER port, a peer-delay request from every port. The messages take their stamps as they leave. -/
def execPtpMessageTransmit (t port : Nat) (kind : PtpDue) (s : State) : Res :=
  let s := atTime t s
  if port ≥ 4 ∨ !linkUp s port ∨ s.sys.st = .off then go s
  else
    match kind with
    | .pdelayReq =>
      let b := pdelayBase s port
      let n := ((ptpOf s port).pdelaySeq + 1) % 65536
      let s := modPtp port (fun q => { q with pdelaySeq := n, pdelay := some ⟨n, baseNs s b + txLat s port, none⟩ }) s
      go (ptpSend port (pdelayUdp s port) true (.ptp .pdelayReq ((baseOf s b).cfg.domain) n 0 none) s)
    | .announce base =>
      if !isMaster s port base then go s
      else
        let x := baseOf s base
        let n := ((instPort s base port).annSeq + 1) % 65536
        let (a, s) := annBody x s
        go (ptpSend port (x.cfg.udp == 1) false (.ptp .announce x.cfg.domain n 0 (some a)) (modInstPort base port (fun q => { q with annSeq := n }) s))
    | .sync base =>
      if !isMaster s port base then go s
      else
        let x := baseOf s base
        let udp := x.cfg.udp == 1
        let n := ((instPort s base port).syncSeq + 1) % 65536
        let s := ptpSend port udp false (.ptp .sync x.cfg.domain n 0 none) (modInstPort base port (fun q => { q with syncSeq := n }) s)
        go (if nbit x.cfg.flags 0 then ptpSend port udp false (.ptpResp 8 x.cfg.domain n 0) s else s)

/-- PDELAY_MESSAGE_RECEIVE (R262): a request is answered, an answer completes the exchange. -/
def execPdelayMessageReceive (t : Nat) (m : PtpPdelay) (s : State) : Res :=
  let s := atTime t s
  let p := m.hdr.port
  if p ≥ 4 ∨ !linkUp s p then go s
  else
    let b := pdelayBase s p
    let rx := m.hdr.stamp.getD b 0 - rxLat s p
    let done (x : Int) (s : State) : State := modPtp p (fun q => { q with pdelay := none, mpd := some (max 0 x).toNat }) s
    match m.kind with
    | .req =>
      let s := ptpSend p m.hdr.udp true (.ptpResp 3 m.hdr.domain m.hdr.seqId rx) s
      go (ptpSend p m.hdr.udp true (.ptpResp 10 m.hdr.domain m.hdr.seqId 0) s)
    | .resp =>
      match (ptpOf s p).pdelay with
      | none => go s
      | some x =>
        if x.seqId ≠ m.hdr.seqId then go s
        else if m.twoStep then go (modPtp p (fun q => { q with pdelay := some { x with resp := some (m.ts, rx, m.hdr.corr) } }) s)
        else go (done (rdivEven ((rx - x.t1) * 65536 - m.hdr.corr) 131072) s)
    | .respFollowUp =>
      match (ptpOf s p).pdelay with
      | some ⟨n, t1, some (t2, t4, c)⟩ =>
        if n ≠ m.hdr.seqId then go s
        else go (done (rdivEven (((t4 - t1) - (m.ts - t2)) * 65536 - c - m.hdr.corr) 131072) s)
      | _ => go s

/-- An accepted IRIG-B frame at a base (R247, R251, R263): the coded time plus its offset is UTC. -/
def irigTo (f : IrigFrame) (b : Nat) (s : State) : State :=
  if (baseOf s b).cfg.src ≠ 2 then s
  else
    let s := noteTrace b (modBase b (fun x => { x with
      srcTrace := decide (f.tq ≤ x.cfg.irigTqMax), traceable := if x.st = .holdover then x.traceable else decide (f.tq ≤ x.cfg.irigTqMax)
      utcOffset := f.utcOffset.getD x.cfg.utcOffset, utcKnown := f.utcOffset.isSome || x.configured
      leap61 := f.leapPending && !f.leapDeleted, leap59 := f.leapPending && f.leapDeleted }) s)
    let x := baseOf s b
    let base := (f.seconds + f.offsetHalfHours * 1800 + x.utcOffset) * NS
    measure b (f.stamp.getD b 0 - base) 2 s

/-- EV_TIM_IRIG_ERR, at most once per second (R269). -/
def irigError (s : State) : State :=
  let s := modTbs (fun x => { x with irigErr := satInc x.irigErr, irigErrNew := x.irigErrNew + 1 }) s
  if secondPassed s s.tbs.irigErrLast then
    ev 0x0706 (u32 s.tbs.irigErrNew) (modTbs (fun x => { x with irigErrNew := 0, irigErrLast := some s.now }) s)
  else s

/-- IRIG_FRAME_RECEIVE (R263): a frame is accepted when its parity is correct and it decodes to the second after the previous accepted one; after 3 s without one, whatever second it decodes to. -/
def execIrigFrameReceive (t : Nat) (f : IrigFrame) (s : State) : Res :=
  let s := atTime t s
  let next : Bool := match s.tbs.irigPrev with
    | some (q, l) => f.seconds == q + 1 || decide (l + 3 * NS ≤ s.now)
    | none => true
  let word := wd (fl true 0 + (f.tq % 16) * 2 + fl f.leapPending 5)
  if !f.parityOk || !next then go (irigError (modTbs (fun x => { x with irigStat := x.irigStat &&& ~~~1#32 }) s))
  else
    let s := modTbs (fun x => { x with irigPrev := some (f.seconds, s.now), irigStat := word }) s
    go (foldOver (List.range 4) (irigTo f) s)

/-- An edge of PPS_IN at a base: its offset from the nearest second (R264). -/
def ppsTo (stamp : List Int) (b : Nat) (s : State) : State :=
  if (baseOf s b).cfg.src ≠ 3 then s
  else
    let n := nsOf (stamp.getD b 0)
    measure b (if 2 * n < NS then n else (n : Int) - NS) 3 s

/-- The base whose source is PPS_IN, else TB0. -/
def ppsBase (s : State) : Nat := ((List.range 4).find? fun b => (baseOf s b).cfg.src == 3).getD 0

/-- PPS_IN_EDGE (R264): the stamp of the edge on each base. -/
def execPpsInEdge (t : Nat) (stamp : List Int) (s : State) : Res :=
  let s := atTime t s
  let b := ppsBase s
  let v := stamp.getD b 0
  go (foldOver (List.range 4) (ppsTo stamp) (modTbs (fun x => { x with ppsNs := stampNsWord b v, ppsSec := secLo v }) s))

/-- TIM_CONFIG_BASE (R257, R268): what its fields must be. -/
def timCfgCheck (p : TimCfg) (s : State) : Option (Nat × Nat) :=
  let clash := p.src == 1 && (List.range 4).any fun b =>
    let c := (baseOf s b).cfg
    b != p.tb && c.src == 1 && c.domain == p.domain && (List.range 4).any fun q => nbit c.ports q && nbit p.ports q
  firstFail [bad (p.tb ≤ 3), bad (p.src ≤ 3), bad (p.profile ≤ 1), bad (p.role ≤ 2), bad (p.ports < 16), bad (p.udp ≤ 1), bad (p.flags < 8),
    bad (2 ≤ p.tauLog2 ∧ p.tauLog2 ≤ 10), bad (p.irigTqMax ≤ 15), bad (1 ≤ p.slewMax ∧ p.slewMax ≤ 500),
    bad (10 ≤ p.lockThr ∧ p.lockThr ≤ 10000), bad (1 ≤ p.stepLimit ∧ p.stepLimit ≤ 1000000), bad (1 ≤ p.hoLimit ∧ p.hoLimit ≤ 86400),
    bad (100 ≤ p.hoErrMax ∧ p.hoErrMax ≤ 1000000), bad (p.src ≠ 1 ∨ p.ports ≠ 0), bad (p.udp = 0 ∨ p.ports % 4 = 0), bad (!clash)]

def timCfgApply (p : TimCfg) (s : State) : State :=
  let x := baseOf s p.tb
  let c := x.cfg
  let moved := c.src ≠ p.src ∨ c.domain ≠ p.domain ∨ c.ports ≠ p.ports
  let live := !moved && supplies s p.tb
  let s := if moved ∧ x.slavePort.isSome then setMaster p.tb none x.gmId.toNat x.gmClass x.stepsRemoved s else s
  let pps := p.src == 3 && nbit p.flags 1
  let s := modBase p.tb (fun x => { x with
    cfg := p, configured := true, lockRun := 0, stepVals := [], discRun := 0
    pp := if moved then List.replicate 4 InstPort.reset else x.pp
    leap61 := x.leap61 && live, leap59 := x.leap59 && live, gmTlv := if live then x.gmTlv else none
    utcOffset := if live then x.utcOffset else p.utcOffset, utcKnown := true
    srcTrace := if p.src = 3 then pps else x.srcTrace && live
    traceable := if p.src = 0 then false
      else if x.st = .free ∨ (p.src = 3 ∧ !moved) then (if p.src = 3 then pps else x.srcTrace && live) else x.traceable }) s
  let s := if p.src = 0 then enterFree p.tb 3 s
    else if x.st = .locked ∧ moved then enterHoldover p.tb 3 s else s
  bmca p.tb (noteTrace p.tb s)

/-- The step that TIM_STEP asks for (R253): its base time and size. -/
def timStepPlan (s : State) (p : TimStepCmd) : Int × Int :=
  let at' := -(-(baseNs s p.tb + 100000) / 1000) * 1000
  let d : Int := if p.mode = 0 then p.delta
    else if (baseOf s p.tb).cfg.src = 3 then ((p.sec : Int) - secOf at') * NS
    else ((p.sec * NS + p.ns : Nat) : Int) - at'
  (at', d)

/-- TIM_STEP (R253, R268): the reply follows the step. -/
def execTimStep (t : Nat) (e : Env) (p : TimStepCmd) (s : State) : Res :=
  let s := atTime t s
  go (runCmd e ⟨0x0601, true, plenIs 24, 24, [.service, .maint]⟩ (fun rt s =>
    let src := (baseOf s p.tb).cfg.src
    let plan := timStepPlan s p
    let after := plan.1 + plan.2
    checked8 e rt
      (firstFail [(decide (p.tb > 3) || src == 0 || src == 3, stConflict, s.sys.st.code), ((baseOf s p.tb).pend.isNone || decide (p.tb > 3), stBusy, 0)])
      (firstFail [bad (p.tb ≤ 3), bad (p.mode ≤ 1), (!(src == 3 && p.mode == 0), stBadParam, 1),
        (!(src == 3 && p.mode == 1 && p.ns != 0), stBadParam, 4),
        bad (if p.mode = 0 then p.ns = 0 ∧ p.sec = 0 else p.delta = 0 ∧ p.ns < NS), bad (0 ≤ after ∧ after < ((2 ^ 48 * NS : Nat) : Int))])
      (fun s => holdReply rt (modBase p.tb (fun x => { x with pend := some ⟨plan.1, plan.2, some rt⟩ }) s)) s) s)

/-- TIM_GET_STATUS (R268). -/
def execTimGetStatus (t : Nat) (e : Env) (base : Nat) (s : State) : Res :=
  let s := atTime t s
  go (runCmd e ⟨0x0602, false, plenIs 4, 64, [.service, .maint, .safeService]⟩ (fun rt s =>
    checked e rt (firstFail [bad (base ≤ 3)]) (fun s =>
      let x := baseOf s base
      let now := baseNs s base
      let mpd := (x.slavePort.bind fun p => (ptpOf s p).mpd).getD 0
      let flags := fl x.traceable 0 + fl (utcValid x) 1 + fl x.leap61 2 + fl x.leap59 3 + fl (ocxoValid s) 4
      let state := match x.slavePort with
        | some p => (instPort s base p).portState
        | none => (((instPorts s base).head?).map fun p => (instPort s base p).portState).getD 0
      reply rt stOk 0
        (u8 x.st.code ++ u8 x.cfg.src ++ u8 (x.slavePort.getD 0xFF) ++ u8 state ++ s16 x.utcOffset ++ u8 flags ++ u8 x.gmClass
          ++ u64 (secOf now).toNat ++ u32 (nsOf now) ++ s32 x.theta ++ u32 mpd ++ u32 x.hoErr ++ s64 x.rate ++ u32 (hoTimeOf s x)
          ++ w32 x.stepCnt ++ be 8 x.gmId.toNat ++ u16 x.stepsRemoved ++ u16 0 ++ u32 0) s) s) s)

end Sys2Proof.Machine
end

