-- ==== Sys2Proof/Machine/Thresholds.lean ====
section
/-! DEFINITION. The supply's floor, the bank's capacitance and the shed thresholds; PWR_SET_THRESHOLDS (18_power_start_sleep.md R433, R434, R437, R440, R451). -/

namespace Sys2Proof.Machine

def modPwr (f : Pwr → Pwr) (s : State) : State := { s with pwr := f s.pwr }

/-- Un in V (R432, R453). -/
def Pwr.un (p : Pwr) : Nat := clampN 24 110 (bits p.ctl 7 0)

/-- FLOOR_PCT as written, within its range, and the lowest that gives a floor of 14.4 V (R433). -/
def Pwr.floorField (p : Pwr) : Nat := clampN 50 80 (bits p.ctl 15 8)
def Pwr.floorPct (p : Pwr) : Nat := max p.floorField (cdiv 1440 p.un)

/-- The floor and the recovery level in mV (R433). -/
def Pwr.floor (p : Pwr) : Nat := p.floorPct * p.un * 10
def Pwr.recoverAt (p : Pwr) : Nat := (p.floorPct + 5) * p.un * 10

/-- Rated capacitance in nF (R434). -/
def Pwr.rated (p : Pwr) : Nat := (1000 + min 20000 (bits p.extC 15 0)) * 1000

/-- C of R437 in nF. -/
def Pwr.cap (p : Pwr) : Nat := if p.capValid then p.cHu.toNat else p.rated

/-- The smallest r with r × r ≥ n. -/
def sqrtUp (n : Nat) : Nat := if isqrt n * isqrt n = n then isqrt n else isqrt n + 1

/-- VHU_SHED5 in 0.1 V: max(22.0 V, sqrt(324 V² + 0.120 J / C)), rounded up (R437). -/
def shed5Thr (c : Nat) : Nat := max 220 (sqrtUp (cdiv (32400 * c + 12000000000) c))

/-- VHU_SHED2 to VHU_SHED5 in mV (R437). -/
def shedThr (s : State) : List Nat :=
  let t := 100 * shed5Thr (max 1 s.pwr.cap)
  [t + 18000, t + 12000, t + 6000, t]

/-- CAP_LOW follows C_HU and the rated capacitance, and a change is recorded (R440). -/
def capLowCheck (s : State) : State :=
  let low := s.pwr.capValid && decide (10 * s.pwr.cHu.toNat < 6 * s.pwr.rated)
  if low = s.pwr.capLow then s
  else ev 0x0C05 (u8 (b2n low) ++ zeros 3 ++ w32 s.pwr.cHu) (modPwr (fun p => { p with capLow := low }) s)

/-- A new rated capacitance: the thresholds follow at once while no test has completed (R437, R451). -/
def ratedChanged (s : State) : State :=
  capLowCheck (if s.pwr.capValid then s else modPwr (fun p => { p with thr := shedThr s }) s)

/-- PWR_SET_THRESHOLDS (R433, R451): what its fields must be. -/
def pwrCheck (p : PwrThresholds) : Option (Nat × Nat) :=
  firstFail [bad (24 ≤ p.unV ∧ p.unV ≤ 110), bad (50 ≤ p.floorPct ∧ p.floorPct ≤ 80 ∧ 1440 ≤ p.floorPct * p.unV), bad (p.flags < 2),
    bad (p.extC ≤ 20000 ∧ (p.extC ≠ 0 ↔ p.flags = 1)), bad (p.htAutoH = 0 ∨ (24 ≤ p.htAutoH ∧ p.htAutoH ≤ 8760))]

/-- PWR_SET_THRESHOLDS takes effect (R451, R452). -/
def pwrApply (src : Option Nat) (p : PwrThresholds) (s : State) : State :=
  let s := modPwr (fun x => { x with ctl := wd (p.unV + p.floorPct * 2 ^ 8 + p.flags * 2 ^ 16), extC := wd p.extC, htCtl := wd p.htAutoH }) s
  ratedChanged (evCfg src 0x0C09 (u16 p.unV ++ u8 p.floorPct ++ u8 p.flags ++ u32 p.extC) s)

end Sys2Proof.Machine
end

