-- ==== Sys2Proof/Machine/Speed.lean ====
section
/-! DEFINITION. Speed monitors, VCORE control, margin plans and oscillator ageing (09_speed_budgets.md R229 to R245). -/

namespace Sys2Proof.Machine

/-- SI_PLAN, or 0.96 at SHED4 and above, as a handshake count (R230). -/
def siRef (s : State) : Nat := if s.pwr.shed ≥ 4 then 4800 else 5 * s.spd.siPlan

/-- A handshake count in 0.001, rounded down (R229). -/
abbrev siMilli (n : Nat) : Nat := min (n / 5) 0xFFFF

/-- The VCORE code in force (R235). -/
def vcoreCode (s : State) : Nat :=
  let d := s.spd
  if s.pwr.shed ≥ 4 then min d.planCode 10 else if d.ovrEn then min d.ovrCode 130 else min 130 (d.planCode + 5 * d.fastSteps)

/-- The lowest count among monitors 0 to 21, with the lowest such monitor (R230). -/
def lowestMon (counts : List Nat) : Nat × Nat :=
  (imap (fun i c => (c, i)) (counts.take 22)).foldl (fun m x => if x.1 < m.1 then x else m) (counts.headD 0, 0)

/-- EV_SPD_BELOW_PLAN (R244). -/
def belowEvent (low mon st us : Nat) (s : State) : State := ev 0x0C41 (u16 (siMilli low) ++ u8 mon ++ u8 st ++ u8 (vcoreCode s) ++ zeros 3 ++ u32 us) s

/-- SPEED_MEASUREMENT (R229, R230): one completed set of counts. -/
def execSpeedMeasurement (t : Nat) (counts : List Nat) (s : State) : Res :=
  let s := atTime t s
  if s.sys.st = .off ∨ s.pwr.gated ∨ counts.length ≠ 22 then go s
  else
    let (c, m) := lowestMon counts
    let low := decide (c < siRef s)
    let high := decide (525 * s.spd.siPlan ≤ 100 * c)
    let s := modSpd (fun d => { d with
      siCount := c, siMon := m, siMin := min d.siMin (siMilli c), mon := counts ++ d.mon.drop 22, belowCnt := if low then satInc d.belowCnt else d.belowCnt
      okSets := if low then 0 else d.okSets + 1, highSince := if high then (d.highSince.or (some s.now)) else none
      belowLow := if d.belowPlan then min d.belowLow c else c, belowMon := if d.belowPlan && decide (d.belowLow ≤ c) then d.belowMon else m }) s
    if low && !s.spd.belowPlan then go (belowEvent c m 1 0 (modSpd (fun d => { d with belowPlan := true, belowSeen := true, belowAt := s.now }) s))
    else if s.spd.belowPlan && decide (10 ≤ s.spd.okSets) then
      go (belowEvent s.spd.belowLow s.spd.belowMon 0 (min ((s.now - s.spd.belowAt) / 1000) 0xFFFFFFFF) (modSpd (fun d => { d with belowPlan := false }) s))
    else go s

/-- The interval of the fast loop has passed (R235). -/
def fastDue (s : State) (ns : Nat) : Bool :=
  match s.spd.fastAt with
  | some a => decide (a + ns ≤ s.now)
  | none => true

/-- VCORE_FAST_LOOP_STEP (R235): up by one every 1 ms while the speed is short; after 10 s of ample speed, down by one every 100 ms. The loop is held at SHED4 and above. -/
def execVcoreFastLoopStep (t : Nat) (s : State) : Res :=
  let s := atTime t s
  let d := s.spd
  if s.pwr.shed ≥ 4 ∨ s.sys.st = .off ∨ s.pwr.gated then go s
  else if d.belowPlan || decide (100 * d.siCount < 505 * d.siPlan) then
    if fastDue s 1000000 then go (modSpd (fun d => { d with fastSteps := min 255 (d.fastSteps + 1), fastAt := some s.now, fastDown := false }) s) else go s
  else
    let ample : Bool := match d.highSince with
      | some a => decide (a + 10 * NS ≤ s.now)
      | none => false
    if (d.fastDown || ample) && decide (0 < d.fastSteps) && decide (515 * d.siPlan ≤ 100 * d.siCount) && fastDue s 100000000 then
      go (modSpd (fun d => { d with fastSteps := d.fastSteps - 1, fastAt := some s.now, fastDown := true }) s)
    else go s

/-! ### Margin plans -/

/-- Least-squares slope of y against x, as numerator and denominator. -/
def lsSlope (l : List (Int × Int)) : Int × Int :=
  let n : Int := (l.length : Int)
  let sx := l.foldl (fun (a : Int) p => a + p.1) 0
  let sy := l.foldl (fun (a : Int) p => a + p.2) 0
  let sxy := l.foldl (fun (a : Int) p => a + p.1 * p.2) 0
  let sxx := l.foldl (fun (a : Int) p => a + p.1 * p.1) 0
  (n * sxy - sx * sy, n * sxx - sx * sx)

/-- Plans at least 12 operating hours apart, from the newest, at most 30 (R237). -/
def spacedPlans (l : List (Nat × Nat)) : List (Nat × Nat) :=
  (l.foldl (fun (acc : List (Nat × Nat)) p => match acc.head? with
    | none => [p]
    | some q => if acc.length < 30 ∧ p.1 + 43200 ≤ q.1 then p :: acc else acc) []).reverse

/-- AGE_RATE in ppm per 1,000 h from operating seconds and AGE_F in 0.0001, newest first (R237). -/
def ageRateOf (l : List (Nat × Nat)) : Nat :=
  let ps := spacedPlans l
  if ps.length < 2 then 40
  else
    let (a, b) := lsSlope (ps.map fun p => ((p.1 : Int), (p.2 : Int)))
    if b ≤ 0 ∨ a ≥ 0 then 0 else min (rdivEven (-a * 360000000) b.toNat).toNat 0xFFFF

/-- F at a VCORE code in 0.0001 (R237). -/
def prodF (code : Nat) : Nat :=
  let i := code / 10
  let r := code % 10
  Config.prodSpeed i * (10 - r) + Config.prodSpeed (i + 1) * r

/-- SI_WC of a code, over the same denominator for every code: numerator in 0.0001 (R237). -/
structure Ageing where
  /-- AGE_PROJ -/
  num : Int
  den : Int
deriving DecidableEq, Repr

/-- AGE_PROJ: AGE_F less 48 hours of AGE_RATE (R237). -/
def ageProj (ageNum ageDen rate : Nat) : Ageing := ⟨(ageNum : Int) * 1000000000 - (rate : Int) * 48 * ageDen, (ageDen : Int) * 1000000000⟩

/-- SI_WC in 0.001, rounded down. -/
def siWc (a : Ageing) (code : Nat) : Nat := min (((prodF code : Nat) : Int) * a.num / (10 * a.den)).toNat 0xFFFF

/-- SI_WC ≥ 1.02 × SI_PLAN (R237 step 5). -/
def codeOk (a : Ageing) (siPlan code : Nat) : Bool := decide ((102 * siPlan * 10 : Int) * a.den ≤ ((prodF code : Nat) : Int) * a.num * 100)

/-- OCXO_AGE in 0.001 ppb/day from daily values in 0.01 ppb against the seconds at which they were recorded (R240). -/
def ocxoAge (l : List (Int × Int)) : Int :=
  let (a, b) := lsSlope (l.take 30)
  if b ≤ 0 then 0 else satI32 (rdivEven (a * 864000) b.toNat)

/-- Octets of a plan record (R242). -/
def PlanRec.octets (p : PlanRec) : Bytes :=
  let b := u32 p.no ++ u32 p.optime ++ u16 p.siPlan ++ u16 p.siWcPlan ++ u16 p.siWcMax ++ u16 p.siReq ++ u16 p.ageF ++ u16 p.ageRate ++ u8 p.planCode
    ++ u8 (fl p.planShort 0 + fl p.capValid 1 + fl p.ocxoValid 2) ++ u16 0 ++ s16 p.tjMax ++ s16 p.tjMean ++ u32 p.cHu ++ u32 p.cHuOptime
    ++ (p.vhu.flatMap u16) ++ s32 p.ocxoOffset ++ s32 p.ocxoAge ++ u16 p.ocxoDays ++ u16 0 ++ u32 0
  b ++ w32 (crc32c b)

/-- The plan that two counts give (R237, R242). -/
def planOf (count22 count23 : Nat) (s : State) : PlanRec :=
  let d := s.spd
  let num := count22 * 2 ^ 32
  let den := max 1 (count23 * Config.ratio0)
  let ageF := min (rdivEven ((num * 10000 : Nat) : Int) den).toNat 0xFFFF
  let now := s.evr.optime.toNat
  let rate := ageRateOf ((now, ageF) :: d.plans.map fun p => (p.optime, p.ageF))
  let a := ageProj num den rate
  let code := (List.range 131).find? (codeOk a d.siPlan)
  { no := d.planNo + 1, optime := now, siPlan := d.siPlan, siWcPlan := siWc a (code.getD 130), siWcMax := siWc a 130, siReq := d.siReq
    ageF := ageF, ageRate := rate, planCode := code.getD 130, planShort := code.isNone, capValid := s.pwr.capValid, ocxoValid := decide (7 ≤ d.ocxoDays)
    tjMax := d.tjMax.getD 0, tjMean := if d.tjN = 0 then 0 else rdivEven d.tjSum d.tjN, cHu := s.pwr.cHu.toNat, cHuOptime := s.pwr.cHuOptime.toNat
    vhu := shedThr s, ocxoOffset := (d.ocxo.headD (0, 0)).2, ocxoAge := ocxoAge d.ocxo, ocxoDays := min d.ocxoDays 0xFFFF }

/-- The reply of a completed hold-up test follows its plan (R440, R451). -/
def holdupReply (s : State) : State :=
  match s.pwr.htReply with
  | some (rt, us) => finish rt stOk 0 (w32 s.pwr.cHu ++ u32 us ++ s.pwr.thr.flatMap u16) (modPwr (fun x => { x with htReply := none }) s)
  | none => s

/-- A plan takes effect (R235, R237, R241, R242). -/
def planApply (p : PlanRec) (count22 count23 : Nat) (s : State) : State :=
  let s := modSpd (fun d => { d with
    planCode := p.planCode, planShort := p.planShort, siWcPlan := p.siWcPlan, siWcMax := p.siWcMax, ageF := p.ageF, ageRate := p.ageRate
    planNo := p.no, planOptime := p.optime, plans := (p :: d.plans).take 256, deferred := false, tjMax := none, tjSum := 0, tjN := 0
    mon := d.mon.take 22 ++ [count22, count23] }) s
  let s := holdupReply (ev 0x0C40 p.octets (modPwr (fun x => { x with thr := p.vhu }) s))
  if p.planShort then ev 0x0C42 (u16 p.siWcMax ++ u16 p.siPlan) s else s

/-- A plan is due (R239). -/
def planDue (s : State) : Bool := s.spd.deferred || decide (s.spd.planOptime + 86400 ≤ s.evr.optime.toNat)

/-- No plan is made at SHED4 and above, in SAFELIGHT or OFF (R239). -/
def planBarred (s : State) : Bool := decide (s.pwr.shed ≥ 4) || s.sys.st == .safelight || s.sys.st == .off

/-- MARGIN_PLAN (R237, R239): monitors 22 and 23 have been measured. -/
def execMarginPlan (t count22 count23 : Nat) (s : State) : Res :=
  let s := atTime t s
  if planDue s && !planBarred s then go (planApply (planOf count22 count23 s) count22 count23 s) else go s

/-- OCXO_DAILY_VALUE (R240): a day of lock to a traceable source. -/
def execOcxoDailyValue (t : Nat) (s : State) : Res :=
  let s := atTime t s
  let b := baseOf s 0
  match b.traceSince with
  | none => go s
  | some a =>
    if s.now < a + 86400 * NS then go s
    else
      let v := satI32 (rdivEven ((b.areaNow s.now - b.dayArea) * 100) ((s.now - a) * 65536))
      go (modSpd (fun d => { d with ocxo := ((secOf (baseNs s 0), v) :: d.ocxo).take 30, ocxoDays := d.ocxoDays + 1 })
        (modBase 0 (fun x => { x with traceSince := some s.now, dayArea := x.areaNow s.now }) s))

/-! ### Registers and commands -/

/-- SPD_SI_PLAN_WRITE (R239, R245): a write of SPD_CTL. -/
def execSpdSiPlanWrite (t : Nat) (by' : Master) (v : Word) (s : State) : Res :=
  let s := atTime t s
  let x := bits v 10 0
  let y := clampN 960 1500 x
  go (cfgWrite by' 0x20000 (modSpd fun d => { d with siPlan := y, cfgClamp := d.cfgClamp || clamped x y, deferred := true }) s)


/-- The override is cleared (R236). -/
def ovrClear (s : State) : State := if s.spd.ovrEn then vcoreOvrEvent s.spd.ovrCode 0 (modSpd (fun d => { d with ovrEn := false }) s) else s

/-- SPD_VCORE_OVR_WRITE (R236, R245): effective in MAINT only. -/
def execSpdVcoreOvrWrite (t : Nat) (by' : Master) (v : Word) (s : State) : Res :=
  let s := atTime t s
  go (regWrite by' 0x20014 (fun s =>
    if s.sys.st ≠ .maint then s
    else
      let code := bits v 7 0
      if bit v 8 then
        let moved := !s.spd.ovrEn || s.spd.ovrCode != code
        let s := modSpd (fun d => { d with ovrCode := code, ovrEn := true }) s
        if moved then vcoreOvrEvent code 1 s else s
      else modSpd (fun d => { d with ovrCode := code }) (ovrClear s)) s)

/-- SPD_GET_PLAN (R243). -/
def execSpdGetPlan (t : Nat) (e : Env) (back : Nat) (s : State) : Res :=
  let s := atTime t s
  go (runCmd e ⟨0x0B02, false, plenIs 4, 64, [.service, .maint, .safeService]⟩ (fun rt s =>
    match s.spd.plans[back]? with
    | none => refuse rt stBadParam 0 s
    | some p => checked e rt none (fun s => reply rt stOk 0 p.octets s) s) s)

end Sys2Proof.Machine
end

