-- ==== Sys2Proof/Machine/Virtual.lean ====
section
/-! DEFINITION. Virtual functions: rings, deliveries, trip requests, Stop bath, configuration (14_host_vfs.md R332 to R359). -/

namespace Sys2Proof.Machine

def modVfm (f : Vfm → Vfm) (s : State) : State := { s with vfm := f s.vfm }

/-! ### Rings -/

/-- Fields of Q_CTL and Q_COAL (R340). -/
def Ring.size (r : Ring) : Nat := 2 ^ clampN 6 14 (bits r.ctl 3 0)
def Ring.en (r : Ring) : Bool := bit r.ctl 4
def Ring.wbEn (r : Ring) : Bool := bit r.ctl 5
def Ring.irqEn (r : Ring) : Bool := bit r.ctl 6
def Ring.coalUs (r : Ring) : Nat := bits r.coal 15 0
def Ring.coalCnt (r : Ring) : Nat := bits r.coal 31 16

/-- The host has passed an entry (R339). -/
def Ring.hasEntry (r : Ring) : Bool := r.en && r.head != r.tail

def ringOf (s : State) : RingId → Ring
  | .rx v => (vfOf s v).rxq
  | .tx v => (vfOf s v).txq
  | .evq => s.vfm.evq

def modRing (q : RingId) (f : Ring → Ring) (s : State) : State :=
  match q with
  | .rx v => modVf v (fun x => { x with rxq := f x.rxq }) s
  | .tx v => modVf v (fun x => { x with txq := f x.txq }) s
  | .evq => modVfm (fun x => { x with evq := f x.evq }) s

/-- The ring exists: PF_EVQ, or a ring of VF 1 to 1,024. -/
def RingId.ok : RingId → Bool
  | .rx v => decide (1 ≤ v) && decide (v ≤ 1024)
  | .tx v => decide (1 ≤ v) && decide (v ≤ 1024)
  | .evq => true

/-- Function and vector of a ring (R336, R337). -/
def RingId.vector : RingId → Nat × Nat
  | .rx v => (v, 0)
  | .tx v => (v, 1)
  | .evq => (0, 0)

/-- The ring's function is in Stop bath. -/
def ringStopped (s : State) : RingId → Bool
  | .rx v => (vfOf s v).stop.isSome
  | .tx v => (vfOf s v).stop.isSome
  | .evq => false

/-- The module may use entries of the ring: bus master, link, no D3hot, no Stop bath, an entry (R333, R341, R354). -/
def ringUsable (s : State) (q : RingId) : Bool :=
  (ringOf s q).hasEntry && !ringStopped s q && s.vfm.linkUp && !s.vfm.perst && (match q with
    | .rx v => vfEnabled s v && (vfOf s v).busMaster
    | .tx v => vfEnabled s v && (vfOf s v).busMaster
    | .evq => s.vfm.pfBusMaster && !s.vfm.d3hot)

/-- Signals a ring's vector: nothing stays unsignalled. -/
def ringSignal (q : RingId) (s : State) : State := emit (.msix q.vector.1 q.vector.2) (modRing q (fun r => { r with unsig := 0 }) s)

/-- An entry has been used: HEAD advances, with write-back and interrupt (R347). -/
def ringAdvance (q : RingId) (done : Bool) (s : State) : State :=
  let r := ringOf s q
  let head := (r.head + 1) % r.size
  let s := modRing q (fun r => { r with
    head := head, phase := if head = 0 then !r.phase else r.phase, done := if done then satInc r.done else r.done
    unsigFrom := if r.unsig = 0 then s.now else r.unsigFrom, unsig := if r.irqEn then r.unsig + 1 else r.unsig }) s
  let s := if r.wbEn then emit (.hostWrite (r.wbLo.toNat + r.wbHi.toNat * 2 ^ 32) (u32 head)) s else s
  let n := (ringOf s q).unsig
  if r.irqEn && ((r.coalCnt == 0 && r.coalUs == 0) || (decide (0 < r.coalCnt) && decide (r.coalCnt ≤ n))) then ringSignal q s else s

/-- Q_CTL_WRITE (R340): a write of 1 to EN starts the ring afresh; LOG2_SIZE is fixed while EN = 1. -/
def execQCtlWrite (t : Nat) (ring : RingId) (v : Word) (s : State) : Res :=
  let s := atTime t s
  if !ring.ok then go s
  else go (modRing ring (fun r =>
    let v := v &&& 0x7F#32
    let ctl := if r.en then setBits v 3 0 (bits r.ctl 3 0) else v
    if bit v 4 then { r with ctl := ctl, head := 0, tail := 0, phase := true, seq := 0, baddesc := false, unsig := 0 } else { r with ctl := ctl }) s)

/-- A doorbell (R337, R339, R354). -/
def doorbell (q : RingId) (v : Nat) (tail : Word) (s : State) : State :=
  let n := bits tail 13 0
  if dark s || !vfReady s v || !(vfOf s v).memEn then s
  else if ringStopped s q || decide ((ringOf s q).size ≤ n) then modRing q (fun r => { r with dbign := satInc r.dbign }) s
  else modRing q (fun r => { r with tail := n }) s

/-- DOORBELL_RX, DOORBELL_TX (R339). -/
def execDoorbellRx (t v : Nat) (tail : Word) (s : State) : Res := go (doorbell (.rx v) v tail (atTime t s))
def execDoorbellTx (t v : Nat) (tail : Word) (s : State) : Res := go (doorbell (.tx v) v tail (atTime t s))

/-- MSIX_COALESCE_EXPIRE (R347): COAL_US since the first unsignalled entry. -/
def execMsixCoalesceExpire (t : Nat) (ring : RingId) (s : State) : Res :=
  let s := atTime t s
  let r := ringOf s ring
  if r.irqEn && decide (0 < r.unsig) && decide (0 < r.coalUs) && decide (r.unsigFrom + r.coalUs * 1000 ≤ s.now) && !ringStopped s ring then go (ringSignal ring s) else go s

/-! ### Receive deliveries -/

/-- The rule of BUF_ADDR and BUF_LEN (R341). -/
def RxEntry.ok (x : RxEntry) : Bool := x.bufAddr % 64 == 0 && decide (4096 ≤ x.bufLen) && decide (x.bufLen ≤ 16384) && x.bufLen % 64 == 0

/-- Bytes 0x10 to 0x1F of an entry (R341): ERR, TRUNC from the flags given. -/
def rxWriteBack (r : Ring) (dlen type flags dropped src : Nat) : Bytes :=
  u16 dlen ++ u8 type ++ u8 (fl r.phase 0 + fl (decide (0 < dropped)) 1 + flags) ++ u16 (min dropped 0xFFFF) ++ u16 src ++ u32 r.seq ++ u32 0

/-- Address of bytes 0x10 to 0x1F of the entry at HEAD. -/
def ringEntryAddr (r : Ring) : Nat := r.baseLo.toNat + r.baseHi.toNat * 2 ^ 32 + 32 * r.head + 0x10

/-- Writes one delivery, or refuses the entry (R341, R347). -/
def rxWrite (q : RingId) (d : Delivery) (entry : RxEntry) (s : State) : State :=
  let r := ringOf s q
  if !entry.ok then
    ringAdvance q false (emit (.hostWrite (ringEntryAddr r) (rxWriteBack r 0 0 8 0 0)) (modRing q (fun r => { r with err := satInc r.err, baddesc := true }) s))
  else
    let pay := d.payload.take entry.bufLen
    let src := if d.type = 1 ∨ d.type = 3 ∨ d.type = 4 ∨ d.type = 6 then d.src else 0
    let wb := rxWriteBack r pay.length d.type (fl (decide (entry.bufLen < d.payload.length)) 2) d.dropped src
    let s := emit (.hostWrite (ringEntryAddr r) wb) (emit (.hostWrite entry.bufAddr pay) s)
    ringAdvance q true (modRing q (fun r => { r with seq := (r.seq + 1) % 2 ^ 32 }) s)

/-- Some VF has a lossless delivery that its ring can take: bulk deliveries wait (R351). -/
def losslessWaits (s : State) : Bool := s.vfm.vfs.any fun p => !p.2.lossless.isEmpty && ringUsable s (.rx p.1)

/-- RX_DELIVERY_WRITE (R341, R347, R351, R352): lossless deliveries before bulk ones, in production order. -/
def execRxDeliveryWrite (t : Nat) (ring : RingId) (entry : RxEntry) (s : State) : Res :=
  let s := atTime t s
  if !ringUsable s ring then go s
  else match ring with
    | .tx _ => go s
    | .evq => match s.vfm.evqStage with
      | [] => go s
      | b :: rest =>
        let s := rxWrite .evq ⟨7, 0, b, 0⟩ entry s
        go (if entry.ok then modVfm (fun x => { x with evqStage := rest }) s else s)
    | .rx v =>
      match (vfOf s v).lossless, (vfOf s v).bulk with
      | d :: rest, _ =>
        let s := rxWrite ring d entry s
        go (if entry.ok then losslessState v (modVf v (fun f => { f with lossless := rest }) s) else s)
      | [], d :: rest =>
        if losslessWaits s then go s
        else
          let s := rxWrite ring d entry s
          go (if entry.ok then oversharePass v (modVf v (fun f => { f with bulk := rest }) s) else s)
      | [], [] => go s

/-! ### Transmit entries -/

/-- HP has a cell for a new frame (R316, R346). -/
def hpHasCell (s : State) (f : NetFrame) : Bool := (allocCells (swcSettle s) 4 (frameClass s 4 f) 1).isSome

/-- Frames in transmit staging enter the switch core in order, while HP has a cell (R346). -/
def txDrain (v : Nat) : Nat → State → State
  | 0, s => s
  | n + 1, s => match (vfOf s v).txStage with
    | [] => s
    | b :: rest =>
      let f := parseFrame b
      if hpHasCell s f then txDrain v n (swcIn 4 8 (tab 4 (baseNs s)) true f (modVf v (fun x => { x with txStage := rest }) s)) else s

/-- A VF may send this frame (R344). -/
def vfFrameOk (x : Vf) (f : NetFrame) : Bool :=
  x.mac != 0 && x.framesEn && f.src == x.mac && (x.vid == 0 || (match f.tag with
    | some (_, vid) => vid == x.vid
    | none => true))

/-- A frame as it enters HP: tagged with the VF's VID when it carries no tag (R344). -/
def vfTagged (x : Vf) (b : Bytes) : Bytes :=
  if x.vid ≠ 0 ∧ (parseFrame b).tag.isNone then b.take 12 ++ be 2 0x8100 ++ be 2 x.vid ++ b.drop 12 else b

/-- A TxQ entry is skipped and counted (R345). -/
def txSkip (v : Nat) (bad : Bool) (s : State) : State :=
  ringAdvance (.tx v) false (modRing (.tx v) (fun r => { r with err := satInc r.err, baddesc := r.baddesc || bad }) s)

/-- Result of a trip request (R192): 0 accepted. -/
def tripResult (s : State) (v grant row : Nat) (stamp : Int) : Nat :=
  if !inService s then 4
  else if (vfOf s v).stop.isSome then 5
  else match tget s.trp.grants grant with
    | none => 1
    | some g =>
      if g.vf ≠ v then 1
      else if !(g.mask.getLsbD row) || (rowOf s row).close then 2
      else if baseNs s 0 - stamp > (g.maxAge : Int) * 1000000 then 3 else 0

/-- A trip request is decided (R192, R193, R346, R354). -/
def tripDecide (v grant row reqId : Nat) (stamp : Int) (s : State) : State :=
  let res := tripResult s v grant row stamp
  let now := baseNs s 0
  let s := modTrp (fun x => if res = 0 then { x with vfAcc := satInc x.vfAcc } else { x with vfRef := satInc x.vfRef }) s
  let s := ev 0x0514 (u16 v ++ u8 grant ++ u8 res ++ u8 row ++ zeros 3 ++ stampWords 0 now) s
  let s := if (vfOf s v).stop.isSome then s else admitAck v ⟨5, 0, u32 reqId ++ u8 grant ++ u8 row ++ u8 res ++ u8 0 ++ stampWords 0 now, 0⟩ s
  if res = 0 then settleWith (some grant) s else s

/-- A fetched TxQ entry is handled (R345, R346). -/
def txHandle (v : Nat) (entry : TxEntry) (s : State) : State :=
  let x := vfOf s v
  match entry with
  | .nop => ringAdvance (.tx v) true s
  | .bad => txSkip v true s
  | .frame len octets => match octets with
    | none => txSkip v true s
    | some b =>
      let f := parseFrame b
      if len < 60 ∨ 9596 < len ∨ b.length ≠ len then txSkip v true s
      else if !vfFrameOk x f then txSkip v false s
      else if x.txStage.length ≥ 16 ∨ !hpHasCell s f then s
      else
        let s := ringAdvance (.tx v) true (modVf v (fun x => { x with txStage := x.txStage ++ [vfTagged x b] }) s)
        txDrain v 16 s
  | .tripReq grant row reqId sec ns =>
    if grant ≥ 256 ∨ row ≥ 16 then txSkip v true s
    else if x.acksUsed ≥ 16 then s
    else tripDecide v grant row reqId ((sec : Int) * NS + ns) (ringAdvance (.tx v) true s)

/-- TX_ENTRY_FETCH (R346, R353, R354): in Stop bath only a read that was outstanding completes, and its trip request is refused. -/
def execTxEntryFetch (t v : Nat) (entry : TxEntry) (s : State) : Res :=
  let s := atTime t s
  if (vfOf s v).stop.isSome then
    match entry with
    | .tripReq grant row reqId sec ns => go (modVf v (fun f => { f with stop := f.stop.map fun b => { b with refused := b.refused + 1 } })
        (tripDecide v grant row reqId ((sec : Int) * NS + ns) s))
    | _ => go s
  else
    let s := txDrain v 16 s
    if ringUsable s (.tx v) && decide (s.pwr.shed < 4) then go (txHandle v entry s) else go s

/-- COMPLETION_TIMEOUT (R332): reported through AER. -/
def execCompletionTimeout (t fn : Nat) (s : State) : Res :=
  go (emit (.aer fn) (modVfm (fun x => if fn = 0 then { x with pci := tmodD x.pci 0x104 0#32 (· ||| 0x4000#32) } else x) (atTime t s)))

/-! ### Request bits -/

/-- The request bits of VF v become those of f (R348). -/
def setVreq (v : Nat) (f : Nat → Bool → Bool) (s : State) : State :=
  settle { s with cyc := { s.cyc with v := (List.range 16).foldl (fun (x : BitVec 16384) j => setBit x (16 * (v - 1) + j) (f j (x.getLsbD (16 * (v - 1) + j)))) s.cyc.v } }

/-- VF_VREQ_SET, VF_VREQ_CLR (R348). -/
def execVfVreqSet (t v : Nat) (x : Word) (s : State) : Res :=
  let s := atTime t s
  if !dark s && vfReady s v && (vfOf s v).memEn then go (setVreq v (fun j old => old || bit x j) s) else go s

def execVfVreqClr (t v : Nat) (x : Word) (s : State) : Res :=
  let s := atTime t s
  if !dark s && vfReady s v && (vfOf s v).memEn then go (setVreq v (fun j old => old && !bit x j) s) else go s

/-! ### Configuration -/

/-- ΣSHARE over the 1,024 VFs, VF v apart (R351). -/
def shareOthers (s : State) (v : Nat) : Nat :=
  let set := s.vfm.vfs.filter fun p => p.1 != v
  nsum (set.map fun p => p.2.shareKib) + (1023 - set.length) * 448

/-- A VF named by SCOPE (R358). -/
def scopeOk (scope : Nat) : Bool := decide (1 ≤ scope) && decide (scope ≤ 1024)

/-- VFM_SET_SHARE (R351, R358). -/
def vfmShareCheck (v : Nat) (p : VfmShare) (s : State) : Option (Nat × Nat) :=
  firstFail [bad (scopeOk v), bad (1 ≤ p.weight ∧ p.weight ≤ 1000), bad (p.vid ≤ 4094), bad (p.shareKib ≤ 458752), bad (p.flags < 4),
    bad (p.mac % 2 = 0), bad (p.mac == 0 || !s.vfm.vfs.any fun x => x.1 != v && x.2.mac == p.mac),
    (decide (shareOthers s v + p.shareKib ≤ 458752), stExhausted, 0)]

/-- VFM_SET_SHARE takes effect (R351). -/
def vfmShareNow (src : Option Nat) (v : Nat) (p : VfmShare) (s : State) : State :=
  let old := (vfOf s v).shareKib
  let s := modVf v (fun f => { f with
    weight := p.weight, vid := p.vid, shareKib := p.shareKib, mac := p.mac, framesEn := nbit p.flags 0, acceptGroup := nbit p.flags 1, configured := true }) s
  let s := evCfg src 0x0905 (u16 v ++ u16 p.weight ++ u32 old ++ u32 p.shareKib) s
  let f := vfOf s v
  if !f.overshare && decide (f.shareKib * 1024 < f.charged) then
    ev 0x0903 (u16 v ++ u8 1 ++ u8 0 ++ u32 f.charged) (vfChange v (modVf v fun f => { f with overshare := true }) s)
  else oversharePass v s

/-- VFM_BIND_ZONE (R349, R358). -/
def vfmBindCheck (v : Nat) (p : VfmBind) (s : State) : Option (Nat × Nat) :=
  let base := [bad (scopeOk v), bad (p.slot < 4), bad (p.op < 2)]
  if p.op = 0 then firstFail base
  else
    let mask : Bool := match tget s.prt.zones p.zone with
      | some z => (List.range 8).all fun i => !p.chmask.getLsbD i || z.cfg.slots.getD i 0xFFFF != 0xFFFF
      | none => false
    firstFail (base ++ [bad (p.zone < 64), bad mask, bad (1 ≤ p.blockN ∧ p.blockN ≤ 64), bad (p.flags < 4), bad (p.gFirst + p.gCount ≤ 1024)])

/-- The next index of a zone that is a multiple of n (R349). -/
def nextBlockK (s : State) (zone n : Nat) : Nat := (zoneNowK s zone / max 1 n + 1) * max 1 n

/-- VFM_BIND_ZONE takes effect at the first index that is a multiple of BLOCK_N (R349). -/
def vfmBindNow (src : Option Nat) (v : Nat) (p : VfmBind) (s : State) : State :=
  let b := (vfOf s v).binds.getD p.slot ⟨none, none, none⟩
  let cur := bindNow s b
  let next : Option (Nat × Option VfmBind) :=
    if p.op = 1 then some (nextBlockK s p.zone p.blockN, some p)
    else cur.map fun c => (nextBlockK s c.zone c.blockN, none)
  let zone := if p.op = 1 then p.zone else (cur.map VfmBind.zone).getD p.zone
  evCfg src 0x0906 (u16 v ++ u8 p.slot ++ u8 p.op ++ u8 zone ++ zeros 3)
    (modVf v (fun f => { f with binds := lset f.binds p.slot ⟨cur, next, if p.op = 1 then none else b.formed⟩ }) s)

/-- VFM_GRANT_TRIP (R192, R358). -/
def vfmGrantCheck (v : Nat) (p : VfmGrant) (s : State) : Option (Nat × Nat) :=
  firstFail [bad (scopeOk v), bad (p.grant < 256), bad (p.op < 2),
    bad (p.op == 0 || ((List.range 16).all fun i => !p.rowMask.getLsbD i || !(rowOf s i).close)), bad (p.op = 0 ∨ (1 ≤ p.maxAgeMs ∧ p.maxAgeMs ≤ 100))]

/-- VFM_GRANT_TRIP takes effect (R350). -/
def vfmGrantNow (src : Option Nat) (v : Nat) (p : VfmGrant) (s : State) : State :=
  evCfg src 0x0907 (u8 p.grant ++ u8 p.op ++ u16 v ++ u16 p.rowMask.toNat ++ u8 p.maxAgeMs ++ u8 0)
    (modTrp (fun x => { x with grants := if p.op = 1 then tset x.grants p.grant ⟨v, p.rowMask, p.maxAgeMs⟩ else tdel x.grants p.grant }) s)

/-- A VF command applies now, or after the VF's Stop bath (R355). -/
def vfmApply (v : Nat) (p : VfPending) (now : State → State) (s : State) : State :=
  if (vfOf s v).stop.isSome then modVf v (fun f => { f with waiting := f.waiting ++ [p] }) s else now s

/-- What a command that waited for a Stop bath does (R355). -/
def vfmPending (v : Nat) (p : VfPending) (s : State) : State :=
  match p with
  | .share x => vfmShareNow (some srcSvc) v x s
  | .bind x => vfmBindNow (some srcSvc) v x s
  | .grant x => vfmGrantNow (some srcSvc) v x s

/-! ### Stop bath -/

/-- A Stop bath of VF v starts, or is joined (R354, R355); its SRC_EPOCH counts it (R363). -/
def stopStart (cause v : Nat) (flr all : Bool) (rt : Option ReplyTo) (s : State) : State :=
  match (vfOf s v).stop with
  | some _ => modVf v (fun f => { f with stop := f.stop.map fun b => { b with flr := b.flr || flr, all := b.all || all, replies := b.replies ++ rt.toList } }) s
  | none =>
    let s := { s with mbx := { s.mbx with epochVf := tmodD s.mbx.epochVf v 0 fun n => (n + 1) % 256 } }
    setVreq v (fun _ _ => false) (vfChange v (modVf v fun f => { f with stop := some ⟨s.now, cause, rt.toList, 0, flr, all⟩ }) s)

/-- Reply payload of VFM_RESET (R358). -/
def resetReply (us deliv frames reqs : Nat) : Bytes := u32 us ++ u32 deliv ++ u32 frames ++ u32 reqs

/-- The share of one VF in a VFM_RESET of every VF (R358): the reply goes out with the last. -/
def resetAllNote (us deliv frames reqs : Nat) (s : State) : State :=
  match s.vfm.resetAll with
  | none => s
  | some r =>
    let r := { r with left := r.left - 1, maxUs := max r.maxUs us, deliv := r.deliv + deliv, frames := r.frames + frames, reqs := r.reqs + reqs }
    if r.left = 0 then
      foldOver r.replies (fun rt s => finish rt stOk 0 (resetReply r.maxUs r.deliv r.frames r.reqs) s) (modVfm (fun x => { x with resetAll := none }) s)
    else modVfm (fun x => { x with resetAll := some r }) s

/-- A Stop bath completes (R354). -/
def stopEnd (v : Nat) (s : State) : State :=
  match (vfOf s v).stop with
  | none => s
  | some b =>
    let s := txDrain v 16 s
    let f := vfOf s v
    let us := (s.now - b.start) / 1000
    let was := f.overshare
    let deliv := f.bulk.length + f.lossless.length
    let frames := f.txStage.length
    let s := vfChange v (modVf v fun f => { f with
      stop := none, bulk := [], lossless := [], gaps := [], overshare := false, stalled := false, txStage := [], rxq := Ring.reset, txq := Ring.reset, waiting := []
      busMaster := f.busMaster && !b.flr, memEn := f.memEn && !b.flr }) s
    let s := if was then ev 0x0903 (u16 v ++ u8 0 ++ u8 0 ++ u32 0) s else s
    let s := modVfm (fun x => { x with sbCnt := satInc x.sbCnt, pci := if b.flr then pciDrop v x.pci else x.pci }) s
    let s := ev 0x0902 (u16 v ++ u8 b.cause ++ u8 0 ++ u32 us ++ u32 deliv ++ u32 b.refused) s
    let s := foldOver b.replies (fun rt s => finish rt stOk 0 (resetReply us deliv frames b.refused) s) s
    let s := if b.all then resetAllNote us deliv frames b.refused s else s
    foldOver f.waiting (vfmPending v) s

/-- STOP_BATH_COMPLETE (R354). -/
def execStopBathComplete (t v : Nat) (s : State) : Res := go (stopEnd v (atTime t s))

/-- VF_FLR (R354). -/
def execVfFlr (t v : Nat) (s : State) : Res :=
  let s := atTime t s
  if vfReady s v && pciReady s then go (stopStart 0 v true false none s) else go s

/-- The enabled VFs. -/
def enabledVfs (s : State) : List Nat := if s.vfm.vfEnable then (List.range s.vfm.numVfs).map (· + 1) else []

/-- A Stop bath on every enabled VF (R356). -/
def stopAll (cause : Nat) (flr : Bool) (s : State) : State := foldOver (enabledVfs s) (fun v s => stopStart cause v flr false none s) s

/-- VF_ENABLE_WRITE (R334, R356): NumVFs and ARI change only while VF Enable is 0. -/
def execVfEnableWrite (t : Nat) (enable : Bool) (numVfs : Nat) (ari : Bool) (s : State) : Res :=
  let s := atTime t s
  if !pciReady s then go s
  else if s.vfm.vfEnable then
    if enable then go s
    else
      let n := s.vfm.numVfs
      let s := modVfm (fun x => { x with vfEnable := false }) (stopAll 2 false s)
      go (ev 0x0901 (u16 n ++ u8 0 ++ u8 0) s)
  else
    let s := modVfm (fun x => { x with numVfs := if numVfs ≤ 1024 then numVfs else x.numVfs, ari := ari }) s
    if !enable then go s
    else if ari then
      let s := modVfm (fun x => { x with vfEnable := true, vfAt := s.now + 1000000 }) s
      go (ev 0x0901 (u16 s.vfm.numVfs ++ u8 1 ++ u8 0) s)
    else go (ev 0x0901 (u16 s.vfm.numVfs ++ u8 2 ++ u8 0) s)

/-- VFM_RESET (R354, R355, R358): SCOPE 0xFFFF is every VF; one that is not enabled completes at once. -/
def execVfmReset (t : Nat) (e : Env) (s : State) : Res :=
  let s := atTime t s
  let v := e.hdr.scope
  go (runCmd e ⟨0x0803, false, plenIs 4, 16, [.service, .maint, .safeService]⟩ (fun rt s =>
    checked e rt (firstFail [bad (scopeOk v || v == 0xFFFF)]) (fun s =>
      let s := holdReply rt s
      if v = 0xFFFF then
        let joined (i : Nat) : Bool := match (vfOf s (i + 1)).stop with
          | some b => b.all
          | none => false
        let n := ((List.range 1024).filter fun i => !joined i).length
        let s := modVfm (fun x => { x with resetAll := match x.resetAll with
          | some r => some { r with replies := r.replies ++ [rt], left := r.left + n }
          | none => some ⟨[rt], n, 0, 0, 0, 0⟩ }) s
        foldOver ((List.range 1024).map fun i => (i + 1, joined i)) (fun p s =>
          let s := stopStart 1 p.1 false true none s
          if vfEnabled s p.1 || p.2 then s else stopEnd p.1 s) s
      else
        let on := vfEnabled s v
        let s := stopStart 1 v false false (some rt) s
        if on then s else stopEnd v s) s) s)

/-- HOST_LINK_CHANGE (R332, R359). -/
def execHostLinkChange (t : Nat) (up : Bool) (gen width : Nat) (l1 : Bool) (s : State) : Res :=
  let s := atTime t s
  if up && s.vfm.perst then go s
  else
    let was := s.vfm.linkUp
    let s := modVfm (fun x => { x with linkUp := up, linkGen := if up then gen else 0, linkWidth := if up then width else x.linkWidth, linkL1 := up && l1 }) s
    go (settle (if was = up then s else ev 0x0908 (u8 (b2n up) ++ u8 gen ++ u8 width ++ u8 0) s))

/-- PF_POWER_STATE_CHANGE (R333). -/
def execPfPowerStateChange (t : Nat) (d3hot : Bool) (s : State) : Res :=
  let s := atTime t s
  go (if pciReady s then modVfm (fun x => { x with d3hot := d3hot }) s else s)

/-- PERST_DEASSERT (R357): the link trains from here, and configuration requests are answered 100 ms later. -/
def execPerstDeassert (t : Nat) (s : State) : Res :=
  let s := atTime t s
  go (if s.vfm.perst then modVfm (fun x => { x with perst := false, pciAt := s.now + 100000000 }) s else s)

end Sys2Proof.Machine
end

