-- ==== Sys2Proof/Machine/Snapshot.lean ====
section
/-! DEFINITION. The configuration in force as commands and as registers that no command sets (15_mailbox_commands.md R382, R387; log entry 28). -/

namespace Sys2Proof.Machine

/-! ### Acquisition and chains -/

/-- SKEW and PLAUS_EN of a channel; OFFS and GAIN belong to the calibration (R52). -/
def snapChannel (s : State) (n : Nat) : CfgCmd := .acqSetChannel ⟨n, 2 + b2n (bit s.acq.plausEn n), (acqOf s n).skew, 0, 1048576⟩

/-- Slot i of a sequence as ACQ_CK_SEQA and ACQ_CK_SEQB hold it. -/
def seqSlot (k : CkConv) (i : Nat) : Nat := if i < 8 then bits k.seqA (4 * i + 2) (4 * i) else bits k.seqB (4 * (i - 8) + 2) (4 * (i - 8))

def snapSequence (s : State) (c : Nat) : CfgCmd :=
  let of (ctl : Word) (len : Nat) (slots : List Nat) : CfgCmd :=
    let a := clampN 1 8 (bits ctl 11 8)
    .acqSetSequence ⟨c, len, a, min a (bits ctl 19 16), slots⟩
  if c = 4 then of s.acq.hk.ctl 1 (List.replicate 16 0)
  else
    let k := s.acq.ck.getD c CkConv.reset
    let len := bits k.ctl 3 0 + 1
    of k.ctl len (tab 16 fun i => if i < len then seqSlot k i else 0)

/-- A stage as its block gives it; a claimed stage has MODE 0 and the channel's SPAN (R155). -/
def snapStage (s : State) (n : Nat) (f : FlashStage) : StageBlock :=
  let span := bits f.ctl 29 20 + 1
  if (claimOf s n).isSome then ⟨0, 0, 1, 0, 0, span⟩
  else ⟨bits f.ctl 2 0, b2n (bit f.ctl 3), bits f.ctl 19 8 + 1, f.level, f.hyst, span⟩

def snapChain (s : State) (n : Nat) : CfgCmd :=
  let c := fltOf s n
  let g := c.cfgGeom
  let stage (i : Nat) : StageBlock := snapStage s (2 * n + i) (c.fs.getD i FlashStage.reset)
  .fltSetChain ⟨n, g.rate, g.l1mul, g.l2mul, c.dcbK, b2n c.freeze, c.cfgLf, c.ed, c.detWin, c.scale, c.eofs, stage 0, stage 1⟩

/-! ### Shutter, streams and publications -/

/-- The stored profile, once a TRG_ARM has loaded one. -/
def snapProfile (s : State) : List CfgCmd :=
  let g := s.trg
  if g.chans.isEmpty && g.digs.isEmpty then []
  else [.trgArmProfile ⟨bits g.ctl 4 3, bits g.ctl 2 1, bits g.ctl 7 5, g.pre, g.post, g.maxlen, g.frPre, g.frPost, g.frMask, g.station,
    g.chans.map fun c => ⟨c.chid, c.kind, c.name, c.unit, c.primary, c.secondary⟩, g.digs⟩]

def snapSources (s : State) : CfgCmd := .trgSetSources ⟨0, 256, tab 256 fun i => (tgetD s.trg.srcA i 0#32, tgetD s.trg.srcB i 0#32)⟩

def snapSve (s : State) : List CfgCmd :=
  s.sve.subs.map (fun p => .sveSubscribe p.2.cfg) ++ s.sve.pubs.map (fun p => .svePublish p.2.cfg)
    ++ s.sve.gsubs.map (fun p => .sveGooseSubscribe p.2.cfg) ++ s.sve.gpubs.map fun p => .sveGoosePublish p.2.cfg

/-! ### Protection and logic -/

/-- Instances in number order, RREC after those it may name (R178). -/
def snapElements (s : State) : List CfgCmd :=
  let one (i : Inst) : CfgCmd := .prtSetElement { i.cfg with op := 1, group := 0, groups := i.groups }
  let l := s.prt.insts.map Prod.snd
  (l.filter (fun i => i.cfg.cls != clsRREC)).map one ++ (l.filter (fun i => i.cfg.cls == clsRREC)).map one

def snapRow (s : State) (r : Nat) : CfgCmd :=
  let x := rowOf s r
  .prtTripMatrix ⟨r, x.terms.length, x.ctl, x.time, wd x.maxp, x.terms⟩

def snapLogic (s : State) : List CfgCmd :=
  s.cyc.slots.map (fun p => .logLoad ⟨p.1, p.2.octets.length, 0, p.2.octets⟩) ++ s.cyc.tasks.map fun p => .logActivate p.2.cfg

/-! ### Network, switch, VFs, supply -/

def snapPort (s : State) (p : Nat) : List CfgCmd :=
  let m := macOf s p
  [.netPortConfig ⟨p, bits m.ctl 2 0, bits m.ctl 5 3, clampN 1518 9600 m.maxLen, min 1000 (bits m.ctl 25 16), max 1 m.txQuanta, m.xoff, m.xon⟩,
   .netFilter ⟨p, m.filtCtl.toNat, m.uaddr, m.hash, m.ranges⟩]
    ++ imap (fun k (w : WakePat) => .netWakePattern ⟨p, k, fl (bit m.wakeCtl k) 0 + fl (bit m.wakeCtl 8) 1, min w.ofs 1408, w.mask, w.chk⟩) m.wake

def snapRed (s : State) : List CfgCmd :=
  s.red.pair.map (fun p => .netRedundancy (.pair p.cfg)) ++ (if s.red.own.unitId = 0 then [] else [.netRedundancy (.own s.red.own)])

/-- Pieces of at most 64. -/
def chunks64 {α : Type} : Nat → List α → List (List α)
  | 0, _ => []
  | n + 1, l => if l.isEmpty then [] else l.take 64 :: chunks64 n (l.drop 64)

/-- A table written as commands of at most 64 entries (R329). -/
def snapTable {α : Type} (table : Nat) (mk : List α → SwcRows) (l : List α) : List CfgCmd :=
  (chunks64 (l.length + 1) l).map fun x => .swcTableWrite ⟨table, x.length, 0, mk x⟩

/-- Static entries that commands have written; default VLAN entries that are gone are deleted. -/
def snapSwc (s : State) : List CfgCmd :=
  let w := s.swc
  let gone := (vlanReset.filter fun p => (tget w.vlan p.1).isNone).map Prod.snd
  snapTable 0 .fdb ((w.fdb.filter FdbEnt.static).map fun e => (⟨e.mac, e.vid, e.port⟩ : FdbRow))
    ++ (if gone.isEmpty then [] else [.swcTableDelete ⟨1, gone.length, 0, .vlan gone⟩])
    ++ snapTable 1 .vlan (w.vlan.map Prod.snd) ++ snapTable 2 .mcast w.mcast
    ++ snapTable 3 .appid ((w.appid.filter fun e => e.sve == 0).map AppidEnt.row) ++ [.swcBufferPolicy w.policy]

def snapVf (v : Nat) (f : Vf) : List CfgCmd :=
  (if f.configured then [.vfmSetShare v ⟨f.weight, f.vid, f.shareKib, f.mac, fl f.framesEn 0 + fl f.acceptGroup 1⟩] else [])
    ++ f.binds.filterMap fun b => (match b.next with
      | some (_, x) => x
      | none => b.cur).map fun x => .vfmBindZone v x

def snapVfm (s : State) : List CfgCmd :=
  s.vfm.vfs.flatMap (fun p => snapVf p.1 p.2) ++ s.trp.grants.map fun g => .vfmGrantTrip g.2.vf ⟨g.1, 1, g.2.mask, g.2.maxAge⟩

/-- HT_AUTO_H as used (R453). -/
def Pwr.htAuto (p : Pwr) : Nat := let h := bits p.htCtl 13 0; if h = 0 then 0 else clampN 24 8760 h

def snapPwr (s : State) : CfgCmd :=
  let p := s.pwr
  .pwrSetThresholds ⟨p.un, p.floorPct, b2n (bit p.ctl 16), min 20000 (bits p.extC 15 0), p.htAuto⟩

/-- The configuration in force, in an order in which every command is accepted (R387). -/
def snapCmds (s : State) : List CfgCmd :=
  tab 24 (snapChannel s) ++ tab 5 (snapSequence s) ++ tab 24 (snapChain s) ++ [snapSources s] ++ snapSve s ++ snapProfile s
    ++ s.prt.zones.map (fun p => .prtDefineZone p.2.cfg) ++ snapElements s ++ tab 16 (snapRow s) ++ snapLogic s
    ++ (s.tbs.base.filter Base.configured).map (fun b => .timConfigBase b.cfg) ++ (List.range 4).flatMap (snapPort s) ++ snapRed s ++ snapSwc s ++ snapVfm s ++ [snapPwr s]

/-! ### Registers -/

/-- A configuration register that no command sets: its offset, and how it is read and loaded. -/
structure CfgReg where
  off : Nat
  get : State → Word
  set : Word → State → State

def modTb (f : Tbs → Tbs) (s : State) : State := { s with tbs := f s.tbs }

/-- The configuration registers that no command sets. -/
def cfgRegs : List CfgReg :=
  [⟨0x020000, fun s => wd s.spd.siPlan, fun v => modSpd fun d => { d with siPlan := v.toNat }⟩,
   ⟨0x030000, fun s => wd s.acq.tbsel, fun v => modAcq fun a => { a with tbsel := bits v 1 0 }⟩,
   ⟨0x03000C, fun s => s.acq.plausCtl, fun v => modAcq fun a => { a with plausCtl := v }⟩,
   ⟨0x050000, fun s => s.trg.ctl &&& 0xFE#32, fun v => modTrg fun g => { g with ctl := v }⟩,
   ⟨0x050008, fun s => wd s.trg.pre, fun v => modTrg fun g => { g with pre := v.toNat }⟩,
   ⟨0x05000C, fun s => wd s.trg.post, fun v => modTrg fun g => { g with post := v.toNat }⟩,
   ⟨0x050010, fun s => wd s.trg.maxlen, fun v => modTrg fun g => { g with maxlen := v.toNat }⟩,
   ⟨0x050014, fun s => wd s.trg.frPre, fun v => modTrg fun g => { g with frPre := v.toNat }⟩,
   ⟨0x050018, fun s => wd s.trg.frPost, fun v => modTrg fun g => { g with frPost := v.toNat }⟩,
   ⟨0x05001C, fun s => s.trg.frMask, fun v => modTrg fun g => { g with frMask := v }⟩]
  ++ tab 4 (fun r => ⟨0x060010 + 4 * r, fun s => wd (s.sve.align.getD r 0), fun v => modSve fun x => { x with align := lset x.align r v.toNat }⟩)
  ++ [⟨0x080000, fun s => wd s.trp.tbsel, fun v => modTrp fun x => { x with tbsel := bits v 1 0 }⟩,
      ⟨0x08002C, fun s => wd s.trp.fbt, fun v => modTrp fun x => { x with fbt := v.toNat }⟩]
  ++ tab 16 (fun n => ⟨0x080100 + 4 * n, fun s => (biOf s n).cfg, fun v => modTrp fun x => { x with bi := lmod x.bi n fun b => { b with cfg := v } }⟩)
  ++ [⟨0x090000, fun s => wd s.cyc.ctl, fun v s => { s with cyc := { s.cyc with ctl := v.toNat } }⟩]
  ++ tab 4 (fun p => ⟨0x0A0040 + 0x10 * p, fun s => (ptpOf s p).lat, fun v => modPtp p fun x => { x with lat := v }⟩)
  ++ [⟨0x0E0000, fun s => wd s.swc.ageTime, fun v => modSwc fun w => { w with ageTime := v.toNat }⟩,
      ⟨0x0E0008, fun s => s.swc.etypeTc, fun v => modSwc fun w => { w with etypeTc := v }⟩]
  ++ (List.range 8).flatMap (fun p =>
    [⟨0x0E0100 + 0x40 * p, fun s => (swcPort s p).cfg, fun v => modSwcPort p fun x => { x with cfg := v }⟩,
     ⟨0x0E0104 + 0x40 * p, fun s => (swcPort s p).pcpMap, fun v => modSwcPort p fun x => { x with pcpMap := v }⟩])
  ++ (List.range 2).flatMap (fun p =>
    let ip (s : State) : IpCfg := s.cmd.ip.getD p ⟨0#32, 0#32, 0#32, 3#2⟩
    let put (f : IpCfg → IpCfg) (s : State) : State := { s with cmd := { s.cmd with ip := lmod s.cmd.ip p f } }
    [⟨0x130100 + 0x10 * p, fun s => (ip s).addr, fun v => put fun x => { x with addr := v }⟩,
     ⟨0x130104 + 0x10 * p, fun s => (ip s).mask, fun v => put fun x => { x with mask := v }⟩,
     ⟨0x130108 + 0x10 * p, fun s => (ip s).gw, fun v => put fun x => { x with gw := v }⟩,
     ⟨0x13010C + 0x10 * p, fun s => wd (ip s).ctl.toNat, fun v => put fun x => { x with ctl := v.setWidth 2 }⟩])

/-- The registers as a commit stores them. -/
def snapRegs (s : State) : Table Word := cfgRegs.map fun r => (r.off, r.get s)

/-- The registers of a stored configuration, loaded (R382). -/
def loadRegs (t : Table Word) (s : State) : State := foldOver cfgRegs (fun r s => match tget t r.off with
  | some v => r.set v s
  | none => s) s

/-- The configuration in force (R382). -/
def snapshot (s : State) : StoredCfg := ⟨snapCmds s, snapRegs s⟩

/-- The records of CFG_READ (R387). -/
def recordsOf (l : List CfgCmd) : Bytes := l.flatMap CfgCmd.recordOctets

end Sys2Proof.Machine
end

