-- ==== Sys2Proof/Machine/Configure.lean ====
section
/-! DEFINITION. The configuration engine: checks, admission, effect and storage of configuration commands, and transactions (15_mailbox_commands.md R382 to R387). -/

namespace Sys2Proof.Machine

/-! ### One command -/

/-- States in which a configuration command is accepted, by its chapter. -/
def CfgCmd.states : CfgCmd → List ModState
  | .swcTableWrite _ => [.service, .maint]
  | .swcTableDelete _ => [.service, .maint]
  | .vfmSetShare _ _ => [.service, .maint]
  | .vfmBindZone _ _ => [.service, .maint]
  | .vfmGrantTrip _ _ => [.service, .maint]
  | _ => [.maint]

/-- AUTH is required (R386). -/
def CfgCmd.auth : CfgCmd → Bool
  | .vfmGrantTrip _ _ => true
  | _ => false

/-- Its result is checked for admission when it stands alone (R233). -/
def CfgCmd.admits : CfgCmd → Bool
  | .prtDefineZone _ => true
  | .prtSetElement _ => true
  | .logActivate _ => true
  | _ => false

/-- Refusals at R375 step 8, the module state apart. -/
def cfgPre (c : CfgCmd) (s : State) : Option (Nat × Nat) :=
  match c with
  | .fltSetChain p => fltPre p s
  | .sveUnsubscribe n => svUnsubPre n s
  | .prtDefineZone p => zonePre p s
  | .prtSetElement p => elemPre p s
  | .netRedundancy p => netRedundancyPre p s
  | .swcTableWrite p => swcTablePre p s
  | .swcTableDelete p => swcTablePre p s
  | _ => none

/-- Refusals at R375 steps 9 and 10, admission apart. -/
def cfgCheck (c : CfgCmd) (s : State) : Option (Nat × Nat) :=
  match c with
  | .acqSetChannel p => acqSetChannelCheck p s
  | .acqSetSequence p => acqSetSequenceCheck p s
  | .fltSetChain p => fltCheck p s
  | .trgArmProfile p => trgProfileCheck p s
  | .trgSetSources p => trgSetSourcesCheck p s
  | .sveSubscribe p => svSubCheck p s
  | .sveUnsubscribe n => svUnsubCheck n s
  | .svePublish p => svPubCheck p s
  | .sveGooseSubscribe p => gsubCheck p s
  | .sveGoosePublish p => gpubCheck p s
  | .prtDefineZone p => zoneCheck p s
  | .prtSetElement p => elemCheck p s
  | .prtTripMatrix p => matrixCheck p s
  | .logLoad _ => none
  | .logActivate p => logCheck p s
  | .timConfigBase p => timCfgCheck p s
  | .netPortConfig p => netPortCheck p
  | .netRedundancy p => netRedundancyCheck p
  | .netFilter p => netFilterCheck p
  | .netWakePattern p => netWakeCheck p
  | .swcTableWrite p => swcTableCheck true p s
  | .swcTableDelete p => swcTableCheck false p s
  | .swcBufferPolicy p => swcPolicyCheck p
  | .vfmSetShare v p => vfmShareCheck v p s
  | .vfmBindZone v p => vfmBindCheck v p s
  | .vfmGrantTrip v p => vfmGrantCheck v p s
  | .pwrSetThresholds p => pwrCheck p

/-- A stored image goes into its slot (R387). -/
def imageLoad (p : LogLoad) (s : State) : State :=
  match imgParse p.image with
  | some g => { s with cyc := { s.cyc with slots := tset s.cyc.slots p.slot g } }
  | none => s

/-- A configuration command takes effect; its records have source src, none when a start loads it. A VF in Stop bath takes its commands at the end of the bath (R355) unless now. -/
def cfgApply (src : Option Nat) (now : Bool) (c : CfgCmd) (s : State) : State :=
  let vf (v : Nat) (p : VfPending) (f : State → State) : State := if now then f s else vfmApply v p f s
  match c with
  | .acqSetChannel p => acqSetChannelApply p s
  | .acqSetSequence p => acqSetSequenceApply p s
  | .fltSetChain p => fltApply p s
  | .trgArmProfile p => trgProfileApply p s
  | .trgSetSources p => trgSetSourcesApply p s
  | .sveSubscribe p => svSubApply p s
  | .sveUnsubscribe n => svUnsubApply n s
  | .svePublish p => svPubApply p s
  | .sveGooseSubscribe p => gsubApply p s
  | .sveGoosePublish p => gpubApply p s
  | .prtDefineZone p => zoneApply p s
  | .prtSetElement p => elemApply (src.getD srcSvc) p s
  | .prtTripMatrix p => matrixApply p s
  | .logLoad p => imageLoad p s
  | .logActivate p => logApply src p s
  | .timConfigBase p => timCfgApply p s
  | .netPortConfig p => netPortApply p s
  | .netRedundancy p => netRedundancyApply p s
  | .netFilter p => netFilterApply p s
  | .netWakePattern p => netWakeApply p s
  | .swcTableWrite p => swcTableWrite src p s
  | .swcTableDelete p => swcTableDelete src p s
  | .swcBufferPolicy p => swcPolicyApply src p s
  | .vfmSetShare v p => vf v (.share p) (vfmShareNow src v p)
  | .vfmBindZone v p => vf v (.bind p) (vfmBindNow src v p)
  | .vfmGrantTrip v p => vf v (.grant p) (vfmGrantNow src v p)
  | .pwrSetThresholds p => pwrApply src p s

/-- The state that commands would produce, for checks only. -/
def cfgTry (l : List CfgCmd) (s : State) : State := foldOver l (cfgApply none true) s

/-- The state with the commands applied that wait for a Stop bath (R355). -/
def withWaiting (s : State) : State :=
  foldOver s.vfm.vfs (fun p s => foldOver p.2.waiting (vfmPending p.1) s) s

def modCmd (f : Cmd → Cmd) (s : State) : State := { s with cmd := f s.cmd }

/-- The configuration in force is stored as the next CFG_SEQ, with AUTOSTART (R281, R382). -/
def cfgStore (s : State) : State :=
  modCmd (fun c => { c with stored := snapshot (withWaiting s), autostart := bkp s 57, cfgSeq := c.cfgSeq + 1, dirty := false }) s

/-! ### Transactions -/

def Txn.ownedBy (t : Txn) (rt : ReplyTo) : Bool := t.src == rt.src && t.remote == rt.remote

def Txn.cmds (t : Txn) : List CfgCmd := t.staged.map Staged.cmd

/-- The open transaction ends and its staging is discarded (R385). -/
def txnAbort (cause : Nat) (s : State) : State :=
  if s.cmd.txn.isSome then modCmd (fun c => { c with txn := none, abortCause := cause, cfgAborted := satInc c.cfgAborted, failPos := 0 }) s else s

/-- A command of the transaction's owner, with n octets of payload, is staged, up to 4,096 commands and 1 MiB (R383). -/
def stageCmd (rt : ReplyTo) (t : Txn) (c : CfgCmd) (n : Nat) (s : State) : State :=
  if t.staged.length ≥ 4096 ∨ nsum (t.staged.map Staged.plen) + n > 1048576 then refuse rt stExhausted 0 s
  else reply rt stOk 0 [] (modCmd (fun x => { x with txn := some { t with staged := t.staged ++ [⟨c, n⟩] } }) s)

/-- BUDGET_EXCEEDED, with its record (R233). -/
def refuseBudget (rt : ReplyTo) (f : Nat × Nat) (s : State) : State :=
  refuse rt stBudget (admitDetail f) (admitRefused (cmdSrc rt.src) rt.hdr.opcode f s)

/-- Octets of the configuration in its record form (R387). -/
def recordForm (s : State) : Nat := (recordsOf (snapCmds (withWaiting s))).length

/-- A commit of the commands l does not fit its copy in MRAM (R414): the octets that it needs. -/
def commitTooLong (l : List CfgCmd) (s : State) : Option Nat :=
  let n := recordForm (cfgTry l s)
  if 10485696 < n then some n else none

/-- Outside a transaction a command is admitted, applied and stored as a commit of its own (R383), which its copy in MRAM must hold (R414). -/
def applyAlone (rt : ReplyTo) (c : CfgCmd) (s : State) : State :=
  let fault := if c.admits then admitFault (cfgTry [c] s) else none
  match fault, commitTooLong [c] s with
  | some f, _ => refuseBudget rt f s
  | none, some n => refuse rt stExhausted n s
  | none, none =>
    let s := cfgApply (some (cmdSrc rt.src)) false c s
    reply rt stOk 0 [] (cfgStore (claimsAll (if c.admits then admitStore s else s)))

/-- Executes a configuration command (R375, R383). -/
def runCfg (e : Env) (c : CfgCmd) (s : State) : State :=
  runCmd e ⟨c.opcode, c.auth, plenIs c.octets.length, 0, c.states⟩ (fun rt s =>
    match s.cmd.txn with
    | some t =>
      if !t.ownedBy rt then refuse rt stBusy t.src s
      else
        let h := cfgTry t.cmds s
        checked8 e rt (cfgPre c h) (cfgCheck c h) (stageCmd rt t c e.payload.length) s
    | none => checked8 e rt (cfgPre c s) (cfgCheck c s) (applyAlone rt c) s) s

/-- The first staged command that fails R375 steps 9 and 10, with its position from 1 (R384 step 2). -/
def stagedFault : Nat → List CfgCmd → State → Option (Nat × Nat × Nat)
  | _, [], _ => none
  | n, c :: r, s => match cfgCheck c s with
    | some f => some (n, f)
    | none => stagedFault (n + 1) r (cfgTry [c] s)

def refuseCommit (rt : ReplyTo) (pos status detail : Nat) (s : State) : State := refuse rt status detail (modCmd (fun c => { c with failPos := pos }) s)

/-- DIGEST of a configuration (R387). -/
def digestOf (l : List CfgCmd) : Bytes := Config.shake256 (recordsOf l)

/-- The reply of a commit that has been applied goes out, or waits until every change has taken effect (R384 step 6). -/
def commitReply (rt : ReplyTo) (l : List CfgCmd) (payload : Bytes) (s : State) : State :=
  if l.all (cfgDone s) then reply rt stOk 0 payload s
  else holdReply rt (modCmd (fun c => { c with commits := c.commits ++ [⟨rt, payload, l⟩] }) s)

/-- CFG_COMMIT's steps (R384, R414; log entry 214). -/
def commit (rt : ReplyTo) (autostart expectSeq : Nat) (s : State) : State :=
  let cmds := (s.cmd.txn.map Txn.cmds).getD []
  if expectSeq ≠ 0 ∧ expectSeq ≠ s.cmd.cfgSeq.toNat then refuseCommit rt 0 stConflict s.sys.st.code s
  else match stagedFault 1 cmds s with
    | some (pos, status, detail) => refuseCommit rt pos status detail s
    | none => match admitFault (cfgTry cmds s), commitTooLong cmds s with
      | some f, _ => refuseBudget rt f (modCmd (fun c => { c with failPos := 0 }) s)
      | none, some n => refuseCommit rt 0 stExhausted n s
      | none, none =>
        let s := foldOver cmds (cfgApply (some (cmdSrc rt.src)) false) (modCmd (fun c => { c with txn := none, failPos := 0 }) s)
        let s := claimsAll s
        let s := cfgStore (admitStore (if autostart < 2 then setBkp 57 autostart s else s))
        commitReply rt cmds (w32 s.cmd.cfgSeq ++ u16 s.spd.siReq ++ u8 s.spd.siReqLimit ++ u8 0 ++ digestOf s.cmd.stored.cmds) s

/-- CFG_BEGIN (R383, R387). -/
def execCfgBegin (t : Nat) (e : Env) (timeoutS : Nat) (s : State) : Res :=
  let s := atTime t s
  go (runCmd e ⟨0x0200, false, plenIs 4, 4, [.service, .maint]⟩ (fun rt s =>
    let pre : Option (Nat × Nat) := s.cmd.txn.map fun x => if x.ownedBy rt then (stConflict, s.sys.st.code) else (stBusy, x.src)
    checked8 e rt pre (firstFail [bad (10 ≤ timeoutS ∧ timeoutS ≤ 3600)]) (fun s =>
      reply rt stOk 0 (w32 s.cmd.cfgSeq) (modCmd (fun c => { c with txn := some ⟨rt.src, rt.remote, timeoutS, s.now, []⟩ }) s)) s) s)

/-- A transaction of another source (R383). -/
def notOwner (rt : ReplyTo) (s : State) : Option (Nat × Nat) := s.cmd.txn.bind fun x => if x.ownedBy rt then none else some (stNotOwner, x.src)

/-- CFG_COMMIT (R384, R387). -/
def execCfgCommit (t : Nat) (e : Env) (autostart expectSeq : Nat) (s : State) : Res :=
  let s := atTime t s
  go (runCmd e ⟨0x0201, false, plenIs 8, 72, [.service, .maint]⟩ (fun rt s =>
    checked8 e rt (notOwner rt s) (firstFail [bad (autostart ≤ 2)]) (commit rt autostart expectSeq) s) s)

/-- CFG_ABORT (R385, R387). -/
def execCfgAbort (t : Nat) (e : Env) (s : State) : Res :=
  let s := atTime t s
  go (runCmd e ⟨0x0202, false, plenIs 4, 4, [.service, .maint, .safeService]⟩ (fun rt s =>
    checked8 e rt (notOwner rt s) none (fun s =>
      let n := (s.cmd.txn.map fun x => x.staged.length).getD 0
      reply rt stOk 0 (u32 n) (txnAbort 1 s)) s) s)

/-- CFG_READ (R387): the records of the stored configuration, or of the staged one. -/
def execCfgRead (t : Nat) (e : Env) (which bufAddr bufLen : Nat) (s : State) : Res :=
  let s := atTime t s
  go (runCmd e ⟨0x0203, false, plenIs 24, 80, [.service, .maint, .safeService]⟩ (fun rt s =>
    let mine : Bool := match s.cmd.txn with
      | some x => x.ownedBy rt
      | none => false
    let owner := (s.cmd.txn.map Txn.src).getD 0xFF
    let l := if which = 0 then s.cmd.stored.cmds else snapCmds (withWaiting (cfgTry ((s.cmd.txn.map Txn.cmds).getD []) s))
    let out := recordsOf l
    checked8 e rt (if which = 1 ∧ !mine then some (stNotOwner, owner) else none)
      ((firstFail [bad (which ≤ 1)]).or (outputFault rt bufAddr bufLen out.length))
      (replyWithOutput rt bufAddr out (u32 out.length ++ u32 l.length ++ w32 s.cmd.cfgSeq ++ u32 0 ++ digestOf l)) s) s)

/-- CFG_TRANSACTION_TIMEOUT (R385 cause 2). -/
def execCfgTransactionTimeout (t : Nat) (s : State) : Res :=
  let s := atTime t s
  match s.cmd.txn with
  | some x => go (if x.last + x.timeoutS * NS ≤ s.now then txnAbort 2 s else s)
  | none => go s

/-! ### The configuration commands -/

def execAcqSetChannel (t : Nat) (e : Env) (p : AcqSetChannel) (s : State) : Res := go (runCfg e (.acqSetChannel p) (atTime t s))
def execAcqSetSequence (t : Nat) (e : Env) (p : AcqSetSequence) (s : State) : Res := go (runCfg e (.acqSetSequence p) (atTime t s))
def execFltSetChain (t : Nat) (e : Env) (p : FltSetChain) (s : State) : Res := go (runCfg e (.fltSetChain p) (atTime t s))
def execTrgArmLoadProfile (t : Nat) (e : Env) (p : TrgProfile) (s : State) : Res := go (runCfg e (.trgArmProfile p) (atTime t s))
def execTrgSetSources (t : Nat) (e : Env) (p : TrgSetSources) (s : State) : Res := go (runCfg e (.trgSetSources p) (atTime t s))
def execSveSubscribe (t : Nat) (e : Env) (p : SvSubDef) (s : State) : Res := go (runCfg e (.sveSubscribe p) (atTime t s))
def execSveUnsubscribe (t : Nat) (e : Env) (stream : Nat) (s : State) : Res := go (runCfg e (.sveUnsubscribe stream) (atTime t s))
def execSvePublish (t : Nat) (e : Env) (p : SvPubDef) (s : State) : Res := go (runCfg e (.svePublish p) (atTime t s))
def execSveGooseSubscribe (t : Nat) (e : Env) (p : GsubDef) (s : State) : Res := go (runCfg e (.sveGooseSubscribe p) (atTime t s))
def execSveGoosePublish (t : Nat) (e : Env) (p : GpubDef) (s : State) : Res := go (runCfg e (.sveGoosePublish p) (atTime t s))
def execPrtDefineZone (t : Nat) (e : Env) (p : ZoneDef) (s : State) : Res := go (runCfg e (.prtDefineZone p) (atTime t s))
def execPrtSetElement (t : Nat) (e : Env) (p : ElemDef) (s : State) : Res := go (runCfg e (.prtSetElement p) (atTime t s))
def execPrtTripMatrix (t : Nat) (e : Env) (p : TripMatrix) (s : State) : Res := go (runCfg e (.prtTripMatrix p) (atTime t s))
def execLogActivate (t : Nat) (e : Env) (p : LogActivate) (s : State) : Res := go (runCfg e (.logActivate p) (atTime t s))
def execTimConfigBase (t : Nat) (e : Env) (p : TimCfg) (s : State) : Res := go (runCfg e (.timConfigBase p) (atTime t s))
def execNetPortConfig (t : Nat) (e : Env) (p : NetPortCfg) (s : State) : Res := go (runCfg e (.netPortConfig p) (atTime t s))
def execNetRedundancy (t : Nat) (e : Env) (p : NetRedundancy) (s : State) : Res := go (runCfg e (.netRedundancy p) (atTime t s))
def execNetFilter (t : Nat) (e : Env) (p : NetFilter) (s : State) : Res := go (runCfg e (.netFilter p) (atTime t s))
def execNetWakePattern (t : Nat) (e : Env) (p : NetWake) (s : State) : Res := go (runCfg e (.netWakePattern p) (atTime t s))
def execSwcTableWrite (t : Nat) (e : Env) (p : SwcTable) (s : State) : Res := go (runCfg e (.swcTableWrite p) (atTime t s))
def execSwcTableDelete (t : Nat) (e : Env) (p : SwcTable) (s : State) : Res := go (runCfg e (.swcTableDelete p) (atTime t s))
def execSwcBufferPolicy (t : Nat) (e : Env) (p : SwcPolicy) (s : State) : Res := go (runCfg e (.swcBufferPolicy p) (atTime t s))
def execVfmSetShare (t : Nat) (e : Env) (p : VfmShare) (s : State) : Res := go (runCfg e (.vfmSetShare e.hdr.scope p) (atTime t s))
def execVfmBindZone (t : Nat) (e : Env) (p : VfmBind) (s : State) : Res := go (runCfg e (.vfmBindZone e.hdr.scope p) (atTime t s))
def execVfmGrantTrip (t : Nat) (e : Env) (p : VfmGrant) (s : State) : Res := go (runCfg e (.vfmGrantTrip e.hdr.scope p) (atTime t s))
def execPwrSetThresholds (t : Nat) (e : Env) (p : PwrThresholds) (s : State) : Res := go (runCfg e (.pwrSetThresholds p) (atTime t s))

end Sys2Proof.Machine
end

