-- ==== Sys2Proof/Machine/Datagrams.lean ====
section
/-! DEFINITION. The UDP and console transports, ARP and ICMP (15_mailbox_commands.md R378 to R381, R389). -/

namespace Sys2Proof.Machine

/-- The packet that octets spell; octets that are missing read as 0. The reserved fields of its payload are judged with the command (log entry 8). -/
def envOf (src : Nat) (remote : Nat × Nat) (b : Bytes) : Env :=
  let plen := fld b 8 4
  { src := src, remote := remote, version := fld b 3 1
    hdr := { opcode := fld b 0 2, flags := fld b 2 1, tag := fld b 4 4, plen := plen, scope := fld b 12 2, authSlot := fld b 14 2
             replyAddr := fld b 16 8, replyMax := fld b 24 4, nonce := fld b 28 4 }
    payload := slice b 32 plen, trailer := b.drop (32 + plen), resvOk := true }

def UdpDatagram.env (d : UdpDatagram) : Env := envOf (0x20 + d.port) (d.addr, d.udpPort) d.octets

def ipOf (s : State) (p : Nat) : IpCfg := s.cmd.ip.getD p ⟨0#32, 0#32, 0#32, 0#2⟩

/-- Port p answers on IP: its address is set and the interpreter runs (R378, R381, R389). -/
def ipServed (s : State) (p : Nat) : Bool := s.cmd.interp && decide (p < 2) && (ipOf s p).addr != 0#32

/-- Port p serves UDP commands (R389). -/
def udpServed (s : State) (p : Nat) : Bool := ipServed s p && (ipOf s p).ctl.getLsbD 0

def udpDropped (s : State) : State := modCmd (fun c => { c with udpDrop := satInc c.udpDrop }) s

/-- A command packet that waits behind the others (R381). -/
def enqueue (p : Pkt) (s : State) : State := flushUnknown (s.cmd.queue.length + 1) (modCmd (fun c => { c with queue := c.queue ++ [p] }) s)

def UdpSeq.of (q : UdpSeq) (e : Env) : Bool := q.src == e.src && q.remote == e.remote && q.hdr.opcode == e.hdr.opcode && q.hdr.tag == e.hdr.tag

def setSeqs (l : List UdpSeq) (s : State) : State := modCmd (fun c => { c with seqs := l }) s

/-- R375 steps 4 and 5 for a piece that is not the last (R378). -/
def pieceFault (p : Pkt) (s : State) : Option (Nat × Nat) :=
  match opInfo p.env.hdr.opcode with
  | none => some (stBadOpcode, 0)
  | some i =>
    if p.env.hdr.urgent && !i.urgent then some (stBadParam, 2)
    else if !cmdAuthAttr s p.env.hdr.authSlot then some (stNotAuthorised, 3) else none

/-- A verified packet of a payload sequence, or a whole command: the joined payload goes with the header of the last piece (R373, R378). -/
def takePiece (octets : Bytes) (p : Pkt) (s : State) : State :=
  let e := p.env
  let rt := replyToOf e p.key
  let rest := s.cmd.seqs.filter fun q => !q.of e
  let joined := ((s.cmd.seqs.find? fun q => q.of e).map UdpSeq.joined).getD [] ++ e.payload
  if joined.length > 1048576 then refuse rt stExhausted 1048576 (setSeqs rest s)
  else if e.hdr.cont then
    match pieceFault p s with
    | some (status, detail) => refuse rt status detail s
    | none => reply rt stPending joined.length [] (setSeqs (rest ++ [⟨e.src, e.remote, e.hdr, joined, octets, s.now⟩]) s)
  else enqueue ⟨{ e with payload := joined }, p.key⟩ (setSeqs rest s)

/-- UDP_COMMAND_RECEIVE (R378, R379): a repeat of the latest piece is acknowledged again; else the packet is checked, and waits when it is the last of its payload. -/
def execUdpCommandReceive (t : Nat) (d : UdpDatagram) (s : State) : Res :=
  let s := atTime t s
  let e := d.env
  if !udpServed s d.port ∨ e.hdr.opcode ≥ 0x8000 then go s
  else if !d.ok ∨ s.pwr.shed ≥ 1 then go (udpDropped s)
  else match s.cmd.seqs.find? fun q => q.of e && q.latest == d.octets with
    | some q =>
      let s := setSeqs (s.cmd.seqs.map fun x => if x.of e then { x with last := s.now } else x) s
      go (reply (replyToOf e (cmdKey s e.hdr.authSlot)) stPending q.joined.length [] s)
    | none =>
      match (if e.hdr.cont then packetChecks e false s else arrive e false s) with
      | (none, s) => go s
      | (some p, s) => go (takePiece d.octets p s)

/-- Data replies: at most 16 of at most 1,024 octets (R378). -/
def dataReplies (rt : ReplyTo) (data : Bytes) : Nat → Nat → State → State
  | 0, _, s => s
  | n + 1, off, s =>
    if data.length ≤ off then s
    else dataReplies rt data n (off + 1024) (sendReply rt (replyOctets s rt true stOk off (slice data off 1024)) s)

/-- UDP_DATA_REQUEST (R378): the output of the source's command with this TAG, from OFFSET. -/
def execUdpDataRequest (t : Nat) (d : UdpDatagram) (s : State) : Res :=
  let s := atTime t s
  let e := d.env
  if !udpServed s d.port ∨ e.hdr.opcode < 0x8000 then go s
  else if !d.ok ∨ s.pwr.shed ≥ 1 then go (udpDropped s)
  else match packetChecks e false s with
    | (none, s) => go s
    | (some p, s) =>
      let rt := replyToOf e p.key
      let mine (o : UdpOut) : Bool := o.rt.src == e.src && o.rt.remote == e.remote && o.rt.hdr.tag == e.hdr.tag && o.rt.hdr.opcode + 0x8000 == e.hdr.opcode
      if !cmdAuthAttr s e.hdr.authSlot then go (refuse rt stNotAuthorised 3 s)
      else if e.hdr.plen ≠ 8 then go (refuse rt stBadLength 0 s)
      else if fld e.payload 4 4 ≠ 0 then go (refuse rt stBadParam 0 s)
      else match s.cmd.outs.find? mine with
        | none => go (refuse rt stBadParam 0 s)
        | some o =>
          go (dataReplies rt o.data 16 (fld e.payload 0 4) (modCmd (fun c => { c with outs := c.outs.map fun x => if mine x then { x with last := s.now } else x }) s))

/-- UDP_SEQUENCE_IDLE_EXPIRE (R378): a sequence idle for 10 s. -/
def execUdpSequenceIdleExpire (t src : Nat) (remote : Nat × Nat) (tag : Nat) (s : State) : Res :=
  let s := atTime t s
  go (setSeqs (s.cmd.seqs.filter fun q => !(q.src == src && q.remote == remote && q.hdr.tag == tag && decide (q.last + 10 * NS ≤ s.now))) s)

/-- UDP_OUTPUT_EXPIRE (R378): a held output 10 s after the latest data request. -/
def execUdpOutputExpire (t src : Nat) (remote : Nat × Nat) (tag : Nat) (s : State) : Res :=
  let s := atTime t s
  go (modCmd (fun c => { c with outs := c.outs.filter fun o =>
    !(o.rt.src == src && o.rt.remote == remote && o.rt.hdr.tag == tag && decide (o.last + 10 * NS ≤ s.now)) }) s)


/-- ARP_REQUEST_RECEIVE (R378): the port's own address is answered; sender is the requester's station address. -/
def execArpRequestReceive (t port target sender : Nat) (s : State) : Res :=
  let s := atTime t s
  if ipServed s port && (ipOf s port).addr.toNat == target then go (svcFrame sender port 0x0806 64 (.arp target) s) else go s

/-- ICMP_ECHO_RECEIVE (R378): answered while ICMP_EN = 1. -/
def execIcmpEchoReceive (t port target sender : Nat) (octets : Bytes) (s : State) : Res :=
  let s := atTime t s
  if ipServed s port && (ipOf s port).addr.toNat == target && (ipOf s port).ctl.getLsbD 1 then
    go (svcFrame sender port 0x0800 (46 + octets.length) (.icmp target octets) s)
  else go s

/-- Value of a hexadecimal digit (R380). -/
def hexVal (c : Char) : Option Nat :=
  let n := c.toNat
  if 48 ≤ n ∧ n ≤ 57 then some (n - 48) else if 65 ≤ n ∧ n ≤ 70 then some (n - 55) else if 97 ≤ n ∧ n ≤ 102 then some (n - 87) else none

/-- Octets of a line of digits, two per octet. -/
def hexOctets : List Char → Option Bytes
  | [] => some []
  | [_] => none
  | a :: b :: r => match hexVal a, hexVal b, hexOctets r with
    | some x, some y, some l => some (BitVec.ofNat 8 (16 * x + y) :: l)
    | _, _, _ => none

/-- CONSOLE_LINE_RECEIVE (R380): the packet is checked and waits; an empty line, as CR LF leaves one, is none. -/
def execConsoleLineReceive (t : Nat) (line : List Char) (s : State) : Res :=
  let s := atTime t s
  if !s.cmd.interp ∨ line.isEmpty then go s
  else match (if line.length ≤ 8192 then hexOctets line else none) with
    | none => go (emit .consoleErr s)
    | some b => match arrive (envOf 0x10 (0, 0) b) false s with
      | (none, s) => go s
      | (some p, s) => go (enqueue p s)

end Sys2Proof.Machine
end

