-- ==== Sys2Proof/Machine/Evr.lean ====
section
/-! DEFINITION. The event recorder: writing, the log ring, reading, Contact sheets and clears (17_event_recorder.md R413 to R431). -/

namespace Sys2Proof.Machine

def modEvr (f : Evr → Evr) (s : State) : State := { s with evr := f s.evr }

/-! ### Records and blocks -/

/-- A record as it lies in the log (R416). -/
def LogRec.octets (r : LogRec) : Bytes :=
  let e := r.ev
  let b := u64 r.seq ++ u16 e.type ++ u16 e.len ++ le 2 e.flags.toNat ++ u16 e.src ++ w32 e.optime ++ w32 e.pwrcyc ++ u64 e.utc ++ pad4 e.payload
  b ++ w32 (crc32c b)

/-- Octets that a record takes in the log, padding included (R416). -/
def EvRec.stored (r : EvRec) : Nat := cdiv r.len 8 * 8

def LogRec.padded (r : LogRec) : Bytes := r.octets ++ zeros (r.ev.stored - r.ev.len)

/-- Octets of records that a block holds after its header (R415). -/
abbrev blkRoom : Nat := 65504

def blkOf (e : Evr) (b : Nat) : LogBlk := tgetD e.blocks b ⟨0, .free, []⟩

def LogBlk.used (b : LogBlk) : Nat := nsum (b.recs.map fun r => r.ev.stored)

/-- The blocks from the oldest to the one being written (R424). -/
def blkOrder (e : Evr) : List Nat := (List.range 160).map fun i => (e.cur + 1 + i) % 160

/-- The records held, in SEQ order: those of the blocks in use. -/
def heldRecs (e : Evr) : List LogRec :=
  (blkOrder e).flatMap fun i => if (blkOf e i).st = .used then (blkOf e i).recs else []

/-- SEQ of the oldest and of the newest record held, 0 when there is none (R429, R431). -/
def oldestSeq (e : Evr) : Nat := ((heldRecs e).head?.map LogRec.seq).getD 0
def newestSeq (e : Evr) : Nat := ((heldRecs e).getLast?.map LogRec.seq).getD 0

def badBlocks (e : Evr) : Nat := (e.blocks.filter fun p => p.2.st == .bad).length

/-- Octets in use, and free in the blocks that are not bad (R429, R431). -/
def logUsed (e : Evr) : Nat := nsum ((heldRecs e).map fun r => r.ev.stored)
def logFree (e : Evr) : Nat := (160 - badBlocks e) * blkRoom - logUsed e

/-- A block is taken into use: its GEN counts, its records are discarded (R415, R424). -/
def takeBlk (b : Nat) (s : State) : State :=
  let old := blkOf s.evr b
  let s := modEvr (fun e => { e with cur := b, blocks := tset e.blocks b ⟨(old.gen + 1) % 2 ^ 32, .used, []⟩ }) s
  match old.recs.head?, old.recs.getLast? with
  | some x, some y => ev 0x0B04 (u64 x.seq ++ u64 y.seq) s
  | _, _ => s

/-- The next block that is not bad (R424). -/
def nextBlk (e : Evr) : Option Nat := (blkOrder e).find? fun b => (blkOf e b).st != .bad

/-- A block with room for n octets is the current one; false when every block is bad. -/
def openBlk (n : Nat) (s : State) : Bool × State :=
  let b := blkOf s.evr s.evr.cur
  match b.st with
  | .used =>
    if b.used + n ≤ blkRoom then (true, s)
    else match nextBlk s.evr with
      | some x => (true, takeBlk x s)
      | none => (false, s)
  | .free => (true, takeBlk s.evr.cur s)
  | .bad => match nextBlk s.evr with
    | some x => (true, takeBlk x s)
    | none => (false, s)

/-- The RECORD delivery of a record that has been written (R341, R360). -/
def deliverRecord (b : Bytes) (s : State) : State :=
  let q := s.vfm.evq
  if !q.en then s
  else if (q.tail + q.size - q.head) % q.size > s.vfm.evqStage.length then modVfm (fun x => { x with evqStage := x.evqStage ++ [b] }) s
  else modVfm (fun x => { x with evqLost := satInc x.evqLost }) s

/-- A record is written into the current block and receives its SEQ (R419, R422); the first after a start clears the clean marker (R423). -/
def appendRec (r : EvRec) (s : State) : State :=
  let e := s.evr
  let x : LogRec := ⟨e.nextSeq, r⟩
  let s := modEvr (fun e => { e with
    reserve := if e.nextSeq < e.reserve then e.reserve else e.reserve + 4096
    nextSeq := e.nextSeq + 1, wroteSinceStart := true
    blocks := tmod e.blocks e.cur fun b => { b with recs := b.recs ++ [x] } }) s
  deliverRecord x.octets (if e.wroteSinceStart then s else setBkp 58 0 s)

/-- The queue falls below 128 KiB after drops (R422). -/
def stageRelief (s : State) : State :=
  if s.evr.stageFull && decide (stageUsed s.evr < 131072) then
    let n := s.evr.lost
    ev 0x0B02 (u32 (min n 0xFFFFFFFF)) (modEvr (fun e => { e with stageFull := false, lost := 0 }) s)
  else s

/-- The write of the oldest staged record, or its failure, after which its block is bad (R422, R424). -/
def writeOldest (ok : Bool) (s : State) : State :=
  match s.evr.stage with
  | [] => s
  | r :: _ =>
    match openBlk r.stored s with
    | (false, s) => s
    | (true, s) =>
      if ok then
        stageRelief (appendRec r (modEvr (fun e => { e with stage := e.stage.tail }) s))
      else
        let b := s.evr.cur
        let s := modEvr (fun e => { e with blocks := tmod e.blocks b fun x => { x with st := .bad, recs := [] } }) s
        ev 0x0B05 (u8 b ++ zeros 3 ++ u32 (badBlocks s.evr)) s

/-- A sheet is being copied (R426). -/
def copying (e : Evr) : Bool := e.snaps.any fun x => x.any fun h => h.copying.isSome

/-- A clear runs, and does not wait for a copy (R427, R428). -/
def clearRuns (e : Evr) : Bool := e.clearing.any ClearJob.run

/-- Writing from the queue runs: not while a sheet is copied or a clear runs (R426, R427). -/
def writingRuns (s : State) : Bool := s.evr.ready && !copying s.evr && !clearRuns s.evr

/-- EVR_RECORD_WRITE (R422, R424); records formed in SAFELIGHT wait. -/
def execEvrRecordWrite (t : Nat) (ok : Bool) (s : State) : Res :=
  let s := atTime t s
  go (if writingRuns s && s.sys.st != .off && s.sys.st != .safelight then writeOldest ok s else s)

/-- Every staged record is written (R423); n bounds the number of writes. -/
def flushQueue : Nat → State → State
  | 0, s => s
  | n + 1, s => if s.evr.stage.isEmpty then s else flushQueue n (writeOldest true s)

/-- The flush of R423, then the index, OPTIME and PWRCYC are stored and the clean marker is written. -/
def orderlyStore (s : State) : State :=
  let s := if writingRuns s then flushQueue (2 * s.evr.stage.length + 2) s else s
  setBkp 58 0xA5 (modEvr (fun e => { e with optimeStored := e.optime }) s)

/-- OPTIME_STORE (R420). -/
def execOptimeStore (t : Nat) (s : State) : Res := go (modEvr (fun e => { e with optimeStored := e.optime }) (atTime t s))

/-! ### Register window -/

/-- The copy of a record into EVR_RD_BUF (R425). -/
def rdCopy (r : Option LogRec) (s : State) : State := modEvr (fun e => { e with rdBuf := r, rdStat := if r.isSome then 2 else 3 }) s

/-- EVR_RD_SELECT (R425): a write of EVR_RD_SEL_HI. -/
def execEvrRdSelect (t : Nat) (by' : Master) (hi : Word) (s : State) : Res :=
  let s := atTime t s
  go (regWrite by' 0x120044 (fun s =>
    let s := modEvr (fun e => { e with rdSelHi := hi }) s
    let n := s.evr.rdSelLo.toNat + hi.toNat * 2 ^ 32
    rdCopy ((heldRecs s.evr).find? fun r => r.seq == n) s) s)

/-- EVR_RD_NEXT (R425): a write of EVR_RD_CTL. -/
def execEvrRdNext (t : Nat) (by' : Master) (v : Word) (s : State) : Res :=
  let s := atTime t s
  go (regWrite by' 0x120048 (fun s =>
    if !bit v 0 then s
    else
      let n := s.evr.rdSelLo.toNat + s.evr.rdSelHi.toNat * 2 ^ 32
      match (heldRecs s.evr).find? fun r => decide (n < r.seq) with
      | some r => rdCopy (some r) (modEvr (fun e => { e with rdSelLo := wd r.seq, rdSelHi := wd (r.seq / 2 ^ 32) }) s)
      | none => rdCopy none s) s)

/-! ### Clearing -/

/-- Steps 3 to 5 of R427, and the reply. -/
def clearNow (j : ClearJob) (s : State) : State :=
  let l := heldRecs s.evr
  let s := modEvr (fun e => { e with blocks := e.blocks.map fun p => (p.1, if p.2.st = .bad then p.2 else { p.2 with st := .free, recs := [] }) }) s
  let pay := u64 ((l.head?.map LogRec.seq).getD 0) ++ u64 ((l.getLast?.map LogRec.seq).getD 0) ++ u32 l.length ++ u32 j.reason
    ++ u16 j.reply.hdr.authSlot ++ u16 j.reply.src
  let r : EvRec := ⟨0x0B01, pay, evFlags s, cmdSrc j.reply.src, s.evr.optime, s.evr.pwrcyc, utcField s (baseNs s 0)⟩
  let s := (openBlk r.stored s).2
  let seq := s.evr.nextSeq
  let s := appendRec r s
  let s := modEvr (fun e => { e with clearing := none, intent := none, clearCnt := e.clearCnt + 1, lastClear := some ⟨seq, r.optime, r⟩ }) s
  finish j.reply stOk 0 (u64 seq ++ u32 l.length ++ u32 0) s

/-- EVR_CLEAR_COMPLETE (R427). -/
def execEvrClearComplete (t : Nat) (s : State) : Res :=
  let s := atTime t s
  match s.evr.clearing with
  | some j => go (if j.run && s.evr.ready then clearNow j s else s)
  | none => go s

/-- A copy has ended: a clear that waited for it starts (R428). -/
def clearWake (s : State) : State :=
  if copying s.evr then s else modEvr (fun e => { e with clearing := e.clearing.map fun j => { j with run := true } }) s

/-- The sheets that satisfy p close (R426). -/
def sheetsClose (p : Sheet → Bool) (s : State) : State :=
  clearWake (modEvr (fun e => { e with snaps := e.snaps.map fun x => x.bind fun h => if p h then none else some h }) s)

/-- EVR_CLEAR (R427 to R429): the reply follows the clear. -/
def execEvrClear (t : Nat) (e : Env) (p : EvrClear) (s : State) : Res :=
  let s := atTime t s
  go (runCmd e ⟨0x0A01, true, plenIs 16, 16, [.maint, .safeService]⟩ (fun rt s =>
    checked8 e rt (firstFail [(s.evr.clearing.isNone, stBusy, 0), (decide (p.expect = 0 ∨ p.expect = newestSeq s.evr), stConflict, newestSeq s.evr % 2 ^ 32)]) none (fun s =>
      let j : ClearJob := ⟨rt, p.reason, !copying s.evr⟩
      holdReply rt (modEvr (fun v => { v with clearing := some j, intent := some j }) s)) s) s)

/-! ### Contact sheets -/

def sheetOf (s : State) (n : Nat) : Option Sheet := (s.evr.snaps.getD n none)

def setSheet (n : Nat) (h : Option Sheet) (s : State) : State := modEvr (fun e => { e with snaps := lset e.snaps n h }) s

/-- The octets of a sheet (R426). -/
def Sheet.octets (h : Sheet) : Bytes := h.recs.flatMap LogRec.padded

/-- TOTAL_LEN of a sheet. -/
def Sheet.len (h : Sheet) : Nat := nsum (h.recs.map fun r => r.ev.stored)

abbrev evrStates : List ModState := [.service, .maint, .safeService]

/-- EVR_SNAPSHOT_OPEN (R426, R429): the reply follows the copy. -/
def execEvrSnapshotOpen (t : Nat) (e : Env) (p : EvrSnapshot) (s : State) : Res :=
  let s := atTime t s
  go (runCmd e ⟨0x0A00, false, plenIs 32, 32, evrStates⟩ (fun rt s =>
    let n := if (sheetOf s 0).isNone then 0 else 1
    checked e rt (firstFail [bad (p.snap = 0 ∧ p.offset = 0 ∧ p.len = 0 ∧ p.bufAddr = 0), bad (p.typeMin ≤ p.typeMax),
        ((sheetOf s n).isNone, stExhausted, 0)]) (fun s =>
      let l := (heldRecs s.evr).filter fun r => decide (p.firstSeq ≤ r.seq ∧ p.typeMin ≤ r.ev.type ∧ r.ev.type ≤ p.typeMax)
      holdReply rt (setSheet n (some ⟨rt.src, rt.remote, l, p.firstSeq, newestSeq s.evr, 0, s.now, some rt⟩) s)) s) s)

/-- SNAPSHOT_COPY_COMPLETE (R426). -/
def execSnapshotCopyComplete (t snap : Nat) (s : State) : Res :=
  let s := atTime t s
  match sheetOf s snap with
  | none => go s
  | some h => match h.copying with
    | none => go s
    | some rt =>
      let s := clearWake (setSheet snap (some { h with copying := none }) s)
      go (finish rt stOk 0 (u8 snap ++ zeros 3 ++ u32 h.recs.length ++ u64 h.firstSeq ++ u64 h.lastSeq ++ u32 h.len ++ u32 h.nbad) s)

/-- SNAPSHOT_TIMEOUT (R426). -/
def execSnapshotTimeout (t snap : Nat) (s : State) : Res :=
  let s := atTime t s
  match sheetOf s snap with
  | some h => go (if h.last + 60 * NS ≤ s.now && h.copying.isNone then setSheet snap none s else s)
  | none => go s

/-- A sheet that another source opened: DETAIL is that source's code (R377, R429). -/
def sheetForeign (rt : ReplyTo) (h : Option Sheet) : Option (Nat × Nat) :=
  match h with
  | some x => if x.src = rt.src ∧ x.remote = rt.remote then none else some (stNotOwner, x.src)
  | none => none

/-- EVR_SNAPSHOT_READ (R426, R429). -/
def execEvrSnapshotRead (t : Nat) (e : Env) (p : EvrSnapshot) (s : State) : Res :=
  let s := atTime t s
  go (runCmd e ⟨0x0A00, false, plenIs 32, 8, evrStates⟩ (fun rt s =>
    let h := sheetOf s p.snap
    let total := (h.map Sheet.len).getD 0
    let data := ((h.map Sheet.octets).getD []).drop p.offset |>.take p.len
    checked8 e rt (sheetForeign rt h)
      ((firstFail [bad (p.snap ≤ 1 ∧ p.typeMin = 0 ∧ p.typeMax = 0 ∧ p.firstSeq = 0), bad h.isSome, bad (p.offset < total), bad (1 ≤ p.len)]).or
        (outputFault rt p.bufAddr p.len data.length)) (fun s =>
      let s := setSheet p.snap (h.map fun x => { x with last := s.now }) s
      replyWithOutput rt p.bufAddr data (u32 data.length ++ u32 0) s) s) s)

/-- EVR_SNAPSHOT_CLOSE (R426, R429). -/
def execEvrSnapshotClose (t : Nat) (e : Env) (p : EvrSnapshot) (s : State) : Res :=
  let s := atTime t s
  go (runCmd e ⟨0x0A00, false, plenIs 32, 0, evrStates⟩ (fun rt s =>
    let h := sheetOf s p.snap
    checked8 e rt (sheetForeign rt h)
      (firstFail [bad (p.snap ≤ 1 ∧ p.typeMin = 0 ∧ p.typeMax = 0 ∧ p.firstSeq = 0 ∧ p.offset = 0 ∧ p.len = 0 ∧ p.bufAddr = 0), bad h.isSome])
      (fun s => reply rt stOk 0 [] (setSheet p.snap none s)) s) s)

/-! ### Status -/

/-- EVR_STAT (R431). -/
def evrStat (s : State) : Nat :=
  let e := s.evr
  fl (writingRuns s) 0 + fl e.rebuilding 1 + fl (clearRuns e) 2 + fl e.stageFull 3 + fl (decide (badBlocks e > 0)) 4
    + fl (sheetOf s 0).isSome 5 + fl (sheetOf s 1).isSome 6 + fl e.cleanStart 7

/-- EVR_STATUS (R429). -/
def execEvrStatus (t : Nat) (e : Env) (s : State) : Res :=
  let s := atTime t s
  go (runCmd e ⟨0x0A02, false, plenIs 4, 64, [.start, .service, .maint, .safeService]⟩ (fun rt s =>
    checked e rt none (fun s =>
      let v := s.evr
      reply rt stOk 0 (u64 (oldestSeq v) ++ u64 (newestSeq v) ++ u32 (heldRecs v).length ++ u32 (logUsed v) ++ u32 (logFree v) ++ u16 (badBlocks v)
        ++ u16 (evrStat s) ++ w32 v.droppedTotal ++ w32 v.optime ++ w32 v.pwrcyc ++ w32 v.clearCnt
        ++ u64 ((v.lastClear.map LastClear.seq).getD 0) ++ u32 ((v.lastClear.map fun c => c.optime.toNat).getD 0) ++ u32 0) s) s) s)

end Sys2Proof.Machine
end

