-- ==== Sys2Proof/Machine/Keys.lean ====
section
/-! DEFINITION. Key slots, tamper and Fogging, challenge and attestation (16_keys_tamper.md R390 to R403, R408 to R411). -/

namespace Sys2Proof.Machine

def modKey (f : Key → Key) (s : State) : State := { s with key := f s.key }

/-- A record of the key core (R417). -/
def evKsc (type : Nat) (payload : Bytes) (s : State) : State := evBy srcKsc type payload s

/-! ### Slots -/

/-- Octets of a key by TYPE; TYPE 0 and reserved types hold none (R393). -/
def keyLen (type : Nat) : Option Nat :=
  match type with
  | 1 => some 32
  | 2 => some 16
  | 3 => some 32
  | _ => none

/-- ATTR of slot 0 (R394). -/
abbrev slot0Attr : BitVec 8 := 0xC9#8

/-- The ATTR that a load into a slot stores (R394). -/
def attrOf (slot attr : Nat) : BitVec 8 := if slot = 0 then slot0Attr else BitVec.ofNat 8 attr

/-- ATTR suits TYPE and slot (R393). -/
def attrOk (slot type : Nat) (a : BitVec 8) : Bool :=
  (decide (a &&& 0x39#8 = 0#8) || type == 3) && (decide (a &&& 0x06#8 = 0#8) || type == 1 || type == 2)
    && (!a.getLsbD 7 || (slot == 0 && type == 3))

def slotOf (s : State) (n : Nat) : Option KeySlot := tget s.key.slots n

/-- An attribute of a slot; an empty slot has none (R393). -/
def slotHas (s : State) (n b : Nat) : Bool := (slotOf s n).any fun k => k.attr.getLsbD b

/-- A slot's content changes in one step: its copy and its replay window with it (R374, R394, R395). -/
def putSlot (n : Nat) (k : Option KeySlot) (s : State) : State :=
  let s := modKey (fun x => { x with
    slots := match k with | some v => tset x.slots n v | none => tdel x.slots n
    copies := match k with
      | some v => if v.attr.getLsbD 6 then tset x.copies n ⟨v, x.rkGen⟩ else tdel x.copies n
      | none => tdel x.copies n }) s
  modCmd (fun c => { c with replay := tset c.replay n ⟨0, [], 0⟩ }) s

/-- The copy unwraps: slot 0 under K0W, others under KW of the present RK (R392, R394). -/
def copyOpens (x : Key) (n : Nat) (c : KeyCopy) : Bool := n == 0 || (x.rkValid && c.gen == x.rkGen)

/-- Slots after a start (R394): copies that open; the others are recorded. -/
def slotsRestore (s : State) : State :=
  let good := s.key.copies.filter fun p => copyOpens s.key p.1 p.2
  let lost := (s.key.copies.filter fun p => !copyOpens s.key p.1 p.2).map Prod.fst
  let s := modKey (fun x => { x with slots := good.map fun p => (p.1, p.2.ks) }) s
  foldOver lost (fun n s => evKsc 0x0A08 (u8 n ++ zeros 3) s) s

/-- The replay windows at a start (R374): H takes the stored value plus 1,024; accepted NONCEs inside the window stay accepted. -/
def replayStart (s : State) : State :=
  modCmd (fun c => { c with replay := (List.range 256).map fun n =>
    let r := tgetD c.replay n ⟨0, [], 0⟩
    let h := min 0xFFFFFFFF (r.stored + 1024)
    (n, ⟨h, r.accepted.filter fun x => decide (h < x + 64), h⟩) }) s

/-- RK at a start (R391): a loss with the rail is recorded, and a new RK is generated unless the tamper latch is set. -/
def rkStart (s : State) : State :=
  if s.key.rkValid || s.key.tampLatched then s
  else modKey (fun x => { x with rkValid := true, rkGen := x.rkGen + 1 }) (evKsc 0x0A07 (u32 s.key.rkGen) s)

/-- The key core at a start: Fogging on VBAT is recorded, RK, slots, windows (R391, R394, R400). -/
def keysStart (s : State) : State :=
  let s := if s.key.fogVbat then
      evKsc 0x0A04 (u16 s.key.latched.toNat ++ u8 1 ++ u8 0 ++ w32 s.key.fogCount) (modKey (fun x => { x with fogVbat := false }) s)
    else s
  replayStart (slotsRestore (rkStart (modKey (fun x => { x with ready := true, attest := none }) s)))

/-! ### Fogging -/

/-- A quote that is being signed ends without one (R409). -/
def attestAbort (s : State) : State :=
  match s.key.attest with
  | some j => finish j.reply stInternal 2 [] (modKey (fun x => { x with attest := none }) s)
  | none => s

/-- A detected source: its latch bit, and Fogging unless TAMP_LATCHED is set already (R400). -/
def fogging (src : Nat) (onVbat : Bool) (s : State) : State :=
  let was := s.key.tampLatched
  let s := modKey (fun x => { x with latched := x.latched ||| BitVec.ofNat 6 (2 ^ src) }) s
  if was then s
  else
    let s := modKey (fun x => { x with tampLatched := true, rkValid := false, fogCount := satInc x.fogCount }) s
    if onVbat then modKey (fun x => { x with fogVbat := true }) s
    else
      let s := attestAbort (modKey (fun x => { x with slots := x.slots.filter fun p => p.1 == 0, fogOptime := s.evr.optime }) s)
      evKsc 0x0A04 (u16 s.key.latched.toNat ++ zeros 2 ++ w32 s.key.fogCount) s

/-- Sources 0 and 1 need their TAMP_EN bit (R399). -/
def tamperEnabled (s : State) (src : Nat) : Bool := if src < 2 then s.key.tampEn.getLsbD src else decide (src < 5)

/-- TAMPER_DETECT (R399, R400): active names the sources whose condition holds; a src outside it only tells that it has ended. -/
def execTamperDetect (t src active : Nat) (onVbat : Bool) (s : State) : Res :=
  let s := atTime t s
  let s := modKey (fun x => { x with active := BitVec.ofNat 6 (active % 32) }) s
  go (if nbit (active % 32) src && tamperEnabled s src then fogging src (onVbat || s.sys.st == .off) s else s)

/-- BACKUP_DOMAIN_RESTART (R272, R391, R412): the backup rail was lost. -/
def execBackupDomainRestart (t : Nat) (s : State) : Res :=
  let s := rtcLost (atTime t s)
  go (modKey (fun x => { x with
    rkValid := false, active := 0#6, latched := 0#6, tampLatched := false, tampEn := 0#2, fogCount := 0#32, fogOptime := 0#32, fogVbat := false }) s)

/-! ### Loading, deriving and destroying -/

/-- Every state in which commands run. -/
abbrev keyAny : List ModState := [.start, .service, .maint, .safeService]

/-- First 16 octets of a KEY_LOAD payload (R396, R410). -/
def KeyLoad.head (p : KeyLoad) : Bytes :=
  u8 p.slot ++ u8 p.type ++ u8 p.attr ++ u8 0 ++ u32 p.keyId ++ u8 p.klen ++ u8 p.form ++ u16 p.xslot ++ u32 0

/-- Exclusive or of octets. -/
def xorBytes (a b : Bytes) : Bytes := List.zipWith (· ^^^ ·) a b

/-- The clear form is accepted (R396). -/
def clearFormOk (e : Env) (p : KeyLoad) (s : State) : Bool :=
  p.slot == 0 && (slotOf s 0).isNone && (s.sys.st == .maint || s.sys.st == .safeService) && !isUdp e.src && !e.hdr.auth

/-- The key of a TRANSPORT slot (R393, R396). -/
def transportKey (s : State) (n : Nat) : Option Bytes :=
  if slotHas s n 3 then (slotOf s n).map KeySlot.key else none

/-- The key that a KEY_LOAD carries: none when its TAG does not verify (R396). -/
def loadedKey (s : State) (p : KeyLoad) : Option Bytes :=
  if p.form = 0 then some p.body
  else match transportKey s p.xslot with
    | none => none
    | some kt =>
      if Config.kmac256 kt (p.wn ++ p.head ++ p.body) 32 (ascii "MQ16-XPORT-A") = p.tag then
        some (xorBytes p.body (Config.kmac256 kt (p.wn ++ p.head) p.klen (ascii "MQ16-XPORT-E")))
      else none

/-- KEY_LOAD (R393 to R396, R401, R410). -/
def execKeyLoad (t : Nat) (e : Env) (p : KeyLoad) (s : State) : Res :=
  let s := atTime t s
  let deny := p.form == 0 && !clearFormOk e p s
  let len (n : Nat) : Bool := deny || n == (if p.form = 0 then 16 + p.klen else 64 + p.klen)
  go (runCmd e ⟨0x0900, p.form == 1, len, 0, if deny then keyAny else [.service, .maint, .safeService]⟩ (fun rt s =>
    if deny then refuse rt stNotAuthorised 1 s
    else
      let attr := attrOf p.slot p.attr
      checked8 e rt (if s.key.tampLatched then some (stConflict, s.sys.st.code) else none)
        (firstFail [(!(p.form == 1 && p.slot == 0 && (slotOf s 0).isSome && p.xslot != 0), stBadParam, 0x0A), bad (p.form ≤ 1),
          bad (keyLen p.type = some p.klen), bad (attrOk p.slot p.type attr), bad (p.form = 1 ∨ p.xslot = 0xFFFF)]) (fun s =>
        match loadedKey s p with
        | none => refuse rt stAuthFailed 0 s
        | some k =>
          let s := putSlot p.slot (some ⟨p.type, attr, wd p.keyId, k⟩) s
          reply rt stOk 0 [] (evCmd rt 0x0A01 (u8 p.slot ++ u8 p.type ++ u8 attr.toNat ++ u8 p.form ++ u32 p.keyId) s)) s) s)

/-- KEY_DERIVE (R393, R397, R401, R410). -/
def execKeyDerive (t : Nat) (e : Env) (p : KeyDerive) (s : State) : Res :=
  let s := atTime t s
  go (runCmd e ⟨0x0901, true, fun n => n == 12 + p.ctxlen, 0, [.service, .maint]⟩ (fun rt s =>
    let attr := BitVec.ofNat 8 p.attr
    checked8 e rt (if s.key.tampLatched then some (stConflict, s.sys.st.code) else none)
      (firstFail [bad (1 ≤ p.slot ∧ p.slot ≤ 255), bad (keyLen p.type).isSome, bad (attrOk p.slot p.type attr), bad (p.ctxlen ≤ 256),
        bad (p.parent ≠ p.slot), bad (slotHas s p.parent 4)]) (fun s =>
      match slotOf s p.parent, keyLen p.type with
      | some par, some n =>
        let k := Config.kmac256 par.key (u16 p.ctxlen ++ p.context ++ u8 p.type ++ u32 p.keyId) n (ascii "MQ16-DERIVE")
        let s := putSlot p.slot (some ⟨p.type, attr, wd p.keyId, k⟩) s
        reply rt stOk 0 [] (evCmd rt 0x0A02 (u8 p.slot ++ u8 p.parent ++ u8 p.type ++ u8 p.attr ++ u32 p.keyId) s)
      | _, _ => refuse rt stBadParam 0 s) s) s)

/-- The operations of KEY_DESTROY (R398 to R402, R410): need0 when they require AUTH_SLOT 0. -/
def keyDestroyCmd (e : Env) (need0 : Bool) (pre : State → Option (Nat × Nat)) (c : Option (Nat × Nat)) (f : ReplyTo → State → State) (s : State) : Res :=
  let deny := need0 && e.hdr.auth && e.hdr.authSlot != 0
  go (runCmd e ⟨0x0902, true, fun n => deny || n == 4, 0, keyAny⟩ (fun rt s =>
    if deny then refuse rt stNotAuthorised 1 s
    else checked8 e rt (pre s) c (fun s => reply rt stOk 0 [] (f rt s)) s) s)

/-- KEY_DESTROY_SLOT (R398). -/
def execKeyDestroySlot (t : Nat) (e : Env) (p : KeyDestroy) (s : State) : Res :=
  keyDestroyCmd e (p.slot == 0) (fun _ => none) (firstFail [bad (p.slot ≤ 255), bad (p.tampEn = 0)]) (fun rt s =>
    let kid := ((slotOf s p.slot).map fun k => k.keyId.toNat).getD 0
    evCmd rt 0x0A03 (u8 p.slot ++ zeros 3 ++ u32 kid) (putSlot p.slot none s)) (atTime t s)

/-- KEY_FOG_NOW (R399, R400): source 5. -/
def execKeyFogNow (t : Nat) (e : Env) (p : KeyDestroy) (s : State) : Res :=
  keyDestroyCmd e false (fun _ => none) (firstFail [bad (p.slot = 0 ∧ p.tampEn = 0)]) (fun _ s => fogging 5 false s) (atTime t s)

/-- KEY_TAMPER_CLEAR (R391, R402). -/
def execKeyTamperClear (t : Nat) (e : Env) (p : KeyDestroy) (s : State) : Res :=
  keyDestroyCmd e true (fun s => if s.key.active = 0#6 then none else some (stConflict, s.sys.st.code)) (firstFail [bad (p.slot = 0 ∧ p.tampEn = 0)])
    (fun rt s =>
      let s := modKey (fun x => { x with latched := 0#6, tampLatched := false, rkValid := true, rkGen := x.rkGen + 1 }) s
      evCmd rt 0x0A05 (u32 s.key.rkGen) s) (atTime t s)

/-- KEY_SET_TAMP_EN (R399). -/
def execKeySetTampEn (t : Nat) (e : Env) (p : KeyDestroy) (s : State) : Res :=
  keyDestroyCmd e false (fun _ => none) (firstFail [bad (p.slot = 0 ∧ p.tampEn < 4)])
    (fun rt s => evCmd rt 0x0A06 (u16 p.tampEn ++ u16 0) (modKey (fun x => { x with tampEn := BitVec.ofNat 2 p.tampEn }) s)) (atTime t s)

/-! ### Challenge and attestation -/

abbrev keyStates : List ModState := [.service, .maint, .safeService]

/-- SYS_UID in eight octets (R392). -/
def uidOctets : Bytes := w32 Config.uidLo ++ w32 Config.uidHi

/-- KEY_CHALLENGE (R403): at most 10 answers per second. -/
def execKeyChallenge (t : Nat) (e : Env) (p : KeyChallenge) (s : State) : Res :=
  let s := atTime t s
  go (runCmd e ⟨0x0903, false, plenIs 36, 40, keyStates⟩ (fun rt s =>
    let sec := s.now / NS
    let n := if s.key.chalSec = sec then s.key.chalN else 0
    checked8 e rt (if n ≥ 10 then some (stBusy, 0) else none) (firstFail [bad (slotHas s p.slot 5)]) (fun s =>
      match slotOf s p.slot with
      | none => refuse rt stBadParam 0 s
      | some k =>
        let resp := Config.kmac256 k.key (p.chal ++ uidOctets ++ u8 p.slot ++ w32 k.keyId) 32 (ascii "MQ16-CHAL")
        reply rt stOk 0 (resp ++ w32 k.keyId ++ u32 0) (modKey (fun x => { x with chalSec := sec, chalN := n + 1 }) s)) s) s)

/-- KEY_ATTEST_PUBKEY (R408, R410). -/
def execKeyAttestPubkey (t : Nat) (e : Env) (p : KeyAttest) (s : State) : Res :=
  let s := atTime t s
  go (runCmd e ⟨0x0904, false, plenIs 52, 64, keyStates⟩ (fun rt s =>
    checked e rt (firstFail [bad (p.nonceA.all (· == 0#8) && p.bufAddr == 0 && p.bufLen == 0)]) (reply rt stOk 0 Config.idkPk) s) s)

/-- KEY_ATTEST_QUOTE (R408): the reply follows the signing. -/
def execKeyAttestQuote (t : Nat) (e : Env) (p : KeyAttest) (s : State) : Res :=
  let s := atTime t s
  go (runCmd e ⟨0x0904, false, plenIs 52, 72, keyStates⟩ (fun rt s =>
    checked8 e rt (if s.key.attest.isSome then some (stBusy, 0) else none)
      ((firstFail [bad (50224 ≤ p.bufLen)]).or (outputFault rt p.bufAddr p.bufLen 50224))
      (fun s => holdReply rt (modKey (fun x => { x with attest := some ⟨rt, p.nonceA, p.bufAddr⟩ }) s)) s) s)

/-- KEY_TAMP_STAT (R412). -/
def tampStat (s : State) : Nat := s.key.active.toNat + s.key.latched.toNat * 256

/-- Digest of TYPE, ATTR and KEY_ID of every slot (R408). -/
def slotDigest (s : State) : Bytes :=
  Config.shake256 ((List.range 256).flatMap fun n => match slotOf s n with
    | some k => u8 k.type ++ u8 k.attr.toNat ++ u16 0 ++ w32 k.keyId
    | none => zeros 8)

/-- The quote (R408), 368 octets. -/
def quote (nonceA : Bytes) (s : State) : Bytes :=
  let k := s.key
  let m := k.manifests.getD k.running Manifest.zero
  let t0 := baseNs s 0
  u32 0x4D514154 ++ u16 1 ++ u16 368 ++ uidOctets ++ nonceA
    ++ leI 8 (secOf t0) ++ u32 (nsOf t0) ++ u8 (baseOf s 0).st.code ++ zeros 3
    ++ w32 m.fwVer ++ u16 m.svn ++ u16 k.svnFuse ++ u8 k.running ++ u8 (b2n k.trial) ++ u8 m.keyIndex ++ u8 k.revoked.toNat
    ++ w32 s.cmd.cfgSeq ++ m.digest ++ digestOf s.cmd.stored.cmds ++ slotDigest s
    ++ w32 s.evr.optime ++ w32 s.evr.pwrcyc ++ w32 k.fogCount ++ w32 k.fogOptime ++ u32 k.rkGen
    ++ u16 (tampStat s) ++ u8 s.sys.st.code ++ u8 (fl k.tampLatched 0 + fl (forceActive s) 1 + fl (testActive s) 2) ++ zeros 8 ++ Config.idkPk

/-- ATTEST_SIGN_COMPLETE (R408, R411): quote and signature go to the buffer, or wait for data requests. -/
def execAttestSignComplete (t : Nat) (s : State) : Res :=
  let s := atTime t s
  match s.key.attest with
  | none => go s
  | some j =>
    let q := quote j.nonceA s
    let d := Config.shake256 q
    let s := evKsc 0x0A09 (u8 1 ++ zeros 3 ++ d.take 8) (modKey (fun x => { x with attest := none }) s)
    if s.cmd.running.contains j.reply then
      go (replyWithOutput j.reply j.bufAddr (q ++ Config.idkSign q) (u32 368 ++ u32 49856 ++ d)
        (modCmd (fun c => { c with running := c.running.erase j.reply }) s))
    else go s

end Sys2Proof.Machine
end

