-- ==== Sys2Proof/Machine/Firmware.lean ====
section
/-! DEFINITION. Firmware banks, verification, boot and FW_UPDATE (16_keys_tamper.md R404 to R407, R410). -/

namespace Sys2Proof.Machine

/-- Octets of a bank written at an offset: addresses stay strictly rising. -/
def bankWrite (off : Nat) (d : Bytes) (l : List Host.Cell) : List Host.Cell :=
  (l.filter fun c => decide (c.1 < off)) ++ (imap (fun i b => (off + i, b)) d) ++ l.filter fun c => decide (off + d.length ≤ c.1)

/-- The canonical form of a bank as written: addresses strictly rising (log entry 30). -/
def Memory.wf : List Host.Cell → Bool
  | [] => true
  | [_] => true
  | a :: b :: r => decide (a.1 < b.1) && Memory.wf (b :: r)

/-- An octet of bank b: as written, else the part's own (log entry 30). -/
def bankOctet (s : State) (b off : Nat) : Byte :=
  match (s.key.bankW.getD b []).find? fun c => c.1 == off with
  | some c => c.2
  | none => Config.bankByte b off

def bankRead (s : State) (b off n : Nat) : Bytes := (List.range n).map fun i => bankOctet s b (off + i)

/-- Size of a bank (R404). -/
abbrev bankSize : Nat := 33554432

def manifestOf (s : State) (b : Nat) : Manifest := s.key.manifests.getD b Manifest.zero

/-- KEY_INDEX is revoked, or SVN is below the fuses: DETAIL 2 or 3 (R404, R410). -/
def bankBarred (s : State) (m : Manifest) : Nat :=
  if s.key.revoked.getLsbD m.keyIndex then 2 else if m.svn < s.key.svnFuse then 3 else 0

/-- Entry n of a manifest: KIND, OFFSET, LENGTH, DIGEST (R404). -/
def compAt (mf : Bytes) (n : Nat) : Nat × Nat × Nat × Bytes :=
  let i := 0x20 + 80 * n
  (fld mf i 1, fld mf (i + 4) 4, fld mf (i + 8) 4, (mf.drop (i + 16)).take 64)

/-- Verification of the octets of a bank (R404): DETAIL of R410, 0 when it verifies, and its manifest. -/
def verifyOctets (s : State) (b : Nat) : Nat × Manifest :=
  let h := bankRead s b 0 0x20
  let ncomp := fld h 6 2
  let len := fld h 0x10 4
  let headLen := 0x20 + 80 * min 16 ncomp
  let head := bankRead s b 0 headLen
  let sig := bankRead s b headLen 29792
  let m : Manifest := ⟨wd (fld h 8 4), fld h 12 2, fld h 14 1, BitVec.ofNat 4 (fld h 15 1), Config.shake256 (head ++ sig)⟩
  let comps := (List.range ncomp).map (compAt head)
  let form := fld h 0 4 == 0x4D514657 && fld h 4 2 == 1 && decide (1 ≤ ncomp ∧ ncomp ≤ 16 ∧ len ≤ bankSize ∧ m.svn ≤ 127 ∧ m.keyIndex ≤ 3)
    && decide (fld h 15 1 < 16) && !m.revoke.getLsbD m.keyIndex
    && comps.all fun c => decide (c.1 ≤ 3 ∧ 0x10000 ≤ c.2.1 ∧ c.2.1 + c.2.2.1 ≤ len)
  let badComp := (imap (fun i c => (i, c)) comps).find? fun ic => Config.shake256 (bankRead s b ic.2.2.1 ic.2.2.2.1) != ic.2.2.2.2
  (if !form then 1
   else if bankBarred s m ≠ 0 then bankBarred s m
   else if !Config.slhVerify m.keyIndex head sig then 4
   else match badComp with
     | some ic => 16 + ic.1
     | none => 0, m)

/-- Verification of a bank: one never written holds the factory image in bank A and none in bank B (log entry 30). -/
def verifyBank (s : State) (b : Nat) : Nat × Manifest :=
  if (s.key.bankW.getD b []).isEmpty then
    (if b = 0 then bankBarred s (manifestOf s b) else 1, manifestOf s b)
  else verifyOctets s b

/-- The bank b runs after this start: record EV_FW_BOOT (R405). -/
def bootBank (b mode : Nat) (trial : Bool) (m : Manifest) (s : State) : State :=
  let s := modKey (fun x => { x with
    running := b, trial := trial, manifests := lset x.manifests b m
    otherVerified := if x.running = b then x.otherVerified else true }) s
  evKsc 0x0A0E (u8 b ++ u8 mode ++ u8 (b2n trial) ++ u8 0 ++ w32 m.fwVer) s

/-- Boot of the committed bank, else of the other one (R405); none when no bank verifies. -/
def bootCommitted (s : State) : Option State :=
  let c := s.key.committed
  let v := verifyBank s c
  let w := verifyBank s (1 - c)
  if v.1 = 0 then some (bootBank c 0 false v.2 s)
  else if w.1 = 0 then some (bootBank (1 - c) 0 false w.2 s)
  else none

/-- The boot of a cold start (R405): the trial bank if one is set. -/
def bootCold (s : State) : Option State :=
  match s.key.trialNext with
  | none => bootCommitted s
  | some b =>
    let v := verifyBank s b
    if v.1 = 0 then some (bootBank b 0 true v.2 s)
    else bootCommitted (modKey (fun x => { x with trialNext := none, otherVerified := if b = x.running then x.otherVerified else false }) s)

/-- The boot of a warm start (R405): a bank whose measurement matches the boot record skips the signature check. -/
def bootWarm (s : State) : Option State :=
  let b := s.key.trialNext.getD s.key.committed
  if b = s.key.running ∨ s.key.otherVerified then some (bootBank b 1 s.key.trialNext.isSome (manifestOf s b) s) else bootCold s

/-- A start that fails while a trial bank runs ends the trial (R406). -/
def trialFailed (s : State) : State :=
  if !s.key.trial then s
  else
    let b := s.key.running
    let m := manifestOf s b
    evKsc 0x0A0D (u8 b ++ u8 0 ++ u16 m.svn ++ w32 m.fwVer) (modKey (fun x => { x with trialNext := none, trial := false }) s)

/-! ### FW_UPDATE -/

/-- The bank that is not running. -/
def otherBank (s : State) : Nat := 1 - s.key.running

/-- A field that an operation does not use is 0 (R410). -/
def FwUpdate.blank (p : FwUpdate) : Bool := p.offset == 0 && p.len == 0 && p.data.isEmpty

/-- FW_UPDATE_WRITE (R410): refused while the other bank is the committed one. -/
def execFwUpdateWrite (t : Nat) (e : Env) (p : FwUpdate) (s : State) : Res :=
  let s := atTime t s
  go (runCmd e ⟨0x0905, true, fun n => n == 16 + p.len, 0, [.service, .maint]⟩ (fun rt s =>
    let b := otherBank s
    checked8 e rt (if b = s.key.committed then some (stConflict, s.sys.st.code) else none)
      (firstFail [bad (1 ≤ p.len ∧ p.len ≤ 65536), bad (p.offset + p.len ≤ bankSize)])
      (fun s => reply rt stOk 0 [] (modKey (fun x => { x with
        otherVerified := false, bankW := lmod x.bankW b (bankWrite p.offset (p.data.take p.len)) }) s)) s) s)

/-- FW_UPDATE_VERIFY (R404, R410). -/
def execFwUpdateVerify (t : Nat) (e : Env) (p : FwUpdate) (s : State) : Res :=
  let s := atTime t s
  go (runCmd e ⟨0x0905, true, plenIs 16, 72, [.service, .maint]⟩ (fun rt s =>
    checked e rt (firstFail [bad p.blank]) (fun s =>
      let b := otherBank s
      let v := verifyBank s b
      let m := v.2
      let s := evCmd rt 0x0A0A (u8 v.1 ++ u8 m.keyIndex ++ u16 m.svn ++ w32 m.fwVer) (modKey (fun x => { x with
        otherVerified := v.1 == 0, manifests := if v.1 = 0 then lset x.manifests b m else x.manifests }) s)
      if v.1 ≠ 0 then refuse rt stBadParam v.1 s
      else reply rt stOk 0 (w32 m.fwVer ++ u16 m.svn ++ u8 m.keyIndex ++ u8 0 ++ m.digest) s) s) s)

/-- FW_UPDATE_ACTIVATE (R410). -/
def execFwUpdateActivate (t : Nat) (e : Env) (p : FwUpdate) (s : State) : Res :=
  let s := atTime t s
  go (runCmd e ⟨0x0905, true, plenIs 16, 0, [.maint]⟩ (fun rt s =>
    let b := otherBank s
    let m := manifestOf s b
    checked8 e rt (if s.key.otherVerified then none else some (stConflict, s.sys.st.code)) (firstFail [bad p.blank])
      (fun s => reply rt stOk 0 [] (evCmd rt 0x0A0B (u8 b ++ u8 2 ++ u16 m.svn ++ w32 m.fwVer) (modKey (fun x => { x with trialNext := some b }) s))) s) s)

/-- FW_UPDATE_COMMIT (R407, R410). -/
def execFwUpdateCommit (t : Nat) (e : Env) (p : FwUpdate) (s : State) : Res :=
  let s := atTime t s
  go (runCmd e ⟨0x0905, true, plenIs 16, 0, [.service, .maint]⟩ (fun rt s =>
    let b := s.key.running
    let m := manifestOf s b
    checked8 e rt (if s.key.trial then none else some (stConflict, s.sys.st.code)) (firstFail [bad p.blank]) (fun s =>
      let s := modKey (fun x => { x with
        svnFuse := max x.svnFuse m.svn, revoked := x.revoked ||| m.revoke, committed := b, trial := false, trialNext := none }) s
      reply rt stOk 0 [] (evCmd rt 0x0A0C (u8 b ++ u8 m.revoke.toNat ++ u16 s.key.svnFuse ++ w32 m.fwVer) s)) s) s)

/-- FW_UPDATE_REVERT (R410). -/
def execFwUpdateRevert (t : Nat) (e : Env) (p : FwUpdate) (s : State) : Res :=
  let s := atTime t s
  go (runCmd e ⟨0x0905, true, plenIs 16, 0, [.service, .maint]⟩ (fun rt s =>
    let b := s.key.trialNext.getD (otherBank s)
    let m := manifestOf s b
    checked e rt (firstFail [bad p.blank]) (fun s =>
      reply rt stOk 0 [] (evCmd rt 0x0A0B (u8 b ++ u8 4 ++ u16 m.svn ++ w32 m.fwVer) (modKey (fun x => { x with trialNext := none, trial := false }) s))) s) s)

end Sys2Proof.Machine
end

