-- ==== Sys2Proof/Machine/Mailbox.lean ====
section
/-! DEFINITION. Word mailboxes, pointer mailboxes and semaphores (15_mailbox_commands.md R361 to R369). -/

namespace Sys2Proof.Machine

def modMbx (f : Mbx → Mbx) (s : State) : State := { s with mbx := f s.mbx }

/-- SRC_EPOCH of a sender (R363). -/
def epochOf (s : State) : Master → Nat
  | .host => s.mbx.epochPf
  | .vf v => tgetD s.mbx.epochVf v 0
  | .qc c => tgetD s.mbx.epochCore c 0
  | .svc => tgetD s.mbx.epochCore 16 0
  | .ksc => 0

/-- A discarded post counts with its sender (R362). -/
def nak (by' : Master) (s : State) : State :=
  match by' with
  | .host => modMbx (fun m => { m with pfNak := satInc m.pfNak }) s
  | .vf v => modMbx (fun m => { m with vfNak := tmodD m.vfNak v 0#32 satInc }) s
  | .qc c => modMbx (fun m => { m with coreNak := tmodD m.coreNak c 0#32 satInc }) s
  | .svc => modMbx (fun m => { m with coreNak := tmodD m.coreNak 16 0#32 satInc }) s
  | .ksc => s

/-- The message that a post stores (R362). -/
def mailOf (s : State) (by' : Master) (data : Word) : Mail := ⟨data, true, epochOf s by', by'.id⟩

/-- A post to a slot that holds old (R362). -/
def post (by' : Master) (data : Word) (old : Mail) (put : Mail → Mbx → Mbx) (s : State) : State :=
  if old.full then nak by' s else modMbx (put (mailOf s by' data)) s

/-- A read of DATA: the message, FULL cleared (R362). -/
def takeMail (old : Mail) (put : Mail → Mbx → Mbx) (s : State) : State :=
  emit (.readData old.data) (if old.full then modMbx (put { old with full := false }) s else s)

/-- Core slot r, s exists (R388). -/
def coreSlotOk (r slot : Nat) : Bool := decide (r < 16 ∧ slot < 8) || (r == 16 && decide (slot < 16))

def coreMail (s : State) (r slot : Nat) : Mail := tgetD s.mbx.core (16 * r + slot) Mail.empty

def putCore (r slot : Nat) (x : Mail) (m : Mbx) : Mbx := { m with core := tset m.core (16 * r + slot) x }

/-- MBX_CORE_POST (R361, R362). -/
def execMbxCorePost (t : Nat) (by' : Master) (r slot : Nat) (data : Word) (s : State) : Res :=
  let s := atTime t s
  if coreSlotOk r slot then go (regWrite by' (0xF2000 + 0x100 * r + 4 * slot) (post by' data (coreMail s r slot) (putCore r slot)) s) else go s

/-- The receiver r of core slots (R388). -/
def isReceiver (by' : Master) (r : Nat) : Bool :=
  match by' with
  | .qc c => c == r && decide (r < 16)
  | .svc => r == 16
  | _ => false

/-- MBX_CORE_DATA_READ (R362, R388): only the receiver may read. -/
def execMbxCoreDataRead (t : Nat) (by' : Master) (r slot : Nat) (s : State) : Res :=
  let s := atTime t s
  if !coreSlotOk r slot || dark s then go s
  else if isReceiver by' r then go (takeMail (coreMail s r slot) (putCore r slot) s)
  else go (emit (.readData 0#32) (busViolate by' (0xF1000 + 0x100 * r + 8 * slot) s))

/-- VF 1 to 1,024. -/
def vfNumOk (v : Nat) : Bool := decide (1 ≤ v) && decide (v ≤ 1024)

/-- MBX_VF_TX_POST (R362): the host posts to VF v. -/
def execMbxVfTxPost (t v : Nat) (data : Word) (s : State) : Res :=
  let s := atTime t s
  if vfNumOk v && !dark s then go (post .host data (tgetD s.mbx.vfTx v Mail.empty) (fun x m => { m with vfTx := tset m.vfTx v x }) s) else go s

/-- MBX_VF_RX_DATA_READ (R362): the PF reads VF v's message. -/
def execMbxVfRxDataRead (t v : Nat) (s : State) : Res :=
  let s := atTime t s
  if vfNumOk v && !dark s then go (takeMail (tgetD s.mbx.vfRx v Mail.empty) (fun x m => { m with vfRx := tset m.vfRx v x }) s) else go s

/-- VF v's BAR0 answers: enabled, with Memory Space Enable (R337). -/
def vfBarOk (s : State) (v : Nat) : Bool := !dark s && s.vfm.vfEnable && decide (s.vfm.vfAt ≤ s.now) && vfNumOk v && decide (v ≤ s.vfm.numVfs) && (tgetD s.vfm.vfs v Vf.reset).memEn

/-- MB_TX_POST (R362): VF v posts to the PF. -/
def execMbTxPost (t v : Nat) (data : Word) (s : State) : Res :=
  let s := atTime t s
  if vfBarOk s v then go (post (.vf v) data (tgetD s.mbx.vfRx v Mail.empty) (fun x m => { m with vfRx := tset m.vfRx v x }) s) else go s

/-- MB_RX_DATA_READ (R362): VF v reads the PF's message; 0 while its BAR0 does not answer (R337). -/
def execMbRxDataRead (t v : Nat) (s : State) : Res :=
  let s := atTime t s
  if vfBarOk s v then go (takeMail (tgetD s.mbx.vfTx v Mail.empty) (fun x m => { m with vfTx := tset m.vfTx v x }) s) else go (emit (.readData 0#32) s)

/-! ### Pointer mailboxes -/

def pmbOf (s : State) (n : Nat) : Pmb := s.mbx.pmb.getD n ⟨0#32, 0#32, false⟩

/-- PMB_POST (R366): the host's write of PMB_HI posts, or is discarded. -/
def execPmbPost (t n : Nat) (hi : Word) (s : State) : Res :=
  let s := atTime t s
  if n ≥ 4 || dark s then go s
  else if (pmbOf s n).full then go (nak .host s)
  else go (modMbx (fun m => { m with pmb := lmod m.pmb n fun p => { p with hi := hi, full := true } }) s)

/-- Commands of channel n that wait (R366). -/
def queuedOn (s : State) (n : Nat) : Nat := (s.cmd.queue.filter fun p => p.env.src == n).length

/-- CMD_FETCH (R366): the notice is read, and the packet fetched, checked and queued. -/
def execCmdFetch (t n : Nat) (packet : Option Env) (s : State) : Res :=
  let s := atTime t s
  if n ≥ 4 ∨ !(pmbOf s n).full ∨ queuedOn s n ≥ 16 ∨ !s.cmd.interp then go s
  else
    let s := modMbx (fun m => { m with pmb := lmod m.pmb n fun p => { p with full := false } }) s
    match packet with
    | none => go { s with cmd := { s.cmd with fetchErr := satInc s.cmd.fetchErr } }
    | some e =>
      match packetChecks { e with src := n, remote := (0, 0) } false s with
      | (none, s) => go s
      | (some p, s) => go (flushUnknown (s.cmd.queue.length + 1) { s with cmd := { s.cmd with queue := s.cmd.queue ++ [p] } })

/-- REPLY_NOTICE_POST (R366): held notices go out in reply order. -/
def execReplyNoticePost (t n : Nat) (s : State) : Res :=
  let s := atTime t s
  match s.mbx.held.getD n [] with
  | [] => go s
  | a :: rest =>
    if n ≥ 4 ∨ (pmbOf s (n + 4)).full then go s
    else go (emit (.msix 0 1) (modMbx (fun m => { m with held := lset m.held n rest, pmb := lset m.pmb (n + 4) ⟨wd a, wd (a / 2 ^ 32), true⟩ }) s))

/-- PMB_REPLY_READ (R366): the host reads PMB_HI[n + 4]. -/
def execPmbReplyRead (t n : Nat) (s : State) : Res :=
  let s := atTime t s
  if n ≥ 4 || dark s then go s
  else go (emit (.readData (pmbOf s (n + 4)).hi) (modMbx (fun m => { m with pmb := lmod m.pmb (n + 4) fun p => { p with full := false } }) s))

/-! ### Semaphores -/

/-- SEM_READ (R368): 0 to the master that becomes the owner, else 1. -/
def execSemRead (t : Nat) (by' : Master) (n : Nat) (s : State) : Res :=
  let s := atTime t s
  if n ≥ 64 || dark s then go s
  else if !reaches by' (0x100 + 4 * n) then go (emit (.readData 0#32) (busViolate by' (0x100 + 4 * n) s))
  else match tget s.mbx.sem n with
    | some _ => go (emit (.readData 1#32) s)
    | none => go (emit (.readData 0#32) (modMbx (fun m => { m with sem := tset m.sem n by'.id }) s))

/-- SEM_RELEASE (R368). -/
def execSemRelease (t : Nat) (by' : Master) (v : Word) (s : State) : Res :=
  let s := atTime t s
  let n := bits v 5 0
  go (regWrite by' 0xF0008 (fun s =>
    if tget s.mbx.sem n = some by'.id then modMbx (fun m => { m with sem := tdel m.sem n }) s
    else modMbx (fun m => { m with semBadrel := satInc m.semBadrel }) s) s)

/-- A reset releases the semaphores of the masters it resets (R368). -/
def semFree (hit : Nat → Bool) (s : State) : State :=
  let n := (s.mbx.sem.filter fun p => hit p.2).length
  modMbx (fun m => { m with sem := m.sem.filter fun p => !hit p.2, semFreed := satAdd m.semFreed n }) s

end Sys2Proof.Machine
end

