-- ==== Sys2Proof/Machine/HostReset.lean ====
section
/-! DEFINITION. Resets of the host interface alone: PERST_N and PF FLR (01_sample_to_trip.md R41, 14_host_vfs.md R356, R357, 15_mailbox_commands.md R367, R368, R385). -/

namespace Sys2Proof.Machine

/-- The commands of the channels end: those that wait are discarded, the replies of those that run are lost (R367). -/
def channelsReset (s : State) : State :=
  let lost := (s.cmd.running.filter fun r => isChannel r.src && !r.hdr.noreply).length
  let s := modCmd (fun c => { c with
    queue := c.queue.filter fun p => !isChannel p.env.src
    running := c.running.filter fun r => !isChannel r.src
    commits := c.commits.filter fun x => !isChannel x.rt.src
    replyLost := satAdd c.replyLost lost }) s
  modMbx (fun m => { m with pmb := List.replicate 8 ⟨0#32, 0#32, false⟩, held := List.replicate 4 [] }) s

/-- An open transaction of a channel is aborted with cause 5 (R385). -/
def channelTxnAbort (s : State) : State :=
  match s.cmd.txn with
  | some t => if isChannel t.src then txnAbort 5 s else s
  | none => s

/-- The PF's configuration space and PF_EVQ return to their reset values (R356, R357); the host's epoch counts it (R363). -/
def pfReset (s : State) : State :=
  let n := s.vfm.numVfs
  let on := s.vfm.vfEnable
  let s := modVfm (fun x => { x with
    numVfs := 0, vfEnable := false, ari := false, pfBusMaster := false, pfMemEn := false, d3hot := false
    evq := Ring.reset, evqStage := [], pci := pciDrop 0 x.pci }) s
  let s := modMbx (fun m => { m with epochPf := (m.epochPf + 1) % 256 }) s
  if on then ev 0x0901 (u16 n ++ zeros 2) s else s

/-- What both resets share; a PF FLR is an FLR of its VFs too (R354; log entry 129). -/
def hostReset (cause : Nat) (s : State) : State :=
  let s := pfReset (stopAll cause (cause == 2) s)
  channelTxnAbort (sheetsClose (fun h => isChannel h.src) (semFree (· == 0) (channelsReset s)))

/-- PF_FLR (R356). -/
def execPfFlr (t : Nat) (s : State) : Res :=
  let s := atTime t s
  if pciReady s then go (hostReset 2 s) else go s

/-- The rings and the configuration space of every VF at PERST_N (R357). -/
def vfHostReset (f : Vf) : Vf := { f with rxq := Ring.reset, txq := Ring.reset, busMaster := false, memEn := false }

/-- PERST_ASSERT (R41, R357): the link goes down with it. -/
def execPerstAssert (t : Nat) (s : State) : Res :=
  let s := atTime t s
  if s.vfm.perst then go s
  else
    let x := s.vfm
    let s := { s with sys := { s.sys with rstHist := s.sys.rstHist ||| 0x20#32, perstCount := satInc s.sys.perstCount } }
    let s := modVfm (fun x => { x with perst := true, linkUp := false, linkGen := 0, linkL1 := false }) s
    let s := if x.linkUp then ev 0x0908 (u8 0 ++ u8 x.linkGen ++ u8 x.linkWidth ++ u8 0) s else s
    let s := hostReset 3 s
    let s := modVfm (fun x => { x with vfs := x.vfs.map fun p => (p.1, vfHostReset p.2), pci := [] }) s
    go (settle (swcFlush 4 s))

end Sys2Proof.Machine
end

