-- ==== Sys2Proof/Machine/Modes.lean ====
section
/-! DEFINITION. Changes of the module state (01_sample_to_trip.md R32 to R35). -/

namespace Sys2Proof.Machine

/-- Causes of EV_STATE_CHANGE (R35). -/
abbrev causeCommand : Nat := 0
abbrev causeStart : Nat := 1
abbrev causeFailed : Nat := 2
abbrev causeSafelight : Nat := 3
abbrev causeWake : Nat := 4
abbrev causeReset : Nat := 5

/-- SERVICE or MAINT. -/
def ModState.operates (st : ModState) : Bool := st == .service || st == .maint

/-- The Shutter's rings and the channel store run in SERVICE and MAINT only, and start empty at every entry from another state (R89, R111; for the rings, log entry 184). -/
def storesFollow (old st : ModState) (s : State) : State :=
  if old.operates && st.operates then s else ringsRestart (storeEmpty s)

/-- The module enters another state: an open transaction is aborted (R385 cause 3), and the change is recorded (R35). -/
def changeState (st : ModState) (cause : Nat) (s : State) : State :=
  let old := s.sys.st
  if old = st then s
  else storesFollow old st (evBy srcSvc 0x0101 (u8 old.code ++ u8 st.code ++ u16 cause) (txnAbort 3 { s with sys := { s.sys with st := st } }))

/-- SERVICE begins: the VCORE override ends (R236), zones resume, tasks start, and the matrix decides (R32, R204). -/
def enterService (cause : Nat) (s : State) : State :=
  let s := changeState .service cause (ovrClear (modPwr (fun p => { p with shed1Seen := false }) s))
  settle (tasksStart (zonesStart s))

end Sys2Proof.Machine
end

