-- ==== Sys2Proof/Machine/SysCommands.lean ====
section
/-! DEFINITION. SYS commands (15_mailbox_commands.md R387). -/

namespace Sys2Proof.Machine

/-- States in which the interpreter answers (R381). -/
abbrev anyState : List ModState := [.start, .service, .maint, .safeService]

/-- SYS_FW_VER: the running image (R39, R404). -/
def fwVer (s : State) : Word := (s.key.manifests.getD s.key.running Manifest.zero).fwVer

/-- ORDER_CODE (R4, R39). -/
def orderCode : Bytes := padTo 16 (if Config.variant then ascii "MQ-16-V" else ascii "MQ-16-T")

/-- SYS_ID (R39). -/
abbrev sysId : Nat := 0x4D510016

/-- SYS_IDENTIFY (R387). -/
def execSysIdentify (t : Nat) (e : Env) (s : State) : Res :=
  let s := atTime t s
  go (runCmd e ⟨0x0100, false, plenIs 4, 72, anyState⟩ (fun rt s => checked e rt none (fun s =>
    reply rt stOk 0 (u32 sysId ++ w32 Config.sysRev ++ w32 (fwVer s) ++ u32 0 ++ w32 Config.uidLo ++ w32 Config.uidHi ++ orderCode
      ++ (List.range 4).flatMap (fun p => mac6 (Config.mac p)) ++ w32 s.evr.optime ++ w32 s.evr.pwrcyc) s) s) s)

/-- SYS_GET_STATE (R387). -/
def execSysGetState (t : Nat) (e : Env) (s : State) : Res :=
  let s := atTime t s
  go (runCmd e ⟨0x0101, false, plenIs 4, 16, anyState⟩ (fun rt s => checked e rt none (fun s =>
    let flags := fl (nbit (bkp s 57) 0) 0 + fl s.cmd.txn.isSome 1 + fl (forceActive s) 2 + fl (testActive s) 3
    reply rt stOk 0 (u8 s.sys.st.code ++ u8 s.pwr.shed ++ u8 flags ++ u8 (bkp s 56) ++ w32 s.sys.rstCause ++ w32 s.sys.warmCount ++ w32 s.cmd.cfgSeq) s) s) s)

/-- SYS_RESET (R40, R387): the start begins 1 ms after the reply. On the console it needs no AUTH (R380). -/
def execSysReset (t : Nat) (e : Env) (scope : Nat) (s : State) : Res :=
  let s := atTime t s
  go (runCmd e ⟨0x0103, !isConsole e.src, plenIs 4, 0, anyState⟩ (fun rt s => checked e rt (firstFail [bad (scope ≤ 1)]) (fun s =>
    let at' : Nat × Bool := match s.pwr.resetAt with
      | some (a, cold) => (a, cold || scope == 1)
      | none => (s.now + 1000000, scope == 1)
    reply rt stOk 0 [] (modPwr (fun p => { p with resetAt := some at' }) s)) s) s)

/-- Tests that a state allows (R387). -/
def testsAllowed (st : ModState) (tests : Word) : Bool :=
  match st with
  | .maint => true
  | .service => tests.toNat % 64 &&& 0x22 == 0
  | _ => tests.toNat % 64 &&& 0x20 == 0

/-- SYS_SELFTEST (R387): the reply waits for the tests. -/
def execSysSelftest (t : Nat) (e : Env) (tests : Word) (s : State) : Res :=
  let s := atTime t s
  go (runCmd e ⟨0x0104, false, plenIs 4, 16, [.service, .maint, .safeService]⟩ (fun rt s =>
    checked8 e rt (firstFail [(testsAllowed s.sys.st tests, stConflict, s.sys.st.code), (s.cmd.selftest.isNone, stBusy, 0)])
      (firstFail [bad (tests.toNat < 64)]) (fun s => holdReply rt (modCmd (fun c => { c with selftest := some (tests, s.now, rt) }) s)) s) s)

/-- SELFTEST_COMPLETE (R387): what the tests found (log entry 31). -/
def execSelftestComplete (t : Nat) (pass fail : Word) (firstFail : Nat) (s : State) : Res :=
  let s := atTime t s
  match s.cmd.selftest with
  | none => go s
  | some (tests, a, rt) =>
    if pass ||| fail ≠ tests ∨ pass &&& fail ≠ 0#32 then go s
    else
      let body := w32 pass ++ w32 fail ++ u32 firstFail ++ u32 ((s.now - a) / 1000000)
      let s := modCmd (fun c => { c with selftest := none }) s
      go (if fail = 0#32 then finish rt stOk 0 body s else finish rt stInternal fail.toNat body s)

/-- FLAGS of SYS_GET_HEALTH (R387). -/
def healthFlags (s : State) : Nat :=
  fl s.spd.belowPlan 0 + fl s.spd.planShort 1 + fl s.spd.overtemp 2 + fl s.rtc.vbatLow 3 + fl s.rtc.timeLost 4 + fl (forceActive s) 5
    + fl (s.acq.fault != 0#32) 6 + fl (s.trp.mismatch != 0#8) 7 + fl s.cmd.eccUnc 8

/-- SYS_GET_HEALTH (R387). -/
def execSysGetHealth (t : Nat) (e : Env) (s : State) : Res :=
  let s := atTime t s
  let hk (h : Nat) (s : State) : Bytes := s16 (hkMean s h)
  go (runCmd e ⟨0x0105, false, plenIs 4, 32, anyState⟩ (fun rt s => checked e rt none (fun s =>
    reply rt stOk 0 (u16 (siMilli s.spd.siCount) ++ u8 (vcoreCode s) ++ u8 s.pwr.shed ++ hk 9 s ++ hk 7 s ++ hk 8 s ++ u16 (healthFlags s)
      ++ u32 s.pwr.vin ++ u32 s.pwr.vhu ++ (List.range 4).flatMap (fun b => u8 (baseOf s b).st.code) ++ w32 s.cmd.eccCorr ++ w32 s.evr.optime) s) s) s)

end Sys2Proof.Machine
end

