-- ==== Sys2Proof/Machine/Start.lean ====
section
/-! DEFINITION. Cold and warm starts: what each block keeps, the steps of a start, its end, failed starts (01_sample_to_trip.md R8, R23, R32, R33, R40; 18_power_start_sleep.md R441 to R446). -/

namespace Sys2Proof.Machine

/-! ### What a cold start keeps -/

/-- The calendar clock and backup memory run on; registers outside the backup domain take their reset values (R272, R285). -/
def rtcCold (s : State) : State :=
  modRtc (fun r => { Rtc.reset with
    cal := r.cal, rollAt := r.rollAt, window := r.window, trim := r.trim, discEn := r.discEn, onVbat := r.onVbat
    vbatLow := r.vbatLow, vbatLows := r.vbatLows, vbatOk := r.vbatOk, timeLost := r.timeLost, swoCnt := r.swoCnt, bkp := r.bkp
    copy := { RtcCopy.reset with trim := r.trim, swoCnt := r.swoCnt, bkp := r.bkp } }) s

/-- A cold start leaves TO pins to the trip pulses that run (R23, R476; log entry 145), whose inputs go to 0 with it; closes end (R32, R185). Input levels are those of the pins. -/
def trpCold (now : Nat) (x : Trp) : Trp :=
  let rows := x.rows.map fun r =>
    if r.active && !r.close then { r with cnt := 0#32, seen := false, input := false, zeroAt := if r.input then now else r.zeroAt } else Row.reset
  let pins := BitVec.ofNat 8 (ofBits ((rows.take 8).map Row.active))
  { Trp.reset with rows := rows, pins := pins, tofb := pins, toAt := List.replicate 8 now, bi := x.bi.map fun b => { BinIn.reset with raw := b.raw, val := b.val } }

/-- What the supply is, and what a hold-up test has stored (R453). -/
def pwrCold (x : Pwr) : Pwr :=
  { Pwr.reset with
    vin := x.vin, vhu := x.vhu, shed := x.shed, recovered := x.recovered, onBank := x.onBank, charging := x.charging, vinOver := x.vinOver
    interruption := x.interruption, leftAt := x.leftAt, excursion := x.excursion, holdShort := x.holdShort, mrst := x.mrst
    cHu := x.cHu, cHuOptime := x.cHuOptime, capValid := x.capValid, capLow := x.capLow }

/-- The records of a START's entry that still wait (R35): a cold restart within that START keeps them (R40). -/
def entryRecords (e : Evr) : List EvRec := e.stage.filter fun r => r.type == 0x0101 || r.type == 0x0102 || r.type == 0x0C45

/-- The recorder's log, its sequence reserve and the stored operating time (R415, R419, R420). -/
def evrKept (e : Evr) : Evr :=
  { Evr.reset with
    blocks := e.blocks, cur := e.cur, nextSeq := e.reserve, reserve := e.reserve, optime := e.optimeStored, optimeStored := e.optimeStored
    pwrcyc := e.pwrcyc, clearCnt := e.clearCnt, lastClear := e.lastClear, intent := e.intent }

/-- Speed at a start (R242, R245): SPD_CTL; AGE_F, AGE_RATE and the plan in force are those of the latest record until the new plan; readings of T_DIE since that plan count on. -/
def spdStart (siPlan : Nat) (d : Spd) : Spd :=
  let r := { Spd.reset with siPlan := siPlan, plans := d.plans, ocxo := d.ocxo, ocxoDays := d.ocxoDays, deferred := true, tjMax := d.tjMax, tjSum := d.tjSum, tjN := d.tjN }
  match d.plans.head? with
  | some p => { r with ageF := p.ageF, ageRate := p.ageRate, planNo := p.no, planOptime := p.optime }
  | none => r

/-- SHED thresholds of the latest plan record, else those of reset (R241, R242). -/
def thrStart (d : Spd) : List Nat :=
  match d.plans.head? with
  | some p => p.vhu
  | none => Pwr.reset.thr

/-- The state in which a cold start begins: registers at their reset values (R8), stored values, the backup domain, the levels of the pins and the running trip pulses as they are. -/
def coldState (s : State) : State :=
  let r := State.reset
  let s := rtcCold s
  { r with
    sys := { r.sys with st := s.sys.st }
    acq := { r.acq with stored := s.acq.stored, calOptime := s.acq.calOptime, calTemp := s.acq.calTemp }
    trg := { r.trg with records := s.trg.records, nextRecno := s.trg.nextRecno, cursor := s.trg.cursor, bad := s.trg.bad, pins := s.trg.pins, xline := s.trg.xline }
    trp := trpCold s.now s.trp
    spd := spdStart r.spd.siPlan s.spd
    rtc := s.rtc
    red := { r.red with zones := s.red.zones.map fun z => { OwnZone.reset with epoch := z.epoch } }
    vfm := { r.vfm with perst := s.vfm.perst }
    cmd := { r.cmd with stored := s.cmd.stored, cfgSeq := s.cmd.cfgSeq, autostart := s.cmd.autostart, replay := s.cmd.replay }
    key := { s.key with ready := false, slots := [], attest := none, fwBusy := false, chalSec := 0, chalN := 0 }
    evr := evrKept s.evr
    pwr := { pwrCold s.pwr with thr := thrStart s.spd }
    now := s.now, out := s.out, freeCtr := s.freeCtr, pending := s.pending }

/-! ### What a warm start keeps, block by block -/

/-- Converters (R8, R68): RW registers, ACQ_OVR, the faults of main converters (R48), stored coefficients, and what HK has measured (R443). -/
def acqWarm (a : Acq) : Acq :=
  let r := Acq.reset
  { r with
    tbsel := a.tbsel, locked := a.locked, fault := a.fault &&& 0x00FFFFFF#32, plausCtl := a.plausCtl, plausEn := a.plausEn, ovr := a.ovr
    calOptime := a.calOptime, calTemp := a.calTemp, stored := a.stored
    j := a.j, sec := a.sec
    ch := a.ch.map fun c => { AcqCh.reset with skew := c.skew }
    ck := a.ck.map fun k => { CkConv.reset with ctl := k.ctl, seqA := k.seqA, seqB := k.seqB, run := k.named }
    hk := { HkConv.reset with ctl := a.hk.ctl, mean := a.hk.mean } }

/-- Filter chains (R77, R88): registers, pickup counts; every chain restarts. -/
def fltWarm (c : FltCh) : FltCh :=
  { FltCh.reset with
    ctl := c.ctl, scale := c.scale, eofs := c.eofs, detw := c.detw, restart := true, claimDue := c.claimDue
    fs := c.fs.map fun f => { FlashStage.reset with ctl := f.ctl, level := f.level, hyst := f.hyst, puCnt := f.puCnt, claimErr := f.claimErr } }

/-- OUT of every flash stage clears with the restart of its chain, with its record (R80, R88). -/
def flashWarm (s : State) : State := foldOver (List.range 24) (fun n s => (flashDrop n (strobeIdx s) s).2) s

/-- The Shutter (R103, R110): RW registers, sources, profile, staging and store. -/
def trgWarm (s : State) : State :=
  modTrg (fun g => { Trg.reset with
    ctl := g.ctl, pre := g.pre, post := g.post, maxlen := g.maxlen, frPre := g.frPre, frPost := g.frPost, frMask := g.frMask
    srcA := g.srcA, srcB := g.srcB, pins := g.pins, xline := g.xline, chans := g.chans, digs := g.digs, station := g.station
    records := g.records, nextRecno := g.nextRecno, cursor := g.cursor, bad := g.bad, ltrig := 0#64 }) (shutterWarm s)

/-- The sampled-value engine (R138): configuration and counters; the store is empty, subscriptions WAITING, G bits invalid. -/
def sveWarm (v : Sve) : Sve :=
  { v with
    chans := [], numOffset := [], numPrev := [], cfgClamp := false, csVal := 0#32, csQ := 0#32, csK := 0
    gbits := 0#1024, gvalid := 0#1024
    subs := v.subs.map fun p => (p.1, { p.2 with st := .waiting, smpSynch := 0, simulated := false, lastK := none, lastAt := none })
    pubs := v.pubs.map fun p => (p.1, { p.2 with gather := [] })
    gsubs := v.gsubs.map fun p => (p.1, { p.2 with seen := false, valid := false, talExpired := false, ndsCom := false, confrevBad := false, simulated := false, talEnd := none }) }

/-- A zone starts afresh in its setting group. -/
def Zone.warm (z : Zone) : Zone := Zone.fresh z.cfg z.group

/-- An instance starts afresh: PTTR keeps θ (R162), RREC is READY if CB_BI reads 1, else in LOCKOUT with cause 4 (R178). -/
def Inst.warm (s : State) (i : Inst) : Inst :=
  let e := { ElemState.reset with theta := i.es.theta, thetaEq := i.es.thetaEq, cold := i.es.cold, aux1 := i.cfg.cls == clsPTTR && i.es.aux1 }
  let cb := (biOf s (setInt (pOf (i.vec (groupOf s i.cfg.zone)) 8)).toNat).val
  let e := if i.cfg.cls = clsRREC ∧ cb then { e with rrec := .ready, cause := 0 } else e
  { i with sig := Signals.reset, cond := .block, es := e, recSec := 0, recCount := 0, dropped := 0, bqRecorded := false, bqSince := none }

/-- Zones and instances at a warm start; the kept θ of each PTTR and each RREC that changes its state are recorded (R162, R196). -/
def prtWarm (s : State) : State :=
  let before := s.prt.insts
  let s := modPrt (fun p => { p with
    zones := p.zones.map fun z => (z.1, z.2.warm), insts := p.insts.map fun i => (i.1, i.2.warm s) }) s
  let s := foldOver s.prt.insts (fun p s => if p.2.cfg.cls = clsPTTR then thermalEvent srcSvc p.1 3 p.2.es s else s) s
  foldOver before (fun p s => match tget s.prt.insts p.1 with
    | some i => if p.2.cfg.cls = clsRREC ∧ i.es.rrec ≠ p.2.es.rrec then rrecEventBy srcSvc p.1 i.es s else s
    | none => s) s

/-- Trip matrix, outputs and inputs (R23, R198): RW registers, grants, running pulses, acceptances; close pulses end at once. -/
def trpWarm (s : State) : State :=
  cancelCloses (modTrp (fun x => { x with vfAcc := 0#32, vfRef := 0#32, fenced := 0#32 }) s)

/-- Counter values that lie in C are kept, and M 0 to 1,023 (R205). -/
def Task.warm (s : State) (t : Task) : Task :=
  { Task.fresh s t.cfg with counters := t.counters.map fun c => (c.1, { c.2 with prev := true }), cycles := t.cycles, skip := t.skip, warn := t.warn }

/-- The logic engine at a warm start (R205, R228): CYC_CTL and the counters. -/
def cycWarm (s : State) : State :=
  let y := s.cyc
  { s with cyc := { Cyc.reset with
    ctl := y.ctl, m := BitVec.ofNat 65536 (y.m.toNat % 2 ^ 1024), slots := y.slots, abortCnt := y.abortCnt
    tasks := y.tasks.map fun t => (t.1, t.2.warm s) } }

/-- Time bases (R254, R270): everything but the exchanges that run. -/
def tbsWarm (x : Tbs) : Tbs :=
  { x with
    base := x.base.map fun b => { b with pend := none, pp := b.pp.map fun q => { q with portState := 0, theta := none } }
    ports := x.ports.map fun p => { p with waits := [], tcWaits := [], pdelay := none, announces := [] } }

/-- A port (R311): RW registers and counters; the link is trained again. -/
def macWarm (m : MacPort) : MacPort := { m with link := false, pauseEnd := none, txUntil := 0, xoffSent := none }

/-- Ownership at a start (R306, R312). -/
def redWarm (s : State) : State :=
  { s with red := { s.red with zones := s.red.zones.map fun z => { z with heard := 0, heardUnit := 0, claim := none, heardNow := none } } }

/-- Tables reloaded from the stored configuration; the APPID entries of subscriptions are kept (R328, R331). -/
def swcReload (s : State) : State :=
  let s := swcStart s
  let s := modSwc (fun w => { w with fdb := [], vlan := vlanReset, mcast := [], appid := w.appid.filter fun e => e.sve != 0 }) s
  foldOver s.cmd.stored.cmds (fun c s => match c with
    | .swcTableWrite p => swcTableWrite none p s
    | .swcTableDelete p => swcTableDelete none p s
    | _ => s) s

/-- VFs (R350, R354, R360): configuration and counters; rings and staging are emptied, and commands that waited for a Stop bath take effect. -/
def vfWarm (f : Vf) : Vf :=
  { f with
    rxq := Ring.reset, txq := Ring.reset, bulk := [], lossless := [], gaps := [], overshare := false, stalled := false, stop := none
    txStage := [], waiting := [] }

def vfmWarm (s : State) : State :=
  let waiting := s.vfm.vfs.map fun p => (p.1, p.2.waiting)
  let s := modVfm (fun x => { x with vfs := x.vfs.map fun p => (p.1, vfWarm p.2), evq := Ring.reset, evqStage := [], resetAll := none }) s
  { foldOver waiting (fun p s => foldOver p.2 (vfmPending p.1) s) s with cyc := { s.cyc with v := 0#16384 } }

/-- Mailboxes (R363, R364, R369): the epochs of the SVC and the QC cores, and their semaphores. -/
def mbxWarm (s : State) : State :=
  let s := semFree (fun o => decide (0x800 ≤ o ∧ o ≤ 0x810)) s
  modMbx (fun m => { m with epochCore := (List.range 17).foldl (fun (a : Table Nat) c =>
    tset a c (if c = 16 then s.sys.warmCount.toNat % 256 else (tgetD a c 0 + 1) % 256)) m.epochCore }) s

/-- Power (R453): RW registers and counters. -/
def pwrWarm (x : Pwr) : Pwr :=
  { x with ht := none, htReply := none, entry := none, gated := false, waking := none, wakeHeld := none }

/-- The recorder (R422, R431): the queue and the counters; EVR_RD_BUF and the sheets are empty. -/
def evrWarm (e : Evr) : Evr :=
  { evrKept e with stage := e.stage, stageFull := e.stageFull, lost := e.lost, dropped := e.dropped, droppedTotal := e.droppedTotal }

/-- Commands (R367): the channels keep theirs, and those that had begun wait for INTERNAL_FAULT; all others go without a reply. -/
def cmdStart (cold : Bool) (s : State) : State :=
  modCmd (fun c => { c with
    interp := false, running := [], commits := [], seqs := [], outs := [], udpTx := [], selftest := none
    queue := if cold then [] else c.queue.filter fun p => isChannel p.env.src
    interrupted := if cold then [] else c.interrupted ++ c.running.filter fun r => isChannel r.src && !r.hdr.noreply }) s

/-- Everything that a warm start resets, in one step. -/
def warmState (s : State) : State :=
  let s := flashWarm s
  let s := { s with
    sys := { s.sys with busViolLast := none, busViolNew := 0, busViolAddr := 0#32 }
    acq := acqWarm s.acq
    flt := { s.flt with ch := s.flt.ch.map fltWarm }
    sve := sveWarm s.sve
    spd := spdStart s.spd.siPlan s.spd
    tbs := tbsWarm s.tbs
    rtc := { s.rtc with commits := s.rtc.commits.filter fun c => c.cause != 2, ePrev := none }
    mac := s.mac.map macWarm
    pwr := pwrWarm s.pwr
    evr := evrWarm s.evr
    key := { s.key with ready := false, attest := none } }
  loadCoefs (mbxWarm (vfmWarm (swcReload (redWarm (cycWarm (trpWarm (prtWarm (trgWarm s))))))))

/-! ### A start begins -/

/-- The code of a state in a record; the rules give OFF none (R32), so it is a free value there. -/
def stateCode (st : ModState) (s : State) : Nat × State :=
  if st = .off then
    let (n, s) := drawFree s
    ((Config.freeWord n).toNat % 256, s)
  else (st.code, s)

/-- A start begins, for the source of SYS_RST_CAUSE bit b; one that meets START restarts it with the wider scope (R40), and one that failed restarts warm (R445). Its steps run with startRun. SYS_RST_HIST takes the sources alone, not WARM (DESIGN CHOICE, log entry 172). An accepted SYS_RESET that another source overtakes runs on (R477). A start clears an override of VCORE (R236), and every LINK, with its record (R287). -/
def startBegin (b : Nat) (cold : Bool) (s : State) : State :=
  let old := s.sys.st
  let merge := old == .start
  let cold := cold || (merge && s.sys.startCold && b != 2)
  let bitv := wd (2 ^ b)
  let was := s.sys
  let resetAt := if b = 1 ∨ b = 2 then s.pwr.resetAt else none
  let entry := if merge then entryRecords s.evr else []
  let ovr := s.spd.ovrEn && old != .off
  let ovrCode := s.spd.ovrCode
  let links := (List.range 4).filter fun p => (macOf s p).link
  let speeds := s.mac.map MacPort.speed
  let s := txnAbort 4 s
  let s := cmdStart cold s
  let cause := (if merge then was.rstCause &&& ~~~0x100#32 else 0#32) ||| bitv ||| (if cold then 0#32 else 0x100#32)
  let s := if cold then
      let s := coldState s
      { s with
        sys := { s.sys with rstCause := cause, rstHist := if merge then was.rstHist ||| bitv else bitv, startCold := true }
        evr := { s.evr with stage := entry } }
    else
      let s := { s with sys := { s.sys with rstCause := cause, rstHist := was.rstHist ||| bitv, warmCount := was.warmCount + 1, startCold := false } }
      warmState s
  let s := { s with hiLatch := [], sys := { s.sys with st := .start, leaving := none }, pwr := { s.pwr with resetAt := resetAt, startPending := true } }
  let (code, s) := stateCode old s
  let s := if merge then s else evBy srcSvc 0x0101 (u8 code ++ u8 ModState.start.code ++ u16 causeReset) s
  let s := if merge then s else evBy srcSvc 0x0102 (w32 s.sys.rstCause ++ w32 s.sys.warmCount) s
  let s := foldOver links (fun p s => ev 0x0801 (u8 p ++ u8 0 ++ u8 (speeds.getD p 0) ++ u8 0) s) s
  settle (if ovr then vcoreOvrEvent ovrCode 0 s else s)

/-! ### The steps of a start -/

/-- AUTOSTART from the stored configuration at a start that finds TIMELOST, with EV_RTC_TIMELOST (R281, R284). -/
def timeLostStart (s : State) : State :=
  if !s.rtc.timeLost then s else setBkp 57 s.cmd.autostart (evBy srcBackup 0x0723 (zeros 4) s)

/-- The recorder's index (R423): a clear cut short is completed (R427), and without the clean marker the index is rebuilt. -/
def indexStart (s : State) : State :=
  let clean := bkp s 58 == 0xA5
  let s := modEvr (fun e => { e with cleanStart := clean, wroteSinceStart := false }) s
  let s := match s.evr.intent with
    | some j => clearNow j s
    | none => s
  let s := if clean then s
    else ev 0x0B03 (u32 (blkRoom - (blkOf s.evr s.evr.cur).used) ++ u8 s.evr.cur ++ zeros 3) s
  modEvr (fun e => { e with ready := true }) s

/-- The configuration is loaded from MRAM (R382); no command's record is formed. -/
def configStart (s : State) : State :=
  let s := foldOver s.cmd.stored.cmds (cfgApply none true) (loadRegs s.cmd.stored.regs s)
  modCmd (fun c => { c with cfgLoaded := true, dirty := false }) s


/-- Ownership and redundancy begin as at every start (R306, R312). -/
def redStart (s : State) : State :=
  foldOver ((List.range 64).filter (ownEff s)) (fun z s => ownListen z 0 s) (pairRestart 1 (pairRestart 0 s))

/-- Whether a warm start skips the calibration of the main converters (R443). -/
def calSkipped (s : State) : Bool :=
  let d := tAfe s - sext 16 s.acq.calTemp.toNat
  decide (d.natAbs ≤ 1280) && decide (s.evr.optime.toNat ≤ s.acq.calOptime.toNat + 86400)

/-- A start that finds three failed starts and WDOG runs into SAFE_SERVICE (R446). -/
def safeStart (s : State) : Bool := !s.sys.startCold && bit s.sys.rstCause 2 && bkp s 56 == 3

/-- The image that a start boots: after a verification in a cold start (R404, R405, R442, R443). -/
def bootImage (s : State) : Option State := if s.sys.startCold then bootCold s else bootWarm s

/-- The steps of R442 and R443 up to admission, run while MRST_N is high (R441), below SHED4 (R444), and when a bank boots (R405). -/
def startRun (s : State) : State :=
  if s.sys.st ≠ .start ∨ !s.pwr.startPending ∨ s.pwr.mrst ∨ s.pwr.shed ≥ 4 then s
  else
    let safe := safeStart s
    let cold := s.sys.startCold
    let s := if !safe ∧ bkp s 56 = 3 then setBkp 56 0 s else s
    match bootImage s with
    | none => s
    | some s =>
      let s := modCmd (fun c => { c with interp := true }) (keysStart s)
      let s := timeLostStart s
      let first := !s.cmd.cfgLoaded
      let load := first && !safe
      let s := if load then shutterCold (configStart s) else s
      let s := indexStart s
      let s := if first || (s.pwr.shed1Seen && !safe) then modPwr (fun p => { p with shed1Seen := false }) (seedBegin s) else s
      let s := if first then tegArm 0 (loadCoefs s) else s
      let s := strobeAlign s
      let s := if safe then s else redStart s
      let s := modSpd (fun d => { d with deferred := true }) s
      let s := if cold then calStart 0x1FFFFFFF#32 none s
        else if safe || calSkipped s then s else calStart 0x00FFFFFF#32 none s
      settle (modPwr (fun p => { p with startPending := false }) s)

/-- Commands that a warm start took over get INTERNAL_FAULT with DETAIL 1 after START (R367). -/
def interruptedReplies (s : State) : State :=
  let l := s.cmd.interrupted
  foldOver l (fun rt s => reply rt stInternal 1 [] s) (modCmd (fun c => { c with interrupted := [] }) s)

/-- START_COMPLETE (R32, R33, R233, R442, R443, R446): the calibration has ended and the plan is made. -/
def execStartComplete (t : Nat) (s : State) : Res :=
  let s := atTime t s
  if s.sys.st ≠ .start ∨ s.pwr.startPending ∨ s.pwr.mrst ∨ s.pwr.shed ≥ 4 ∨ s.acq.calBusy ∨ s.spd.deferred then go s
  else if safeStart s then go (interruptedReplies (settle (changeState .safeService causeFailed s)))
  else
    let s := if !s.sys.startCold ∧ s.pwr.shed1Seen then seedBegin s else s
    let fault := admitFault s
    let s := match fault with
      | some f => admitRefused srcSvc 0 f s
      | none => admitStore s
    let ok := s.cmd.cfgSeq != 0#32 && fault.isNone
    let s := setBkp 56 0 s
    go (interruptedReplies (if ok && nbit (bkp s 57) 0 then enterService causeStart s else settle (changeState .maint causeStart s)))

/-! ### Reset sources -/

/-- VIN and VHU as a command carries them (R433, R436, R452, R453). -/
def supply (vin vhu : Nat) (s : State) : State :=
  modPwr (fun p => { p with
    vin := vin, vhu := vhu, vhuMin := min p.vhuMin vhu
    recovered := p.recovered && decide (p.recoverAt < vin)
    interruption := p.interruption.map fun i => { i with minVhu := min i.minVhu vhu }
    excursion := p.excursion.map fun e => { e with extreme := if e.kind = 0 then max e.extreme vin else min e.extreme vin } }) s

/-- COLD_START (R33, R441, R442): VIN has reached the start threshold, or an accepted SYS_RESET of cold scope is due. -/
def execColdStart (t : Nat) (por : Bool) (vin vhu : Nat) (s : State) : Res :=
  let s := atTime t s
  if por then
    if vin < 16000 ∨ !(s.sys.st == .off || (s.sys.st == .start && s.pwr.startPending && s.sys.startCold)) then go s
    else
      let s := { s with sys := { s.sys with st := .off }, pwr := { s.pwr with onBank := false, charging := true, shed := 0, interruption := none, excursion := none } }
      go (startRun (supply vin vhu (startBegin 0 true (modEvr (fun e => { e with pwrcyc := e.pwrcyc + 1 }) s))))
  else
    match s.pwr.resetAt with
    | some (a, true) => if s.now < a ∨ s.sys.st = .off then go s else go (startRun (startBegin 4 true (orderlyStore s)))
    | _ => go s

/-- WARM_START (R441, R443): src is the bit of SYS_RST_CAUSE, 1 MRST_N, 2 the watchdog, 3 an accepted SYS_RESET that is due. -/
def execWarmStart (t src : Nat) (s : State) : Res :=
  let s := atTime t s
  if s.sys.st = .off then go s
  else if src = 3 then
    match s.pwr.resetAt with
    | some (a, false) => if s.now < a then go s else go (startRun (startBegin 3 false (orderlyStore s)))
    | _ => go s
  else if src = 1 ∨ (src = 2 ∧ s.sys.st ≠ .start ∧ s.sys.st ≠ .safelight) then go (startRun (startBegin src false s))
  else go s

/-- MRST_ASSERT (R441): the start holds at its first step. -/
def execMrstAssert (t : Nat) (s : State) : Res :=
  let s := modPwr (fun p => { p with mrst := true }) (atTime t s)
  if s.sys.st = .off then go s else go (startBegin 1 false s)

/-- MRST_RELEASE (R441). -/
def execMrstRelease (t : Nat) (s : State) : Res := go (startRun (modPwr (fun p => { p with mrst := false }) (atTime t s)))

/-- The failed-start count, before the restart (R445). -/
def startFailed (step : Nat) (s : State) : State :=
  let n := bkp s 56
  let first := unle ((s.rtc.bkp.drop 60).take 4)
  let u := uts s % 2 ^ 32
  let s := if n = 0 ∨ first + 600 < u then
      setBkp 63 (u / 2 ^ 24) (setBkp 62 (u / 2 ^ 16) (setBkp 61 (u / 2 ^ 8) (setBkp 60 u (setBkp 56 1 s))))
    else setBkp 56 (min 3 (n + 1)) s
  evBy srcSvc 0x0C06 (u8 (bkp s 56) ++ u8 step ++ u16 0 ++ w32 s.sys.rstCause) (trialFailed s)

/-- WATCHDOG_EXPIRE (R441, R445): in START the start has failed, at the step named. -/
def execWatchdogExpire (t step : Nat) (s : State) : Res :=
  let s := atTime t s
  if s.sys.st = .off ∨ s.sys.st = .safelight then go s
  else go (startRun (startBegin 2 false (if s.sys.st = .start then startFailed step s else s)))

end Sys2Proof.Machine
end

