-- ==== Sys2Proof/Machine/Power.lean ====
section
/-! DEFINITION. Supply, shed levels, hold-up tests and Safelight (18_power_start_sleep.md R432 to R440, R447 to R452; 20_coinciding_events.md R478 to R480). -/

namespace Sys2Proof.Machine

/-! ### Power-down and supply -/

/-- Power-down (R33, R434): no record, every output de-energised, work and staging lost. -/
def powerDown (s : State) : State :=
  let s := { s with
    sys := { s.sys with st := .off, leaving := none }
    trp := { s.trp with rows := s.trp.rows.map (fun r => { r with active := false }), pins := 0#8, tofb := s.trp.tofb &&& s.trp.mismatch }
    mac := s.mac.map macWarm
    evr := { s.evr with ready := false, stage := [] } }
  let s := modVfm (fun x => { x with linkUp := false, linkGen := 0, linkL1 := false }) s
  let s := modCmd (fun c => { c with interp := false, queue := [], running := [], commits := [], interrupted := [], txn := none, seqs := [], outs := [], selftest := none }) s
  modPwr (fun p => { p with
    shed := 0, recovered := false, charging := false, interruption := none, leftAt := none, excursion := none, ht := none, htReply := none
    entry := none, gated := false, wakeHeld := none, waking := none, resetAt := none }) s

/-- The bank supplies the module: it powers down when VHU is below 18.0 V (R434). -/
def powerCheck (s : State) : State := if s.pwr.onBank && decide (s.pwr.vhu < 18000) && s.sys.st != .off then powerDown s else s

/-- An excursion of VIN begins, if none runs (R452). -/
def excursionBegin (kind vin : Nat) (p : Pwr) : Pwr :=
  match p.excursion with
  | some _ => p
  | none => { p with excursion := some ⟨kind, vin, false⟩ }

/-- POWER_DOWN (R434). -/
def execPowerDown (t vhu : Nat) (s : State) : Res :=
  let s := atTime t s
  go (powerCheck (supply s.pwr.vin vhu s))

/-- VIN_UNDERVOLTAGE (R432, R434): VIN is below 12.0 V, or above it again. -/
def execVinUndervoltage (t vin vhu : Nat) (s : State) : Res :=
  let s := supply vin vhu (atTime t s)
  if s.sys.st = .off then go s
  else if vin < 12000 then
    go (powerCheck (modPwr (fun p => { excursionBegin 1 vin p with onBank := true, charging := false }) s))
  else go (powerCheck (modPwr (fun p => { p with onBank := p.vinOver, charging := !p.vinOver && p.ht.isNone }) s))

/-- VIN_OVERVOLTAGE_DISCONNECT (R432): the input stage disconnects VIN. -/
def execVinOvervoltageDisconnect (t vin : Nat) (s : State) : Res :=
  let s := atTime t s
  if vin ≤ 154000 ∨ s.sys.st = .off then go s
  else
    let s := supply vin s.pwr.vhu s
    go (powerCheck (modPwr (fun p => { excursionBegin 0 vin p with vinOver := true, onBank := true, charging := false, recovered := false }) s))

/-- EV_PWR_VIN_RANGE of an excursion (R452). -/
def excursionEvent (kind extreme : Nat) (s : State) : State := ev 0x0C03 (u8 kind ++ zeros 3 ++ u32 extreme) s

/-- VIN_EXCURSION_END (R452): VIN has stayed within 14.4 V to 154 V for 10 ms; extreme is the lowest or highest VIN measured. -/
def execVinExcursionEnd (t vin extreme : Nat) (s : State) : Res :=
  let s := atTime t s
  if vin < 14400 ∨ 154000 < vin ∨ s.sys.st = .off then go s
  else
    let x := s.pwr.excursion
    let s := supply vin s.pwr.vhu s
    let s := modPwr (fun p => { p with vinOver := false, onBank := false, charging := p.ht.isNone, excursion := none }) s
    match x with
    | some e => go (if e.recorded then s else excursionEvent e.kind (if e.kind = 0 then max e.extreme extreme else min e.extreme extreme) s)
    | none => go (if extreme < 14400 then excursionEvent 1 extreme s else if 154000 < extreme then excursionEvent 0 extreme s else s)

/-- HOLD_SHORT_DISCONNECT (R459): the external bank is disconnected. -/
def execHoldShortDisconnect (t : Nat) (s : State) : Res := go (modPwr (fun p => { p with holdShort := true }) (atTime t s))

/-! ### Hold-up test -/

/-- EV_PWR_HOLDUP_TEST of a test that ends now (R440, R452). -/
def holdupEvent (result : Nat) (h : HoldupTest) (s : State) : State :=
  ev 0x0C04 (u8 result ++ zeros 3 ++ w32 s.pwr.cHu ++ u32 ((s.now - h.start) / 1000)) s

/-- A test that SHED1 meets is aborted, its result discarded (R440). -/
def holdupAbort (s : State) : State :=
  match s.pwr.ht with
  | none => s
  | some h =>
    let s := holdupEvent 1 h (modPwr (fun p => { p with ht := none, charging := !p.onBank }) s)
    match h.reply with
    | some rt => finish rt stInternal 0 [] s
    | none => s

/-- A test may start: SHED0 and VHU of at least 47.0 V (R440). -/
def holdupReady (s : State) : Bool := decide (s.pwr.shed = 0) && decide (s.pwr.vhu ≥ 47000)

/-- A test starts: the charger stops and the sink discharges the bank (R440). -/
def holdupStart (rt : Option ReplyTo) (s : State) : State :=
  modPwr (fun p => { p with ht := some ⟨s.now, rt⟩, htDue := false, charging := false }) s

/-- HOLDUP_TEST_DUE (R440): an automatic test falls due, or its conditions have come. -/
def execHoldupTestDue (t vhu : Nat) (s : State) : Res :=
  let s := atTime t s
  let s := supply s.pwr.vin vhu s
  if s.pwr.htAuto = 0 ∨ s.sys.st = .off ∨ s.pwr.ht.isSome ∨ s.pwr.htReply.isSome then go s
  else if holdupReady s then go (holdupStart none s)
  else go (modPwr (fun p => { p with htDue := true }) s)

/-- PWR_HOLDUP_TEST (R440, R451): the reply follows the plan. -/
def execPwrHoldupTest (t : Nat) (e : Env) (vhu : Nat) (s : State) : Res :=
  let s := atTime t s
  let s := supply s.pwr.vin vhu s
  go (runCmd e ⟨0x0B03, true, plenIs 4, 16, [.service, .maint]⟩ (fun rt s =>
    checked8 e rt (firstFail [(holdupReady s, stConflict, s.sys.st.code), (s.pwr.ht.isNone && s.pwr.htReply.isNone, stBusy, 0)]) none
      (fun s => holdReply rt (holdupStart (some rt) s)) s) s)

/-- C_HU = 0.50 A × Δt / 4.0 V, in nF (R440). -/
def holdupCap (dtNs : Nat) : Word := sat32 (rdivEven (dtNs : Nat) 8).toNat

/-- HOLDUP_TEST_COMPLETE (R440): VHU has crossed 42.0 V, dtNs after 46.0 V. -/
def execHoldupTestComplete (t dtNs : Nat) (s : State) : Res :=
  let s := atTime t s
  match s.pwr.ht with
  | none => go s
  | some h =>
    let s := modPwr (fun p => { p with
      ht := none, charging := !p.onBank, cHu := holdupCap dtNs, cHuOptime := s.evr.optime, capValid := true
      htReply := h.reply.map fun rt => (rt, (s.now - h.start) / 1000) }) s
    go (modSpd (fun d => { d with deferred := true }) (holdupEvent 0 h (capLowCheck s)))

/-! ### Shed levels -/

/-- A change of VF_STAT that the level makes is signalled to its VF (R353). -/
def vfStatsAfter (before : State) (s : State) : State :=
  foldOver (enabledVfs s) (fun v s => statSignal v (vfStat before v) s) s

/-- The level changes, with its record (R438). -/
def setShed (new : Nat) (s : State) : State :=
  let old := s.pwr.shed
  let s1 := modPwr (fun p => { p with shed := new }) s
  ev 0x0C01 (u8 old ++ u8 new ++ u16 0 ++ u32 s.pwr.vin ++ u32 s.pwr.vhu) (vfStatsAfter s s1)

/-- Entry into level l, counted and recorded (R436, R453). -/
def enterShed (l : Nat) (s : State) : State :=
  setShed l (modPwr (fun p => { p with
    shedCnt := lmod p.shedCnt (l - 1) satInc
    interruption := p.interruption.map fun i => { i with highest := max i.highest l } }) s)

/-- UDP commands are not served from SHED1 on (R379). -/
def udpStop (s : State) : State :=
  let n := udpWaiting s
  modCmd (fun c => { c with queue := c.queue.filter fun p => !isUdp p.env.src, seqs := [], outs := [], udpDrop := satAdd c.udpDrop n }) s

/-- SHED1_ENTER (R436): VIN has been below the floor for more than 1 ms, or is disconnected. -/
def execShed1Enter (t vin vhu : Nat) (s : State) : Res :=
  let s := supply vin vhu (atTime t s)
  if s.sys.st = .off ∨ s.pwr.shed ≠ 0 ∨ (s.pwr.floor ≤ vin ∧ !s.pwr.vinOver) then go s
  else
    let s := modPwr (fun p => { p with
      intCnt := satInc p.intCnt, recovered := false, leftAt := none, interruption := some ⟨s.now - 1000000, 1, vhu⟩
      shed1Seen := p.shed1Seen || s.sys.st != .service }) s
    go (settle (powerCheck (tasksShed (udpStop (holdupAbort (enterShed 1 s))))))

/-- Publications without ESSENTIAL stop, or resume (R131). -/
def pubsShed (stop : Bool) (s : State) : State :=
  let map := nsum ((s.sve.pubs.filter fun p => stop && p.2.running && !nbit p.2.cfg.flags 0).map fun p => 2 ^ p.1)
  let s := modSve (fun v => { v with pubs := v.pubs.map fun p => (p.1, { p.2 with shedStopped := stop && !nbit p.2.cfg.flags 0 }) }) s
  if s.sve.pubs.isEmpty then s else ev 0x0409 (u8 map ++ u8 s.pwr.shed ++ u16 0) s

/-- SA and SB are switched off at SHED3 (R328). -/
def stationOff (s : State) : State :=
  foldOver [2, 3] (fun p s => if (macOf s p).link then linkChange p false s else s) s

/-- Sheets that are being copied are closed (R428); the open they belong to has failed. -/
def copiesStop (s : State) : State :=
  let l := s.evr.snaps.filterMap fun x => x.bind Sheet.copying
  foldOver l (fun rt s => finish rt stInternal 0 [] s) (sheetsClose (fun h => h.copying.isSome) s)

/-- Final commit (R439, R452): the excursion so far, truncated records, the recorder's flush. -/
def finalCommit (s : State) : State :=
  let s := match s.pwr.excursion with
    | some e => if e.recorded then s else excursionEvent e.kind e.extreme (modPwr (fun p => { p with excursion := some { e with recorded := true } }) s)
    | none => s
  orderlyStore (shutterShed5 (copiesStop s))

/-- What a level does when it is entered (R436). -/
def shedAct (l : Nat) (s : State) : State :=
  match l with
  | 3 => pubsShed true (stationOff s)
  | 4 => tasksShed s
  | 5 => finalCommit s
  | _ => s

/-- SHED_LEVEL_ENTER (R436, R439): VHU is below the next level's threshold. -/
def execShedLevelEnter (t vin vhu : Nat) (s : State) : Res :=
  let s := supply vin vhu (atTime t s)
  let l := s.pwr.shed + 1
  if s.sys.st = .off ∨ l = 1 ∨ 5 < l ∨ s.pwr.thr.getD (l - 2) 0 ≤ vhu then go s
  else go (settle (shedAct l (enterShed l s)))

/-- SUPPLY_RECOVERED (R433): VIN has stayed above the recovery level for 20 ms. -/
def execSupplyRecovered (t vin : Nat) (s : State) : Res :=
  let s := atTime t s
  if s.sys.st = .off ∨ vin ≤ s.pwr.recoverAt ∨ s.pwr.vinOver then go s
  else go (modPwr (fun p => { p with recovered := true }) (supply vin s.pwr.vhu s))

/-- VHU at which level l is left (R438). -/
def leaveAt (p : Pwr) (l : Nat) : Nat := if l = 1 then 46000 else p.thr.getD (l - 2) 0 + 2000

/-- The interruption ends at SHED0 (R436, R452). -/
def interruptionEnd (s : State) : State :=
  match s.pwr.interruption with
  | none => s
  | some i =>
    let us := (s.now - i.start) / 1000
    ev 0x0C02 (w32 (sat32 us) ++ u8 i.highest ++ zeros 3 ++ u32 i.minVhu) (modPwr (fun p => { p with interruption := none, intLast := sat32 us }) s)

/-- What a level undoes when it is left for the next lower one, l (R438, R439, R444, R448). -/
def unshedAct (l : Nat) (s : State) : State :=
  match l with
  | 4 => setBkp 58 0 s
  | 3 => startRun (tasksShed s)
  | 2 => pubsShed false s
  | 1 => match s.pwr.wakeHeld with
    | some src => wakeStart src s
    | none => s
  | _ => tasksShed (interruptionEnd s)

/-- SHED_LEVEL_LEAVE (R438). -/
def execShedLevelLeave (t vin vhu : Nat) (s : State) : Res :=
  let s := supply vin vhu (atTime t s)
  let l := s.pwr.shed
  let early := s.pwr.leftAt.any fun a => decide (s.now < a + 1000000)
  if s.sys.st = .off ∨ l = 0 ∨ !s.pwr.recovered ∨ early ∨ vhu < leaveAt s.pwr l then go s
  else go (settle (unshedAct (l - 1) (setShed (l - 1) (modPwr (fun p => { p with leftAt := some s.now }) s))))

/-! ### Safelight -/

/-- Ports with a wake pattern or LINK_WAKE enabled (R295, R447). -/
def wakePorts (s : State) : List Nat := (List.range 4).filter (wakePort s)

/-- The open record is closed at the last sample and flagged TRUNCATED (R447 step 2). -/
def shutterClose (s : State) : State :=
  modTrg (fun g => { g with queue := [], records := g.records.map fun r =>
    if r.phase = .opened then (r.cutAt (baseNs s r.tb)).flag rfTruncated else r }) s

/-- Every closed record is written and committed (R102, R447 step 2); fuel bounds the blocks. -/
def commitAll : Nat → State → State
  | 0, s => s
  | n + 1, s => match s.trg.records.find? (allWritten s) with
    | some r =>
      let r' := { r.flag rfCommitted with phase := .committed }
      commitAll n (committedEvent r' r'.blocks.length (modRec r.recno (fun _ => r') s))
    | none => match s.trg.records.find? (blockReady s) with
      | some r => commitAll n (writeBlock r true s)
      | none => s

/-- Steps that commitAll may need. -/
def commitSteps (s : State) : Nat := nsum ((s.trg.records.filter ShtRec.live).map fun r => r.dataBlocks + 2)

/-- Entry into SAFELIGHT after the steps of R34 (R447 steps 2 to 4). -/
def safelightEnter (rt : ReplyTo) (p : PwrSafelight) (s : State) : State :=
  let s := settle { s with sys := { s.sys with st := .safelight } }
  let s := shutterClose s
  let s := commitAll (commitSteps s) s
  let s := orderlyStore s
  let s := changeState .safelight causeSafelight { s with sys := { s.sys with st := .service } }
  let mask := nsum ((wakePorts s).map fun n => 2 ^ n)
  let s := evCmd rt 0x0C07 (u16 p.wakeBi.toNat ++ u16 p.wakeTeg.toNat ++ u8 mask ++ u8 p.flags ++ u16 0) s
  let s := modPwr (fun x => { x with
    wakeBi := p.wakeBi, wakeTeg := p.wakeTeg, wakeN := nbit p.flags 0, slCnt := x.slCnt + 1, entry := some ⟨s.now⟩ }) s
  modCmd (fun c => { c with interp := false }) (finish rt stOk 0 [] s)

/-- R447: when PWR_SAFELIGHT meets STATE_CONFLICT, and when BAD_PARAM. -/
def safelightPre (s : State) : Option (Nat × Nat) :=
  firstFail [(decide (s.pwr.shed = 0) && s.trp.rows.all (fun r => !r.active) && !testActive s && s.cmd.txn.isNone && s.pwr.ht.isNone && s.pwr.htReply.isNone,
    stConflict, s.sys.st.code), (s.sys.leaving.isNone, stBusy, 0)]

def safelightCheck (p : PwrSafelight) (s : State) : Option (Nat × Nat) :=
  firstFail [bad (p.flags < 2), bad (p.wakeBi ≠ 0#16 ∨ p.wakeTeg ≠ 0#16 ∨ p.flags = 1 ∨ !(wakePorts s).isEmpty),
    bad ((wakePorts s).length ≤ 2 ∧ (wakePorts s).all fun n => (macOf s n).mode n != 1)]

/-- SAFELIGHT_POWER_GATE (R447 step 5, R450): endpoint and ports without a wake function power down; a held wake source acts. -/
def execSafelightPowerGate (t : Nat) (s : State) : Res :=
  let s := atTime t s
  match s.pwr.entry with
  | none => go s
  | some a =>
    if s.sys.st ≠ .safelight ∨ s.now < a.at' + 10000000 then go s
    else
      let x := s.vfm
      let s := modVfm (fun x => { x with linkUp := false, linkGen := 0, linkL1 := false }) s
      let s := if x.linkUp then ev 0x0908 (u8 0 ++ u8 x.linkGen ++ u8 x.linkWidth ++ u8 0) s else s
      let s := foldOver (List.range 4) (fun p s => if (macOf s p).link && !wakePort s p then linkChange p false s else s) s
      let s := modPwr (fun p => { p with entry := none, gated := true }) s
      go (match s.pwr.wakeHeld with
        | some src => wakeStart src s
        | none => s)

/-- The source is one that is enabled (R449). -/
def wakeEnabled (s : State) (src : WakeSrc) : Bool :=
  match src.cls with
  | 0 | 1 => decide (src.index < 4) && wakePort s src.index
  | 2 => decide (src.index < 16) && s.pwr.wakeBi.getLsbD src.index
  | 3 => decide (src.index < 16) && s.pwr.wakeTeg.getLsbD src.index
  | 4 => s.pwr.wakeN && !s.pwr.mrst
  | _ => false

/-- SAFELIGHT_WAKE (R449, R450). -/
def execSafelightWake (t : Nat) (src : WakeSrc) (s : State) : Res :=
  let s := atTime t s
  go (if wakeEnabled s src then wakeStart src s else s)

/-- WAKE_COMPLETE (R449, R479): SERVICE, without admission; subscriptions WAITING, zones LISTENING. -/
def execWakeComplete (t : Nat) (s : State) : Res :=
  let s := atTime t s
  match s.pwr.waking with
  | none => go s
  | some w =>
    if s.sys.st ≠ .safelight ∨ s.pwr.shed ≥ 2 then go s
    else
      let us := (s.now - w.at') / 1000
      let s := modPwr (fun p => { p with
        waking := none, wakeHeld := none, gated := false, wakeSrc := wd (w.src.cls + w.src.index * 256), wakeTime := sat32 us }) s
      let s := modCmd (fun c => { c with interp := true }) s
      let s := modSve (fun v => { v with subs := v.subs.map fun p => (p.1, { p.2 with st := .waiting, lastK := none, lastAt := none }) }) s
      let s := pairRestart 1 (pairRestart 0 s)
      let s := foldOver ((List.range 64).filter (ownEff s)) (fun z s => ownListen z 1 s) s
      let s := enterService causeWake s
      go (ev 0x0C08 (u8 w.src.cls ++ u8 w.src.index ++ u16 0 ++ u32 w.ns ++ u32 w.sec ++ w32 (sat32 us)) s)

end Sys2Proof.Machine
end

