-- ==== Sys2Proof/Machine/Leave.lean ====
section
/-! DEFINITION. The change out of SERVICE, step by step, and the rows that can complete a step of it (01_sample_to_trip.md R34, 18_power_start_sleep.md R447). -/

namespace Sys2Proof.Machine

/-- Steps 2 and 3 of R34, once no cycle runs: tasks and closing actions stop, and test mode ends. -/
def leaveStop (s : State) : State :=
  let s := cancelCloses (tasksStop s)
  settle (foldOver (s.prt.zones.map Prod.fst) (fun z s => endTestMode z s) s)

/-- Steps 5 and 6 of R34: GOOSE goes to the heartbeat form, the state reads MAINT, the change is recorded, the reply goes out. -/
def maintEnter (rt : ReplyTo) (s : State) : State :=
  let s := settle { s with sys := { s.sys with st := .maint } }
  finish rt stOk 0 [] (changeState .maint causeCommand { s with sys := { s.sys with st := .service } })

/-- The last step of a change out of SERVICE (R34 steps 5 and 6, R447). -/
def leaveEnd (l : Leave) (s : State) : State :=
  let s := { s with sys := { s.sys with leaving := none } }
  match l.safelight with
  | some p => safelightEnter l.reply p s
  | none => maintEnter l.reply s

/-- The running change goes as far as it can: while a cycle runs it waits at step 2, while a pulse runs at step 4 (R34). -/
def leaveStep (s : State) : State :=
  match s.sys.leaving with
  | none => s
  | some l =>
    let s := tasksFinish s
    if tasksRun s then s
    else
      let s := if l.stopped then s else leaveStop { s with sys := { s.sys with leaving := some { l with stopped := true } } }
      if s.trp.rows.any Row.active then s else leaveEnd l s

/-- A change out of SERVICE begins: VF requests are refused, zones stop, no further cycle starts (R34 steps 1 and 2). The reply waits for its end. -/
def leaveStart (rt : ReplyTo) (p : Option PwrSafelight) (s : State) : State :=
  leaveStep (zonesStop (holdReply rt { s with sys := { s.sys with leaving := some ⟨rt, p, false⟩ } }))

/-- SYS_SET_STATE (R33, R34, R387): the reply follows the change; a second request meets BUSY while one runs (R477). -/
def execSysSetState (t : Nat) (e : Env) (st : Nat) (s : State) : Res :=
  let s := atTime t s
  go (runCmd e ⟨0x0102, true, plenIs 4, 0, [.service, .maint]⟩ (fun rt s =>
    let up := s.sys.st == .maint && st == 2
    let down := s.sys.st == .service && st == 3
    checked8 e rt (firstFail [(up || down || decide (st ≠ 2 ∧ st ≠ 3), stConflict, s.sys.st.code), (s.sys.leaving.isNone, stBusy, 0)])
      (firstFail [bad (up || down)]) (fun s =>
      if down then leaveStart rt none s
      else match admitFault s with
        | some f => refuseBudget rt f s
        | none => reply rt stOk 0 [] (enterService causeCommand (admitStore s))) s) s)

/-- PWR_SAFELIGHT (R447, R451). -/
def execPwrSafelight (t : Nat) (e : Env) (p : PwrSafelight) (s : State) : Res :=
  let s := atTime t s
  go (runCmd e ⟨0x0B01, true, plenIs 8, 0, [.service]⟩ (fun rt s =>
    checked8 e rt (safelightPre s) (safelightCheck p s) (leaveStart rt (some p)) s) s)

/-- TRIP_ROW_RELEASE (R184). -/
def execTripRowRelease (t row : Nat) (s : State) : Res :=
  let s := atTime t s
  if releasable s (rowOf s row) then go (leaveStep (settle (releaseRow row s))) else go s

/-- TASK_CYCLE_COMMIT (R200): the cycle has reached END or RET, and no cycle that goes before it runs on its BLU (R201). -/
def execTaskCycleCommit (t task : Nat) (s : State) : Res :=
  let s := atTime t s
  let s := if inService s then lTasksDue s else s
  match tget s.cyc.tasks task with
  | none => go s
  | some k => match k.run with
    | none => go s
    | some c => if c.ended && !preempted s task k then go (leaveStep (settle (cycleBoundary task (commitCycle task c s)))) else go s

/-- NATIVE_CALL_ABORT (R219): cause 0 budget, 1 trap; CR is unchanged, the staging goes, and the cycle continues. -/
def execNativeCallAbort (t task cause : Nat) (mcause : Word) (s : State) : Res :=
  let s := atTime t s
  match tget s.cyc.tasks task with
  | none => go s
  | some k => match k.run with
    | none => go s
    | some c => match c.inCall with
      | none => go s
      | some blk => if !callRuns s task k then go s else
        let s := { s with cyc := { s.cyc with abortCnt := satInc s.cyc.abortCnt } }
        let s := if secondPassed s k.abortLastEv then
            evBy (0x0800 + k.cfg.blu) 0x0606 (u8 task ++ u8 blk ++ u8 cause ++ u8 0 ++ (if cause = 0 then u32 0 else w32 mcause))
              (modTask task (fun k => { k with abortLastEv := some s.now }) s)
          else s
        go (taskRun task [] (modTask task (fun k => { k with run := some { c with inCall := none, call := none, aborted := true } }) s))

end Sys2Proof.Machine
end

