-- ==== Sys2Proof/Machine/Regs.lean ====
section
/-! DEFINITION. What a register is: its read, the effect of reading it, the effect of writing it (00_conventions.md R5 to R10). -/

namespace Sys2Proof.Machine

/-- One register (R9, R10). -/
structure Reg where
  /-- the value a read returns -/
  get : State → Word
  /-- the high word that a read of this low word latches (R10) -/
  hi : State → Option Word := fun _ => none
  /-- what a read does beside returning the value: RC fields clear (R9) -/
  clear : State → State := id
  /-- a read that is a row of its own: instant, offset, master -/
  read : Option (Nat → Nat → Master → State → Res) := none
  /-- a write: instant, offset, master, value -/
  set : Nat → Nat → Master → Word → State → Res := fun _ _ _ _ s => go s

/-- A read-only register. -/
def Reg.ro (g : State → Word) : Reg := { get := g }

/-- A register cleared by its read (RC). -/
def Reg.rc (g : State → Word) (c : State → State) : Reg := { get := g, clear := c }

/-- A register written freely (RW without configuration, W1C, W1S). -/
def Reg.rw (g : State → Word) (f : Word → State → State) : Reg := { get := g, set := fun _ _ _ v s => go (f v s) }

/-- A configuration register (R37, R38). -/
def Reg.cfg (g : State → Word) (f : Word → State → State) : Reg := { get := g, set := fun _ off by' v s => go (cfgWrite by' off (f v) s) }

/-- A register whose write is a row of its own. -/
def Reg.act (g : State → Word) (x : Nat → Master → Word → State → Res) : Reg := { get := g, set := fun t _ by' v s => x t by' v s }

/-- A register whose write also depends on its offset. -/
def Reg.actAt (g : State → Word) (x : Nat → Nat → Master → Word → State → Res) : Reg := { get := g, set := x }

/-- A register whose read is a row of its own. -/
def Reg.onRead (x : Nat → Master → State → Res) : Reg := { get := fun _ => 0#32, read := some fun t _ by' s => x t by' s }

/-- A write-only register whose write is a row of its own. -/
def Reg.wo (x : Nat → Master → Word → State → Res) : Reg := Reg.act (fun _ => 0#32) x

/-- The low word of a 64-bit register (R10). -/
def Reg.lo (g : State → Nat) (c : State → State := id) : Reg := { get := fun s => wd (g s), hi := fun s => some (wd (g s / 2 ^ 32)), clear := c }

/-- The high word of the 64-bit register whose low word stands at off: the value latched (R10; log entry 3). -/
def Reg.hiOf (off : Nat) : Reg := Reg.ro fun s => tgetD s.hiLatch off 0#32

/-- The register of offset o in a list. -/
def pick (o : Nat) : List (Nat × Reg) → Option Reg
  | [] => none
  | (k, r) :: l => if o = k then some r else pick o l

/-- The position of offset o in an array of n at base, stride apart. -/
def arr (o base stride n : Nat) : Option Nat :=
  if base ≤ o ∧ (o - base) % stride = 0 ∧ (o - base) / stride < n then some ((o - base) / stride) else none

/-- The register of offset o in an array. -/
def arrReg (o base stride n : Nat) (f : Nat → Reg) : Option Reg := (arr o base stride n).map f

/-- The register of offset o among the windows of an array: window number, offset in it. -/
def winReg (o base stride n : Nat) (f : Nat → Nat → Option Reg) : Option Reg :=
  if base ≤ o ∧ (o - base) / stride < n then f ((o - base) / stride) ((o - base) % stride) else none

/-- The first register found. -/
def firstReg : List (Option Reg) → Option Reg
  | [] => none
  | some r :: _ => some r
  | none :: l => firstReg l

/-- The bits of a list of flags, as a register word. -/
def flagsWord (l : List Bool) : Word := wd (ofBits l)

/-- One bit per position below n. -/
def mapWord (n : Nat) (f : Nat → Bool) : Word := flagsWord ((List.range n).map f)

end Sys2Proof.Machine
end

