-- ==== Sys2Proof/Machine/RegsHost.lean ====
section
/-! DEFINITION. The registers of MBX, VFM, the rings, KEY, EVR and CMD, the VF window and the configuration space (R388, R360, R340, R412, R431, R389, R338, R333, R334). -/

namespace Sys2Proof.Machine

/-! ### MBX (R388) -/

/-- A META register. -/
def Mail.meta' (m : Mail) : Word := wd (fl m.full 0 + m.srcEpoch * 2 ^ 8 + m.srcId * 2 ^ 16)

/-- PMB_STAT[n]: commands queued, or reply notices held. -/
def pmbStat (s : State) (n : Nat) : Word :=
  wd (fl (pmbOf s n).full 0 + (if n < 4 then queuedOn s n else (s.mbx.held.getD (n - 4) []).length) * 2)

def pmbReg (n o : Nat) : Option Reg :=
  if n < 4 then pick o
    [(0x0, .rw (fun s => (pmbOf s n).lo) fun v => modMbx fun m => { m with pmb := lmod m.pmb n fun p => { p with lo := v &&& 0xFFFFFFF8#32 } }),
     (0x4, .act (fun s => (pmbOf s n).hi) fun t _ v s => execPmbPost t n v s),
     (0x8, .ro (pmbStat · n))]
  else pick o
    [(0x0, .ro fun s => (pmbOf s n).lo),
     (0x4, .onRead fun t _ s => execPmbReplyRead t (n - 4) s),
     (0x8, .ro (pmbStat · n))]

/-- Slots of receiver r. -/
abbrev slotsOf (r : Nat) : Nat := if r = 16 then 16 else 8

def coreSlotReg (r o : Nat) : Option Reg :=
  firstReg
    [arrReg o 0 8 (slotsOf r) fun k => .onRead fun t by' s => execMbxCoreDataRead t by' r k s,
     arrReg o 4 8 (slotsOf r) fun k => .ro fun s => (coreMail s r k).meta']

def corePostReg (r o : Nat) : Option Reg := arrReg o 0 4 (slotsOf r) fun k => .wo fun t by' v s => execMbxCorePost t by' r k v s

/-- The mailboxes of VF i + 1. -/
def vfMailReg (i o : Nat) : Option Reg :=
  let v := i + 1
  pick o
    [(0x0, .onRead fun t _ s => execMbxVfRxDataRead t v s),
     (0x4, .ro fun s => (tgetD s.mbx.vfRx v Mail.empty).meta'),
     (0x8, .wo fun t _ x s => execMbxVfTxPost t v x s),
     (0xC, .ro fun s => wd (fl (tgetD s.mbx.vfTx v Mail.empty).full 0 + tgetD s.mbx.epochVf v 0 * 2 ^ 8))]

def mbxReg (o : Nat) : Option Reg :=
  firstReg [pick o
    [(0x00, .ro fun s => wd s.mbx.epochPf),
     (0x04, .rc (fun s => s.mbx.pfNak) (modMbx fun m => { m with pfNak := 0#32 })),
     (0x08, .wo execSemRelease),
     (0x0C, .rc (fun s => s.mbx.semBadrel) (modMbx fun m => { m with semBadrel := 0#32 })),
     (0x10, .rc (fun s => s.mbx.semFreed) (modMbx fun m => { m with semFreed := 0#32 }))],
   arrReg o 0x40 4 17 fun c => .ro fun s => wd (tgetD s.mbx.epochCore c 0),
   arrReg o 0x80 4 17 fun c => .rc (fun s => tgetD s.mbx.coreNak c 0#32) (modMbx fun m => { m with coreNak := tdel m.coreNak c }),
   arrReg o 0x100 4 64 fun n => .ro fun s => wd (tgetD s.mbx.sem n 0xFFFF),
   winReg o 0x200 0x10 8 pmbReg,
   arrReg o 0x300 4 32 fun w => .ro fun s => mapWord 32 fun j => (tgetD s.mbx.vfRx (32 * w + j + 1) Mail.empty).full,
   winReg o 0x1000 0x100 17 coreSlotReg,
   winReg o 0x2000 0x100 17 corePostReg,
   winReg o 0x4000 0x10 1024 vfMailReg]

/-! ### Rings (R340) -/

/-- A delivery waits for an entry of the ring. -/
def ringNobuf (s : State) (q : RingId) : Bool :=
  (ringOf s q).en && (ringOf s q).head == (ringOf s q).tail && (match q with
    | .rx v => !(vfOf s v).bulk.isEmpty || !(vfOf s v).lossless.isEmpty
    | .tx _ => false
    | .evq => !s.vfm.evqStage.isEmpty)

/-- Q_STAT: ACTIVE is EN outside a Stop bath. -/
def ringStat (s : State) (q : RingId) : Word := flagsWord [(ringOf s q).en && !ringStopped s q, ringNobuf s q, (ringOf s q).baddesc]

/-- A field that only an idle ring takes. -/
def ringIdle (q : RingId) (get : Ring → Word) (f : Word → Ring → Ring) : Reg :=
  .rw (fun s => get (ringOf s q)) fun v => modRing q fun r => if r.en then r else f v r

def ringReg (q : RingId) (o : Nat) : Option Reg :=
  pick o
    [(0x00, ringIdle q (fun r => r.baseLo) fun v r => { r with baseLo := v &&& 0xFFFFF000#32 }),
     (0x04, ringIdle q (fun r => r.baseHi) fun v r => { r with baseHi := v }),
     (0x08, .act (fun s => (ringOf s q).ctl) fun t _ v s => execQCtlWrite t q v s),
     (0x0C, .ro fun s => wd (ringOf s q).tail),
     (0x10, .ro fun s => wd (ringOf s q).head),
     (0x14, ringIdle q (fun r => r.wbLo) fun v r => { r with wbLo := v &&& 0xFFFFFFFC#32 }),
     (0x18, ringIdle q (fun r => r.wbHi) fun v r => { r with wbHi := v }),
     (0x1C, .rw (fun s => (ringOf s q).coal) fun v => modRing q fun r => { r with coal := v }),
     (0x20, .ro fun s => ringStat s q),
     (0x24, .rc (fun s => (ringOf s q).done) (modRing q fun r => { r with done := 0#32 })),
     (0x28, .rc (fun s => (ringOf s q).err) (modRing q fun r => { r with err := 0#32 })),
     (0x2C, .rc (fun s => (ringOf s q).dbign) (modRing q fun r => { r with dbign := 0#32 }))]

/-! ### VFM (R360) -/

/-- Bit j of word w of a map stands for VF 32w + j + 1. -/
def vfMap (s : State) (w : Nat) (f : Vf → Bool) : Word := mapWord 32 fun j => f (vfOf s (32 * w + j + 1))

def vfCfgReg (i o : Nat) : Option Reg :=
  let v := i + 1
  pick o
    [(0x0, .ro fun s => let f := vfOf s v; wd (f.weight + fl f.framesEn 10 + fl f.acceptGroup 11 + f.vid * 2 ^ 12)),
     (0x4, .ro fun s => wd (vfOf s v).shareKib),
     (0x8, .ro fun s => wd (vfStat s v)),
     (0xC, .ro fun s => wd (vfOf s v).charged)]

def vfmReg (o : Nat) : Option Reg :=
  firstReg [pick o
    [(0x00, .ro fun s => wd (s.vfm.numVfs + fl s.vfm.vfEnable 11 + fl s.vfm.pfBusMaster 12)),
     (0x04, .ro fun s => wd (s.vfm.linkGen + s.vfm.linkWidth * 2 ^ 3 + fl (hostL1 s) 8 + fl s.vfm.linkUp 9)),
     (0x08, .ro fun s => wd ((poolBytes - poolUsed s) / 1024)),
     (0x0C, .ro fun s => wd (nsum ((s.vfm.vfs.filter fun p => p.2.configured).map fun p => p.2.shareKib))),
     (0x10, .rc (fun s => s.vfm.hpUnclaimed) (modVfm fun x => { x with hpUnclaimed := 0#32 })),
     (0x14, .rc (fun s => s.vfm.sbCnt) (modVfm fun x => { x with sbCnt := 0#32 })),
     (0x18, .ro fun s => flagsWord [decide (s.pwr.shed ≥ 1), decide (s.pwr.shed ≥ 4)]),
     (0x200, .rc (fun s => s.vfm.evqLost) (modVfm fun x => { x with evqLost := 0#32 }))],
   winReg o 0x100 0x100 1 fun _ k => ringReg .evq k,
   winReg o 0x1000 0x10 1024 vfCfgReg,
   arrReg o 0x5000 8 1024 fun i => .ro fun s => wd (vfOf s (i + 1)).mac,
   arrReg o 0x5004 8 1024 fun i => .ro fun s => wd ((vfOf s (i + 1)).mac / 2 ^ 32),
   arrReg o 0x8000 4 32 fun w => .ro fun s => vfMap s w Vf.overshare,
   arrReg o 0x8080 4 32 fun w => .ro fun s => vfMap s w fun f => f.stop.isSome,
   arrReg o 0x8100 4 32 fun w => .ro fun s => vfMap s w Vf.stalled]

/-! ### KEY (R412): read only -/

def keyReg (o : Nat) : Option Reg :=
  firstReg [pick o
    [(0x00, .ro fun s => let k := s.key; flagsWord [k.ready, k.rkValid, k.tampLatched, (slotOf s 0).isSome, k.attest.isSome, k.fwBusy]),
     (0x04, .ro fun s => wd (tampStat s)),
     (0x08, .ro fun s => wd s.key.tampEn.toNat),
     (0x0C, .ro fun s => s.key.fogCount),
     (0x10, .ro fun s => s.key.fogOptime),
     (0x14, .ro fun s => wd s.key.rkGen),
     (0x18, .ro fun s => let k := s.key; wd (k.running + fl k.trial 1 + k.trialNext.getD k.committed * 4 + fl k.otherVerified 3
        + (manifestOf s k.running).svn % 128 * 2 ^ 8 + k.svnFuse * 2 ^ 16 + k.revoked.toNat * 2 ^ 24)),
     (0x1C, .ro fun s => wd s.key.slots.length)],
   arrReg o 0x40 4 8 fun w => .ro fun s => mapWord 32 fun j => (slotOf s (32 * w + j)).isSome,
   arrReg o 0x100 8 256 fun n => .ro fun s => ((slotOf s n).map fun k => wd (k.attr.toNat + k.type * 2 ^ 8)).getD 0#32,
   arrReg o 0x104 8 256 fun n => .ro fun s => ((slotOf s n).map fun k => k.keyId).getD 0#32]

/-! ### EVR (R431) -/

/-- EVR_RD_BUF[i]. -/
def rdWord (s : State) (i : Nat) : Word :=
  match s.evr.rdBuf with
  | some r => BitVec.ofNat 32 (unle ((r.octets.drop (4 * i)).take 4))
  | none => 0#32

def evrReg (o : Nat) : Option Reg :=
  firstReg [pick o
    [(0x00, .ro fun s => wd (evrStat s)),
     (0x04, .lo fun s => s.evr.nextSeq),
     (0x08, .hiOf 0x120004),
     (0x0C, .lo fun s => oldestSeq s.evr),
     (0x10, .hiOf 0x12000C),
     (0x14, .ro fun s => wd (heldRecs s.evr).length),
     (0x18, .ro fun s => wd (logUsed s.evr)),
     (0x1C, .ro fun s => wd (stageUsed s.evr)),
     (0x20, .rc (fun s => s.evr.dropped) (modEvr fun e => { e with dropped := 0#32 })),
     (0x24, .ro fun s => s.evr.optime),
     (0x28, .ro fun s => s.evr.pwrcyc),
     (0x2C, .ro fun s => s.evr.clearCnt),
     (0x30, .ro fun s => wd (badBlocks s.evr)),
     (0x40, .rw (fun s => s.evr.rdSelLo) fun v => modEvr fun e => { e with rdSelLo := v }),
     (0x44, .act (fun s => s.evr.rdSelHi) execEvrRdSelect),
     (0x48, .wo execEvrRdNext),
     (0x4C, .ro fun s => wd (s.evr.rdStat + ((s.evr.rdBuf.map fun r => r.ev.len).getD 0) * 2 ^ 16))],
   arrReg o 0x1000 4 1024 fun i => .ro fun s => rdWord s i]

/-! ### CMD (R389) -/

/-- CMD_STAT. -/
def cmdStat (s : State) : Word :=
  let c := s.cmd
  let owner := match c.txn with
    | some x => x.src
    | none => 0xFF
  wd (fl c.txn.isSome 0 + fl c.dirty 1 + fl (decide (s.pwr.shed = 0) && (udpServed s 0 || udpServed s 1)) 2 + owner * 2 ^ 8 + c.abortCause * 2 ^ 16)

def ownerIp (s : State) : Word :=
  match s.cmd.txn with
  | some x => if isUdp x.src then wd x.remote.1 else 0#32
  | none => 0#32

def stagedCount (s : State) : Nat := (s.cmd.txn.map fun x => x.staged.length).getD 0

def modIp (p : Nat) (f : IpCfg → IpCfg) (s : State) : State := modCmd (fun c => { c with ip := lmod c.ip p f }) s

def ipReg (p o : Nat) : Option Reg :=
  pick o
    [(0x0, .cfg (fun s => (ipOf s p).addr) fun v => modIp p fun i => { i with addr := v }),
     (0x4, .cfg (fun s => (ipOf s p).mask) fun v => modIp p fun i => { i with mask := v }),
     (0x8, .cfg (fun s => (ipOf s p).gw) fun v => modIp p fun i => { i with gw := v }),
     (0xC, .cfg (fun s => wd (ipOf s p).ctl.toNat) fun v => modIp p fun i => { i with ctl := v.setWidth 2 })]

def cmdRc (get : Cmd → Word) (f : Cmd → Cmd) : Reg := .rc (fun s => get s.cmd) (modCmd f)

def cmdReg (o : Nat) : Option Reg :=
  firstReg [pick o
    [(0x00, .ro cmdStat),
     (0x04, .ro fun s => s.cmd.cfgSeq),
     (0x08, .ro ownerIp),
     (0x0C, .ro fun s => wd (stagedCount s + s.cmd.failPos * 2 ^ 16)),
     (0x10, cmdRc Cmd.accepted fun c => { c with accepted := 0#32 }),
     (0x14, cmdRc Cmd.refused fun c => { c with refused := 0#32 }),
     (0x18, cmdRc Cmd.authFail fun c => { c with authFail := 0#32 }),
     (0x1C, cmdRc Cmd.replayed fun c => { c with replayed := 0#32 }),
     (0x20, cmdRc Cmd.noreplyErr fun c => { c with noreplyErr := 0#32 }),
     (0x24, cmdRc Cmd.fetchErr fun c => { c with fetchErr := 0#32 }),
     (0x28, cmdRc Cmd.replyLost fun c => { c with replyLost := 0#32 }),
     (0x2C, cmdRc Cmd.udpDrop fun c => { c with udpDrop := 0#32 }),
     (0x30, cmdRc Cmd.cfgAborted fun c => { c with cfgAborted := 0#32 })],
   winReg o 0x100 0x10 2 ipReg]

/-! ### Words the host keeps (log entry 24) -/

/-- Key of a word of function fn: configuration space, or its MSI-X table. -/
abbrev pciKey (fn o : Nat) : Nat := fn * 2 ^ 12 + o
abbrev msixKey (fn o : Nat) : Nat := 2 ^ 24 + fn * 2 ^ 12 + o

def pciWord (k : Nat) (reset : Word) : Reg :=
  .rw (fun s => tgetD s.vfm.pci k reset) fun v => modVfm fun x => { x with pci := tset x.pci k v }

/-- The MSI-X table of a function with n vectors: a vector's control resets to masked. -/
def msixReg (fn n o : Nat) : Option Reg := arrReg o 0 4 (4 * n) fun i => pciWord (msixKey fn (4 * i)) (if i % 4 = 3 then 1#32 else 0#32)

/-! ### VF BAR0 (R337, R338) -/

/-- A field of VF v that a read clears. -/
def vfRc (v : Nat) (get : Vf → Word) (f : Vf → Vf) : Reg := .rc (fun s => get (vfOf s v)) (modVf v f)

/-- The request bits of VF v (R348). -/
def vreqOf (s : State) (v : Nat) : Word := mapWord 16 fun j => s.cyc.v.getLsbD (16 * (v - 1) + j)

/-- A register of VF v's BAR0. -/
def vfBarReg (v o : Nat) : Option Reg :=
  firstReg [pick o
    [(0x000, .ro fun _ => wd v),
     (0x004, .ro fun s => wd (vfStat s v)),
     (0x008, .ro fun s => wd (vfOf s v).shareKib),
     (0x00C, .ro fun s => wd (vfOf s v).charged),
     (0x010, .ro (vreqOf · v)),
     (0x014, .act (vreqOf · v) fun t _ x s => execVfVreqSet t v x s),
     (0x018, .act (vreqOf · v) fun t _ x s => execVfVreqClr t v x s),
     (0x01C, vfRc v (fun f => f.dropSample) fun f => { f with dropSample := 0#32 }),
     (0x020, vfRc v (fun f => f.dropFrame) fun f => { f with dropFrame := 0#32 }),
     (0x024, vfRc v (fun f => f.losslessLost) fun f => { f with losslessLost := 0#32 }),
     (0x028, .ro fun s => wd (vfOf s v).mac),
     (0x02C, .ro fun s => wd ((vfOf s v).mac / 2 ^ 32 + (vfOf s v).vid * 2 ^ 16)),
     (0x300, .onRead fun t _ s => execMbRxDataRead t v s),
     (0x304, .ro fun s => (tgetD s.mbx.vfTx v Mail.empty).meta'),
     (0x308, .wo fun t _ x s => execMbTxPost t v x s),
     (0x30C, .ro fun s => wd (fl (tgetD s.mbx.vfRx v Mail.empty).full 0 + tgetD s.mbx.epochVf v 0 * 2 ^ 8)),
     (0x310, .rc (fun s => tgetD s.mbx.vfNak v 0#32) (modMbx fun m => { m with vfNak := tdel m.vfNak v })),
     (0x400, .wo fun t _ x s => execDoorbellRx t v x s),
     (0x404, .wo fun t _ x s => execDoorbellTx t v x s)],
   winReg o 0x100 0x100 1 fun _ k => ringReg (.rx v) k,
   winReg o 0x200 0x100 1 fun _ k => ringReg (.tx v) k,
   winReg o 0x1000 0x20 1 fun _ k => msixReg v 2 k]

/-! ### Configuration space (R333, R334; the places that the PCI standards give their fields, log entry 24) -/

/-- A capability header. -/
def capHead (id next : Nat) (rest : Nat := 0) : Reg := .ro fun _ => wd (id + next * 2 ^ 8 + rest * 2 ^ 16)
def extHead (id next : Nat) : Reg := .ro fun _ => wd (id + 2 ^ 16 + next * 2 ^ 20)

/-- A base address register that keeps the bits of its mask. -/
def barReg (fn o mask low : Nat) : Reg :=
  .rw (fun s => tgetD s.vfm.pci (pciKey fn o) (wd low)) fun v => modVfm fun x => { x with pci := tset x.pci (pciKey fn o) (v &&& wd mask ||| wd low) }

/-- Command and Status of a function: Memory Space Enable and Bus Master Enable. -/
def commandReg (fn : Nat) : Reg :=
  if fn = 0 then
    .rw (fun s => wd (fl s.vfm.pfMemEn 1 + fl s.vfm.pfBusMaster 2 + 0x100000)) fun v => modVfm fun x => { x with pfMemEn := bit v 1, pfBusMaster := bit v 2 }
  else
    .rw (fun s => wd (fl (vfOf s fn).memEn 1 + fl (vfOf s fn).busMaster 2 + 0x100000)) fun v => modVf fn fun f => { f with memEn := bit v 1, busMaster := bit v 2 }

/-- Device Control: bit 15 initiates FLR (R354, R356) and reads 0. -/
def devCtl (fn : Nat) : Reg :=
  .actAt (pciWord (pciKey fn 0x78) 0x2810#32).get fun t _ _ v s =>
    let s := modVfm (fun x => { x with pci := tset x.pci (pciKey fn 0x78) (v &&& 0x7FFF#32) }) s
    if bit v 15 then (if fn = 0 then execPfFlr t s else execVfFlr t fn s) else go s

/-- SR-IOV control: VF Enable in bit 0, ARI Capable Hierarchy in bit 4. -/
def sriovCtl : Reg :=
  .act (fun s => wd (fl s.vfm.vfEnable 0 + fl s.vfm.ari 4)) fun t _ v s => execVfEnableWrite t (bit v 0) s.vfm.numVfs (bit v 4) s

/-- NumVFs changes only while VF Enable is 0 (R334). -/
def numVfsReg : Reg :=
  .rw (fun s => wd s.vfm.numVfs) fun v => modVfm fun x => if x.vfEnable || decide (1024 < bits v 15 0) then x else { x with numVfs := bits v 15 0 }

/-- A word of the configuration space of function fn. -/
def cfgSpaceReg (fn o : Nat) : Option Reg :=
  firstReg [pick o
    [(0x00, .ro fun _ => if fn = 0 then 0x01601E5A#32 else 0x01611E5A#32),
     (0x04, commandReg fn),
     (0x08, .ro fun _ => 0x0B400000#32),
     (0x34, .ro fun _ => if fn = 0 then 0x40#32 else 0x50#32),
     (0x50, capHead 0x11 0x70 (if fn = 0 then 63 else 1)),
     (0x54, .ro fun _ => if fn = 0 then 0x2#32 else 0x1000#32),
     (0x58, .ro fun _ => if fn = 0 then 0x8002#32 else 0x2000#32),
     (0x70, capHead 0x10 0 2),
     (0x74, .ro fun _ => 0x10008022#32),
     (0x78, devCtl fn),
     (0x80, .rw (fun s => tgetD s.vfm.pci (pciKey fn 0x80) 0#32) fun v => modVfm fun x => { x with pci := tset x.pci (pciKey fn 0x80) (v &&& 3#32) }),
     (0x148, extHead 0x0E (if fn = 0 then 0x158 else 0))],
   if fn ≠ 0 then pick o [(0x100, extHead 0x0E 0)]
   else pick o
    [(0x10, barReg 0 0x10 0xFFC00000 4),
     (0x14, pciWord (pciKey 0 0x14) 0#32),
     (0x18, barReg 0 0x18 0xFFFF0000 4),
     (0x1C, pciWord (pciKey 0 0x1C) 0#32),
     (0x40, capHead 0x01 0x50 3),
     (0x44, .act (fun s => wd (if s.vfm.d3hot then 3 else 0)) fun t _ v s => execPfPowerStateChange t (bits v 1 0 == 3) s),
     (0x100, extHead 0x01 0x148),
     (0x104, .rw (fun s => tgetD s.vfm.pci 0x104 0#32) fun v => modVfm fun x => { x with pci := tmodD x.pci 0x104 0#32 (· &&& ~~~v) }),
     (0x158, extHead 0x10 0x1A0),
     (0x15C, .ro fun _ => 0#32),
     (0x160, sriovCtl),
     (0x164, .ro fun _ => 0x04000400#32),
     (0x168, numVfsReg),
     (0x16C, .ro fun _ => 0x00010001#32),
     (0x170, .ro fun _ => 0x01610000#32),
     (0x174, .ro fun _ => 1#32),
     (0x178, pciWord (pciKey 0 0x178) 1#32),
     (0x17C, barReg 0 0x17C 0xFFFFC000 4),
     (0x180, pciWord (pciKey 0 0x180) 0#32),
     (0x1A0, extHead 0x03 0),
     (0x1A4, .ro fun _ => Config.uidLo),
     (0x1A8, .ro fun _ => Config.uidHi)]]

end Sys2Proof.Machine
end

