-- ==== Sys2Proof/Machine/RegsIn.lean ====
section
/-! DEFINITION. The registers of SYS, PWR, SPD, ACQ, FLT and TRG (R39, R453, R245, R68, R88, R110). -/

namespace Sys2Proof.Machine

/-! ### SYS (R39) -/

def modSys (f : Sys → Sys) (s : State) : State := { s with sys := f s.sys }

def sysState (s : State) : Word := wd (s.sys.st.code + s.pwr.shed * 2 ^ 4 + fl (nbit (bkp s 57) 0) 7)

def sysReg (o : Nat) : Option Reg :=
  firstReg [pick o
    [(0x00, .ro fun _ => wd sysId),
     (0x04, .ro fun _ => Config.sysRev &&& 0xFFFF#32),
     (0x08, .ro fun _ => wd (fl Config.variant 0)),
     (0x0C, .ro sysState),
     (0x10, .ro fun s => s.sys.rstCause),
     (0x14, .rw (fun s => s.sys.rstHist) fun v => modSys fun y => { y with rstHist := y.rstHist &&& ~~~v }),
     (0x18, .ro fun s => s.sys.warmCount),
     (0x1C, .ro fun s => s.sys.perstCount),
     (0x20, .lo fun _ => Config.uidLo.toNat + Config.uidHi.toNat * 2 ^ 32),
     (0x24, .hiOf 0x20),
     (0x28, .ro fwVer),
     (0x2C, .rc (fun s => s.sys.busViol) (modSys fun y => { y with busViol := 0#32 })),
     (0x30, .ro fun s => s.sys.busViolAddr),
     (0x34, .rw (fun s => s.sys.scratch) fun v => modSys fun y => { y with scratch := v })],
   arrReg o 0x100 4 64 fun n => .onRead fun t by' s => execSemRead t by' n s]

/-! ### PWR (R453) -/

/-- A write of PWR_CTL: CFGCLAMP sets when the floor rises to 14.4 V (R433). -/
def pwrCtlWrite (v : Word) (s : State) : State :=
  modPwr (fun p => let p := { p with ctl := v &&& 0x1FFFF#32 }; { p with cfgClamp := p.cfgClamp || clamped p.floorPct p.floorField }) s

def pwrStat (s : State) : Word :=
  let p := s.pwr
  flagsWord [decide (p.floor ≤ p.vin), p.recovered, p.onBank, p.charging, p.ht.isSome, p.capValid, p.capLow, p.vinOver, p.cfgClamp]

def pwrReg (o : Nat) : Option Reg :=
  firstReg [pick o
    [(0x00, .cfg (fun s => s.pwr.ctl) pwrCtlWrite),
     (0x04, .rw pwrStat fun v => modPwr fun p => { p with cfgClamp := p.cfgClamp && !bit v 8 }),
     (0x08, .ro fun s => wd s.pwr.vin),
     (0x0C, .ro fun s => wd s.pwr.vhu),
     (0x10, .ro fun s => wd s.pwr.floor),
     (0x24, .ro fun s => s.pwr.cHu),
     (0x28, .ro fun s => s.pwr.cHuOptime),
     (0x2C, .cfg (fun s => s.pwr.extC) fun v s => ratedChanged (modPwr (fun p => { p with extC := v &&& 0xFFFF#32 }) s)),
     (0x30, .cfg (fun s => s.pwr.htCtl) fun v => modPwr fun p => { p with htCtl := v &&& 0x3FFF#32 }),
     (0x34, .rc (fun s => s.pwr.intCnt) (modPwr fun p => { p with intCnt := 0#32 })),
     (0x38, .ro fun s => s.pwr.intLast),
     (0x3C, .rc (fun s => wd s.pwr.vhuMin) (modPwr fun p => { p with vhuMin := 0xFFFF })),
     (0x60, .ro fun s => wd (s.pwr.wakeBi.toNat + s.pwr.wakeTeg.toNat * 2 ^ 16)),
     (0x64, .ro fun s => wd (fl s.pwr.wakeN 0)),
     (0x68, .ro fun s => s.pwr.wakeSrc),
     (0x6C, .ro fun s => s.pwr.wakeTime),
     (0x70, .ro fun s => s.pwr.slCnt),
     (0x74, .ro fun s => wd (bkp s 56))],
   arrReg o 0x14 4 4 fun i => .ro fun s => wd (s.pwr.thr.getD i 0),
   arrReg o 0x40 4 5 fun i => .rc (fun s => s.pwr.shedCnt.getD i 0#32) (modPwr fun p => { p with shedCnt := lset p.shedCnt i 0#32 })]

/-! ### SPD (R245) -/

def spdStat (s : State) : Word :=
  let d := s.spd
  flagsWord [d.belowPlan, d.belowSeen, decide (d.fastSteps > 0), d.planShort, d.overtemp, d.ovrEn, decide (s.pwr.shed ≥ 4), d.deferred && !planBarred s, d.cfgClamp]

def spdReg (o : Nat) : Option Reg :=
  firstReg [pick o
    [(0x00, .act (fun s => wd s.spd.siPlan) execSpdSiPlanWrite),
     (0x04, .rw spdStat fun v => modSpd fun d => { d with belowSeen := d.belowSeen && !bit v 1, cfgClamp := d.cfgClamp && !bit v 8 }),
     (0x08, .ro fun s => wd (siMilli s.spd.siCount + s.spd.siMon * 2 ^ 16)),
     (0x0C, .rc (fun s => wd s.spd.siMin) (modSpd fun d => { d with siMin := 0xFFFF })),
     (0x10, .ro fun s => wd (vcoreCode s + s.spd.planCode * 2 ^ 8 + s.spd.fastSteps * 2 ^ 16)),
     (0x14, .act (fun s => wd (s.spd.ovrCode + fl s.spd.ovrEn 8)) execSpdVcoreOvrWrite),
     (0x18, .ro fun s => wd (s.spd.siReq + s.spd.siReqLimit * 2 ^ 16)),
     (0x1C, .ro fun s => wd s.spd.siShed4),
     (0x20, .ro fun s => wd (s.spd.siWcPlan + s.spd.siWcMax * 2 ^ 16)),
     (0x24, .ro fun s => wd (s.spd.ageF + s.spd.ageRate * 2 ^ 16)),
     (0x28, .ro fun s => wd s.spd.planNo),
     (0x2C, .ro fun s => wd s.spd.planOptime),
     (0x30, .rc (fun s => s.spd.belowCnt) (modSpd fun d => { d with belowCnt := 0#32 }))],
   arrReg o 0x40 4 24 fun m => .ro fun s => wd (siMilli (s.spd.mon.getD m 0)),
   arrReg o 0x100 4 16 fun c => .ro fun s => let a := s.spd.admCore.getD c (0, 0); wd (a.1 + a.2 * 2 ^ 16),
   arrReg o 0x140 4 16 fun b => .ro fun s => wd (s.spd.admBlu.getD b 0),
   arrReg o 0x180 4 16 fun c => .ro fun s => wd (s.spd.admBu.getD c 0)]

/-! ### ACQ (R68) -/

/-- A write of ACQ_CTL: another base moves the strobes (R46, R77). -/
def acqCtlWrite (v : Word) (s : State) : State :=
  let b := bits v 1 0
  if s.acq.tbsel = b then s else strobeMove 1 (modAcq (fun a => { a with tbsel := b }) s)

def acqStat (s : State) : Word :=
  flagsWord [s.acq.locked, s.acq.ch.any fun c => decide (c.resync > 0), s.acq.calBusy, s.acq.cfgClamp, s.acq.ck.any CkConv.badSeq]

/-- CFGCLAMP of ACQ_STAT sets (R45, R57, R60). -/
def acqClamp (c : Bool) (s : State) : State := modAcq (fun a => { a with cfgClamp := a.cfgClamp || c }) s

/-- A write of ACQ_CK_CTL (R54, R56, R57): another LEN is a new sequence. -/
def ckCtlWrite (c : Nat) (v : Word) (s : State) : State :=
  let v := v &&& 0xF0F0F#32
  let moved := bits v 3 0 != bits (ckOf s c).ctl 3 0
  let s := acqClamp (avgClamps v) (setCkCtl c v s)
  if moved then implMask (seqWritten c s) else s

/-- Coefficients of converter i: 0 to 23 main, 24 to 27 check, 28 housekeeping. -/
def coefOf (s : State) (i : Nat) : Int × Nat :=
  if i < 24 then ((acqOf s i).offs, (acqOf s i).gain) else if i < 28 then ((ckOf s (i - 24)).offs, (ckOf s (i - 24)).gain) else (s.acq.hk.offs, s.acq.hk.gain)

/-- A coefficient is written in MAINT only, by any master, and is no configuration (R52, R68). -/
def coefReg (get : State → Word) (f : Word → State → State) : Reg :=
  .actAt get fun _ off by' v s => if s.sys.st = .maint then go (regWrite by' off (f v) s) else go (busViolate by' off s)

def offsReg (i : Nat) : Reg :=
  coefReg (fun s => wd (ifield 12 (coefOf s i).1)) fun v s => setCoef i (sext 12 v.toNat) (coefOf s i).2 s

def gainReg (i : Nat) : Reg :=
  coefReg (fun s => wd (coefOf s i).2) fun v s => setCoef i (coefOf s i).1 (bits v 21 0) s

def ckReg (c o : Nat) : Option Reg :=
  firstReg [pick o
    [(0x00, .cfg (fun s => (ckOf s c).ctl) (ckCtlWrite c)),
     (0x04, .act (fun s => (ckOf s c).seqA) fun t by' v s => execAcqCkSeqWrite t by' c false v s),
     (0x08, .act (fun s => (ckOf s c).seqB) fun t by' v s => execAcqCkSeqWrite t by' c true v s),
     (0x0C, offsReg (24 + c)),
     (0x10, gainReg (24 + c))],
   arrReg o 0x20 4 8 fun m => .ro fun s => iw ((ckOf s c).avg.getD m 0)]

/-- Requests pending in bits 0 to 4 and conversions running in bits 8 to 12, CK0 to CK3 and HK. -/
def urgStat (s : State) : Word :=
  wd (ofBits ((s.acq.ck.map fun k => k.urg.isSome) ++ [s.acq.hk.urg.isSome]) + 2 ^ 8 * ofBits ((s.acq.ck.map fun k => k.urgRun.isSome) ++ [s.acq.hk.urgRun.isSome]))

def acqReg (o : Nat) : Option Reg :=
  firstReg [pick o
    [(0x00, .cfg (fun s => wd s.acq.tbsel) acqCtlWrite),
     (0x04, .rw acqStat fun v => modAcq fun a => { a with cfgClamp := a.cfgClamp && !bit v 3 }),
     (0x08, .ro fun s => s.acq.fault),
     (0x0C, .cfg (fun s => s.acq.plausCtl) fun v s => acqClamp (decide (bits v 23 16 < 4)) (implMask (modAcq (fun a => { a with plausCtl := v &&& 0x1FFFFFF#32 }) s))),
     (0x10, .cfg (fun s => s.acq.plausEn) fun v s => implMask (modAcq (fun a => { a with plausEn := v &&& 0xFFFFFF#32 }) s)),
     (0x14, .act (fun s => mapWord 24 (implOf s)) execAcqImplClear),
     (0x18, .ro fun s => mapWord 24 (unchkOf s)),
     (0x1C, .rw (fun s => s.acq.ovr) fun v => modAcq fun a => { a with ovr := a.ovr &&& ~~~v }),
     (0x20, .wo execAcqUrgWrite),
     (0x24, .ro urgStat),
     (0x28, .ro fun s => iw s.acq.urgRes),
     (0x2C, .ro fun s => s.acq.urgNs),
     (0x30, .ro fun s => s.acq.urgSec),
     (0x34, .ro fun s => s.acq.urgDone),
     (0x38, .rc (fun s => s.acq.urgRefused) (modAcq fun a => { a with urgRefused := 0#32 })),
     (0x3C, .ro fun s => wd (fl s.acq.calBusy 0)),
     (0x40, .ro fun s => s.acq.calFail),
     (0x44, .ro fun s => s.acq.calOptime),
     (0x48, .ro fun s => s.acq.calTemp),
     (0x500, .rw (fun s => s.acq.hk.ctl) fun v s => let v := v &&& 0xF0F00#32; acqClamp (avgClamps v) (setHkCtl v s)),
     (0x504, offsReg 28),
     (0x508, gainReg 28)],
   arrReg o 0x100 4 24 fun n => .cfg (fun s => wd (acqOf s n).skew) fun v => setSkew n (bits v 11 0),
   arrReg o 0x180 4 24 fun n => .ro fun s => wd (acqOf s n).adv,
   arrReg o 0x200 4 24 offsReg,
   arrReg o 0x280 4 24 gainReg,
   arrReg o 0x300 4 24 fun n => .ro fun s => (acqOf s n).rawWord,
   arrReg o 0x380 4 24 fun n => .ro fun s => iw (acqOf s n).diff,
   winReg o 0x400 0x40 4 ckReg,
   arrReg o 0x540 4 16 fun h => .ro fun s => iw (s.acq.hk.res.getD h 0)]

/-! ### FLT (R88) -/

/-- Stage st of channel n. -/
def fsOf (s : State) (n st : Nat) : FlashStage := (fltOf s n).fs.getD st FlashStage.reset

def modFs (n st : Nat) (f : FlashStage → FlashStage) (s : State) : State := modFlt n (fun c => { c with fs := lmod c.fs st f }) s

/-- A write of a stage's setting: without effect while the stage is claimed (R155), else with EV_FLT_CFGERR when a bit sets (R87). -/
def fsReg (n st : Nat) (get : FlashStage → Word) (f : Word → FlashStage → FlashStage) : Reg :=
  .actAt (fun s => get (fsOf s n st)) fun _ off by' v s =>
    if (claimOf s (2 * n + st)).isSome && mayConfigure by' s then go s
    else go (cfgWrite by' off (fun s => cfgErrEvent (fltCfgErr s) (modFs n st (f v) s)) s)

def fltGeom (c : FltCh) : Word := wd (c.geom.l1 - 1 + (c.geom.l2 - 1) * 2 ^ 10 + rateD1 c.geom.rate * 2 ^ 18 + rateD2 c.geom.rate * 2 ^ 24)

/-- FLT_STAT: DCB_FROZEN is either freeze of R74. -/
def fltStat (c : FltCh) : Word := flagsWord [c.settling, c.freeze || c.autoFrozen, c.cfgErr]

def fltFt (c : FltCh) : Word :=
  match c.ft with
  | x :: _ => wd (ifield 24 x.f + x.flags.toNat * 2 ^ 24 + fl (!x.complete) 30)
  | [] => 0#32

/-- The registers of a flash stage (R88); a COUNT of 4,096 reads 4,095, the most its field holds (log entry 181). -/
def flashReg (n st o : Nat) : Option Reg :=
  pick o
    [(0x00, fsReg n st (fun f => f.ctl) fun v f => { f with ctl := v &&& 0x3FFFFF0F#32 }),
     (0x04, fsReg n st (fun f => wd (ifield 25 f.level)) fun v f => { f with level := sext 25 v.toNat }),
     (0x08, fsReg n st (fun f => wd f.hyst) fun v f => { f with hyst := bits v 23 0 }),
     (0x0C, .ro fun s => let f := fsOf s n st; wd (fl f.out 0 + fl f.blocked 1 + min 4095 f.count * 4)),
     (0x10, .ro fun s => (fsOf s n st).puNs),
     (0x14, .ro fun s => (fsOf s n st).puSec),
     (0x18, .ro fun s => (fsOf s n st).puCnt)]

def fltChReg (n o : Nat) : Option Reg :=
  firstReg [pick o
    [(0x00, .act (fun s => (fltOf s n).ctl) fun t by' v s => execFltDcbFreezeWrite t by' n v s),
     (0x04, .act (fun s => (fltOf s n).scale) fun t by' v s => execFltScaleEofsWrite t by' n false v s),
     (0x08, .act (fun s => (fltOf s n).eofs) fun t by' v s => execFltScaleEofsWrite t by' n true v s),
     (0x0C, .cfg (fun s => wd (fltOf s n).detw) fun v => modFlt n fun c => { c with detw := bits v 15 0 }),
     (0x10, .ro fun s => fltGeom (fltOf s n)),
     (0x14, .ro fun s => wd (geomM (fltOf s n).geom + (acqOf s n).adv * 2 ^ 16)),
     (0x18, .ro fun s => fltStat (fltOf s n)),
     (0x20, .ro fun s => (fltOf s n).out),
     (0x24, .ro fun s => wd (fltOf s n).outq.toNat),
     (0x28, .ro fun s => wd (fltOf s n).outidx),
     (0x30, .ro fun s => fltFt (fltOf s n)),
     (0x40, .ro fun s => (fltOf s n).peakMax),
     (0x44, .ro fun s => (fltOf s n).peakMin),
     (0x48, .ro fun s => (fltOf s n).rms),
     (0x4C, .ro fun s => (fltOf s n).env),
     (0x50, .ro fun s => (fltOf s n).holdMax),
     (0x54, .ro fun s => (fltOf s n).holdMin),
     (0x58, .wo fun t by' v s => execFltDetClr t by' n v s),
     (0x5C, .ro fun s => wd (fltOf s n).detq.toNat)],
   winReg o 0x100 0x20 2 (flashReg n)]

/-- A flag of stages FS(32 h) to FS(32 h + 31). -/
def stageMap (s : State) (h : Nat) (f : FlashStage → Bool) : Word := mapWord (if h = 0 then 32 else 16) fun i => f (fsOf s ((32 * h + i) / 2) ((32 * h + i) % 2))

def stageSeen (h : Nat) (v : Word) (s : State) : State :=
  foldOver (ones (if h = 0 then 32 else 16) v.toNat) (fun i => modFs ((32 * h + i) / 2) ((32 * h + i) % 2) fun f => { f with seen := false }) s

def fltReg (o : Nat) : Option Reg :=
  firstReg [winReg o 0 0x400 24 fltChReg, pick o
    [(0xF000, .ro fun s => mapWord 24 fun n => (fltOf s n).settling),
     (0xF004, .ro fun s => stageMap s 0 FlashStage.out),
     (0xF008, .ro fun s => stageMap s 1 FlashStage.out),
     (0xF00C, .rw (fun s => stageMap s 0 FlashStage.seen) (stageSeen 0)),
     (0xF010, .rw (fun s => stageMap s 1 FlashStage.seen) (stageSeen 1)),
     (0xF014, .ro fun s => wd (fltCfgErr s))]]

/-! ### TRG (R110) -/

def trgStat (s : State) : Word :=
  flagsWord [shtRuns s, (openRecord s).isSome,
    s.trg.records.any fun r => r.live && r.wins.any fun w => decide (shtNow s < w.to'),
    decide (stagingUsed s > 0), !bit s.trg.ctl 6 && (nextFree s).isNone, stageFull s, decide (s.pwr.shed ≥ 2), decide (ringSpan s < s.trg.pre)]

/-- TRG_OLDEST_RECNO: a record is complete with COMMITTED = 1 only (R102). -/
def oldestRec (s : State) : Word :=
  match s.trg.records.find? fun r => r.flags.getLsbD rfCommitted with
  | some r => wd r.recno
  | none => 0xFFFFFFFF#32

def trgReg (o : Nat) : Option Reg :=
  firstReg [pick o
    [(0x00, .act (fun s => s.trg.ctl) execTrgArmedWrite),
     (0x04, .ro trgStat),
     (0x08, .cfg (fun s => wd s.trg.pre) fun v => modTrg fun g => { g with pre := bits v 15 0 }),
     (0x0C, .cfg (fun s => wd s.trg.post) fun v => modTrg fun g => { g with post := bits v 15 0 }),
     (0x10, .cfg (fun s => wd s.trg.maxlen) fun v => modTrg fun g => { g with maxlen := bits v 15 0 }),
     (0x14, .cfg (fun s => wd s.trg.frPre) fun v => modTrg fun g => { g with frPre := bits v 18 0 }),
     (0x18, .cfg (fun s => wd s.trg.frPost) fun v => modTrg fun g => { g with frPost := bits v 18 0 }),
     (0x1C, .cfg (fun s => s.trg.frMask) fun v => modTrg fun g => { g with frMask := v &&& 0xFFFFFF#32 }),
     (0x20, .ro fun s => wd s.trg.nextRecno),
     (0x24, .ro oldestRec),
     (0x28, .ro fun s => wd (storeFree s)),
     (0x2C, .rc (fun s => s.trg.lost) (modTrg fun g => { g with lost := 0#32 })),
     (0x30, .rc (fun s => s.trg.frLost) (modTrg fun g => { g with frLost := 0#32 })),
     (0x34, .rc (fun s => s.trg.merged) (modTrg fun g => { g with merged := 0#32 })),
     (0x38, .ro fun s => s.trg.lastSrc),
     (0x3C, .ro fun s => s.trg.lastNs),
     (0x40, .ro fun s => s.trg.lastSec),
     (0x44, .ro fun s => s.trg.lastCnt),
     (0x48, .wo execTrgForceWrite),
     (0x4C, .ro fun s => wd (cdiv (stagingUsed s) 65536)),
     (0x50, .ro fun s => wd (ringSpan s))],
   arrReg o 0x100 8 256 fun i => .cfg (fun s => tgetD s.trg.srcA i 0#32) fun v s => setSource i v (tgetD s.trg.srcB i 0#32) s,
   arrReg o 0x104 8 256 fun i => .cfg (fun s => tgetD s.trg.srcB i 0#32) fun v s => setSource i (tgetD s.trg.srcA i 0#32) v s]

end Sys2Proof.Machine
end

