-- ==== Sys2Proof/Machine/RegsNet.lean ====
section
/-! DEFINITION. The registers of MAC, RED and SWC (R311, R312, R331). -/

namespace Sys2Proof.Machine

/-! ### MAC (R311) -/

/-- MAC_STAT[p]: a port without power has no lock. -/
def macStat (s : State) (p : Nat) : Word :=
  let m := macOf s p
  let c := if portOff s p then LinkCond.reset else m.cond
  let xg := m.mode p == 1
  wd (fl (linkUp s p) 0 + m.speed * 2 + fl c.anDone 3 + fl (macPaused s p) 4 + fl c.pcsLock 5 + fl (xg && c.hiBer) 6
    + fl (xg && c.localFault) 7 + fl (xg && c.remoteFault) 8 + fl (inbandHdx c) 9 + fl m.cfgErr 10)

/-- A configuration register of port p. -/
def macCfg (p : Nat) (get : MacPort → Word) (f : Word → MacPort → MacPort) : Reg := .cfg (fun s => get (macOf s p)) fun v => modMac p (f v)

/-- MAC_CNT[c], the paused time up to now counted (R291). -/
def macCntOf (s : State) (p c : Nat) : Nat := ((macOf (pauseAccrue p s) p).cnt.getD c 0#64).toNat

def macCntClear (p c : Nat) (s : State) : State := modMac p (fun m => { m with cnt := lset m.cnt c 0#64 }) (pauseAccrue p s)

/-- Word j of a wake mask takes v. -/
def maskWord (m : BitVec 128) (j : Nat) (v : Word) : BitVec 128 :=
  (m &&& ~~~((0xFFFFFFFF#128) <<< (32 * j))) ||| (v.setWidth 128 <<< (32 * j))

/-- A register of wake pattern k. -/
def wakeCfg (p k : Nat) (get : WakePat → Word) (f : Word → WakePat → WakePat) : Reg :=
  macCfg p (fun m => get (m.wake.getD k ⟨0, 0#128, 0#32⟩)) fun v m => { m with wake := lmod m.wake k (f v) }

def wakeReg (p k o : Nat) : Option Reg :=
  firstReg [pick o
    [(0x00, wakeCfg p k (fun w => wd w.ofs) fun v w => { w with ofs := bits v 10 0 }),
     (0x14, wakeCfg p k (fun w => w.chk) fun v w => { w with chk := v })],
   arrReg o 0x04 4 4 fun j => wakeCfg p k (fun w => wd (w.mask.toNat >>> (32 * j))) fun v w => { w with mask := maskWord w.mask j v }]

def macPortReg (p o : Nat) : Option Reg :=
  firstReg [pick o
    [(0x000, .cfg (fun s => (macOf s p).ctl) (setMacCtl p)),
     (0x004, .rw (macStat · p) fun v => modMac p fun m => { m with cfgErr := m.cfgErr && !bit v 10 }),
     (0x008, .ro fun _ => wd (Config.mac p)),
     (0x00C, .ro fun _ => wd (Config.mac p / 2 ^ 32 % 65536)),
     (0x010, macCfg p (fun m => wd m.maxLen) fun v m => { m with maxLen := bits v 13 0 }),
     (0x014, macCfg p (fun m => wd m.txQuanta) fun v m => { m with txQuanta := bits v 15 0 }),
     (0x018, macCfg p (fun m => wd (m.xoff + m.xon * 2 ^ 16)) fun v m => { m with xoff := bits v 15 0, xon := bits v 31 16 }),
     (0x01C, macCfg p (fun m => wd m.filtCtl.toNat) fun v m => { m with filtCtl := v.setWidth 4 }),
     (0x020, .ro fun s => sat32 (((macOf s p).pauseEnd.map fun e => e - s.now).getD 0)),
     (0x0C0, macCfg p (fun m => wd m.wakeCtl.toNat) fun v m => { m with wakeCtl := v.setWidth 9 }),
     (0x0C4, .rw (fun s => let m := macOf s p; wd (m.wakePat + fl m.wakeLink 3 + fl m.wakeSeen 4)) fun v => modMac p fun m => { m with wakeSeen := m.wakeSeen && !bit v 4 }),
     (0x0C8, .rc (fun s => (macOf s p).wakeCnt) (modMac p fun m => { m with wakeCnt := 0#32 }))],
   arrReg o 0x030 8 4 fun i => macCfg p (fun m => wd (m.uaddr.getD i (0, false)).1) fun v m =>
     { m with uaddr := lmod m.uaddr i fun a => (a.1 / 2 ^ 32 * 2 ^ 32 + v.toNat, a.2) },
   arrReg o 0x034 8 4 fun i => macCfg p (fun m => let a := m.uaddr.getD i (0, false); wd (a.1 / 2 ^ 32 + fl a.2 31)) fun v m =>
     { m with uaddr := lmod m.uaddr i fun a => (a.1 % 2 ^ 32 + bits v 15 0 * 2 ^ 32, bit v 31) },
   arrReg o 0x060 4 16 fun w => macCfg p (fun m => m.hash.getD w 0#32) fun v m => { m with hash := lset m.hash w v },
   arrReg o 0x0A0 4 8 fun r => macCfg p (fun m => let x := m.ranges.getD r (0, 0); wd (x.1 + x.2 * 2 ^ 16)) fun v m =>
     { m with ranges := lset m.ranges r (bits v 15 0, bits v 31 16) },
   winReg o 0x100 0x40 8 (wakeReg p),
   arrReg o 0x400 8 18 fun c => .lo (fun s => macCntOf s p c) (macCntClear p c),
   arrReg o 0x404 8 18 fun c => .hiOf (0xC0400 + 0x1000 * p + 8 * c)]

def macReg (o : Nat) : Option Reg := winReg o 0 0x1000 4 macPortReg

/-! ### RED (R312) -/

/-- RED_STAT[q]; the hold that remains is rounded up to whole seconds. -/
def redStat (s : State) (q : Nat) : Word :=
  let p := pairOf s q
  let st := match p.cfg.mode with
    | 0 => 0
    | 1 => 1
    | _ => if p.bothDown then 5 else if p.revert.isSome then 4 else if p.active = p.cfg.pref then 2 else 3
  let left := match p.holdFrom with
    | some f => cdiv (f + p.cfg.revertHoldS * NS - s.now) NS
    | none => 0
  wd (st + fl (p.active == 1) 3 + fl p.stbyFault 4 + fl p.holdFrom.isSome 5 + left * 2 ^ 16)

/-- Counter c of a pair, in register order, set to 0. -/
def Pair.clearCounter (p : Pair) : Nat → Pair
  | 0 => { p with failover := 0#32 }
  | 1 => { p with reverts := 0#32 }
  | 2 => { p with revertAbort := 0#32 }
  | 3 => { p with stbyDisc := 0#32 }
  | 4 => { p with missActCnt := 0#32 }
  | 5 => { p with missStbyCnt := 0#32 }
  | 6 => { p with dup := 0#32 }
  | 7 => { p with wrongA := 0#32 }
  | 8 => { p with wrongB := 0#32 }
  | 9 => { p with noRct := 0#32 }
  | 10 => { p with ntFull := 0#32 }
  | _ => { p with supRx := 0#32 }

def pairReg (q o : Nat) : Option Reg :=
  firstReg [pick o
    [(0x00, .ro fun s => let c := (pairOf s q).cfg; wd (c.mode + c.pref * 2 ^ 2 + c.flags % 2 * 2 ^ 3 + c.revertHoldS * 2 ^ 4)),
     (0x04, .ro fun s => wd (pairOf s q).cfg.pathSkewNs),
     (0x08, .ro (redStat · q)),
     (0x0C, .ro fun s => wd (pairOf s q).nodes.length)],
   arrReg o 0x20 4 12 fun c => .rc (fun s => (pairOf s q).counters.getD c 0#32) (modPair q (·.clearCounter c))]

def ownReg (z o : Nat) : Option Reg :=
  pick o
    [(0x0, .ro fun s => wd (ownCode s z + fl (ownEff s z) 3)),
     (0x4, .ro fun s => wd (ownEpoch s z)),
     (0x8, .ro fun s => wd (zoneOwnOf s z).heard),
     (0xC, .ro fun s => wd (zoneOwnOf s z).heardUnit)]

def redReg (o : Nat) : Option Reg :=
  firstReg [winReg o 0 0x100 2 pairReg, pick o
    [(0x1000, .ro fun s => wd (s.red.own.unitId + s.red.own.macalg * 2 ^ 16)),
     (0x1004, .ro fun s => wd s.red.own.ownEn.toNat),
     (0x1008, .ro fun s => wd (s.red.own.ownEn.toNat / 2 ^ 32)),
     (0x100C, .rc (fun s => s.red.ownDisc) fun s => { s with red := { s.red with ownDisc := 0#32 } })],
   winReg o 0x1100 0x10 64 ownReg]

/-! ### SWC (R331) -/

/-- WEIGHT of classes c to c + 3 of output p. -/
def weightWord (s : State) (p c : Nat) : Word :=
  wd (nsum ((List.range 4).map fun i => (((s.swc.policy.weight.getD p []) ++ [64, 127]).getD (c + i) 0) % 128 * 2 ^ (8 * i)))

/-- Cells in use. -/
def cellsUsed (s : State) : Nat := nsum ((charged s).map HeldFrame.cells)

def swcRc (p : Nat) (get : SwcPort → Word) (f : SwcPort → SwcPort) : Reg := .rc (fun s => get (swcPort s p)) (modSwcPort p f)

def swcPortReg (p o : Nat) : Option Reg :=
  pick o
    [(0x00, .cfg (fun s => (swcPort s p).cfg) fun v => modSwcPort p fun x => { x with cfg := v &&& 0xF7FFF#32 }),
     (0x04, .cfg (fun s => (swcPort s p).pcpMap) fun v => modSwcPort p fun x => { x with pcpMap := v &&& 0xFFFFFF#32 }),
     (0x08, .ro fun s => wd (s.swc.policy.strict.getD p 0#8).toNat),
     (0x0C, .ro fun s => weightWord s p 0),
     (0x10, .ro fun s => weightWord s p 4),
     (0x14, .ro fun s => wd (s.swc.policy.guar.getD p 0)),
     (0x18, .ro fun s => wd (s.swc.policy.cap.getD p 0)),
     (0x1C, .ro fun s => wd (cellsIn (swcSettle s) p)),
     (0x20, swcRc p SwcPort.inDrop fun x => { x with inDrop := 0#32 }),
     (0x24, swcRc p SwcPort.stomp fun x => { x with stomp := 0#32 }),
     (0x28, swcRc p SwcPort.ctCnt fun x => { x with ctCnt := 0#32 }),
     (0x2C, swcRc p SwcPort.outFlush fun x => { x with outFlush := 0#32 }),
     (0x30, swcRc p SwcPort.txFrames fun x => { x with txFrames := 0#32 })]

/-- UPDATE_BUSY never reads 1: a command's update is one step. -/
def swcReg (o : Nat) : Option Reg :=
  firstReg [pick o
    [(0x00, .cfg (fun s => wd s.swc.ageTime) fun v => modSwc fun w => { w with ageTime := bits v 19 0 }),
     (0x04, .ro fun _ => 0#32),
     (0x08, .cfg (fun s => s.swc.etypeTc) fun v => modSwc fun w => { w with etypeTc := v &&& 0xFFF#32 }),
     (0x0C, .ro fun s => wd s.swc.policy.protRes),
     (0x10, .ro fun s => wd s.swc.policy.mirrorCap),
     (0x14, .ro fun s => wd (32768 - cellsUsed (swcSettle s))),
     (0x18, .ro fun s => wd (sharedPool s.swc.policy - sharedUsed (swcSettle s))),
     (0x1C, .ro fun s => wd s.swc.fdb.length),
     (0x20, .rc (fun s => s.swc.vlanDrop) (modSwc fun w => { w with vlanDrop := 0#32 })),
     (0x24, .rc (fun s => s.swc.learnFail) (modSwc fun w => { w with learnFail := 0#32 })),
     (0x28, .rc (fun s => s.swc.mirrorDrop) (modSwc fun w => { w with mirrorDrop := 0#32 })),
     (0x2C, .ro fun s => s.swc.tblWrites),
     (0x30, .act (fun s => s.swc.voqSel) execSwcVoqSelWrite),
     (0x34, .ro fun s => s.swc.voqDepth)],
   arrReg o 0x40 4 8 fun c => .ro fun s => wd (s.swc.policy.classCap.getD c 0),
   winReg o 0x100 0x40 8 swcPortReg]

end Sys2Proof.Machine
end

