-- ==== Sys2Proof/Machine/RegsProt.lean ====
section
/-! DEFINITION. The registers of SVE, PRT, TRP, CYC, TBS and RTC (R138, R197, R198, R228, R270, R285). -/

namespace Sys2Proof.Machine

/-! ### SVE (R138) -/

def subCode : SubState → Nat
  | .waiting => 1
  | .running => 2
  | .lost => 3

/-- A field of subscription n, 0 while it is unused. -/
def subReg (s : State) (n : Nat) (f : SvSub → Nat) : Word := ((tget s.sve.subs n).map fun u => wd (f u)).getD 0#32

def subRc (n : Nat) (get : SvSub → Nat) (f : SvSub → SvSub) : Reg := .rc (fun s => subReg s n get) (modSub n f)

def strReg (n o : Nat) : Option Reg :=
  pick o
    [(0x00, .ro fun s => subReg s n fun u => subCode u.st + u.smpSynch % 4 * 4 + fl u.simulated 4 + fl (u.path == 1) 5),
     (0x04, .ro fun s => subReg s n SvSub.lastCnt),
     (0x08, .ro fun s => subReg s n fun u => min u.lat 0x7FFFFF),
     (0x0C, subRc n (fun u => min u.latMax 0x7FFFFF) fun u => { u with latMax := 0 }),
     (0x10, subRc n (fun u => u.frames.toNat) fun u => { u with frames := 0#32 }),
     (0x14, subRc n (fun u => u.miss.toNat) fun u => { u with miss := 0#32 }),
     (0x18, subRc n (fun u => u.err.toNat) fun u => { u with err := 0#32 })]

/-- A field of publication n, 0 while there is none. -/
def pubReg (s : State) (n : Nat) (f : SvPub → Nat) : Word := ((tget s.sve.pubs n).map fun u => wd (f u)).getD 0#32

def svePubReg (n o : Nat) : Option Reg :=
  pick o
    [(0x0, .ro fun s => pubReg s n fun u => fl u.running 0 + fl u.shedStopped 1 + fl (nbit u.cfg.flags 1) 2),
     (0x4, .rc (fun s => pubReg s n fun u => u.frames.toNat) (modSve fun v => { v with pubs := tmod v.pubs n fun u => { u with frames := 0#32 } })),
     (0x8, .ro fun s => pubReg s n fun u => min u.lat 0x7FFFFF)]

def gsReg (n o : Nat) : Option Reg :=
  let f (s : State) (g : Gsub → Nat) : Word := ((tget s.sve.gsubs n).map fun u => wd (g u)).getD 0#32
  pick o
    [(0x0, .ro fun s => f s fun u => fl u.valid 0 + fl u.talExpired 1 + fl u.ndsCom 2 + fl u.confrevBad 3 + fl u.simulated 4),
     (0x4, .ro fun s => f s Gsub.stNum),
     (0x8, .ro fun s => f s Gsub.sqNum),
     (0xC, .rc (fun s => f s fun u => u.err.toNat) (modGsub n fun u => { u with err := 0#32 }))]

def gpReg (n o : Nat) : Option Reg :=
  let f (s : State) (g : Gpub → Nat) : Word := ((tget s.sve.gpubs n).map fun u => wd (g u)).getD 0#32
  pick o
    [(0x0, .ro fun s => f s fun u => fl u.running 0 + fl u.gatedOff 1),
     (0x4, .ro fun s => f s Gpub.stNum),
     (0x8, .ro fun s => f s Gpub.sqNum)]

/-- A write of SVE_ALIGN[r]: WAIT held to 10 to 400. -/
def alignWrite (r : Nat) (v : Word) (s : State) : State :=
  let x := bits v 8 0
  let y := clampN 10 400 x
  modSve (fun e => { e with align := lset e.align r y, cfgClamp := e.cfgClamp || clamped x y }) s

def sveRc (get : Sve → Word) (f : Sve → Sve) : Reg := .rc (fun s => get s.sve) (modSve f)

def sveReg (o : Nat) : Option Reg :=
  firstReg [pick o
    [(0x00, .act (fun s => wd (fl s.sve.sim 0)) execSveSimWrite),
     (0x04, .rw (fun s => wd (fl s.sve.cfgClamp 0)) fun v => modSve fun e => { e with cfgClamp := e.cfgClamp && !bit v 0 }),
     (0x08, .ro fun s => wd (cdiv (fps840 (s.sve.subs.map fun u => u.2.cfg)) 840)),
     (0x0C, .ro fun s => wd (s.sve.subs.length + nsum (s.sve.subs.map fun u => u.2.cfg.nval) * 2 ^ 10)),
     (0x20, .act (fun s => wd s.sve.csSel) execSveCsSelWrite),
     (0x24, .ro fun s => s.sve.csVal),
     (0x28, .ro fun s => s.sve.csQ),
     (0x2C, .ro fun s => wd s.sve.csK),
     (0x40, sveRc Sve.unmatched fun e => { e with unmatched := 0#32 }),
     (0x44, sveRc Sve.simDisc fun e => { e with simDisc := 0#32 }),
     (0x48, sveRc Sve.macFail fun e => { e with macFail := 0#32 }),
     (0x4C, sveRc Sve.decodeErr fun e => { e with decodeErr := 0#32 }),
     (0x50, sveRc Sve.dup fun e => { e with dup := 0#32 }),
     (0x54, sveRc Sve.late fun e => { e with late := 0#32 }),
     (0x58, sveRc Sve.outwin fun e => { e with outwin := 0#32 }),
     (0x5C, sveRc Sve.subst fun e => { e with subst := 0#32 })],
   arrReg o 0x10 4 4 fun r => .cfg (fun s => wd (s.sve.align.getD r 0)) (alignWrite r),
   arrReg o 0x100 4 32 fun w => .ro fun s => wd (s.sve.gbits.toNat >>> (32 * w)),
   arrReg o 0x180 4 32 fun w => .ro fun s => wd (s.sve.gvalid.toNat >>> (32 * w)),
   winReg o 0x1000 0x20 512 strReg,
   winReg o 0x5000 0x10 8 svePubReg,
   winReg o 0x6000 0x10 128 gsReg,
   winReg o 0x7000 0x10 32 gpReg]

/-! ### PRT (R197) -/

/-- PRT_ESTAT[i]. -/
def estat (s : State) (n : Nat) : Word :=
  match tget s.prt.insts n with
  | none => 0#32
  | some i =>
    let g := groupOf s i.cfg.zone
    wd (ofBits ((List.range 6).map i.sig.bit) + i.cond.code * 2 ^ 6 + g * 2 ^ 8 + fl (i.en g) 10 + fl true 11 + i.cfg.zone * 2 ^ 16 + i.cfg.cls * 2 ^ 24)

/-- PRT_ZSTAT[z] to PRT_ZLATE[z]. -/
def zoneReg (n o : Nat) : Option Reg :=
  let f (s : State) (g : Zone → Word) : Word := ((tget s.prt.zones n).map g).getD 0#32
  pick o
    [(0x0, .ro fun s => f s fun z => wd (fl true 0 + fl z.test.isSome 1 + z.group * 2 ^ 2 + z.cfg.core * 2 ^ 4 + z.cfg.rate * 2 ^ 8
        + z.cfg.tbsel * 2 ^ 10 + z.cfg.fnom * 2 ^ 12 + fl (z.trackSt == 1) 14)),
     (0x4, .ro fun s => f s fun z => wd (z.lastK.getD 0)),
     (0x8, .ro fun s => f s fun z => if z.cfg.fnom = 3 then 0#32 else wordF z.ftr),
     (0xC, .rc (fun s => f s Zone.late) (modZone n fun z => { z with late := 0#32 }))]

def prtReg (o : Nat) : Option Reg :=
  firstReg
    [arrReg o 0 4 2048 fun i => .ro fun s => estat s i,
     arrReg o 0x2000 4 2048 fun i => .ro fun s => ((tget s.prt.insts i).map fun x => x.evalWord (match tget s.prt.zones x.cfg.zone with
       | some z => rateHz z.cfg.rate
       | none => 1)).getD 0#32,
     winReg o 0x4000 0x10 64 zoneReg,
     arrReg o 0x5000 4 64 fun w => .ro fun s => mapWord 32 fun i => signalOf s (32 * w + i) 0,
     arrReg o 0x5100 4 64 fun w => .ro fun s => mapWord 32 fun i => signalOf s (32 * w + i) 1]

/-! ### TRP (R198) -/

/-- A write of TRP_BI_CFG[n]: the raw level is taken after INV (R190, R198). -/
def biCfgWrite (n : Nat) (v : Word) (s : State) : State :=
  let flip := bit v 8 != bit (biOf s n).cfg 8
  settle (modBi n (fun b => { b with cfg := v &&& 0xFF01FF#32, raw := b.raw != flip, rawAt := if flip then s.now else b.rawAt }) s)

/-- A write of a row's register: the matrix follows at once (R183, R184). -/
def rowCfg (r : Nat) (get : Row → Word) (f : Word → Row → Row) : Reg := .cfg (fun s => get (rowOf s r)) fun v s => settle (modRow r (f v) s)

/-- Fields of TRP_TERM: KIND and INDEX (R183). -/
abbrev termMask : Word := 0xE03FFFFF#32

def rowReg (r o : Nat) : Option Reg :=
  firstReg [pick o
    [(0x00, rowCfg r Row.ctl fun v x => { x with ctl := v &&& rowCtlMask }),
     (0x04, rowCfg r Row.time fun v x => { x with time := v }),
     (0x08, rowCfg r (fun x => wd x.maxp) fun v x => { x with maxp := bits v 15 0 }),
     (0x0C, .ro fun s => (rowOf s r).ns),
     (0x10, .ro fun s => (rowOf s r).sec),
     (0x14, .ro fun s => (rowOf s r).cnt)],
   arrReg o 0x80 4 32 fun m => rowCfg r (fun x => x.terms.getD m 0#32) fun v x =>
     { x with terms := lset (x.terms ++ List.replicate (32 - x.terms.length) 0#32) m (v &&& termMask) }]

def trpRc (get : Trp → Word) (f : Trp → Trp) : Reg := .rc (fun s => get s.trp) (modTrp f)

def trpReg (o : Nat) : Option Reg :=
  firstReg [pick o
    [(0x00, .cfg (fun s => wd s.trp.tbsel) fun v => modTrp fun x => { x with tbsel := bits v 1 0 }),
     (0x04, .ro fun s => wd (s.trp.pins.toNat + s.trp.tofb.toNat * 2 ^ 8 + s.trp.mismatch.toNat * 2 ^ 16)),
     (0x08, .rw (fun s => wd s.trp.toMism.toNat) fun v => modTrp fun x => { x with toMism := x.toMism &&& ~~~(v.setWidth 8) }),
     (0x0C, .ro fun s => wd (ofBits (s.trp.rows.map Row.active) + ofBits (s.trp.rows.map Row.input) * 2 ^ 16)),
     (0x10, .rw (fun s => flagsWord (s.trp.rows.map Row.seen)) fun v => modTrp fun x => { x with rows := imap (fun i r => { r with seen := r.seen && !bit v i }) x.rows }),
     (0x14, .ro fun s => wd (ofBits (s.trp.bi.map BinIn.val) + ofBits (s.trp.bi.map BinIn.invalid) * 2 ^ 16)),
     (0x18, .ro fun s => flagsWord (s.trp.bi.map BinIn.raw)),
     (0x1C, .rw (fun s => flagsWord (s.trp.bi.map BinIn.seen)) fun v => modTrp fun x => { x with bi := imap (fun i b => { b with seen := b.seen && !bit v i }) x.bi }),
     (0x20, trpRc Trp.vfAcc fun x => { x with vfAcc := 0#32 }),
     (0x24, trpRc Trp.vfRef fun x => { x with vfRef := 0#32 }),
     (0x28, trpRc Trp.fenced fun x => { x with fenced := 0#32 }),
     (0x2C, .cfg (fun s => wd s.trp.fbt) fun v => modTrp fun x => { x with fbt := bits v 7 0 })],
   arrReg o 0x100 4 16 fun n => .cfg (fun s => (biOf s n).cfg) (biCfgWrite n),
   arrReg o 0x140 8 16 fun n => .ro fun s => (biOf s n).ns,
   arrReg o 0x144 8 16 fun n => .ro fun s => (biOf s n).sec,
   arrReg o 0x1C0 8 8 fun n => .ro fun s => s.trp.toNs.getD n 0#32,
   arrReg o 0x1C4 8 8 fun n => .ro fun s => s.trp.toSec.getD n 0#32,
   arrReg o 0x400 8 256 fun g => .ro fun s => ((tget s.trp.grants g).map fun x => wd (x.vf + x.mask.toNat * 2 ^ 16)).getD 0#32,
   arrReg o 0x404 8 256 fun g => .ro fun s => ((tget s.trp.grants g).map fun x => wd x.maxAge).getD 0#32,
   winReg o 0x1000 0x100 16 rowReg]

/-! ### CYC (R228) -/

/-- Length of the union of intervals, given in rising order of their starts; upTo is the end of what is counted. -/
def unionLength : Nat → List (Nat × Nat) → Nat
  | _, [] => 0
  | upTo, (a, b) :: r => (b - max a upTo) + unionLength (max upTo b) r

/-- An interval put in its place among others in rising order of their starts. -/
def putInterval (x : Nat × Nat) : List (Nat × Nat) → List (Nat × Nat)
  | [] => [x]
  | y :: r => if x.1 ≤ y.1 then x :: y :: r else y :: putInterval x r

/-- Time in the last second in which some cycle ran on BLU b, ns: a cycle that preempts another counts once. -/
def bluBusy (s : State) (b : Nat) : Nat :=
  let past := (s.cyc.busy.filter fun x => x.1 == b).map fun x => (x.2.1, x.2.2)
  let run := s.cyc.tasks.filterMap fun p => if p.2.cfg.blu = b then p.2.run.map fun c => (c.started, s.now) else none
  unionLength (s.now - NS) ((past ++ run).foldr putInterval [])

/-- CYC_BLU_IDLE[b] in 2^-16. -/
def bluIdle (s : State) (b : Nat) : Word := wd ((NS - bluBusy s b) * 65536 / NS)

def cycStat (s : State) : Word :=
  flagsWord [inService s && !s.cyc.tasks.isEmpty, forceActive s, s.cyc.tasks.any fun p => p.2.pend.isSome, s.cyc.tasks.any fun p => p.2.suspended]

def modCyc (f : Cyc → Cyc) (s : State) : State := { s with cyc := f s.cyc }

/-- Clears the bits of v in half h of a sticky map of tasks. -/
def clearHalf (m : BitVec 64) (h : Nat) (v : Word) : BitVec 64 := m &&& ~~~(v.setWidth 64 <<< (32 * h))

/-- A task's register, r as in taskReg. -/
def cycTask (n o : Nat) : Option Reg :=
  let rc (r : Nat) (f : Task → Task) : Reg := .rc (fun s => taskReg s n r) (modCyc fun c => { c with tasks := tmod c.tasks n f })
  firstReg [pick o
    [(0x10, rc 4 fun t => { t with skip := 0#32 }),
     (0x14, rc 5 fun t => { t with warn := 0#32 }),
     (0x1C, rc 7 fun t => { t with execMax := 0#32 })],
   arrReg o 0 4 12 fun r => .ro fun s => taskReg s n r]

def cycReg (o : Nat) : Option Reg :=
  firstReg [pick o
    [(0x00, .cfg (fun s => wd s.cyc.ctl) fun v => modCyc fun c => { c with ctl := bits v 7 0 }),
     (0x04, .ro cycStat),
     (0x08, .ro fun s => wd s.cyc.forces.length),
     (0x0C, .rw (fun s => wd s.cyc.ovrSeen.toNat) fun v => modCyc fun c => { c with ovrSeen := clearHalf c.ovrSeen 0 v }),
     (0x10, .rw (fun s => wd (s.cyc.ovrSeen.toNat >>> 32)) fun v => modCyc fun c => { c with ovrSeen := clearHalf c.ovrSeen 1 v }),
     (0x14, .rw (fun s => wd s.cyc.warnSeen.toNat) fun v => modCyc fun c => { c with warnSeen := clearHalf c.warnSeen 0 v }),
     (0x18, .rw (fun s => wd (s.cyc.warnSeen.toNat >>> 32)) fun v => modCyc fun c => { c with warnSeen := clearHalf c.warnSeen 1 v }),
     (0x1C, .rc (fun s => s.cyc.abortCnt) (modCyc fun c => { c with abortCnt := 0#32 }))],
   arrReg o 0x40 4 16 fun b => .ro fun s => bluIdle s b,
   winReg o 0x1000 0x40 64 cycTask,
   arrReg o 0x2000 8 256 fun f => .ro fun s => (s.cyc.forces[f]?.map fun x => wd (x.opnd + x.area * 2 ^ 22 + fl true 31)).getD 0#32,
   arrReg o 0x2004 8 256 fun f => .ro fun s => (s.cyc.forces[f]?.map fun x => wd (fl x.val 0)).getD 0#32,
   arrReg o 0x4000 4 130 fun q => .ro fun s => wd (s.cyc.q.toNat >>> (32 * q)),
   arrReg o 0x8000 4 2048 fun w => .ro fun s => wd (s.cyc.m.toNat >>> (32 * w))]

/-! ### TBS (R270) -/

/-- A write of TBS_PORT_LAT[p]: a change is recorded (R269). -/
def portLatWrite (p : Nat) (v : Word) (s : State) : State :=
  if (ptpOf s p).lat = v then s
  else ev 0x0708 (u8 p ++ zeros 3 ++ u16 (bits v 15 0) ++ u16 (bits v 31 16)) (modPtp p (fun q => { q with lat := v }) s)

/-- TBS_PORT_PTP[p]. -/
def portPtp (s : State) (p : Nat) : Word :=
  match portInstance s p with
  | some b => wd ((instPort s b p).portState + b * 2 ^ 4 + fl true 6)
  | none => 0#32

/-- TBS_CFG[b]: before a configuration only the default ROLE shows. -/
def tbsCfg (b : Base) : Word :=
  let c := b.cfg
  wd (c.src + c.profile * 2 ^ 4 + c.role * 2 ^ 5 + fl (nbit c.flags 0) 7 + c.domain * 2 ^ 8 + c.ports * 2 ^ 16 + c.udp * 2 ^ 20
    + fl (nbit c.flags 1) 21 + fl (nbit c.flags 2) 22 + (if b.configured then c.tauLog2 else 0) * 2 ^ 23)

/-- TBS_STATE[b]. -/
def tbsState (b : Base) : Word :=
  wd (b.st.code + fl b.traceable 2 + fl (utcValid b) 3 + fl b.leap61 4 + fl b.leap59 5 + b.slavePort.getD 0 % 4 * 2 ^ 6 + fl b.slavePort.isSome 8 + ifield 16 b.utcOffset * 2 ^ 16)

def portReg (p o : Nat) : Option Reg :=
  pick o
    [(0x0, .cfg (fun s => (ptpOf s p).lat) (portLatWrite p)),
     (0x4, .ro fun s => portPtp s p),
     (0x8, .ro fun s => ((ptpOf s p).mpd.map wd).getD 0xFFFFFFFF#32),
     (0xC, .rc (fun s => (ptpOf s p).tcCnt) (modPtp p fun q => { q with tcCnt := 0#32 }))]

def baseReg (b o : Nat) : Option Reg :=
  let f (g : Base → Nat) : Reg := .ro fun s => wd (g (baseOf s b))
  pick o
    [(0x00, .ro fun s => tbsCfg (baseOf s b)),
     (0x04, .ro fun s => tbsState (baseOf s b)),
     (0x08, f Base.capSec),
     (0x0C, f fun x => x.capSec / 2 ^ 32),
     (0x10, f Base.capNs),
     (0x14, f Base.capFrac),
     (0x18, .lo fun s => ifield 64 (baseOf s b).rate),
     (0x1C, .hiOf (0xA0118 + 0x100 * b)),
     (0x20, .ro fun s => iw (satI32 (baseOf s b).theta)),
     (0x24, .ro fun s => wd (((baseOf s b).slavePort.bind fun p => (ptpOf s p).mpd).getD 0)),
     (0x28, .ro fun s => sat32 (if (baseOf s b).st = .holdover then (baseOf s b).hoErr else 0)),
     (0x2C, .ro fun s => wd (hoTimeOf s (baseOf s b))),
     (0x30, .ro fun s => (baseOf s b).stepCnt),
     (0x34, .rc (fun s => (baseOf s b).discard) (modBase b fun x => { x with discard := 0#32 })),
     (0x38, .lo fun s => (baseOf s b).gmId.toNat),
     (0x3C, .hiOf (0xA0138 + 0x100 * b))]

/-- A register of a generator, writable in SERVICE and MAINT. -/
def tegField (g : Nat) (get : Teg → Word) (f : Word → Teg → Teg) : Reg :=
  .actAt (fun s => get (tegOf s g)) fun _ off by' v s => if operational s then go (regWrite by' off (modTeg g (f v)) s) else go (busViolate by' off s)

def tegReg (g o : Nat) : Option Reg :=
  pick o
    [(0x00, .act (fun s => (tegOf s g).ctl) fun t by' v s => execTegCtlWrite t by' g v s),
     (0x04, tegField g Teg.secLo fun v x => { x with secLo := v }),
     (0x08, tegField g Teg.secHi fun v x => { x with secHi := v &&& 0xFFFF#32 }),
     (0x0C, tegField g Teg.ns fun v x => { x with ns := v &&& 0x3FFFFFFF#32 }),
     (0x10, tegField g Teg.perLo fun v x => { x with perLo := v }),
     (0x14, tegField g Teg.perHi fun v x => { x with perHi := v &&& 0xFF#32 }),
     (0x18, tegField g Teg.pw fun v x => { x with pw := v &&& 0xFFFFF#32 }),
     (0x1C, .ro fun s => (tegOf s g).cnt)]

def tbsReg (o : Nat) : Option Reg :=
  firstReg [pick o
    [(0x00, .wo fun t by' v s => if bit v 0 then execTbsCapture t by' s else go s),
     (0x04, .ro fun s => s.tbs.capCnt),
     (0x08, .ro fun s => s.tbs.ppsNs),
     (0x0C, .ro fun s => s.tbs.ppsSec),
     (0x10, .ro fun s => s.tbs.irigStat),
     (0x14, .rc (fun s => s.tbs.irigErr) (modTbs fun x => { x with irigErr := 0#32 }))],
   winReg o 0x40 0x10 4 portReg,
   winReg o 0x100 0x100 4 baseReg,
   winReg o 0x800 0x20 16 tegReg]

/-! ### RTC (R277, R285): every field but those of RTC_CTL and RTC_STAT is read from the copy -/

/-- A write of RTC_CTL: CAPTURE asks for a copy, DISC_EN is stored. -/
def rtcCtlWrite (t : Nat) (by' : Master) (v : Word) (s : State) : Res :=
  let s := modRtc (fun r => { r with discEn := bit v 1 }) s
  if bit v 0 then execRtcCapture t by' s else go s

/-- A write of RTC_BKP[w]: words 14 and 15 are the module's own (R281); the host's write is refused. -/
def bkpWrite (w off : Nat) (by' : Master) (v : Word) (s : State) : State :=
  if w < 14 then modRtc (fun r => { r with bkp := r.bkp.take (4 * w) ++ w32 v ++ r.bkp.drop (4 * w + 4) }) s
  else if by' = .host then busViolate by' off s else s

def rtcReg (o : Nat) : Option Reg :=
  let copy (f : RtcCopy → Word) : State → Word := fun s => f s.rtc.copy
  firstReg [pick o
    [(0x00, .act (fun s => wd (fl s.rtc.capture 0 + fl s.rtc.discEn 1)) rtcCtlWrite),
     (0x04, .rw (fun s => wd (rtcStat s)) fun v => modRtc fun r => { r with vbatLow := r.vbatLow && !(bit v 1 && r.vbatOk), badDate := r.badDate && !bit v 3 }),
     (0x08, .rw (copy fun c => wd (ifield 10 c.trim)) fun v => modRtc fun r => { r with trim := sext 10 v.toNat }),
     (0x0C, .rw (copy RtcCopy.stgDate) fun v => modRtc fun r => { r with stgDate := v &&& 0xFFFF0F1F#32 }),
     (0x10, .rw (copy RtcCopy.stgTime) fun v => modRtc fun r => { r with stgTime := v &&& 0x1F3F#32 }),
     (0x14, .act (copy RtcCopy.stgSec) execRtcStgSecWrite),
     (0x20, .ro (copy RtcCopy.date)),
     (0x24, .ro (copy RtcCopy.time)),
     (0x28, .ro (copy fun c => wd c.subsec)),
     (0x2C, .lo fun s => s.rtc.copy.utsLo.toNat + s.rtc.copy.utsHi.toNat * 2 ^ 32),
     (0x30, .hiOf 0xB002C),
     (0x34, .ro (copy RtcCopy.swoCnt)),
     (0x38, .ro (copy RtcCopy.discE)),
     (0x3C, .ro (copy RtcCopy.discCnt)),
     (0x40, .ro (copy RtcCopy.stepCnt))],
   arrReg o 0x100 4 16 fun w =>
     Reg.actAt (copy fun c => BitVec.ofNat 32 (unle ((c.bkp.drop (4 * w)).take 4))) fun _ off by' v s => go (bkpWrite w off by' v s)]

end Sys2Proof.Machine
end

