-- ==== Sys2Proof/Machine/RegAccess.lean ====
section
/-! DEFINITION. Register accesses over the whole address map: REGISTER_WRITE and REGISTER_READ (R5 to R10, R36 to R38). -/

namespace Sys2Proof.Machine

/-- The register at an offset of PF BAR0 (R36): none where nothing is allocated. -/
def regAt (off : Nat) : Option Reg :=
  let o := off % 0x10000
  match blockOf off with
  | 0x00 => sysReg o
  | 0x01 => pwrReg o
  | 0x02 => spdReg o
  | 0x03 => acqReg o
  | 0x04 => fltReg o
  | 0x05 => trgReg o
  | 0x06 => sveReg o
  | 0x07 => prtReg o
  | 0x08 => trpReg o
  | 0x09 => cycReg o
  | 0x0A => tbsReg o
  | 0x0B => rtcReg o
  | 0x0C => macReg o
  | 0x0D => redReg o
  | 0x0E => swcReg o
  | 0x0F => mbxReg o
  | 0x10 => vfmReg o
  | 0x11 => keyReg o
  | 0x12 => evrReg o
  | 0x13 => cmdReg o
  | _ => firstReg [winReg off 0x200000 0x400 1024 fun i k => ringReg (.rx (i + 1)) k, winReg off 0x300000 0x400 1024 fun i k => ringReg (.tx (i + 1)) k]

/-- Where the host's other windows stand in the operand of an access (log entry 24): configuration spaces, VF BAR0 windows, the PF's BAR2. -/
abbrev cfgWindow : Nat := 0x100000000
abbrev vfWindow : Nat := 0x200000000
abbrev bar2Window : Nat := 0x300000000

/-- A register of the host's other windows: a configuration space needs a function that exists, a VF's BAR0 its Memory Space Enable. -/
def hostReg (addr : Nat) (s : State) : Option Reg :=
  if addr < vfWindow then
    let a := addr - cfgWindow
    let fn := a / 0x1000
    if pciReady s && (fn == 0 || vfReady s fn) then cfgSpaceReg fn (a % 0x1000) else none
  else if addr < bar2Window then
    let a := addr - vfWindow
    let v := a / 0x4000
    if vfBarOk s v then vfBarReg v (a % 0x4000) else none
  else msixReg 0 64 (addr - bar2Window)

/-- A master that reaches the host's other windows. -/
def Master.isHost : Master → Bool
  | .host => true
  | .vf _ => true
  | _ => false

/-- A write that reaches its register. -/
def writeReg (t : Nat) (by' : Master) (addr : Nat) (r : Option Reg) (v : Word) (s : State) : Res :=
  match r with
  | some r => r.set t addr by' v s
  | none => go s

/-- A read that reaches its register: the value, the latch of R10, the clear of R9; 0 where nothing is allocated (R7). -/
def readReg (t : Nat) (by' : Master) (addr : Nat) (r : Option Reg) (s : State) : Res :=
  match r with
  | none => go (emit (.readData 0#32) s)
  | some r =>
    match r.read with
    | some x => x t addr by' s
    | none =>
      let s' := emit (.readData (r.get s)) (r.clear s)
      go (match r.hi s with
        | some h => { s' with hiLatch := tset s'.hiLatch addr h }
        | none => s')

/-- The KEY block takes writes from the KSC alone (R37). -/
def keyRefused (by' : Master) (off : Nat) : Bool := blockOf off == 0x11 && by' != .ksc

/-- REGISTER_WRITE (R5, R7, R9, R37, R38). -/
def execRegisterWrite (t : Nat) (by' : Master) (addr : Nat) (v : Word) (s : State) : Res :=
  let s := atTime t s
  if dark s then go s
  else if addr ≥ cfgWindow then (if by'.isHost then writeReg t by' addr (hostReg addr s) v s else go s)
  else if !reaches by' addr || keyRefused by' addr then go (busViolate by' addr s)
  else writeReg t by' addr (regAt addr) v s

/-- REGISTER_READ (R5, R7, R9, R10, R37, R38). -/
def execRegisterRead (t : Nat) (by' : Master) (addr : Nat) (s : State) : Res :=
  let s := atTime t s
  if dark s then go s
  else if addr ≥ cfgWindow then (if by'.isHost then readReg t by' addr (hostReg addr s) s else go (emit (.readData 0#32) s))
  else if !reaches by' addr then go (emit (.readData 0#32) (busViolate by' addr s))
  else readReg t by' addr (regAt addr) s

end Sys2Proof.Machine
end

