-- ==== Sys2Proof/Machine/Dispatch.lean ====
section
/-! DEFINITION. The meaning of each command and event: one arm per constructor of Instr. -/

namespace Sys2Proof.Machine

def exec (i : Instr) (s : State) : Host.Outcome State Fault Refusal :=
  match i with
  | .coldStart t por vin vhu => Sys2Proof.Machine.execColdStart t por vin vhu s
  | .warmStart t src => Sys2Proof.Machine.execWarmStart t src s
  | .startComplete t => Sys2Proof.Machine.execStartComplete t s
  | .mrstAssert t => Sys2Proof.Machine.execMrstAssert t s
  | .watchdogExpire t step => Sys2Proof.Machine.execWatchdogExpire t step s
  | .adcStrobe t codes => Sys2Proof.Machine.execAdcStrobe t codes s
  | .ckSlotConvert t ck code => Sys2Proof.Machine.execCkSlotConvert t ck code s
  | .hkConvert t code => Sys2Proof.Machine.execHkConvert t code s
  | .calibrationComplete t r => Sys2Proof.Machine.execCalibrationComplete t r s
  | .urgentConversionComplete t conv code => Sys2Proof.Machine.execUrgentConversionComplete t conv code s
  | .cd5LockLost t => Sys2Proof.Machine.execCd5LockLost t s
  | .cd5LockAcquired t => Sys2Proof.Machine.execCd5LockAcquired t s
  | .slotDeadline t ch k => Sys2Proof.Machine.execSlotDeadline t ch k s
  | .svFrameReceive t f => Sys2Proof.Machine.execSvFrameReceive t f s
  | .svStreamLostTimeout t sub => Sys2Proof.Machine.execSvStreamLostTimeout t sub s
  | .gooseFrameReceive t f => Sys2Proof.Machine.execGooseFrameReceive t f s
  | .gooseTalExpire t gsub => Sys2Proof.Machine.execGooseTalExpire t gsub s
  | .gooseRetransmit t gpub => Sys2Proof.Machine.execGooseRetransmit t gpub s
  | .zoneEvaluate t zone k => Sys2Proof.Machine.execZoneEvaluate t zone k s
  | .tripRowRelease t row => Sys2Proof.Machine.execTripRowRelease t row s
  | .testModeExpire t zone => Sys2Proof.Machine.execTestModeExpire t zone s
  | .blockedQHoldExpire t inst => Sys2Proof.Machine.execBlockedQHoldExpire t inst s
  | .flashSuppressSummary t ch stage => Sys2Proof.Machine.execFlashSuppressSummary t ch stage s
  | .biDebouncedChange t bi level => Sys2Proof.Machine.execBiDebouncedChange t bi level s
  | .biChatterRecover t bi => Sys2Proof.Machine.execBiChatterRecover t bi s
  | .toFeedbackMismatch t n => Sys2Proof.Machine.execToFeedbackMismatch t n s
  | .toMismatchClear t n => Sys2Proof.Machine.execToMismatchClear t n s
  | .taskCycleStart t task natives => Sys2Proof.Machine.execTaskCycleStart t task natives s
  | .nativeCallAbort t task cause mcause => Sys2Proof.Machine.execNativeCallAbort t task cause mcause s
  | .taskCycleCommit t task => Sys2Proof.Machine.execTaskCycleCommit t task s
  | .shutterDecisionInterval h => Sys2Proof.Machine.execShutterDecisionInterval h s
  | .trigEdgeQualify t line level stamp => Sys2Proof.Machine.execTrigEdgeQualify t line level stamp s
  | .xlinePulseEnd t line => Sys2Proof.Machine.execXlinePulseEnd t line s
  | .shutterRecordClose h => Sys2Proof.Machine.execShutterRecordClose h s
  | .shutterDataBlockWrite t ok => Sys2Proof.Machine.execShutterDataBlockWrite t ok s
  | .shutterCommitComplete h => Sys2Proof.Machine.execShutterCommitComplete h s
  | .ptpSyncReceive t m => Sys2Proof.Machine.execPtpSyncReceive t m s
  | .ptpFollowUpReceive t m => Sys2Proof.Machine.execPtpFollowUpReceive t m s
  | .followUpTimeout t port => Sys2Proof.Machine.execFollowUpTimeout t port s
  | .ptpAnnounceReceive t m => Sys2Proof.Machine.execPtpAnnounceReceive t m s
  | .announceReceiptTimeout t base => Sys2Proof.Machine.execAnnounceReceiptTimeout t base s
  | .pdelayMessageReceive t m => Sys2Proof.Machine.execPdelayMessageReceive t m s
  | .ptpMessageTransmit t port kind => Sys2Proof.Machine.execPtpMessageTransmit t port kind s
  | .sourceLossTimeout t base => Sys2Proof.Machine.execSourceLossTimeout t base s
  | .holdoverErrorUpdate t base => Sys2Proof.Machine.execHoldoverErrorUpdate t base s
  | .holdoverLimitExpire t base => Sys2Proof.Machine.execHoldoverLimitExpire t base s
  | .irigFrameReceive t f => Sys2Proof.Machine.execIrigFrameReceive t f s
  | .ppsInEdge t stamp => Sys2Proof.Machine.execPpsInEdge t stamp s
  | .timStepApply t base => Sys2Proof.Machine.execTimStepApply t base s
  | .tegFire t g => Sys2Proof.Machine.execTegFire t g s
  | .leapSecondApply t base => Sys2Proof.Machine.execLeapSecondApply t base s
  | .ocxoDailyValue t => Sys2Proof.Machine.execOcxoDailyValue t s
  | .backupSupplySwitch t v => Sys2Proof.Machine.execBackupSupplySwitch t v s
  | .vbatSample t mv => Sys2Proof.Machine.execVbatSample t mv s
  | .rtcSecondRollover t => Sys2Proof.Machine.execRtcSecondRollover t s
  | .rtcDisciplineStep t => Sys2Proof.Machine.execRtcDisciplineStep t s
  | .rtcCommitLoad t => Sys2Proof.Machine.execRtcCommitLoad t s
  | .rtcCaptureComplete t => Sys2Proof.Machine.execRtcCaptureComplete t s
  | .linkUp t port c => Sys2Proof.Machine.execLinkUp t port c s
  | .linkDown t port c => Sys2Proof.Machine.execLinkDown t port c s
  | .frameReceive t f => Sys2Proof.Machine.execFrameReceive t f s
  | .pauseRefresh t port => Sys2Proof.Machine.execPauseRefresh t port s
  | .pauseReceive t port quanta => Sys2Proof.Machine.execPauseReceive t port quanta s
  | .pauseExpire t port => Sys2Proof.Machine.execPauseExpire t port s
  | .swcFrameTransmit t port => Sys2Proof.Machine.execSwcFrameTransmit t port s
  | .fdbAgeOut t mac vid => Sys2Proof.Machine.execFdbAgeOut t mac vid s
  | .prpSupervisionTransmit t pair => Sys2Proof.Machine.execPrpSupervisionTransmit t pair s
  | .prpNodeForget t pair src => Sys2Proof.Machine.execPrpNodeForget t pair src s
  | .bracketMissDecide t pair stream smpCnt => Sys2Proof.Machine.execBracketMissDecide t pair stream smpCnt s
  | .standbyFaultClear t pair => Sys2Proof.Machine.execStandbyFaultClear t pair s
  | .revertHoldExpire t pair => Sys2Proof.Machine.execRevertHoldExpire t pair s
  | .ownBeaconTransmit t zone => Sys2Proof.Machine.execOwnBeaconTransmit t zone s
  | .ownBeaconReceive t b => Sys2Proof.Machine.execOwnBeaconReceive t b s
  | .ownListenExpire t zone => Sys2Proof.Machine.execOwnListenExpire t zone s
  | .ownSilenceDetect t => Sys2Proof.Machine.execOwnSilenceDetect t s
  | .ownClaimComplete t zone => Sys2Proof.Machine.execOwnClaimComplete t zone s
  | .hostLinkChange t up gen width l1 => Sys2Proof.Machine.execHostLinkChange t up gen width l1 s
  | .perstAssert t => Sys2Proof.Machine.execPerstAssert t s
  | .perstDeassert t => Sys2Proof.Machine.execPerstDeassert t s
  | .vfFlr t v => Sys2Proof.Machine.execVfFlr t v s
  | .pfFlr t => Sys2Proof.Machine.execPfFlr t s
  | .vfEnableWrite t enable numVfs ari => Sys2Proof.Machine.execVfEnableWrite t enable numVfs ari s
  | .pfPowerStateChange t d3hot => Sys2Proof.Machine.execPfPowerStateChange t d3hot s
  | .stopBathComplete t v => Sys2Proof.Machine.execStopBathComplete t v s
  | .doorbellRx t v tail => Sys2Proof.Machine.execDoorbellRx t v tail s
  | .doorbellTx t v tail => Sys2Proof.Machine.execDoorbellTx t v tail s
  | .qCtlWrite t ring v => Sys2Proof.Machine.execQCtlWrite t ring v s
  | .txEntryFetch t v entry => Sys2Proof.Machine.execTxEntryFetch t v entry s
  | .rxDeliveryWrite t ring entry => Sys2Proof.Machine.execRxDeliveryWrite t ring entry s
  | .msixCoalesceExpire t ring => Sys2Proof.Machine.execMsixCoalesceExpire t ring s
  | .completionTimeout t fn => Sys2Proof.Machine.execCompletionTimeout t fn s
  | .mbxCorePost t by' r slot data => Sys2Proof.Machine.execMbxCorePost t by' r slot data s
  | .mbxCoreDataRead t by' r slot => Sys2Proof.Machine.execMbxCoreDataRead t by' r slot s
  | .mbxVfTxPost t v data => Sys2Proof.Machine.execMbxVfTxPost t v data s
  | .mbxVfRxDataRead t v => Sys2Proof.Machine.execMbxVfRxDataRead t v s
  | .mbTxPost t v data => Sys2Proof.Machine.execMbTxPost t v data s
  | .mbRxDataRead t v => Sys2Proof.Machine.execMbRxDataRead t v s
  | .pmbPost t n hi => Sys2Proof.Machine.execPmbPost t n hi s
  | .cmdFetch t n packet => Sys2Proof.Machine.execCmdFetch t n packet s
  | .replyNoticePost t n => Sys2Proof.Machine.execReplyNoticePost t n s
  | .pmbReplyRead t n => Sys2Proof.Machine.execPmbReplyRead t n s
  | .semRead t by' n => Sys2Proof.Machine.execSemRead t by' n s
  | .semRelease t by' v => Sys2Proof.Machine.execSemRelease t by' v s
  | .udpCommandReceive t d => Sys2Proof.Machine.execUdpCommandReceive t d s
  | .udpDataRequest t d => Sys2Proof.Machine.execUdpDataRequest t d s
  | .udpSequenceIdleExpire t src remote tag => Sys2Proof.Machine.execUdpSequenceIdleExpire t src remote tag s
  | .udpOutputExpire t src remote tag => Sys2Proof.Machine.execUdpOutputExpire t src remote tag s
  | .arpRequestReceive t port target sender => Sys2Proof.Machine.execArpRequestReceive t port target sender s
  | .icmpEchoReceive t port target sender octets => Sys2Proof.Machine.execIcmpEchoReceive t port target sender octets s
  | .consoleLineReceive t line => Sys2Proof.Machine.execConsoleLineReceive t line s
  | .cfgTransactionTimeout t => Sys2Proof.Machine.execCfgTransactionTimeout t s
  | .tamperDetect t src active onVbat => Sys2Proof.Machine.execTamperDetect t src active onVbat s
  | .attestSignComplete t => Sys2Proof.Machine.execAttestSignComplete t s
  | .evrRecordWrite t ok => Sys2Proof.Machine.execEvrRecordWrite t ok s
  | .snapshotCopyComplete t snap => Sys2Proof.Machine.execSnapshotCopyComplete t snap s
  | .snapshotTimeout t snap => Sys2Proof.Machine.execSnapshotTimeout t snap s
  | .optimeStore t => Sys2Proof.Machine.execOptimeStore t s
  | .shed1Enter t vin vhu => Sys2Proof.Machine.execShed1Enter t vin vhu s
  | .shedLevelEnter t vin vhu => Sys2Proof.Machine.execShedLevelEnter t vin vhu s
  | .supplyRecovered t vin => Sys2Proof.Machine.execSupplyRecovered t vin s
  | .shedLevelLeave t vin vhu => Sys2Proof.Machine.execShedLevelLeave t vin vhu s
  | .powerDown t vhu => Sys2Proof.Machine.execPowerDown t vhu s
  | .vinOvervoltageDisconnect t vin => Sys2Proof.Machine.execVinOvervoltageDisconnect t vin s
  | .vinExcursionEnd t vin extreme => Sys2Proof.Machine.execVinExcursionEnd t vin extreme s
  | .holdupTestDue t vhu => Sys2Proof.Machine.execHoldupTestDue t vhu s
  | .holdupTestComplete t dtNs => Sys2Proof.Machine.execHoldupTestComplete t dtNs s
  | .holdShortDisconnect t => Sys2Proof.Machine.execHoldShortDisconnect t s
  | .safelightPowerGate t => Sys2Proof.Machine.execSafelightPowerGate t s
  | .safelightWake t src => Sys2Proof.Machine.execSafelightWake t src s
  | .wakeComplete t => Sys2Proof.Machine.execWakeComplete t s
  | .speedMeasurement t counts => Sys2Proof.Machine.execSpeedMeasurement t counts s
  | .vcoreFastLoopStep t => Sys2Proof.Machine.execVcoreFastLoopStep t s
  | .marginPlan t count22 count23 => Sys2Proof.Machine.execMarginPlan t count22 count23 s
  | .registerWrite t by' addr v => Sys2Proof.Machine.execRegisterWrite t by' addr v s
  | .tbsCapture t by' => Sys2Proof.Machine.execTbsCapture t by' s
  | .rtcCapture t by' => Sys2Proof.Machine.execRtcCapture t by' s
  | .rtcStgSecWrite t by' v => Sys2Proof.Machine.execRtcStgSecWrite t by' v s
  | .acqUrgWrite t by' v => Sys2Proof.Machine.execAcqUrgWrite t by' v s
  | .acqImplClear t by' v => Sys2Proof.Machine.execAcqImplClear t by' v s
  | .acqCkSeqWrite t by' ck b v => Sys2Proof.Machine.execAcqCkSeqWrite t by' ck b v s
  | .fltDetClr t by' ch v => Sys2Proof.Machine.execFltDetClr t by' ch v s
  | .fltDcbFreezeWrite t by' ch v => Sys2Proof.Machine.execFltDcbFreezeWrite t by' ch v s
  | .fltScaleEofsWrite t by' ch eofs v => Sys2Proof.Machine.execFltScaleEofsWrite t by' ch eofs v s
  | .trgForceWrite t by' v => Sys2Proof.Machine.execTrgForceWrite t by' v s
  | .trgArmedWrite t by' v => Sys2Proof.Machine.execTrgArmedWrite t by' v s
  | .sveSimWrite t by' v => Sys2Proof.Machine.execSveSimWrite t by' v s
  | .sveCsSelWrite t by' v => Sys2Proof.Machine.execSveCsSelWrite t by' v s
  | .swcVoqSelWrite t by' v => Sys2Proof.Machine.execSwcVoqSelWrite t by' v s
  | .spdSiPlanWrite t by' v => Sys2Proof.Machine.execSpdSiPlanWrite t by' v s
  | .spdVcoreOvrWrite t by' v => Sys2Proof.Machine.execSpdVcoreOvrWrite t by' v s
  | .tegCtlWrite t by' g v => Sys2Proof.Machine.execTegCtlWrite t by' g v s
  | .vfVreqSet t v bits => Sys2Proof.Machine.execVfVreqSet t v bits s
  | .vfVreqClr t v bits => Sys2Proof.Machine.execVfVreqClr t v bits s
  | .evrRdSelect t by' hi => Sys2Proof.Machine.execEvrRdSelect t by' hi s
  | .evrRdNext t by' v => Sys2Proof.Machine.execEvrRdNext t by' v s
  | .sysIdentify t e => Sys2Proof.Machine.execSysIdentify t e s
  | .sysGetState t e => Sys2Proof.Machine.execSysGetState t e s
  | .sysSetState t e st => Sys2Proof.Machine.execSysSetState t e st s
  | .sysReset t e scope => Sys2Proof.Machine.execSysReset t e scope s
  | .sysSelftest t e tests => Sys2Proof.Machine.execSysSelftest t e tests s
  | .sysGetHealth t e => Sys2Proof.Machine.execSysGetHealth t e s
  | .cfgBegin t e timeoutS => Sys2Proof.Machine.execCfgBegin t e timeoutS s
  | .cfgCommit t e autostart expectSeq => Sys2Proof.Machine.execCfgCommit t e autostart expectSeq s
  | .cfgAbort t e => Sys2Proof.Machine.execCfgAbort t e s
  | .cfgRead t e which bufAddr bufLen => Sys2Proof.Machine.execCfgRead t e which bufAddr bufLen s
  | .acqSetChannel t e p => Sys2Proof.Machine.execAcqSetChannel t e p s
  | .acqSetSequence t e p => Sys2Proof.Machine.execAcqSetSequence t e p s
  | .acqCalibrate t e targets => Sys2Proof.Machine.execAcqCalibrate t e targets s
  | .acqUrgentConvert t e conv input => Sys2Proof.Machine.execAcqUrgentConvert t e conv input s
  | .fltSetChain t e p => Sys2Proof.Machine.execFltSetChain t e p s
  | .fltGetDelay t e ch => Sys2Proof.Machine.execFltGetDelay t e ch s
  | .trgDisarm t e => Sys2Proof.Machine.execTrgDisarm t e s
  | .trgArm t e => Sys2Proof.Machine.execTrgArm t e s
  | .trgArmLoadProfile t e p => Sys2Proof.Machine.execTrgArmLoadProfile t e p s
  | .trgEraseRecords t e => Sys2Proof.Machine.execTrgEraseRecords t e s
  | .trgSetSources t e p => Sys2Proof.Machine.execTrgSetSources t e p s
  | .trgForce t e p => Sys2Proof.Machine.execTrgForce t e p s
  | .trgExportRecord t e p => Sys2Proof.Machine.execTrgExportRecord t e p s
  | .sveSubscribe t e p => Sys2Proof.Machine.execSveSubscribe t e p s
  | .sveUnsubscribe t e stream => Sys2Proof.Machine.execSveUnsubscribe t e stream s
  | .svePublish t e p => Sys2Proof.Machine.execSvePublish t e p s
  | .sveGooseSubscribe t e p => Sys2Proof.Machine.execSveGooseSubscribe t e p s
  | .sveGoosePublish t e p => Sys2Proof.Machine.execSveGoosePublish t e p s
  | .prtDefineZone t e p => Sys2Proof.Machine.execPrtDefineZone t e p s
  | .prtSetElement t e p => Sys2Proof.Machine.execPrtSetElement t e p s
  | .prtGetElement t e inst => Sys2Proof.Machine.execPrtGetElement t e inst s
  | .prtSetGroup t e zone group => Sys2Proof.Machine.execPrtSetGroup t e zone group s
  | .prtTripMatrix t e p => Sys2Proof.Machine.execPrtTripMatrix t e p s
  | .prtTestInject t e p => Sys2Proof.Machine.execPrtTestInject t e p s
  | .prtOwnershipRead t e zone => Sys2Proof.Machine.execPrtOwnershipRead t e zone s
  | .prtOwnershipClaim t e zone => Sys2Proof.Machine.execPrtOwnershipClaim t e zone s
  | .prtOwnershipRelease t e zone => Sys2Proof.Machine.execPrtOwnershipRelease t e zone s
  | .logLoad t e p => Sys2Proof.Machine.execLogLoad t e p s
  | .logActivate t e p => Sys2Proof.Machine.execLogActivate t e p s
  | .logOnlineChange t e task slot => Sys2Proof.Machine.execLogOnlineChange t e task slot s
  | .logForceSet t e area opnd val => Sys2Proof.Machine.execLogForceSet t e area opnd val s
  | .logForceClear t e all area opnd => Sys2Proof.Machine.execLogForceClear t e all area opnd s
  | .logGetStatus t e task => Sys2Proof.Machine.execLogGetStatus t e task s
  | .timConfigBase t e p => Sys2Proof.Machine.execTimConfigBase t e p s
  | .timStep t e p => Sys2Proof.Machine.execTimStep t e p s
  | .timGetStatus t e base => Sys2Proof.Machine.execTimGetStatus t e base s
  | .rtcSet t e p => Sys2Proof.Machine.execRtcSet t e p s
  | .rtcGet t e => Sys2Proof.Machine.execRtcGet t e s
  | .netPortConfig t e p => Sys2Proof.Machine.execNetPortConfig t e p s
  | .netRedundancy t e p => Sys2Proof.Machine.execNetRedundancy t e p s
  | .netFilter t e p => Sys2Proof.Machine.execNetFilter t e p s
  | .netWakePattern t e p => Sys2Proof.Machine.execNetWakePattern t e p s
  | .netCounters t e p => Sys2Proof.Machine.execNetCounters t e p s
  | .swcTableRead t e p => Sys2Proof.Machine.execSwcTableRead t e p s
  | .swcTableWrite t e p => Sys2Proof.Machine.execSwcTableWrite t e p s
  | .swcTableDelete t e p => Sys2Proof.Machine.execSwcTableDelete t e p s
  | .swcTableFlush t e p => Sys2Proof.Machine.execSwcTableFlush t e p s
  | .swcBufferPolicy t e p => Sys2Proof.Machine.execSwcBufferPolicy t e p s
  | .vfmSetShare t e p => Sys2Proof.Machine.execVfmSetShare t e p s
  | .vfmBindZone t e p => Sys2Proof.Machine.execVfmBindZone t e p s
  | .vfmGrantTrip t e p => Sys2Proof.Machine.execVfmGrantTrip t e p s
  | .vfmReset t e => Sys2Proof.Machine.execVfmReset t e s
  | .keyLoad t e p => Sys2Proof.Machine.execKeyLoad t e p s
  | .keyDerive t e p => Sys2Proof.Machine.execKeyDerive t e p s
  | .keyDestroySlot t e p => Sys2Proof.Machine.execKeyDestroySlot t e p s
  | .keyFogNow t e p => Sys2Proof.Machine.execKeyFogNow t e p s
  | .keyTamperClear t e p => Sys2Proof.Machine.execKeyTamperClear t e p s
  | .keySetTampEn t e p => Sys2Proof.Machine.execKeySetTampEn t e p s
  | .keyChallenge t e p => Sys2Proof.Machine.execKeyChallenge t e p s
  | .keyAttestPubkey t e p => Sys2Proof.Machine.execKeyAttestPubkey t e p s
  | .keyAttestQuote t e p => Sys2Proof.Machine.execKeyAttestQuote t e p s
  | .fwUpdateWrite t e p => Sys2Proof.Machine.execFwUpdateWrite t e p s
  | .fwUpdateVerify t e p => Sys2Proof.Machine.execFwUpdateVerify t e p s
  | .fwUpdateActivate t e p => Sys2Proof.Machine.execFwUpdateActivate t e p s
  | .fwUpdateCommit t e p => Sys2Proof.Machine.execFwUpdateCommit t e p s
  | .fwUpdateRevert t e p => Sys2Proof.Machine.execFwUpdateRevert t e p s
  | .evrSnapshotOpen t e p => Sys2Proof.Machine.execEvrSnapshotOpen t e p s
  | .evrSnapshotRead t e p => Sys2Proof.Machine.execEvrSnapshotRead t e p s
  | .evrSnapshotClose t e p => Sys2Proof.Machine.execEvrSnapshotClose t e p s
  | .evrClear t e p => Sys2Proof.Machine.execEvrClear t e p s
  | .evrStatus t e => Sys2Proof.Machine.execEvrStatus t e s
  | .pwrSetThresholds t e p => Sys2Proof.Machine.execPwrSetThresholds t e p s
  | .pwrSafelight t e p => Sys2Proof.Machine.execPwrSafelight t e p s
  | .spdGetPlan t e back => Sys2Proof.Machine.execSpdGetPlan t e back s
  | .pwrHoldupTest t e vhu => Sys2Proof.Machine.execPwrHoldupTest t e vhu s
  | .registerRead t by' addr => Sys2Proof.Machine.execRegisterRead t by' addr s
  | .mrstRelease t => Sys2Proof.Machine.execMrstRelease t s
  | .vinUndervoltage t vin vhu => Sys2Proof.Machine.execVinUndervoltage t vin vhu s
  | .backupDomainRestart t => Sys2Proof.Machine.execBackupDomainRestart t s
  | .selftestComplete t pass fail firstFail => Sys2Proof.Machine.execSelftestComplete t pass fail firstFail s
  | .evrClearComplete t => Sys2Proof.Machine.execEvrClearComplete t s

end Sys2Proof.Machine
end

