-- ==== Sys2Proof/Frames.lean ====
section
/-! DEFINITION. Frames: which fields of the state a step may change. -/

namespace Sys2Proof.Machine

/-- A field of State. -/
inductive Block where
  | sys | acq | flt | trg | sve | prt | trp | cyc | spd | tbs | rtc | mac | red | swc | vfm | mbx | cmd | key | evr | pwr | hiLatch | now | out | freeCtr | pending
deriving DecidableEq, Repr

/-- One field reads the same in two states. -/
def Block.same (b : Block) (s u : State) : Prop :=
  match b with
  | .sys => u.sys = s.sys
  | .acq => u.acq = s.acq
  | .flt => u.flt = s.flt
  | .trg => u.trg = s.trg
  | .sve => u.sve = s.sve
  | .prt => u.prt = s.prt
  | .trp => u.trp = s.trp
  | .cyc => u.cyc = s.cyc
  | .spd => u.spd = s.spd
  | .tbs => u.tbs = s.tbs
  | .rtc => u.rtc = s.rtc
  | .mac => u.mac = s.mac
  | .red => u.red = s.red
  | .swc => u.swc = s.swc
  | .vfm => u.vfm = s.vfm
  | .mbx => u.mbx = s.mbx
  | .cmd => u.cmd = s.cmd
  | .key => u.key = s.key
  | .evr => u.evr = s.evr
  | .pwr => u.pwr = s.pwr
  | .hiLatch => u.hiLatch = s.hiLatch
  | .now => u.now = s.now
  | .out => u.out = s.out
  | .freeCtr => u.freeCtr = s.freeCtr
  | .pending => u.pending = s.pending

/-- Every field outside m reads in u as in s. -/
structure Frame (m : List Block) (s u : State) : Prop where
  same : ∀ b, b ∉ m → b.same s u

/-- A meaning answers a next state, and changes only fields in m. -/
structure Frames (m : List Block) (s : State) (r : Res) : Prop where
  after : ∃ u, r = .next u ∧ Frame m s u

end Sys2Proof.Machine
end

