-- ==== Sys2Proof/Writes.lean ====
section
/-! DEFINITION. Which blocks a row may change (the frame of every command and event). -/

namespace Sys2Proof.Machine

/-- The fields of State that a row may change: those of the rules of its table row, the recorder (operating time, R420), the instant and the outputs. -/
def writes (i : Instr) : List Block :=
  match i with
  | .coldStart .. | .warmStart .. | .mrstAssert .. | .watchdogExpire ..
      => [.sys, .acq, .flt, .trg, .sve, .prt, .trp, .cyc, .spd, .tbs, .rtc, .mac, .red, .swc, .vfm, .mbx, .cmd, .key, .evr, .pwr, .hiLatch, .now, .out, .freeCtr]
  | .startComplete .. | .sysSetState .. => [.sys, .trg, .sve, .prt, .trp, .cyc, .spd, .tbs, .rtc, .mac, .red, .swc, .vfm, .mbx, .cmd, .evr, .pwr, .now, .out]
  | .adcStrobe .. => [.acq, .flt, .trg, .sve, .trp, .cyc, .tbs, .mac, .red, .swc, .vfm, .mbx, .cmd, .evr, .now, .out]
  | .ckSlotConvert .. | .cd5LockLost .. => [.acq, .evr, .now, .out]
  | .hkConvert .. => [.acq, .spd, .tbs, .evr, .now, .out]
  | .calibrationComplete .. | .acqCalibrate .. | .acqUrgentConvert .. => [.acq, .mbx, .cmd, .evr, .now, .out]
  | .urgentConversionComplete .. => [.acq, .trg, .mbx, .cmd, .evr, .now, .out, .freeCtr]
  | .cd5LockAcquired .. => [.acq, .flt, .evr, .now, .out]
  | .slotDeadline .. => [.trg, .sve, .tbs, .mac, .red, .swc, .vfm, .evr, .now, .out]
  | .svFrameReceive .. => [.trg, .sve, .prt, .tbs, .mac, .red, .swc, .vfm, .evr, .now, .out]
  | .svStreamLostTimeout .. => [.sve, .evr, .now, .out]
  | .gooseFrameReceive .. | .gooseTalExpire .. | .biDebouncedChange .. | .biChatterRecover .. | .toFeedbackMismatch .. | .toMismatchClear ..
  | .trigEdgeQualify .. | .ownBeaconReceive .. | .ownListenExpire .. | .ownSilenceDetect .. | .hostLinkChange .. | .txEntryFetch .. | .vfVreqSet ..
  | .vfVreqClr .. => [.trg, .sve, .trp, .cyc, .tbs, .mac, .red, .swc, .vfm, .evr, .now, .out]
  | .gooseRetransmit .. => [.sve, .tbs, .mac, .red, .swc, .vfm, .evr, .now, .out]
  | .zoneEvaluate .. => [.flt, .trg, .sve, .prt, .trp, .cyc, .tbs, .mac, .red, .swc, .vfm, .evr, .now, .out, .freeCtr]
  | .tripRowRelease .. | .taskCycleCommit .. | .pwrSafelight ..
      => [.sys, .trg, .sve, .prt, .trp, .cyc, .tbs, .rtc, .mac, .red, .swc, .vfm, .mbx, .cmd, .evr, .pwr, .now, .out]
  | .testModeExpire .. => [.trg, .sve, .prt, .trp, .cyc, .tbs, .mac, .red, .swc, .vfm, .evr, .now, .out]
  | .blockedQHoldExpire .. => [.prt, .evr, .now, .out]
  | .flashSuppressSummary .. => [.flt, .evr, .now, .out]
  | .taskCycleStart .. | .nativeCallAbort .. => [.cyc, .evr, .now, .out]
  | .shutterDecisionInterval .. => [.acq, .trg, .mbx, .cmd, .evr, .now, .out]
  | .xlinePulseEnd .. | .shutterRecordClose .. | .shutterDataBlockWrite .. | .shutterCommitComplete .. => [.trg, .evr, .now, .out]
  | .ptpSyncReceive .. | .ptpFollowUpReceive .. | .irigFrameReceive .. | .ppsInEdge .. => [.acq, .flt, .trg, .sve, .cyc, .tbs, .evr, .now, .out]
  | .followUpTimeout .. | .ptpAnnounceReceive .. | .announceReceiptTimeout .. | .sourceLossTimeout .. | .holdoverErrorUpdate ..
  | .holdoverLimitExpire .. | .leapSecondApply .. => [.tbs, .evr, .now, .out]
  | .pdelayMessageReceive .. | .prpSupervisionTransmit .. | .ownBeaconTransmit .. | .arpRequestReceive .. | .icmpEchoReceive ..
      => [.tbs, .mac, .red, .swc, .vfm, .evr, .now, .out]
  | .ptpMessageTransmit .. => [.tbs, .mac, .red, .swc, .vfm, .evr, .now, .out, .freeCtr]
  | .timStepApply .. => [.acq, .flt, .trg, .sve, .cyc, .tbs, .mbx, .cmd, .evr, .now, .out]
  | .tegFire .. => [.trg, .tbs, .evr, .now, .out]
  | .ocxoDailyValue .. => [.spd, .tbs, .evr, .now, .out]
  | .backupSupplySwitch .. | .vbatSample .. | .rtcCaptureComplete .. => [.rtc, .evr, .now, .out]
  | .rtcSecondRollover .. => [.acq, .flt, .trg, .sve, .cyc, .tbs, .rtc, .evr, .now, .out]
  | .rtcDisciplineStep .. | .rtcCommitLoad .. | .rtcSet .. | .rtcGet .. => [.rtc, .mbx, .cmd, .evr, .now, .out]
  | .linkUp .. | .linkDown .. => [.mac, .red, .swc, .evr, .pwr, .now, .out, .freeCtr]
  | .frameReceive .. => [.tbs, .mac, .red, .swc, .vfm, .evr, .pwr, .now, .out]
  | .pauseRefresh .. => [.mac, .swc, .evr, .now, .out]
  | .pauseReceive .. | .pauseExpire .. => [.mac, .evr, .now, .out]
  | .swcFrameTransmit .. => [.tbs, .mac, .red, .swc, .vfm, .cmd, .evr, .now, .out]
  | .fdbAgeOut .. => [.swc, .evr, .now, .out]
  | .prpNodeForget .. | .standbyFaultClear .. | .revertHoldExpire .. => [.red, .evr, .now, .out]
  | .bracketMissDecide .. => [.red, .evr, .now, .out, .freeCtr]
  | .ownClaimComplete .. | .pfFlr .. | .prtOwnershipClaim .. | .prtOwnershipRelease .. | .logForceSet .. | .logForceClear .. | .vfmReset ..
      => [.trg, .sve, .trp, .cyc, .tbs, .mac, .red, .swc, .vfm, .mbx, .cmd, .evr, .now, .out]
  | .perstAssert .. => [.sys, .trg, .sve, .trp, .cyc, .tbs, .mac, .red, .swc, .vfm, .mbx, .cmd, .evr, .now, .out]
  | .perstDeassert .. | .pfPowerStateChange .. | .doorbellRx .. | .doorbellTx .. | .qCtlWrite .. | .rxDeliveryWrite .. | .msixCoalesceExpire ..
  | .completionTimeout .. => [.vfm, .evr, .now, .out]
  | .vfFlr .. | .vfEnableWrite .. => [.trg, .sve, .trp, .cyc, .tbs, .mac, .red, .swc, .vfm, .mbx, .evr, .now, .out]
  | .stopBathComplete .. => [.trp, .tbs, .mac, .red, .swc, .vfm, .mbx, .cmd, .evr, .now, .out]
  | .mbxCorePost .. | .mbxCoreDataRead .. | .semRead .. | .semRelease .. => [.sys, .mbx, .evr, .now, .out]
  | .mbxVfTxPost .. | .mbxVfRxDataRead .. | .mbTxPost .. | .mbRxDataRead .. | .pmbPost .. | .replyNoticePost .. | .pmbReplyRead .. => [.mbx, .evr, .now, .out]
  | .cmdFetch .. | .udpCommandReceive .. | .udpDataRequest .. | .consoleLineReceive .. | .snapshotCopyComplete .. | .sysIdentify .. | .sysGetState ..
  | .sysSelftest .. | .sysGetHealth .. | .cfgBegin .. | .cfgAbort .. | .fltGetDelay .. | .trgExportRecord .. | .prtGetElement ..
  | .prtOwnershipRead .. | .logGetStatus .. | .timGetStatus .. | .swcTableRead .. | .keyAttestPubkey .. | .evrSnapshotOpen .. | .evrSnapshotRead ..
  | .evrSnapshotClose .. | .evrClear .. | .evrStatus .. | .spdGetPlan .. | .selftestComplete .. => [.mbx, .cmd, .evr, .now, .out]
  | .udpSequenceIdleExpire .. | .udpOutputExpire .. | .cfgTransactionTimeout .. => [.cmd, .evr, .now, .out]
  | .tamperDetect .. | .attestSignComplete .. | .keyLoad .. | .keyDerive .. | .keyDestroySlot .. | .keyFogNow .. | .keyTamperClear ..
  | .keySetTampEn .. | .keyChallenge .. | .keyAttestQuote .. | .fwUpdateWrite .. | .fwUpdateVerify .. | .fwUpdateActivate .. | .fwUpdateCommit ..
  | .fwUpdateRevert .. => [.mbx, .cmd, .key, .evr, .now, .out]
  | .evrRecordWrite .. => [.rtc, .vfm, .evr, .now, .out]
  | .snapshotTimeout .. | .optimeStore .. => [.evr, .now, .out]
  | .shed1Enter .. => [.sys, .trg, .sve, .trp, .cyc, .tbs, .mac, .red, .swc, .vfm, .mbx, .cmd, .evr, .pwr, .now, .out]
  | .shedLevelEnter .. => [.trg, .sve, .trp, .cyc, .tbs, .rtc, .mac, .red, .swc, .vfm, .mbx, .cmd, .evr, .pwr, .now, .out, .freeCtr]
  | .supplyRecovered .. | .vinExcursionEnd .. | .holdupTestDue .. | .holdShortDisconnect .. | .safelightWake .. => [.evr, .pwr, .now, .out]
  | .shedLevelLeave .. | .mrstRelease ..
      => [.acq, .flt, .trg, .sve, .prt, .trp, .cyc, .spd, .tbs, .rtc, .mac, .red, .swc, .vfm, .mbx, .cmd, .key, .evr, .pwr, .now, .out, .freeCtr]
  | .powerDown .. | .vinOvervoltageDisconnect .. | .vinUndervoltage .. => [.sys, .trp, .mac, .vfm, .cmd, .evr, .pwr, .now, .out]
  | .holdupTestComplete .. => [.spd, .evr, .pwr, .now, .out]
  | .safelightPowerGate .. => [.mac, .red, .swc, .vfm, .evr, .pwr, .now, .out, .freeCtr]
  | .wakeComplete .. => [.sys, .trg, .sve, .prt, .trp, .cyc, .spd, .tbs, .mac, .red, .swc, .vfm, .cmd, .evr, .pwr, .now, .out]
  | .speedMeasurement .. | .vcoreFastLoopStep .. => [.spd, .evr, .now, .out]
  | .marginPlan .. => [.spd, .mbx, .cmd, .evr, .pwr, .now, .out]
  | .registerWrite ..
      => [.sys, .acq, .flt, .trg, .sve, .prt, .trp, .cyc, .spd, .tbs, .rtc, .mac, .red, .swc, .vfm, .mbx, .cmd, .evr, .pwr, .now, .out, .freeCtr]
  | .tbsCapture .. | .tegCtlWrite .. => [.sys, .tbs, .evr, .now, .out]
  | .rtcCapture .. | .rtcStgSecWrite .. => [.sys, .rtc, .evr, .now, .out]
  | .acqUrgWrite .. | .acqImplClear .. => [.sys, .acq, .evr, .now, .out]
  | .acqCkSeqWrite .. => [.sys, .acq, .cmd, .evr, .now, .out]
  | .fltDetClr .. => [.sys, .flt, .evr, .now, .out]
  | .fltDcbFreezeWrite .. | .fltScaleEofsWrite .. => [.sys, .flt, .cmd, .evr, .now, .out]
  | .trgForceWrite .. => [.sys, .trg, .evr, .now, .out]
  | .trgArmedWrite .. => [.sys, .trg, .cmd, .evr, .now, .out]
  | .sveSimWrite .. => [.sys, .trg, .sve, .prt, .evr, .now, .out]
  | .sveCsSelWrite .. => [.sys, .sve, .evr, .now, .out]
  | .swcVoqSelWrite .. => [.sys, .mac, .swc, .evr, .now, .out]
  | .spdSiPlanWrite .. => [.sys, .spd, .cmd, .evr, .now, .out]
  | .spdVcoreOvrWrite .. => [.sys, .spd, .evr, .now, .out]
  | .evrRdSelect .. | .evrRdNext .. => [.sys, .evr, .now, .out]
  | .sysReset .. | .pwrHoldupTest .. => [.mbx, .cmd, .evr, .pwr, .now, .out]
  | .cfgCommit .. => [.acq, .flt, .trg, .sve, .prt, .trp, .cyc, .spd, .tbs, .rtc, .mac, .red, .swc, .vfm, .mbx, .cmd, .evr, .pwr, .now, .out, .freeCtr]
  | .cfgRead .. => [.acq, .flt, .trg, .sve, .prt, .trp, .cyc, .tbs, .mac, .red, .swc, .vfm, .mbx, .cmd, .evr, .pwr, .now, .out, .freeCtr]
  | .acqSetChannel .. | .acqSetSequence .. | .fltSetChain .. | .trgArmLoadProfile .. | .trgSetSources .. | .sveSubscribe .. | .sveUnsubscribe ..
  | .svePublish .. | .sveGooseSubscribe .. | .sveGoosePublish .. | .prtDefineZone .. | .prtSetElement .. | .prtTripMatrix .. | .logActivate ..
  | .timConfigBase .. | .netPortConfig .. | .netRedundancy .. | .netFilter .. | .netWakePattern .. | .swcTableWrite .. | .swcTableDelete ..
  | .swcBufferPolicy .. | .vfmSetShare .. | .vfmBindZone .. | .vfmGrantTrip .. | .pwrSetThresholds ..
      => [.acq, .flt, .trg, .sve, .prt, .trp, .cyc, .spd, .tbs, .mac, .red, .swc, .vfm, .mbx, .cmd, .evr, .pwr, .now, .out, .freeCtr]
  | .trgDisarm .. | .trgArm .. | .trgEraseRecords .. | .trgForce .. => [.trg, .mbx, .cmd, .evr, .now, .out]
  | .prtSetGroup .. => [.flt, .prt, .mbx, .cmd, .evr, .now, .out]
  | .prtTestInject .. => [.prt, .mbx, .cmd, .evr, .now, .out]
  | .logLoad .. => [.cyc, .mbx, .cmd, .evr, .now, .out]
  | .logOnlineChange .. => [.trg, .sve, .trp, .cyc, .spd, .tbs, .mac, .red, .swc, .vfm, .mbx, .cmd, .evr, .now, .out]
  | .timStep .. => [.tbs, .mbx, .cmd, .evr, .now, .out]
  | .netCounters .. => [.mac, .red, .mbx, .cmd, .evr, .now, .out]
  | .swcTableFlush .. => [.swc, .mbx, .cmd, .evr, .now, .out]
  | .registerRead ..
      => [.sys, .acq, .flt, .trg, .sve, .prt, .trp, .cyc, .spd, .tbs, .rtc, .mac, .red, .swc, .vfm, .mbx, .cmd, .evr, .pwr, .hiLatch, .now, .out, .freeCtr]
  | .backupDomainRestart .. => [.rtc, .key, .evr, .now, .out]
  | .evrClearComplete .. => [.rtc, .vfm, .mbx, .cmd, .evr, .now, .out]

end Sys2Proof.Machine
end

