-- ==== Sys2Proof/Safety.lean ====
section
/-! DEFINITION. The terms in which statements speak of a run: when a command packet begins, what a command answers, and what Fogging leaves. -/

namespace Sys2Proof.Machine

/-- The command packet e begins as the row with the requirements q, and passes R375 steps 1 to 8 as far as they are the same for every command: where its reply goes, and the state in which its own part starts. -/
def begins (e : Env) (q : CmdReq) (s : State) : Option (ReplyTo × State) :=
  match turn e q.opcode s with
  | (some p, u) => if (pktFault q p (touchTxn p.env u)).isNone then some (replyToOf p.env p.key, touchTxn p.env u) else none
  | (none, _) => none

/-- The command has had its effect in u: the reply goes out (R371, R376), and packets behind it that are no command are refused. -/
def answered (n : Nat) (rt : ReplyTo) (payload : Bytes) (u : State) : State := flushUnknown n (reply rt stOk 0 payload u)

/-- What Fogging leaves (R400, R401): while TAMP_LATCHED stands, no root key, and once the module has power no slot but slot 0. -/
def FogInv (s : State) : Prop :=
  s.key.tampLatched = true → s.key.rkValid = false ∧ (s.key.fogVbat = false → ∀ p ∈ s.key.slots, p.1 = 0)

/-- The key core's invariant: what Fogging leaves, and boot banks whose octets lie at rising offsets (R404). -/
def KeyInv (s : State) : Prop := FogInv s ∧ ∀ l ∈ s.key.bankW, Memory.wf l = true

/-- The rows that act on the key core: its commands, tamper, the backup rail, and every row in which a start runs (R391, R394, R400, R405). -/
def keyRow (i : Instr) : Bool := (writes i).contains .key

/-- Word mailboxes and NAK counters read the same in two states (R361, R362). -/
def sameMail (s u : State) : Prop :=
  u.mbx.core = s.mbx.core ∧ u.mbx.vfRx = s.mbx.vfRx ∧ u.mbx.vfTx = s.mbx.vfTx ∧ u.mbx.pfNak = s.mbx.pfNak ∧ u.mbx.coreNak = s.mbx.coreNak ∧
    u.mbx.vfNak = s.mbx.vfNak

/-- The rows by which the module or a part of it is reset, a cold start apart (R40, R41, R354, R356). -/
def isReset (i : Instr) : Bool :=
  match i with
  | .warmStart .. | .mrstAssert .. | .mrstRelease .. | .watchdogExpire .. | .startComplete .. | .perstAssert .. | .perstDeassert .. | .pfFlr .. | .vfFlr ..
  | .vfEnableWrite .. | .vfmReset .. | .stopBathComplete .. => true
  | _ => false

/-- A row answers a next state, of which P holds. -/
def Becomes (i : Instr) (s : State) (P : State → Prop) : Prop := ∃ u, exec i s = .next u ∧ P u

/-- The SYS block after a warm start by the source of bit b of SYS_RST_CAUSE (R39, R40): the bit joins SYS_RST_HIST and makes SYS_RST_CAUSE with WARM, SYS_WARM_COUNT counts the start, and the registers that a warm start keeps are kept. -/
def warmSys (b : Nat) (x : Sys) : Sys :=
  { x with st := .start, startCold := false, rstCause := wd (2 ^ b) ||| 0x100#32, rstHist := x.rstHist ||| wd (2 ^ b), warmCount := x.warmCount + 1
           busViolAddr := 0#32, busViolLast := none, busViolNew := 0, leaving := none }

/-- The SYS block after a start by the source of bit b that meets START and restarts it (R40): its cause joins those of the START, and the scope is the wider one. -/
def restartSys (b : Nat) (cold : Bool) (x : Sys) : Sys :=
  let cause := (x.rstCause &&& ~~~0x100#32) ||| wd (2 ^ b)
  if cold then { Sys.reset with rstCause := cause, rstHist := x.rstHist ||| wd (2 ^ b) } else { warmSys b x with rstCause := cause ||| 0x100#32 }

/-- The state at the instant t of a task row: L cycles that have come up to t are due, while the module is in SERVICE (R199, R202). -/
def tasksNow (t : Nat) (s : State) : State := if inService (atTime t s) then lTasksDue (atTime t s) else atTime t s

/-- The redundancy stage of pair 0 for a beacon (R297, R298, R305): PRP discards a duplicate, Bracket takes the active port alone. -/
def beaconStage (b : Beacon) (s : State) : Bool × State :=
  if pairMode s 0 = 1 then prpReceive prpBeacon b.port b.src b.rct false s else (pairMode s 0 != 2 || activePort s 0 == some b.port, s)

/-- A command row completes: whenever its packet begins, its reserved fields are 0 and its own conditions hold, exec answers the next state in which eff is done and the payload pay is replied. -/
def Completes (i : Nat → Env → Instr) (q : CmdReq) (cond : Env → ReplyTo → State → Prop) (pay : Env → ReplyTo → State → Bytes)
    (eff : Env → ReplyTo → State → State) : Prop :=
  ∀ (t : Nat) (e : Env) (s : State) (rt : ReplyTo) (u : State), begins e q (atTime t s) = some (rt, u) → e.resvOk = true → cond e rt u →
    exec (i t e) s = .next (answered u.cmd.queue.length rt (pay e rt u) (eff e rt u))

/-- A command row that reads completes: its reply has the length the row gives and the fields head at its beginning, and nothing else changes. -/
def Reads (i : Nat → Env → Instr) (q : CmdReq) (cond : Env → ReplyTo → State → Prop) (head : Env → ReplyTo → State → Bytes) : Prop :=
  ∀ (t : Nat) (e : Env) (s : State) (rt : ReplyTo) (u : State), begins e q (atTime t s) = some (rt, u) → e.resvOk = true → cond e rt u →
    ∃ p : Bytes, p.length = q.replyLen ∧ head e rt u <+: p ∧ exec (i t e) s = .next (answered u.cmd.queue.length rt p u)

/-- A command row whose reply waits for an event completes: exec answers the next state in which eff is done. -/
def Waits (i : Nat → Env → Instr) (q : CmdReq) (cond : Env → ReplyTo → State → Prop) (eff : Env → ReplyTo → State → State) : Prop :=
  ∀ (t : Nat) (e : Env) (s : State) (rt : ReplyTo) (u : State), begins e q (atTime t s) = some (rt, u) → e.resvOk = true → cond e rt u →
    exec (i t e) s = .next (flushUnknown u.cmd.queue.length (eff e rt u))

/-- The row of a configuration command outside a transaction's staging (R383). -/
def cfgRow (t : Nat) (e : Env) (c : CfgCmd) : Option Instr :=
  match c with
  | .acqSetChannel p => some (.acqSetChannel t e p)
  | .acqSetSequence p => some (.acqSetSequence t e p)
  | .fltSetChain p => some (.fltSetChain t e p)
  | .trgArmProfile p => some (.trgArmLoadProfile t e p)
  | .trgSetSources p => some (.trgSetSources t e p)
  | .sveSubscribe p => some (.sveSubscribe t e p)
  | .sveUnsubscribe n => some (.sveUnsubscribe t e n)
  | .svePublish p => some (.svePublish t e p)
  | .sveGooseSubscribe p => some (.sveGooseSubscribe t e p)
  | .sveGoosePublish p => some (.sveGoosePublish t e p)
  | .prtDefineZone p => some (.prtDefineZone t e p)
  | .prtSetElement p => some (.prtSetElement t e p)
  | .prtTripMatrix p => some (.prtTripMatrix t e p)
  | .logLoad _ => none
  | .logActivate p => some (.logActivate t e p)
  | .timConfigBase p => some (.timConfigBase t e p)
  | .netPortConfig p => some (.netPortConfig t e p)
  | .netRedundancy p => some (.netRedundancy t e p)
  | .netFilter p => some (.netFilter t e p)
  | .netWakePattern p => some (.netWakePattern t e p)
  | .swcTableWrite p => some (.swcTableWrite t e p)
  | .swcTableDelete p => some (.swcTableDelete t e p)
  | .swcBufferPolicy p => some (.swcBufferPolicy t e p)
  | .vfmSetShare v p => if v = e.hdr.scope then some (.vfmSetShare t e p) else none
  | .vfmBindZone v p => if v = e.hdr.scope then some (.vfmBindZone t e p) else none
  | .vfmGrantTrip v p => if v = e.hdr.scope then some (.vfmGrantTrip t e p) else none
  | .pwrSetThresholds p => some (.pwrSetThresholds t e p)

/-- The state that a CFG_COMMIT of the commands l leaves (R384 steps 4 and 5): they are applied in staging order, AUTOSTART is set, and the configuration in force is stored. -/
def committed (rt : ReplyTo) (autostart : Nat) (l : List CfgCmd) (u : State) : State :=
  let w := claimsAll (foldOver l (cfgApply (some (0x1000 + rt.src)) false) { u with cmd := { u.cmd with txn := none, failPos := 0 } })
  cfgStore (admitStore (if autostart < 2 then setBkp 57 autostart w else w))

end Sys2Proof.Machine
end

