-- ==== Sys2Proof/Certificates/Slice0/Obligations.lean ====
section
/-! DEFINITION. The statements about the model: what each row of the table does, what it leaves alone, and what holds of every run. -/

open Sys2Proof Sys2Proof.Machine

/-- SYS rows (R32, R39, R40, R387): the queries change nothing but the reply, whose first fields are SYS_ID, and the state with the shed level; SYS_RESET schedules a start 1 ms later with the wider of two scopes; SYS_SELFTEST waits for SELFTEST_COMPLETE, whose reply carries PASS and FAIL. -/
def Obligations.SystemCommandsComplete : Prop :=
  Reads Instr.sysIdentify ⟨0x0100, false, plenIs 4, 72, [.start, .service, .maint, .safeService]⟩ (fun _ _ _ => True) (fun _ _ _ => u32 0x4D510016) ∧
  Reads Instr.sysGetState ⟨0x0101, false, plenIs 4, 16, [.start, .service, .maint, .safeService]⟩ (fun _ _ _ => True)
    (fun _ _ u => u8 u.sys.st.code ++ u8 u.pwr.shed) ∧
  Reads Instr.sysGetHealth ⟨0x0105, false, plenIs 4, 32, [.start, .service, .maint, .safeService]⟩ (fun _ _ _ => True) (fun _ _ _ => []) ∧
  (∀ scope ≤ 1, ∀ t e s rt u, begins e ⟨0x0103, !isConsole e.src, plenIs 4, 0, [.start, .service, .maint, .safeService]⟩ (atTime t s) = some (rt, u) →
    e.resvOk = true →
    exec (.sysReset t e scope) s = .next (answered u.cmd.queue.length rt [] { u with pwr := { u.pwr with resetAt := match u.pwr.resetAt with
      | some (a, cold) => some (a, cold || scope == 1)
      | none => some (u.now + 1000000, scope == 1) } })) ∧
  (∀ tests : Word, Waits (fun t e => .sysSelftest t e tests) ⟨0x0104, false, plenIs 4, 16, [.service, .maint, .safeService]⟩
    (fun _ _ u => tests.toNat < 64 ∧ testsAllowed u.sys.st tests = true ∧ u.cmd.selftest = none)
    (fun _ rt u => { u with cmd := { u.cmd with selftest := some (tests, u.now, rt), running := u.cmd.running ++ [rt] } })) ∧
  (∀ t (pass fail : Word) first s tests at' rt, (atTime t s).cmd.selftest = some (tests, at', rt) → pass ||| fail = tests → pass &&& fail = 0#32 →
    ∃ u, exec (.selftestComplete t pass fail first) s = .next u ∧ u.cmd.selftest = none ∧ u.sys = s.sys)

/-- SYS_SET_STATE (R33, R34, R385, R477): to MAINT it begins the steps of R34, which end in MAINT with the open transaction aborted, or wait in SERVICE for a cycle that runs or a row that is active; a second request meets BUSY. To SERVICE it needs an admitted configuration, without which it is refused and the state stays. -/
def Obligations.SetStateChangesTheState : Prop :=
  (∀ t e s rt u, begins e ⟨0x0102, true, plenIs 4, 0, [.service, .maint]⟩ (atTime t s) = some (rt, u) → e.resvOk = true → u.sys.st = .service →
    (u.sys.leaving = none → exec (.sysSetState t e 3) s = .next (flushUnknown u.cmd.queue.length (leaveStart rt none u))) ∧
    (u.sys.leaving ≠ none → exec (.sysSetState t e 3) s = .next (flushUnknown u.cmd.queue.length (refuse rt stBusy 0 u)))) ∧
  (∀ rt u, u.sys.st = .service →
    ((leaveStart rt none u).sys.st = .maint ∧ (leaveStart rt none u).sys.leaving = none ∧ (leaveStart rt none u).cmd.txn = none) ∨
    ((leaveStart rt none u).sys.st = .service ∧ (∃ stopped, (leaveStart rt none u).sys.leaving = some ⟨rt, none, stopped⟩) ∧
      (tasksRun (leaveStart rt none u) = true ∨ (leaveStart rt none u).trp.rows.any Row.active = true))) ∧
  (∀ t e s rt u, begins e ⟨0x0102, true, plenIs 4, 0, [.service, .maint]⟩ (atTime t s) = some (rt, u) → e.resvOk = true → u.sys.st = .maint →
    u.sys.leaving = none → admitFault u = none →
    ∃ v, exec (.sysSetState t e 2) s = .next (answered u.cmd.queue.length rt [] v) ∧ v.sys.st = .service ∧ v.cmd.txn = none ∧ v.spd.ovrEn = false) ∧
  (∀ t e s rt u f, begins e ⟨0x0102, true, plenIs 4, 0, [.service, .maint]⟩ (atTime t s) = some (rt, u) → e.resvOk = true → u.sys.st = .maint →
    admitFault u = some f → ∃ v, exec (.sysSetState t e 2) s = .next v ∧ v.sys.st = .maint)

/-- The transaction rows (R383 to R387): CFG_BEGIN opens one and answers CFG_SEQ, CFG_ABORT discards it and answers how many commands it held, a timeout does the same without a reply, CFG_COMMIT checks EXPECT_SEQ, the staged commands and admission, applies and stores them as the next CFG_SEQ and is replied once every change has taken effect, or is refused with FAIL_POS at the command that failed, or when the record form is longer than its copy in MRAM holds (R414); with nothing staged it stores the configuration in force, CFG_READ 0 reads the stored configuration. -/
def Obligations.TransactionRowsComplete : Prop :=
  (∀ timeoutS, 10 ≤ timeoutS → timeoutS ≤ 3600 →
    Completes (fun t e => .cfgBegin t e timeoutS) ⟨0x0200, false, plenIs 4, 4, [.service, .maint]⟩ (fun _ _ u => u.cmd.txn = none)
      (fun _ _ u => w32 u.cmd.cfgSeq) (fun _ rt u => { u with cmd := { u.cmd with txn := some ⟨rt.src, rt.remote, timeoutS, u.now, []⟩ } })) ∧
  (∀ x : Txn, Completes Instr.cfgAbort ⟨0x0202, false, plenIs 4, 4, [.service, .maint, .safeService]⟩
    (fun _ rt u => u.cmd.txn = some x ∧ x.src = rt.src ∧ x.remote = rt.remote) (fun _ _ _ => u32 x.staged.length)
    (fun _ _ u => { u with cmd := { u.cmd with txn := none, abortCause := 1, cfgAborted := satInc u.cmd.cfgAborted, failPos := 0 } })) ∧
  (∀ t s x, s.cmd.txn = some x → x.last + x.timeoutS * 1000000000 ≤ max s.now t →
    ∃ u, exec (.cfgTransactionTimeout t) s = .next u ∧ u.cmd = { s.cmd with txn := none, abortCause := 2, cfgAborted := satInc s.cmd.cfgAborted, failPos := 0 }) ∧
  (∀ t e s rt u a q cmds, begins e ⟨0x0201, false, plenIs 8, 72, [.service, .maint]⟩ (atTime t s) = some (rt, u) → e.resvOk = true → a ≤ 2 →
    notOwner rt u = none → (u.cmd.txn.map Txn.cmds).getD [] = cmds →
    (q ≠ 0 → q ≠ u.cmd.cfgSeq.toNat → exec (.cfgCommit t e a q) s = .next (flushUnknown u.cmd.queue.length (refuseCommit rt 0 stConflict u.sys.st.code u))) ∧
    (q = 0 ∨ q = u.cmd.cfgSeq.toNat →
      (∀ pos status detail, stagedFault 1 cmds u = some (pos, status, detail) →
        exec (.cfgCommit t e a q) s = .next (flushUnknown u.cmd.queue.length (refuseCommit rt pos status detail u))) ∧
      (stagedFault 1 cmds u = none → admitFault (cfgTry cmds u) = none →
        (∀ n, commitTooLong cmds u = some n → exec (.cfgCommit t e a q) s = .next (flushUnknown u.cmd.queue.length (refuseCommit rt 0 stExhausted n u))) ∧
        (commitTooLong cmds u = none →
          (cmds.all (cfgDone (committed rt a cmds u)) = true → ∃ p, exec (.cfgCommit t e a q) s = .next (answered u.cmd.queue.length rt p (committed rt a cmds u))) ∧
          (cmds.all (cfgDone (committed rt a cmds u)) = false → ∃ p v, v = committed rt a cmds u ∧ exec (.cfgCommit t e a q) s = .next (flushUnknown u.cmd.queue.length
            { v with cmd := { v.cmd with commits := v.cmd.commits ++ [⟨rt, p, cmds⟩], running := v.cmd.running ++ [rt] } }))))) ∧
    (cmds = [] → q = 0 → admitFault u = none → recordForm u ≤ 10485696 → ∃ p v, exec (.cfgCommit t e a q) s = .next (answered u.cmd.queue.length rt p v) ∧
      v.cmd.cfgSeq = u.cmd.cfgSeq + 1 ∧ v.cmd.dirty = false ∧ v.cmd.failPos = 0)) ∧
  (∀ t e s rt u bufAddr bufLen, begins e ⟨0x0203, false, plenIs 24, 80, [.service, .maint, .safeService]⟩ (atTime t s) = some (rt, u) → e.resvOk = true →
    outputFault rt bufAddr bufLen (recordsOf u.cmd.stored.cmds).length = none →
    exec (.cfgRead t e 0 bufAddr bufLen) s = .next (flushUnknown u.cmd.queue.length (replyWithOutput rt bufAddr (recordsOf u.cmd.stored.cmds)
      (u32 (recordsOf u.cmd.stored.cmds).length ++ u32 u.cmd.stored.cmds.length ++ w32 u.cmd.cfgSeq ++ u32 0 ++ digestOf u.cmd.stored.cmds) u)))

/-- Outside a transaction each of the 26 rows of configuration commands is a commit of its own (R383): it takes effect, and the configuration in force is stored under the next CFG_SEQ. A command that needs admission (R233) is checked first, and refused whole when it is not admitted; so is one whose configuration is too long for its copy in MRAM (R414). Inside a transaction of its source it is only staged: nothing but the transaction's list changes. From another source it is refused with BUSY and the owner's source in DETAIL. -/
def Obligations.ConfigurationCommandsTakeEffect : Prop :=
  (∀ t e c i s rt u, cfgRow t e c = some i → begins e ⟨c.opcode, c.auth, plenIs c.octets.length, 0, c.states⟩ (atTime t s) = some (rt, u) →
    e.resvOk = true → u.cmd.txn = none → cfgPre c u = none → cfgCheck c u = none →
    (commitTooLong [c] u = none → c.admits = false →
      exec i s = .next (answered u.cmd.queue.length rt [] (cfgStore (claimsAll (cfgApply (some (0x1000 + rt.src)) false c u))))) ∧
    (commitTooLong [c] u = none → c.admits = true → admitFault (cfgTry [c] u) = none →
      exec i s = .next (answered u.cmd.queue.length rt [] (cfgStore (claimsAll (admitStore (cfgApply (some (0x1000 + rt.src)) false c u)))))) ∧
    (∀ n, commitTooLong [c] u = some n → (c.admits = true → admitFault (cfgTry [c] u) = none) →
      exec i s = .next (flushUnknown u.cmd.queue.length (refuse rt stExhausted n u))) ∧
    (c.admits = true → ∀ f, admitFault (cfgTry [c] u) = some f → ∃ v, exec i s = .next v ∧ v.cmd.cfgSeq = u.cmd.cfgSeq ∧ v.prt = u.prt ∧ v.cyc = u.cyc)) ∧
  (∀ t e c i s rt u x, cfgRow t e c = some i → begins e ⟨c.opcode, c.auth, plenIs c.octets.length, 0, c.states⟩ (atTime t s) = some (rt, u) →
    e.resvOk = true → u.cmd.txn = some x →
    ((x.src = rt.src ∧ x.remote = rt.remote) → cfgPre c (cfgTry x.cmds u) = none → cfgCheck c (cfgTry x.cmds u) = none → x.staged.length < 4096 →
      nsum (x.staged.map Staged.plen) + e.payload.length ≤ 1048576 →
      exec i s = .next (answered u.cmd.queue.length rt []
        { u with cmd := { u.cmd with txn := some { x with staged := x.staged ++ [⟨c, e.payload.length⟩] } } })) ∧
    (¬(x.src = rt.src ∧ x.remote = rt.remote) → exec i s = .next (flushUnknown u.cmd.queue.length (refuse rt 0x0300 x.src u))))

/-- Converter and chain rows (R53, R54, R56, R60, R63, R66, R86): a calibration starts on the targets that TARGET names; an urgent request waits in the slot of its converter, or is refused while one waits; writes of ACQ_URG, ACQ_IMPL and the sequence registers; FLT_GET_DELAY reads the delays of a chain. -/
def Obligations.ConverterRowsComplete : Prop :=
  (∀ (targets m : Word), calTargetMap targets.toNat = some m →
    Waits (fun t e => .acqCalibrate t e targets) ⟨0x0302, false, plenIs 4, 8, [.maint, .service]⟩
      (fun _ _ u => u.acq.calBusy = false ∧ (u.sys.st = .maint ∨ m &&& 0x00FFFFFF#32 = 0#32))
      (fun _ rt u => calStart m (some rt) { u with cmd := { u.cmd with running := u.cmd.running ++ [rt] } })) ∧
  (∀ conv input, (conv < 4 ∧ input ≤ 7) ∨ (conv = 4 ∧ input ≤ 12) →
    Waits (fun t e => .acqUrgentConvert t e conv input) ⟨0x0303, false, plenIs 4, 16, [.service, .maint, .safeService]⟩
      (fun _ rt u => (urgentRequest conv ⟨input, some rt, none⟩ u).1 = true)
      (fun _ rt u => holdReply rt (urgentRequest conv ⟨input, some rt, none⟩ u).2)) ∧
  (∀ t (v : Word) s, dark s = false → ((bits v 2 0 < 4 ∧ bits v 11 8 ≤ 7) ∨ (bits v 2 0 = 4 ∧ bits v 11 8 ≤ 12)) →
    (urgentRequest (bits v 2 0) ⟨bits v 11 8, none, none⟩ (atTime t s)).1 = true →
    exec (.acqUrgWrite t .host v) s = .next (urgentRequest (bits v 2 0) ⟨bits v 11 8, none, none⟩ (atTime t s)).2) ∧
  (∀ t s n, n < 24 → dark s = false → bit s.acq.impl n = true →
    ∃ u, exec (.acqImplClear t .host (wd (2 ^ n))) s = .next u ∧ u.acq.impl = setBit s.acq.impl n false ∧ (acqOf u n).viol = 0 ∧
      (acqOf u n).implSetAt = (acqOf s n).implSetAt) ∧
  (∀ t s ck (v : Word), ck < 4 → dark s = false → s.sys.st = .maint →
    Becomes (.acqCkSeqWrite t .host ck false v) s fun u => u.cmd.dirty = true ∧ Frame [.acq, .cmd, .evr, .now, .out] s u ∧
      u.acq.ck = lmod s.acq.ck ck fun k => { k with seqA := v &&& 0x77777777#32, newSeq := true }) ∧
  (∀ t s ck (v : Word), ck < 4 → dark s = false → s.sys.st = .maint →
    Becomes (.acqCkSeqWrite t .host ck true v) s fun u => u.cmd.dirty = true ∧ Frame [.acq, .cmd, .evr, .now, .out] s u ∧
      u.acq.ck = lmod s.acq.ck ck fun k => { k with seqB := v &&& 0x77777777#32, newSeq := true }) ∧
  (∀ ch < 24, Reads (fun t e => .fltGetDelay t e ch) ⟨0x0311, false, plenIs 4, 32, [.service, .maint, .safeService]⟩ (fun _ _ _ => True)
    (fun _ _ u => u32 (rateHz (fltOf u ch).geom.rate) ++ u16 (fltOf u ch).geom.l1 ++ u16 (fltOf u ch).geom.l2))

/-- Shutter rows (R91, R96, R107 to R109): arming, which an OP above 3 is not, erasing every record, a forced trigger that waits in the queue with its stamp, an export. -/
def Obligations.ShutterCommandsComplete : Prop :=
  Completes Instr.trgDisarm ⟨0x0320, false, fun n => decide (n ≥ 1), 0, [.service, .maint]⟩ (fun _ _ _ => True) (fun _ _ _ => [])
    (fun _ _ u => setArmed false u) ∧
  Completes Instr.trgArm ⟨0x0320, false, fun n => decide (n ≥ 1), 0, [.service, .maint]⟩ (fun e _ _ => (e.payload.headD 0#8).toNat ≤ 3) (fun _ _ _ => [])
    (fun _ _ u => setArmed true u) ∧
  (∀ t e s rt u, begins e ⟨0x0320, false, fun n => decide (n ≥ 1), 0, [.service, .maint]⟩ (atTime t s) = some (rt, u) → 4 ≤ (e.payload.headD 0#8).toNat →
    exec (.trgArm t e) s = .next (flushUnknown u.cmd.queue.length (refuse rt stBadParam 0 u))) ∧
  Completes Instr.trgEraseRecords ⟨0x0320, true, fun n => decide (n ≥ 1), 0, [.maint]⟩ (fun _ _ _ => True) (fun _ _ _ => [])
    (fun _ rt u => evBy (0x1000 + rt.src) 0x0308 (u32 u.trg.records.length) { u with trg := { u.trg with records := [] } }) ∧
  (∀ p : TrgForceCmd, p.flags < 4 → p.ns < 1000000000 → nbit p.flags 0 = true →
    Waits (fun t e => .trgForce t e p) ⟨0x0322, false, plenIs 20, 8, [.service, .maint]⟩
      (fun _ _ u => bit u.trg.ctl 0 = true ∧ ((p.sec * 1000000000 + p.ns : Nat) : Int) ≤ shtNow u)
      (fun _ rt u => { u with
        trg := { u.trg with queue := u.trg.queue ++ [⟨((p.sec * 1000000000 + p.ns : Nat) : Int), 0xFFFF, none, nbit p.flags 1, false, none, some rt⟩] }
        cmd := { u.cmd with running := u.cmd.running ++ [rt] } })) ∧
  (∀ p : TrgForceCmd, p.flags < 4 → p.ns = 0 → p.sec = 0 → nbit p.flags 0 = false →
    Waits (fun t e => .trgForce t e p) ⟨0x0322, false, plenIs 20, 8, [.service, .maint]⟩ (fun _ _ u => bit u.trg.ctl 0 = true)
      (fun _ rt u => { u with
        trg := { u.trg with queue := u.trg.queue ++ [⟨shtNow u, 0xFFFF, none, nbit p.flags 1, false, none, some rt⟩] }
        cmd := { u.cmd with running := u.cmd.running ++ [rt] } })) ∧
  (∀ (p : TrgExport) r c, p.part ≤ 4 → p.format ≤ 1 →
    Waits (fun t e => .trgExportRecord t e p) ⟨0x0323, false, plenIs 24, 24, [.service, .maint, .safeService]⟩
      (fun _ rt u => exportOf u p = some (r, c) ∧ outputFault rt p.bufAddr p.bufLen ((Config.comtrade c).1 ++ (Config.comtrade c).2).length = none)
      (fun _ rt u => replyWithOutput rt p.bufAddr ((Config.comtrade c).1 ++ (Config.comtrade c).2)
        (u32 ((Config.comtrade c).1 ++ (Config.comtrade c).2).length ++ u32 (Config.comtrade c).1.length ++ u64 (secOf r.trig).toNat ++ u32 (nsOf r.trig)
          ++ u32 (r.trig - sampleStamp (rateHz r.rate) (lastAtOrBefore (rateHz r.rate) r.trig)).toNat) u))

/-- Protection rows (R143, R194, R195, R308 to R310): an instance is read back, a group change waits for the zone's next evaluation in SERVICE and takes effect at once in MAINT, test mode is requested and ended, the state of ownership is read, an owner's claim raises its epoch, a release gives the zone up. -/
def Obligations.ProtectionCommandsComplete : Prop :=
  (∀ inst x, Completes (fun t e => .prtGetElement t e inst) ⟨0x0402, false, plenIs 4, 288, [.service, .maint, .safeService]⟩
    (fun _ _ u => tget u.prt.insts inst = some x) (fun _ _ _ => elemOctets x.cfg x.groups) (fun _ _ u => u)) ∧
  (∀ zone group z, group < 4 → z.cfg.grpLo = 0xFFFFFFFF → Completes (fun t e => .prtSetGroup t e zone group) ⟨0x0403, false, plenIs 4, 0, [.service, .maint]⟩
    (fun _ _ u => tget u.prt.zones zone = some z ∧ u.sys.st = .service) (fun _ _ _ => [])
    (fun _ _ u => modZone zone (fun x => { x with groupReq := some (group, 0) }) u)) ∧
  (∀ zone group z, group < 4 → z.cfg.grpLo = 0xFFFFFFFF → Completes (fun t e => .prtSetGroup t e zone group) ⟨0x0403, false, plenIs 4, 0, [.service, .maint]⟩
    (fun _ _ u => tget u.prt.zones zone = some z ∧ u.sys.st = .maint) (fun _ _ _ => [])
    (fun _ rt u => setGroupNow zone group (0x1000 + rt.src) u)) ∧
  (∀ p : TestInject, p.op ≠ 0 → Completes (fun t e => .prtTestInject t e p) ⟨0x0405, true, plenIs 216, 0, [.service]⟩
    (fun _ _ u => injectCheck p u = none) (fun _ _ _ => [])
    (fun _ _ u => modZone p.zone (fun z => { z with testReq := some (some ⟨(p.sec : Int) * 1000000000 + p.ns, p.durMs, p.slots⟩) }) u)) ∧
  (∀ p : TestInject, p.op = 0 → Completes (fun t e => .prtTestInject t e p) ⟨0x0405, true, plenIs 4, 0, [.service]⟩
    (fun _ _ u => injectCheck p u = none) (fun _ _ _ => []) (fun _ _ u => endTestMode p.zone u)) ∧
  (∀ zone < 64, Reads (fun t e => .prtOwnershipRead t e zone) ⟨0x0406, false, plenIs 4, 16, [.service, .maint]⟩ (fun _ _ _ => True)
    (fun _ _ u => u32 (zoneOwnOf u zone).epoch ++ u32 (zoneOwnOf u zone).heard)) ∧
  (∀ zone < 64, Waits (fun t e => .prtOwnershipClaim t e zone) ⟨0x0406, true, plenIs 4, 16, [.service, .maint]⟩
    (fun _ _ u => ownEff u zone = true ∧ (zoneOwnOf u zone).claim = none ∧ (zoneOwnOf u zone).st ≠ .owner ∧
      max (zoneOwnOf u zone).epoch (zoneOwnOf u zone).heard + 1 < 2 ^ 32)
    (fun _ rt u => holdReply rt (settle (ownListen zone 3 (modZoneOwn zone (fun x => { x with claim := some (u.now, some rt) }) u))))) ∧
  (∀ zone < 64, ∀ t e s rt u, begins e ⟨0x0406, true, plenIs 4, 16, [.service, .maint]⟩ (atTime t s) = some (rt, u) → e.resvOk = true →
    ownEff u zone = true → (zoneOwnOf u zone).claim = none → (zoneOwnOf u zone).st = .owner → (zoneOwnOf u zone).epoch + 1 < 2 ^ 32 →
    u.red.zones.length = 64 →
    ∃ v, exec (.prtOwnershipClaim t e zone) s = .next (answered u.cmd.queue.length rt (ownReply v zone) v) ∧
      (zoneOwnOf v zone).epoch = (zoneOwnOf u zone).epoch + 1) ∧
  (∀ zone < 64, ∀ t e s rt u, begins e ⟨0x0406, true, plenIs 4, 16, [.service, .maint]⟩ (atTime t s) = some (rt, u) → e.resvOk = true →
    ownEff u zone = true → (zoneOwnOf u zone).claim = none → u.red.zones.length = 64 →
    ∃ v, exec (.prtOwnershipRelease t e zone) s = .next (answered u.cmd.queue.length rt (ownReply v zone) v) ∧ (zoneOwnOf v zone).st = .released)

/-- Logic rows (R210, R221 to R223, R226): an image is loaded into a slot, an on-line change is accepted when it is admitted, a force is set, in MAINT with its record and nothing else, and cleared again, alone or with all others, the registers of a task are read. -/
def Obligations.LogicCommandsComplete : Prop :=
  (∀ (p : LogLoad) g, imgParse p.image = some g → imgFault g = none → p.slot < 32 → 64 ≤ p.len → p.len ≤ 262144 → p.image.length = p.len →
    ∀ t e s rt u, begins e ⟨0x0500, false, plenIs (if isUdp e.src then 16 + p.len else 16), 8, [.service, .maint]⟩ (atTime t s) = some (rt, u) →
      e.resvOk = true → (isUdp e.src = true → p.addr = 0) → slotUsed u p.slot = false →
      exec (.logLoad t e p) s = .next (answered u.cmd.queue.length rt (u32 g.id ++ u32 g.cost)
        { u with cyc := { u.cyc with slots := tset u.cyc.slots p.slot g }, cmd := { u.cmd with dirty := true } })) ∧
  (∀ task slot, Waits (fun t e => .logOnlineChange t e task slot) ⟨0x0502, true, plenIs 4, 8, [.service, .maint]⟩
    (fun _ _ u => changePre task u = none ∧ changeCheck task slot u = none ∧ admitFault (changedState task slot u) = none)
    (fun _ rt u => changeAccept rt task slot { u with spd := (admitStore (changedState task slot u)).spd })) ∧
  (∀ area opnd val, area < 6 → operandOk area opnd = true → val < 2 →
    ∀ t e s rt u, begins e ⟨0x0503, true, plenIs 8, 4, [.service, .maint]⟩ (atTime t s) = some (rt, u) → e.resvOk = true → u.sys.st = .maint →
      u.cyc.forces.length < 256 → u.cyc.forces.any (fun f => f.area == area && f.opnd == opnd) = false →
      ∃ p v, exec (.logForceSet t e area opnd val) s = .next (answered u.cmd.queue.length rt p v) ∧
        v.cyc = { u.cyc with forces := u.cyc.forces ++ [⟨area, opnd, val == 1, none, u.now⟩] } ∧ Frame [.cyc, .evr] u v) ∧
  (∀ area opnd val, area < 6 → operandOk area opnd = true → val < 2 →
    ∀ t e s rt u, begins e ⟨0x0503, true, plenIs 8, 4, [.service, .maint]⟩ (atTime t s) = some (rt, u) → e.resvOk = true →
      u.cyc.forces.length < 256 ∨ u.cyc.forces.any (fun f => f.area == area && f.opnd == opnd) = true →
      ∃ p v, exec (.logForceSet t e area opnd val) s = .next (answered u.cmd.queue.length rt p v) ∧
        (∃ f ∈ v.cyc.forces, f.area = area ∧ f.opnd = opnd ∧ f.val = (val == 1)) ∧
        v.cyc.forces.filter (fun f => !(f.area == area && f.opnd == opnd)) = u.cyc.forces.filter fun f => !(f.area == area && f.opnd == opnd)) ∧
  (∀ t e s rt u all area opnd, begins e ⟨0x0504, true, plenIs 4, 4, [.service, .maint]⟩ (atTime t s) = some (rt, u) → e.resvOk = true → all ≠ 0 →
    ∃ p v, exec (.logForceClear t e all area opnd) s = .next (answered u.cmd.queue.length rt p v) ∧ forceActive v = false) ∧
  (∀ t e s rt u area opnd, begins e ⟨0x0504, true, plenIs 4, 4, [.service, .maint]⟩ (atTime t s) = some (rt, u) → e.resvOk = true → area < 6 →
    operandOk area opnd = true →
    ∃ p v, exec (.logForceClear t e 0 area opnd) s = .next (answered u.cmd.queue.length rt p v) ∧
      v.cyc.forces = u.cyc.forces.filter fun f => !(f.area == area && f.opnd == opnd)) ∧
  (∀ task < 64, Completes (fun t e => .logGetStatus t e task) ⟨0x0505, false, plenIs 4, 48, [.service, .maint, .safeService]⟩ (fun _ _ _ => True)
    (fun _ _ u => (List.range 12).flatMap fun r => w32 (taskReg u task r)) (fun _ _ u => u))

/-- What the rows that begin a start leave in the SYS block (R33, R39, R40, R441, R445): VIN above the start threshold, from OFF or at the first step of a cold start, gives its reset values; a due SYS_RESET of cold scope gives them with its own cause; MRST_N, the watchdog and a due SYS_RESET of warm scope count a warm start and keep what R39 keeps. One that meets START restarts it with the wider scope of the two, and its cause joins those of the START; a watchdog in START starts warm. While MRST_N is low the start waits. -/
def Obligations.StartRowsBegin : Prop :=
  (∀ t vin vhu s, s.sys.st = .off ∨ (s.sys.st = .start ∧ s.pwr.startPending = true ∧ s.sys.startCold = true) → 16000 ≤ vin →
    Becomes (.coldStart t true vin vhu) s fun u => u.sys = Sys.reset ∧ u.pending = s.pending) ∧
  (∀ t vin vhu s a, s.sys.st ≠ .off → s.sys.st ≠ .start → s.pwr.resetAt = some (a, true) → a ≤ max s.now t →
    Becomes (.coldStart t false vin vhu) s fun u => u.sys = { Sys.reset with rstCause := 0x10#32, rstHist := 0x10#32 } ∧ u.pending = s.pending) ∧
  (∀ t s, s.sys.st ≠ .off → s.sys.st ≠ .start → Becomes (.warmStart t 1) s fun u => u.sys = warmSys 1 s.sys) ∧
  (∀ t s, s.sys.st ≠ .off → s.sys.st ≠ .start → s.sys.st ≠ .safelight → Becomes (.warmStart t 2) s fun u => u.sys = warmSys 2 s.sys) ∧
  (∀ t s a, s.sys.st ≠ .off → s.sys.st ≠ .start → s.pwr.resetAt = some (a, false) → a ≤ max s.now t →
    Becomes (.warmStart t 3) s fun u => u.sys = warmSys 3 s.sys) ∧
  (∀ t s, s.sys.st ≠ .off → s.sys.st ≠ .start →
    Becomes (.mrstAssert t) s fun u => u.sys = warmSys 1 s.sys ∧ u.pwr.mrst = true ∧ u.pwr.startPending = true) ∧
  (∀ t step s, s.sys.st ≠ .off → s.sys.st ≠ .start → s.sys.st ≠ .safelight →
    Becomes (.watchdogExpire t step) s fun u => u.sys = warmSys 2 s.sys) ∧
  (∀ t s, s.sys.st = .start →
    (∀ vin vhu a, s.pwr.resetAt = some (a, true) → a ≤ max s.now t → Becomes (.coldStart t false vin vhu) s fun u => u.sys = restartSys 4 true s.sys) ∧
    (Becomes (.warmStart t 1) s fun u => u.sys = restartSys 1 s.sys.startCold s.sys) ∧
    (∀ a, s.pwr.resetAt = some (a, false) → a ≤ max s.now t → Becomes (.warmStart t 3) s fun u => u.sys = restartSys 3 s.sys.startCold s.sys) ∧
    (Becomes (.mrstAssert t) s fun u => u.sys = restartSys 1 s.sys.startCold s.sys ∧ u.pwr.mrst = true ∧ u.pwr.startPending = true) ∧
    (∀ step, Becomes (.watchdogExpire t step) s fun u => u.sys = restartSys 2 false s.sys)) ∧
  (∀ t s, s.sys.st = .off → exec (.mrstAssert t) s = .next { atTime t s with pwr := { s.pwr with mrst := true } })

/-- The rows that end a start (R32, R33, R441, R442, R446): MRST_RELEASE runs a waiting start's steps when a bank boots; START_COMPLETE enters SERVICE when a stored configuration is admitted and AUTOSTART is 1, MAINT when not, SAFE_SERVICE after three failed starts. -/
def Obligations.StartRowsEnd : Prop :=
  (∀ t s, s.sys.st ≠ .start → exec (.mrstRelease t) s = .next { atTime t s with pwr := { s.pwr with mrst := false } }) ∧
  (∀ t s, s.sys.st = .start → s.pwr.startPending = true → s.pwr.shed < 4 → bkp s 56 ≠ 3 →
    (bootImage { atTime t s with pwr := { s.pwr with mrst := false } }).isSome = true →
    Becomes (.mrstRelease t) s fun u => u.sys = s.sys ∧ u.pwr.startPending = false) ∧
  (∀ t s, s.sys.st = .start → s.pwr.startPending = false → s.pwr.mrst = false → s.pwr.shed < 4 → s.acq.calBusy = false → s.spd.deferred = false →
    (safeStart s = true → Becomes (.startComplete t) s fun u => u.sys = { s.sys with st := .safeService }) ∧
    (∀ w, safeStart s = false → (w = if s.sys.startCold = false ∧ s.pwr.shed1Seen = true then seedBegin (atTime t s) else atTime t s) →
      (s.cmd.cfgSeq ≠ 0#32 → admitFault w = none → nbit (bkp s 57) 0 = true →
        Becomes (.startComplete t) s fun u => u.sys = { s.sys with st := .service } ∧ bkp u 56 = 0) ∧
      (s.cmd.cfgSeq = 0#32 ∨ (admitFault w).isSome = true ∨ nbit (bkp s 57) 0 = false →
        Becomes (.startComplete t) s fun u => u.sys = { s.sys with st := .maint } ∧ bkp u 56 = 0)))

/-- ADC_STROBE outside OFF takes the samples of one strobe and sends them down the 24 chains, except in SAFE_SERVICE; a CFG_COMMIT whose changes have then all taken effect is replied (R32, R43, R69, R384). -/
def Obligations.StrobeCompletes : Prop :=
  (∀ t codes s, s.sys.st = .safeService → exec (.adcStrobe t codes) s = .next (strobeSamples codes (atTime t s))) ∧
  (∀ t codes s, s.sys.st ≠ .off → s.sys.st ≠ .safeService → ∃ changed u,
    foldOver (List.range 24) (strobeChain (strobeIdx s)) (false, strobeSamples codes (atTime t s)) = (changed, u) ∧
    exec (.adcStrobe t codes) s = .next (commitReplies (if changed then settle u else u)))

/-- The samples of a strobe (R43, R47, R49): the strobe's index on its base goes on by one, and a channel that is neither under calibration nor faulty gets its raw code corrected by OFFS and GAIN, rounded half to even and held to 18 bits; nothing outside the converters, the flash counts of the second and the recorder changes. -/
def Obligations.StrobeTakesSamples : Prop :=
  ∀ codes s, strobeIdx (strobeSamples codes s) = strobeIdx s + 1 ∧ (strobeSamples codes s).acq.strobes = s.acq.strobes + 1 ∧
    Frame [.acq, .flt, .evr] s (strobeSamples codes s) ∧
    ∀ n c x, n < 24 → s.acq.ch[n]? = some c → c.cal = false → bit s.acq.fault n = false → codes[n]? = some (some x) →
      ∃ c', (strobeSamples codes s).acq.ch[n]? = some c' ∧ c'.code = clampI (-131072) 131071 (rdivEven ((x - c.offs) * c.gain) 1048576) ∧
        c'.missRun = 0 ∧ c'.sampleAt = s.acq.strobes + 1

/-- The check converters and the housekeeping converter (R54 to R58, R64, R65): each conversion, a check converter's at a strobe where R55 places it, moves to the next slot of the pass, an average of 2^AVG_LOG2 corrected codes ends in its result, and a waiting urgent request takes the next slot. -/
def Obligations.ScanRowsConvert : Prop :=
  (∀ t ck code s k, ck < 4 → s.sys.st ≠ .off → s.acq.ck[ck]? = some k → k.cal = false → k.urgRun = none →
    ckPlaced s ck ((seqSlots k.run).getD k.slot 7) = true → Becomes (.ckSlotConvert t ck code) s fun u => ∃ k', u.acq.ck[ck]? = some k' ∧ k'.slot = (if k.slot ≥ k.run.1 then 0 else k.slot + 1) ∧
      k'.urgRun = k.urg ∧ k'.urg = none ∧
      ∀ x m, code = some x → m = (seqSlots k.run).getD k.slot 7 →
        k'.avg = if (k.sums.getD m ⟨0, 0⟩).count + 1 ≥ 2 ^ avgLog2 k.ctl
          then lset k.avg m (rdivEven ((k.sums.getD m ⟨0, 0⟩).sum + correct k.offs k.gain x) (2 ^ avgShift k.ctl)) else k.avg) ∧
  (∀ t code s, s.sys.st ≠ .off → s.acq.hk.cal = false → s.acq.hk.urgRun = none →
    Becomes (.hkConvert t code) s fun u => u.acq.hk.pos = (if s.acq.hk.pos ≥ 12 then 0 else s.acq.hk.pos + 1) ∧ u.acq.hk.urgRun = s.acq.hk.urg ∧
      u.acq.hk.urg = none ∧
      ∀ x m, code = some x → m = s.acq.hk.pos →
        u.acq.hk.res = if (s.acq.hk.sums.getD m ⟨0, 0⟩).count + 1 ≥ 2 ^ avgLog2 s.acq.hk.ctl
          then lset s.acq.hk.res m (rdivEven ((s.acq.hk.sums.getD m ⟨0, 0⟩).sum + correct s.acq.hk.offs s.acq.hk.gain x) (2 ^ avgShift s.acq.hk.ctl))
          else s.acq.hk.res)

/-- The end of a calibration, and of an urgent conversion (R50 to R53, R64): the run is over, and a main converter whose solution is accepted has its new coefficients, in force and stored, and no fault; one whose solution is not is faulty and failed. An urgent result is the corrected code, counted, and the slot is free again. -/
def Obligations.CalibrationAndUrgentComplete : Prop :=
  (∀ t results afe s, s.acq.calBusy = true → Becomes (.calibrationComplete t ⟨results, afe⟩) s fun u =>
    u.acq.calBusy = false ∧ u.acq.calTargets = 0#32 ∧ u.acq.calReply = none ∧
    ∀ i c, i < 24 → s.acq.calTargets = wd (2 ^ i) → s.acq.ch[i]? = some c →
      (∀ o g, (results.find? fun r => r.conv == i).bind (calSolve i) = some (o, g) →
        (∃ c', u.acq.ch[i]? = some c' ∧ c'.cal = false ∧ c'.offs = o ∧ c'.gain = g ∧ c'.missRun = 0) ∧
        u.acq.stored = lset s.acq.stored i ⟨o, g, tAfe (takeAfe afe s), u.evr.optime.toNat⟩ ∧ bit u.acq.fault i = false ∧ u.acq.calFail = 0#32) ∧
      ((results.find? fun r => r.conv == i).bind (calSolve i) = none →
        (∃ c', u.acq.ch[i]? = some c' ∧ c'.cal = false ∧ c'.offs = c.offs ∧ c'.gain = c.gain) ∧ bit u.acq.fault i = true ∧
        u.acq.calFail = wd (2 ^ i))) ∧
  (∀ t conv x s k r, conv < 4 → s.acq.ck[conv]? = some k → k.urgRun = some r → ckPlaced s conv r.input = true →
    Becomes (.urgentConversionComplete t conv (some x)) s fun u => u.acq.urgRes = correct k.offs k.gain x ∧ u.acq.urgDone = s.acq.urgDone + 1 ∧
      u.acq.ck = lset s.acq.ck conv { k with urgRun := none, prev := some (strobeLatest s conv r.input) } ∧ u.acq.ch = s.acq.ch) ∧
  (∀ t x s r, s.acq.hk.urgRun = some r →
    Becomes (.urgentConversionComplete t 4 (some x)) s fun u => u.acq.urgRes = correct s.acq.hk.offs s.acq.hk.gain x ∧
      u.acq.urgDone = s.acq.urgDone + 1 ∧ u.acq.hk = { s.acq.hk with urgRun := none } ∧ u.acq.ck = s.acq.ck ∧ u.acq.ch = s.acq.ch)

/-- CD5's lock (R43, R46): when it is lost every channel carries RESYNC for 2,016 strobes; when it comes back the next strobe is the first whose nominal instant the bound base has not passed. -/
def Obligations.StrobeClockLock : Prop :=
  (∀ t s, s.acq.locked = true → Becomes (.cd5LockLost t) s fun u => u.acq.locked = false ∧
    (∀ n c, n < 24 → s.acq.ch[n]? = some c → u.acq.ch[n]? = some { c with resync := 2016 }) ∧ u.acq.strobes = s.acq.strobes) ∧
  (∀ t s, s.acq.locked = false → s.sys.st ≠ .off → Becomes (.cd5LockAcquired t) s fun u => u.acq.locked = true ∧
    strobeIdx u = (nAtOrAfter 2016000 (baseNs (atTime t s) s.acq.tbsel)).toNat ∧ u.acq.ch = s.acq.ch)

/-- Filter rows (R74, R78, R87, R88): the summary of suppressed flash records restarts their count, FLT_DET_CLR empties the detector's hold, DCB_FREEZE alone may be written in SERVICE, FLT_SCALE and FLT_EOFS in MAINT. -/
def Obligations.FilterRowsComplete : Prop :=
  (∀ t ch stage s, ch < 24 → stage < 2 → ((fltOf s ch).fs.getD stage FlashStage.reset).suppressed ≠ 0 →
    Becomes (.flashSuppressSummary t ch stage) s fun u => Frame [.flt, .evr, .now, .out] s u ∧
      u.flt = { s.flt with ch := lmod s.flt.ch ch fun c => { c with fs := lmod c.fs stage fun f => { f with recs := 0, suppressed := 0 } } }) ∧
  (∀ t ch (v : Word) s, ch < 24 → dark s = false → bit v 0 = true →
    exec (.fltDetClr t .host ch v) s = .next { atTime t s with flt := { s.flt with
      ch := lmod s.flt.ch ch fun c => { c with hold := none, holdMax := 0#32, holdMin := 0#32 } } }) ∧
  (∀ t ch (v : Word) s, ch < 24 → s.pwr.gated = false → operational s = true → v &&& 0x1F3F01FF#32 = (fltOf s ch).ctl &&& 0x1F3F01FF#32 →
    Becomes (.fltDcbFreezeWrite t .host ch v) s fun u => Frame [.flt, .evr, .now, .out] s u ∧
      u.flt = { s.flt with ch := lmod s.flt.ch ch fun c => { c with ctl := v &&& 0x1F3F03FF#32 } }) ∧
  (∀ t ch eofs (v : Word) s, ch < 24 → dark s = false → s.sys.st = .maint →
    exec (.fltScaleEofsWrite t .host ch eofs v) s = .next { atTime t s with
      flt := { s.flt with ch := lmod s.flt.ch ch fun c => { (if eofs then { c with eofs := v } else { c with scale := v }) with claimDue := true } }
      cmd := { s.cmd with dirty := true } })

/-- Sampled-value rows (R116, R121 to R124, R138, R297, R300): a slot that is missing at its deadline holds the last written value, marked SUBST; a frame of no subscription is counted, a frame of one is taken in, in PRP unless the duplicate discard drops it, in a Bracket pair only from the active port, or as the pair's stage decides for a stream that admits both; a stream silent for ten frame periods is LOST; SIM is set and cleared; SVE_CS_SEL shows the latest slot of a channel. -/
def Obligations.SampledValueRowsComplete : Prop :=
  (∀ t f s, f.link.port < 2 → linkUp s f.link.port = true → operational s = true → pairMode s 0 ≠ 1 → pairMode s 0 ≠ 2 → svMatch (atTime t s) f = none →
    exec (.svFrameReceive t f) s = .next { atTime t s with sve := { s.sve with unmatched := satInc s.sve.unmatched } }) ∧
  (∀ t f s, f.link.port < 2 → linkUp s f.link.port = true → operational s = true → pairMode s 0 ≠ 1 → pairMode s 0 ≠ 2 →
    exec (.svFrameReceive t f) s = .next (svIntake f (atTime t s))) ∧
  (∀ t f s pass u, f.link.port < 2 → linkUp s f.link.port = true → operational s = true → pairMode s 0 = 1 →
    prpReceive prpSv f.link.port f.link.src f.link.rct false (atTime t s) = (pass, u) →
    exec (.svFrameReceive t f) s = .next (if pass then svIntake f u else u)) ∧
  (∀ t f s n x l u, f.link.port < 2 → linkUp s f.link.port = true → operational s = true → pairMode s 0 = 2 →
    svMatch (atTime t s) f = some (n, x) → x.cfg.flags % 4 = 3 → svBracket n x f (atTime t s) = (l, u) → operational u = true →
    exec (.svFrameReceive t f) s = .next (foldOver l svIntake u)) ∧
  (∀ t f s, f.link.port < 2 → linkUp s f.link.port = true → operational s = true → pairMode s 0 = 2 →
    (∀ n u, svMatch (atTime t s) f = some (n, u) → u.cfg.flags % 4 ≠ 3) →
    exec (.svFrameReceive t f) s = .next (if activePort (atTime t s) 0 = some f.link.port then svIntake f (atTime t s) else atTime t s)) ∧
  (∀ t ch k s, operational s = true → chDefined s ch = true → (storeCh s ch).final k = false → deadlineAt (atTime t s) ch k ≤ max s.now t →
    (storeCh s ch).since < deadlineAt (atTime t s) ch k → exec (.slotDeadline t ch k) s = .next (substitute ch k (atTime t s)) ∧
    ∀ v q, 24 ≤ ch → (storeCh s ch).before k = some (v, q) → (storeCh s ch).missed k + 1 ≤ substMax s ch →
      storeCh (substitute ch k (atTime t s)) ch =
        { (storeCh s ch).insert ⟨k, v, q ||| 0x0400#16, false⟩ with kept := (storeCh s ch).kept.filter fun y => y.1 != k }) ∧
  (∀ t sub s u l, tget s.sve.subs sub = some u → u.st = .running → u.lastAt = some l → l + tenFrames u.cfg ≤ max s.now t →
    Becomes (.svStreamLostTimeout t sub) s fun v => Frame [.sve, .evr, .now, .out] s v ∧
      v.sve = { s.sve with subs := tmod s.sve.subs sub fun x => { x with st := .lost, lastK := none } }) ∧
  (∀ t (v : Word) s, s.pwr.gated = false → operational s = true → bit v 0 = true →
    exec (.sveSimWrite t .host v) s = .next { atTime t s with sve := { s.sve with sim := true } }) ∧
  (∀ t (v : Word) s, s.pwr.gated = false → operational s = true → bit v 0 = false →
    Becomes (.sveSimWrite t .host v) s fun u => u.sve.sim = false ∧ ∀ g ∈ u.sve.gsubs, g.2.simulated = false) ∧
  (∀ t (v : Word) s x, dark s = false → chDefined s (bits v 12 0) = true → (storeCh s (bits v 12 0)).slots.head? = some x →
    exec (.sveCsSelWrite t .host v) s = .next { atTime t s with sve := { s.sve with
      csSel := bits v 12 0, csVal := x.v, csQ := wd (x.q.toNat + (condOf false x.q).code * 65536)
      csK := (kToN (atTime t s) (storeCh s (bits v 12 0)).tb (storeCh s (bits v 12 0)).rate x.k % rateHz (storeCh s (bits v 12 0)).rate).toNat } })

/-- A frame taken in by a subscription (R116, R118, R122): counted, its port and instant kept, the stream RUNNING when the index follows on. -/
def Obligations.SampledValueFrameTakenIn : Prop :=
  ∀ f s n u, svMatch s f = some (n, u) → tget s.sve.subs n = some u → f.sim = false → u.simulated = false →
    macAccepts s u.cfg.macReq u.cfg.keyA u.cfg.keyB attrSvMac f.ext f.link.octets = true → svCheck u.cfg f = none →
    ∃ v, tget (svIntake f s).sve.subs n = some v ∧ v.cfg = u.cfg ∧ v.frames = satInc u.frames ∧ v.path = f.link.port ∧ v.lastAt = some s.now ∧
      v.lastCnt = (f.asdus.getLast?.map Asdu.smpCnt).getD 0 ∧ (v.st = .running ∨ v.st = u.st)

/-- GOOSE rows (R132 to R134, R297): a frame that the redundancy stage drops does nothing; of one that passes it, an accepted frame sets its subscription and the bits it maps, a refused one is only counted; at TALEXP the bits take their substitute values, invalid; an unchanged publication goes out again with SQ_NUM plus 1 and twice the interval, a changed one anew. -/
def Obligations.GooseRowsComplete : Prop :=
  (∀ t f s u, operational s = true → portReceives s f.link.port = true → pairAdmits s f.link.port = true → gooseStage (atTime t s) f = (false, u) →
    exec (.gooseFrameReceive t f) s = .next u) ∧
  (∀ t f s u n g, operational s = true → portReceives s f.link.port = true → pairAdmits s f.link.port = true →
    gooseStage (atTime t s) f = (true, u) → gooseMatch u f = some (n, g) →
    (gooseAccepts u g f = true → exec (.gooseFrameReceive t f) s = .next (gooseTake n g f u)) ∧
    (gooseAccepts u g f = false → exec (.gooseFrameReceive t f) s = .next { u with
      sve := { u.sve with gsubs := tmod u.sve.gsubs n fun x => { x with err := satInc x.err } } })) ∧
  (∀ t gsub s g e, tget s.sve.gsubs gsub = some g → g.talExpired = false → g.talEnd = some e → e ≤ max s.now t → operational s = true →
    exec (.gooseTalExpire t gsub) s = .next (setGBits (g.cfg.bits.map fun m => (m.gbit, m.subst == 1, false)) (shtNow (atTime t s))
      (ev 0x040A (u8 gsub ++ zeros 3 ++ u32 g.stNum) (modGsub gsub (fun x => { x with valid := false, talExpired := true, talEnd := none }) (atTime t s))))) ∧
  (∀ t gpub s g n, tget s.sve.gpubs gpub = some g → g.running = true → g.next = some n → n ≤ max s.now t → operational s = true →
    gooseGated (atTime t s) g = false →
    (g.gatedOff = false → g.cfg.members.map (gooseMember (atTime t s)) = g.values →
      exec (.gooseRetransmit t gpub) s = .next (gooseSend gpub { atTime t s with sve := { s.sve with gpubs := tmod s.sve.gpubs gpub fun x =>
        { x with sqNum := (x.sqNum + 1) % 2 ^ 32, interval := min (2 * x.interval) x.cfg.maxtimeMs } } })) ∧
    (g.cfg.members.map (gooseMember (atTime t s)) ≠ g.values → exec (.gooseRetransmit t gpub) s = .next (gooseChange gpub (atTime t s)))) ∧
  (∀ n v valid ts s, n < 1024 → (setGBit n v valid ts s).sve.gbits = setBit s.sve.gbits n v ∧ (setGBit n v valid ts s).sve.gvalid = setBit s.sve.gvalid n valid ∧
    Frame [.trg, .sve] s (setGBit n v valid ts s))

/-- Zone rows (R20, R142, R143, R169, R194): a zone whose samples are there is evaluated, and the index is its latest; test mode past its limit ends at the next index; a BLOCKED_Q that stayed for one second is recorded. -/
def Obligations.ZoneRowsComplete : Prop :=
  (∀ t zone k s z, tget s.prt.zones zone = some z → inService s = true → zoneReady (atTime t s) z k = true →
    Becomes (.zoneEvaluate t zone k) s fun u => u = zoneEval zone k (atTime t s) ∧ ∃ z', tget u.prt.zones zone = some z' ∧ z'.lastK = some k) ∧
  (∀ zn k s z, tget s.prt.zones zn = some z → ∃ z', tget (zoneBoundary zn k s).prt.zones zn = some z' ∧ z'.group = (wantedGroup s z).1 ∧
    z'.groupReq = none ∧ z'.testReq = none ∧ z'.cfg = z.cfg) ∧
  (∀ t zone s z m, tget s.prt.zones zone = some z → z.test = some m → z.testReq = none → inService s = true →
    m.t1 + (m.durMs : Int) * 1000000 + 600000000000 ≤ baseNs (atTime t s) (zoneBase s z.cfg) →
    Becomes (.testModeExpire t zone) s fun u => u.prt = { s.prt with zones := tmod s.prt.zones zone fun x => { x with testReq := some none } }) ∧
  (∀ t inst s i f, tget s.prt.insts inst = some i → i.bqSince = some f → f + 1000000000 ≤ max s.now t →
    Becomes (.blockedQHoldExpire t inst) s fun u => Frame [.prt, .evr, .now, .out] s u ∧
      u.prt = { s.prt with insts := tmod s.prt.insts inst fun x => { x with bqRecorded := x.sig.blockedQ, bqSince := none } })

/-- Rows of the trip matrix, outputs and inputs (R184, R189, R190): a row whose pulse, seal and breaker wait are over is released and its pin goes low; an input takes its debounced value; a mismatch turns TOFB against the pin, which stays, and ends when it clears. -/
def Obligations.TripRowsComplete : Prop :=
  (∀ t row s, releasable (atTime t s) (rowOf s row) = true → exec (.tripRowRelease t row) s = .next (leaveStep (settle (releaseRow row (atTime t s))))) ∧
  (∀ row s, (releaseRow row s).trp.rows = lmod s.trp.rows row (fun r => { r with active := false }) ∧
    (row < 8 → (releaseRow row s).trp.pins = setBit s.trp.pins row false) ∧ (8 ≤ row → (releaseRow row s).trp.pins = s.trp.pins) ∧
    Frame [.trg, .trp, .evr] s (releaseRow row s)) ∧
  (∀ row grant s, ∃ r, (acceptRow row grant s).trp.rows = lset s.trp.rows row r ∧ r.active = true ∧ r.accAt = s.now ∧ r.cnt = (rowOf s row).cnt + 1 ∧
    (row < 8 → (acceptRow row grant s).trp.pins = setBit s.trp.pins row true) ∧ Frame [.trg, .trp, .evr] s (acceptRow row grant s)) ∧
  (∀ t n level s b, n < 16 → s.trp.bi[n]? = some b → b.invalid = false → b.val ≠ level →
    Becomes (.biDebouncedChange t n level) s fun u => ∃ b', u.trp.bi[n]? = some b' ∧ b'.val = level ∧ b'.raw = level) ∧
  (∀ t n s b, n < 16 → s.trp.bi[n]? = some b → b.invalid = true → b.rawAt + 10000000000 ≤ max s.now t →
    Becomes (.biChatterRecover t n) s fun u => ∃ b', u.trp.bi[n]? = some b' ∧ b'.val = b.raw) ∧
  (∀ t n s, n < 8 → bit s.trp.mismatch n = false → toSince s n + fbTime s < max s.now t → Becomes (.toFeedbackMismatch t n) s fun u =>
    u.trp.mismatch = setBit s.trp.mismatch n true ∧ bit u.trp.tofb n = !bit s.trp.pins n) ∧
  (∀ t n s, n < 8 → bit s.trp.mismatch n = true → toSince s n + fbTime s ≤ max s.now t → Becomes (.toMismatchClear t n) s fun u => u.trp.mismatch = setBit s.trp.mismatch n false)

/-- Task rows (R34, R200, R201, R204, R216, R219): in SERVICE the BLU starts a due cycle, a background task whose turn it is starts when nothing else waits, and a cycle whose native call runs goes on with its result; a call that is aborted is counted, and the cycle goes on with CR as it was; a cycle that has ended and is not preempted commits, and a change out of SERVICE that waits for it goes on. -/
def Obligations.TaskRowsComplete : Prop :=
  (∀ t task natives s k st due idx, inService s = true → tget (tasksNow t s).cyc.tasks task = some k → k.run = none → k.suspended = false →
    served (tasksNow t s) task k = true → k.due = some (st, due, idx) →
    exec (.taskCycleStart t task natives) s = .next (taskStart task st due idx natives (tasksNow t s))) ∧
  (∀ t task natives s k, inService s = true → tget (tasksNow t s).cyc.tasks task = some k → k.run = none → k.suspended = false →
    served (tasksNow t s) task k = true → k.due = none → k.cfg.cls = 3 →
    exec (.taskCycleStart t task natives) s =
      .next (taskStart task (baseNs (atTime t s) k.cfg.tbsel) (max s.now t) 0 natives (takeTurn task (tasksNow t s)))) ∧
  (∀ t task r rest s k c n, tget (tasksNow t s).cyc.tasks task = some k → k.run = some c → c.inCall = some n → callRuns (tasksNow t s) task k = true →
    exec (.taskCycleStart t task (r :: rest)) s = .next (taskReturn task (r :: rest) (tasksNow t s))) ∧
  (∀ t task cause mcause s k c n, tget s.cyc.tasks task = some k → k.run = some c → c.inCall = some n → callRuns (atTime t s) task k = true →
    Becomes (.nativeCallAbort t task cause mcause) s fun u => u.cyc.abortCnt = satInc s.cyc.abortCnt ∧ Frame [.cyc, .evr, .now, .out] s u ∧
      ∃ k' c', tget u.cyc.tasks task = some k' ∧ k'.run = some c' ∧ c'.aborted = true) ∧
  (∀ t task s k c, tget (tasksNow t s).cyc.tasks task = some k → k.run = some c → c.ended = true → preempted (tasksNow t s) task k = false →
    exec (.taskCycleCommit t task) s = .next (leaveStep (settle (cycleBoundary task (commitCycle task c (tasksNow t s)))))) ∧
  (∀ n c s k, tget s.cyc.tasks n = some k → ∃ k', tget (commitCycle n c s).cyc.tasks n = some k' ∧ k'.run = none ∧ k'.cycles = k.cycles + 1 ∧
    k'.first = false ∧ k'.cfg = k.cfg)

/-- Programs contain no loops, and every instruction runs at most once per cycle (R209): in an image without a fault every jump goes forward and stays inside the program, so each instruction moves the program counter forward, and the program ends, or waits in a native call, in no more steps than it has instructions, and the end. An image with another jump target is faulty (R210). -/
def Obligations.LogicProgramsEnd : Prop :=
  ∀ (s : State) (g : Image),
    (∀ (i : Nat) (ins : BlInstr), g.prog[i]? = some ins → ins.op = 0x18 ∨ ins.op = 0x19 ∨ ins.op = 0x1A → imgFault g = none → i < ins.opnd ∧ ins.opnd < g.prog.length) ∧
    (∀ (i : Nat) (ins : BlInstr), g.prog[i]? = some ins → ins.op = 0x18 ∨ ins.op = 0x19 ∨ ins.op = 0x1A → ins.opnd ≤ i ∨ g.prog.length ≤ ins.opnd → (imgFault g).isSome = true) ∧
    (∀ (x : Exec) (ins : BlInstr), imgFault g = none → g.prog[x.c.pc]? = some ins → x.c.pc < (execInstr s g x.c.pc ins { x with c := { x.c with pc := x.c.pc + 1 } }).c.pc) ∧
    (∀ x, imgFault g = none → (execProg s g (g.prog.length + 1) x).c.ended = true ∨ (execProg s g (g.prog.length + 1) x).c.inCall.isSome = true)

/-- Timers and counters of the Pedin BL (R212 to R214): Q of TON, TOF and TP from IN, the preset and the elapsed time; a counter counts rising CR and stays from 0 to 2^32 − 1. -/
def Obligations.TimersAndCounters : Prop :=
  (∀ pt st inp (x : TimerSt), (timerStep 0 pt st inp x).q = (inp && decide (pt ≤ if x.running then min ((st - x.t0) / 1000).toNat 0xFFFFFFFF else 0))) ∧
  (∀ st inp (x : TimerSt), (timerStep 0 0 st inp x).q = inp) ∧
  (∀ pt st (x : TimerSt), (timerStep 1 pt st true x).q = true ∧ (timerStep 1 pt st true x).running = false) ∧
  (∀ pt st (x : TimerSt), x.inp = true → x.running = false →
    (timerStep 1 pt st false x).running = true ∧ (timerStep 1 pt st false x).t0 = st ∧ (timerStep 1 pt st false x).q = decide (0 < pt)) ∧
  (∀ pt st inp (x : TimerSt), x.running = true → min ((st - x.t0) / 1000).toNat 0xFFFFFFFF < pt →
    (timerStep 2 pt st inp x).q = true ∧ (timerStep 2 pt st inp x).t0 = x.t0) ∧
  (∀ pt st (x : TimerSt), x.inp = false → x.running = false → 0 < pt → (timerStep 2 pt st true x).q = true ∧ (timerStep 2 pt st true x).t0 = st) ∧
  (∀ cr (c : CounterSt), (counterStep false cr c).prev = cr ∧ (counterStep true cr c).prev = cr ∧
    (c.cv ≤ 0xFFFFFFFF → (counterStep false cr c).cv = (if cr ∧ c.prev = false then min (c.cv + 1) 0xFFFFFFFF else c.cv) ∧
      (counterStep false cr c).cv ≤ 0xFFFFFFFF ∧ (counterStep true cr c).cv = (if cr ∧ c.prev = false then c.cv - 1 else c.cv)))

/-- Shutter rows (R91, R92, R95, R96, R100, R102, R103, R110): triggers decided in the order of their stamps, a qualified edge, the end of the module's pulse, records that close, with the chained record that opens then, data blocks written or found bad, a record committed, or its header moved from a block that fails; ARMED and FORCE as registers. -/
def Obligations.ShutterRowsComplete : Prop :=
  (∀ t failing s, exec (.shutterDecisionInterval ⟨t, failing⟩) s =
    .next (foldOver (sortTrigs s.trg.queue) (takeTrigger failing) { atTime t s with trg := { s.trg with queue := [] } })) ∧
  (∀ l : List Trigger, (sortTrigs l).Perm l ∧ (sortTrigs l).Pairwise (fun a b => a.t ≤ b.t)) ∧
  (∀ t line level stamp s, line < 6 →
    exec (.trigEdgeQualify t line level stamp) s = .next (settle (pinEdge line level (stamp.getD (shtBase s) 0) (atTime t s)))) ∧
  (∀ line level ts s, line < 4 → (pinEdge line level ts s).trg.pins = setBit s.trg.pins line level) ∧
  (∀ t line s p, s.trg.xout[line]? = some p → p.on = true → p.to' ≤ max s.now t →
    exec (.xlinePulseEnd t line) s = .next { atTime t s with trg := { s.trg with xout := lset s.trg.xout line { p with on := false } } }) ∧
  (∀ t failing s r, s.trg.records = [r] → r.phase = .opened → recEnded r (baseNs (atTime t s) r.tb) = true → ∃ u,
    u = { atTime t s with trg := { s.trg with records := [{ r with phase := .closed, chain := none }] } } ∧
    (r.chain = none → exec (.shutterRecordClose ⟨t, failing⟩) s = .next u) ∧
    (∀ c, r.chain = some c → exec (.shutterRecordClose ⟨t, failing⟩) s = .next (openChain failing r c u))) ∧
  (∀ t s r b, storeRuns s = true → s.trg.records.find? (blockReady (atTime t s)) = some r → nextFree s = some b →
    exec (.shutterDataBlockWrite t true) s = .next { atTime t s with trg := { s.trg with
      cursor := (b + 1) % 3584
      records := s.trg.records.map fun x => if x.recno = r.recno then { x with written := x.written + 1, blocks := x.blocks ++ [b] } else x } }) ∧
  (∀ t s r b, storeRuns s = true → s.trg.records.find? (blockReady (atTime t s)) = some r → nextFree s = some b →
    Becomes (.shutterDataBlockWrite t false) s fun u => Frame [.trg, .evr, .now, .out] s u ∧
      u.trg = { s.trg with cursor := (b + 1) % 3584, bad := b :: s.trg.bad }) ∧
  (∀ t s r, storeRuns s = true → s.trg.records.find? (allWritten s) = some r →
    exec (.shutterCommitComplete ⟨t, false⟩) s = .next (headerMoves r (atTime t s))) ∧
  (∀ t s r, storeRuns s = true → s.trg.records.find? (allWritten s) = some r →
    Becomes (.shutterCommitComplete ⟨t, true⟩) s fun u => Frame [.trg, .evr, .now, .out] s u ∧ u.trg = { s.trg with
      records := s.trg.records.map fun x => if x.recno = r.recno then { r.flag rfCommitted with phase := .committed } else x }) ∧
  (∀ t (v : Word) s, s.pwr.gated = false → operational s = true → (v ^^^ s.trg.ctl) &&& 0xFE#32 = 0#32 →
    exec (.trgArmedWrite t .host v) s = .next { atTime t s with trg := { s.trg with ctl := v &&& 0xFF#32 } }) ∧
  (∀ t (v : Word) s, dark s = false → bit v 0 = true → shtRuns s = true →
    exec (.trgForceWrite t .host v) s = .next { atTime t s with trg := { s.trg with
      queue := s.trg.queue ++ [⟨shtNow (atTime t s), 0xFFFF, none, bit v 1, false, none, none⟩] } })

/-- PTP rows (R257 to R262): a one-step Sync measures at once, a two-step one waits for its Follow_Up or is dropped after 1 s; an Announce is kept and the port states are decided; a port sends Announce and Sync as master and peer-delay requests always, answers peer-delay requests, and an answer gives its mean path delay; without an Announce for the receipt timeout a LOCKED base without another slave port goes to HOLDOVER. -/
def Obligations.PtpRowsComplete : Prop :=
  (∀ t (m : PtpSync) s b, instanceOf s m.hdr.port m.hdr.udp m.hdr.domain = some b → linkUp s m.hdr.port = true →
    (m.twoStep = false → exec (.ptpSyncReceive t m) s =
      .next (syncDone b m.hdr.port (m.hdr.stamp.getD b 0 - rxLat s m.hdr.port) m.origin m.hdr.corr (atTime t s))) ∧
    (m.twoStep = true → exec (.ptpSyncReceive t m) s = .next { atTime t s with tbs := { s.tbs with ports := lmod s.tbs.ports m.hdr.port fun q =>
      { q with waits := q.waits ++ [⟨b, m.hdr.seqId, m.hdr.srcId, m.hdr.srcPort, m.hdr.stamp.getD b 0 - rxLat s m.hdr.port, m.hdr.corr, m.hdr.port, max s.now t⟩] } } })) ∧
  (∀ t (m : PtpFollowUp) s w, (ptpOf s m.hdr.port).waits.find? (followsUp (atTime t s) m) = some w →
    exec (.ptpFollowUpReceive t m) s = .next (syncDone w.tb m.hdr.port w.rx m.precise (w.corr + m.hdr.corr)
      (modPtp m.hdr.port (fun q => { q with waits := q.waits.filter fun x => !followsUp (atTime t s) m x }) (atTime t s)))) ∧
  (∀ t port s, exec (.followUpTimeout t port) s = .next { atTime t s with tbs := { s.tbs with ports := lmod s.tbs.ports port fun q =>
    { q with waits := q.waits.filter fun w => decide (max s.now t < w.at' + 1000000000) } } }) ∧
  (∀ t (m : PtpAnnounce) s b, instanceOf s m.hdr.port m.hdr.udp m.hdr.domain = some b → linkUp s m.hdr.port = true →
    exec (.ptpAnnounceReceive t m) s = .next (bmca b
      (modPtp m.hdr.port (fun q => { q with announces := q.announces.filter (otherMaster m) ++ [(m, max s.now t)] }) (atTime t s)))) ∧
  (∀ t base s p, base < 4 → (baseOf s base).slavePort = some p → (baseOf s base).cfg.src = 1 → portBest (atTime t s) p (baseOf s base).cfg.domain = none →
    ((baseOf (bmca base (atTime t s)) base).st ≠ .locked → exec (.announceReceiptTimeout t base) s = .next (bmca base (atTime t s))) ∧
    ((baseOf (bmca base (atTime t s)) base).st = .locked → (baseOf (bmca base (atTime t s)) base).slavePort = none →
      exec (.announceReceiptTimeout t base) s = .next (enterHoldover base 1 (bmca base (atTime t s))))) ∧
  (∀ t port s, port < 4 → linkUp s port = true → s.sys.st ≠ .off →
    exec (.ptpMessageTransmit t port .pdelayReq) s = .next (ptpSend port (pdelayUdp s port) true
      (.ptp .pdelayReq (baseOf s (pdelayBase s port)).cfg.domain (((ptpOf s port).pdelaySeq + 1) % 65536) 0 none)
      (modPtp port (fun q => { q with
        pdelaySeq := ((ptpOf s port).pdelaySeq + 1) % 65536
        pdelay := some ⟨((ptpOf s port).pdelaySeq + 1) % 65536, baseNs (atTime t s) (pdelayBase s port) + txLat s port, none⟩ }) (atTime t s)))) ∧
  (∀ t port b s k, port < 4 → linkUp s port = true → s.sys.st ≠ .off → isMaster s port b = true →
    (k = .announce b ∨ k = .sync b) → Becomes (.ptpMessageTransmit t port k) s fun u =>
      Frame [.tbs, .mac, .red, .swc, .vfm, .evr, .now, .out, .freeCtr] s u ∧
      (instPort u b port).annSeq = (if k = .announce b then ((instPort s b port).annSeq + 1) % 65536 else (instPort s b port).annSeq) ∧
      (instPort u b port).syncSeq = (if k = .sync b then ((instPort s b port).syncSeq + 1) % 65536 else (instPort s b port).syncSeq)) ∧
  (∀ t (m : PtpPdelay) s, m.hdr.port < 4 → linkUp s m.hdr.port = true → m.kind = .req →
    exec (.pdelayMessageReceive t m) s = .next (ptpSend m.hdr.port m.hdr.udp true (.ptpResp 10 m.hdr.domain m.hdr.seqId 0)
      (ptpSend m.hdr.port m.hdr.udp true
        (.ptpResp 3 m.hdr.domain m.hdr.seqId (m.hdr.stamp.getD (pdelayBase s m.hdr.port) 0 - rxLat s m.hdr.port)) (atTime t s)))) ∧
  (∀ t (m : PtpPdelay) s x, m.hdr.port < 4 → linkUp s m.hdr.port = true → m.kind = .resp → (ptpOf s m.hdr.port).pdelay = some x →
    x.seqId = m.hdr.seqId → ∃ rx, rx = m.hdr.stamp.getD (pdelayBase s m.hdr.port) 0 - rxLat s m.hdr.port ∧
    exec (.pdelayMessageReceive t m) s = .next (modPtp m.hdr.port (fun q =>
      if m.twoStep then { q with pdelay := some { x with resp := some (m.ts, rx, m.hdr.corr) } }
      else { q with pdelay := none, mpd := some (max 0 (rdivEven ((rx - x.t1) * 65536 - m.hdr.corr) 131072)).toNat }) (atTime t s))) ∧
  (∀ t (m : PtpPdelay) s x t2 t4 c, m.hdr.port < 4 → linkUp s m.hdr.port = true → m.kind = .respFollowUp → (ptpOf s m.hdr.port).pdelay = some x →
    x.seqId = m.hdr.seqId → x.resp = some (t2, t4, c) →
    exec (.pdelayMessageReceive t m) s = .next (modPtp m.hdr.port (fun q => { q with
      pdelay := none, mpd := some (max 0 (rdivEven (((t4 - x.t1) - (m.ts - t2)) * 65536 - c - m.hdr.corr) 131072)).toNat }) (atTime t s)))

/-- Rows of the time bases (R247, R248, R251, R253, R255, R263 to R266): IRIG-B and PPS_IN measure the bases that use them; a silent source and an expired holdover change the state; HO_ERR follows its formula, and ends the holdover above its limit; a step, a generator's instant with its pulse, a leap second and a capture take effect. -/
def Obligations.TimeBaseRowsComplete : Prop :=
  (∀ t (f : IrigFrame) s, (f.parityOk = false ∨ ∃ q l, s.tbs.irigPrev = some (q, l) ∧ f.seconds ≠ q + 1 ∧ max s.now t < l + 3000000000) → Becomes (.irigFrameReceive t f) s fun u => u.tbs.irigErr = satInc s.tbs.irigErr ∧
    Frame [.tbs, .evr, .now, .out] s u) ∧
  (∀ t (f : IrigFrame) s, f.parityOk = true → (∀ q l, s.tbs.irigPrev = some (q, l) → f.seconds = q + 1 ∨ l + 3000000000 ≤ max s.now t) →
    exec (.irigFrameReceive t f) s = .next (foldOver (List.range 4) (irigTo f) { atTime t s with tbs := { s.tbs with
      irigPrev := some (f.seconds, max s.now t), irigStat := wd (fl true 0 + (f.tq % 16) * 2 + fl f.leapPending 5) } })) ∧
  (∀ t stamp s, exec (.ppsInEdge t stamp) s = .next (foldOver (List.range 4) (ppsTo stamp) { atTime t s with tbs := { s.tbs with
    ppsNs := stampNsWord (ppsBase s) (stamp.getD (ppsBase s) 0), ppsSec := secLo (stamp.getD (ppsBase s) 0) } })) ∧
  (∀ t b s u, b < 4 → (∀ l, (baseOf s b).lastAccept = some l → l + 3000000000 ≤ max s.now t) →
    u = (if (baseOf s b).st = .locked then enterHoldover b 1 (atTime t s) else atTime t s) →
    exec (.sourceLossTimeout t b) s = .next (if supplies u b then u else sourceGone b u)) ∧
  (∀ t b s h, b < 4 → (baseOf s b).ho = some h → (baseOf s b).st = .holdover → max s.now t > h.enteredAt + (baseOf s b).cfg.hoLimit * 1000000000 →
    exec (.holdoverLimitExpire t b) s = .next (enterFree b 5 (atTime t s))) ∧
  (∀ t b s x h, b < 4 → s.tbs.base[b]? = some x → x.ho = some h → x.st = .holdover →
    h.eLock + cdiv (((if h.uSmall then 2 else 20) * 640 + max h.dtMax (tBoard s - h.tEntry).natAbs) * ((max s.now t - h.enteredAt) / 1000000000)) 640
      ≤ min x.cfg.hoErrMax 0xFFFFFFFF →
    Becomes (.holdoverErrorUpdate t b) s fun u => Frame [.tbs, .evr, .now, .out] s u ∧ ∃ x', u.tbs.base[b]? = some x' ∧ x'.st = .holdover ∧ x'.hoErr =
      h.eLock + cdiv (((if h.uSmall then 2 else 20) * 640 + max h.dtMax (tBoard s - h.tEntry).natAbs) * ((max s.now t - h.enteredAt) / 1000000000)) 640) ∧
  (∀ t b s x h, b < 4 → s.tbs.base[b]? = some x → x.ho = some h → x.st = .holdover →
    x.cfg.hoErrMax < h.eLock + cdiv (((if h.uSmall then 2 else 20) * 640 + max h.dtMax (tBoard s - h.tEntry).natAbs) * ((max s.now t - h.enteredAt) / 1000000000)) 640 →
    Becomes (.holdoverErrorUpdate t b) s fun u => ∃ x', u.tbs.base[b]? = some x' ∧ x'.st = .free ∧ x'.hoErr = 0) ∧
  (∀ t b s p u, b < 4 → (baseOf s b).pend = some p → p.atBase ≤ baseNs (atTime t s) b →
    u = modBase b (fun x => { x with pend := none }) (atTime t s) →
    (p.reply = none → exec (.timStepApply t b) s = .next (stepBase srcHw b p.delta 0 u)) ∧
    (∀ rt, p.reply = some rt → exec (.timStepApply t b) s = .next
      (finish rt stOk 0 (u64 (secOf p.atBase).toNat ++ u32 (nsOf p.atBase) ++ u32 0 ++ s64 p.delta) (stepBase (cmdSrc rt.src) b p.delta 0 u)))) ∧
  (∀ src b d cause s, (stepBase src b d cause s).tbs.base = lmod s.tbs.base b fun x =>
    { x.endSeg s.now with
      val := x.valAt s.now + d * 281474976710656, ref := s.now, stepCnt := x.stepCnt + 1, lockRun := 0, stepVals := [] }) ∧
  (∀ t g s i, g < 16 → (tegOf s g).next = some i → i ≤ baseNs (atTime t s) (tegOf s g).tb →
    Becomes (.tegFire t g) s fun u => ∀ x, s.tbs.teg[g]? = some x → ∃ x', u.tbs.teg[g]? = some x' ∧ x'.cnt = x.cnt + 1 ∧ x'.last = some i ∧
      x'.next = (if x.mode = 2 then some (i + x.period) else none) ∧
      x'.pulseEnd = if x.outPin = 0 then x.pulseEnd else some (max s.now t + x.width)) ∧
  (∀ t g (v : Word) s, g < 16 → s.pwr.gated = false → operational s = true →
    exec (.tegCtlWrite t .host g v) s = .next (tegArm g (modTeg g (fun x => { x with ctl := v &&& 0x7F#32 }) (atTime t s)))) ∧
  (∀ t b s, b < 4 → (baseOf s b).leap61 = true → (secOf (baseNs (atTime t s) b) - (baseOf s b).utcOffset) % 86400 = 0 →
    Becomes (.leapSecondApply t b) s fun u => u.tbs = { s.tbs with base := lmod s.tbs.base b fun x =>
      { x with utcOffset := (baseOf s b).utcOffset + 1, leap61 := false } }) ∧
  (∀ t b s, b < 4 → (baseOf s b).leap61 = false → (baseOf s b).leap59 = true → (secOf (baseNs (atTime t s) b) - (baseOf s b).utcOffset) % 86400 = 86399 →
    Becomes (.leapSecondApply t b) s fun u => u.tbs = { s.tbs with base := lmod s.tbs.base b fun x =>
      { x with utcOffset := (baseOf s b).utcOffset - 1, leap59 := false } }) ∧
  (∀ t s, dark s = false → exec (.tbsCapture t .host) s = .next { atTime t s with tbs := { s.tbs with
    base := s.tbs.base.map (Base.capture (max s.now t)), capCnt := s.tbs.capCnt + 1 } })

/-- The time bases (R246, R251, R252, R255): what entering LOCKED, HOLDOVER and FREE leaves, for a base that exists; a new rate leaves the value of the instant and stays within 500 ppm, and a base's time never runs backwards while its rate does. -/
def Obligations.BaseStatesAndTime : Prop :=
  (∀ b s x, s.tbs.base[b]? = some x →
    (∃ x', (enterLocked b s).tbs.base[b]? = some x' ∧ x'.st = .locked ∧ x'.lockedAt = some s.now ∧ x'.hoErr = 0) ∧
    (∀ cause, ∃ x' h, (enterHoldover b cause s).tbs.base[b]? = some x' ∧ x'.st = .holdover ∧ x'.ho = some h ∧ h.enteredAt = s.now ∧
      h.eLock = (x.recent.take 16).foldl max 0 ∧ x'.hoErr = h.eLock ∧ x'.lockRun = 0 ∧ x'.lockedAt = none) ∧
    (∀ cause, x.st ≠ .free → ∃ x', (enterFree b cause s).tbs.base[b]? = some x' ∧ x'.st = .free ∧ x'.rate = x.rate ∧ x'.hoErr = 0) ∧
    (∀ cause, Frame [.tbs, .evr] s (enterLocked b s) ∧ Frame [.tbs, .evr] s (enterHoldover b cause s) ∧ Frame [.tbs, .evr] s (enterFree b cause s))) ∧
  (∀ b r s, ((setRate b r s).tbs.base.map fun x => x.valAt s.now) = s.tbs.base.map fun x => x.valAt s.now) ∧
  (∀ b r s x, s.tbs.base[b]? = some x → ∃ x', (setRate b r s).tbs.base[b]? = some x' ∧ -32768000000 ≤ x'.rate ∧ x'.rate ≤ 32768000000) ∧
  (∀ (x : Base) a b, -32768000000 ≤ x.rate → a ≤ b → x.valAt a ≤ x.valAt b)

/-- The calendar (R274, R278): the date that a count of seconds since 1970 stands for counts as that many seconds, for every date from 2000 to 2399, and the calendar's date of it is the date itself. -/
def Obligations.CalendarCounts : Prop :=
  ∀ c : Civil, civilOk c = true → civilOf (secondsOf c) = c ∧ 1 ≤ weekday c ∧ weekday c ≤ 7

/-- Rows of the clock and the backup domain (R254, R271, R273, R275, R277 to R280): the calendar counts a second and its trim window goes on, time bases that wait are set from it, and every 1,024 s it is measured; a staged date is checked, loaded and recorded, and shown by a copy of the same edge; the discipline step loads TB0's date at its second; a capture copies every field of one tick; the supply goes to VBAT and back at the voltages of its table, and the switchover counts; the comparator sets VBAT_LOW after two low samples. -/
def Obligations.ClockRowsComplete : Prop :=
  (∀ t s w v, w = { atTime t s with rtc := { s.rtc with
      cal := nextSecond s.rtc.cal, rollAt := max s.now t, window := (s.rtc.window + secondPeriods s.rtc.trim s.rtc.window) % 1048576 } } →
    v = seedBases (uts w) w → exec (.rtcSecondRollover t) s = .next (if disciplines v && uts v % 1024 == 0 then rtcMeasure v else v)) ∧
  (∀ t s, s.tbs.seed = false → (disciplines s = false ∨ uts { s with rtc := { s.rtc with cal := nextSecond s.rtc.cal } } % 1024 ≠ 0) →
    exec (.rtcSecondRollover t) s = .next { atTime t s with rtc := { s.rtc with
      cal := nextSecond s.rtc.cal, rollAt := max s.now t, window := (s.rtc.window + secondPeriods s.rtc.trim s.rtc.window) % 1048576 } }) ∧
  (∀ t s c r, s.rtc.commits.find? (fun c => !c.atTop) = some c →
    r = { s.rtc with cal := c.date, rollAt := max s.now t, window := 0, timeLost := false, ePrev := if c.cause = 2 then some 0 else none
                     stepCnt := if c.cause = 2 then s.rtc.stepCnt + 1 else s.rtc.stepCnt, commits := s.rtc.commits.erase c } →
    Becomes (.rtcCommitLoad t) s fun u =>
      u.rtc = if s.rtc.copyAt = some (max s.now t) then { r with copy := rtcCopy { atTime t s with rtc := r } } else r) ∧
  (∀ t s c, s.rtc.commits.find? (fun c => c.atTop) = some c → ((secondsOf c.date : Nat) : Int) * 1000000000 ≤ utcNow (atTime t s) → civilOk c.date = true →
    Becomes (.rtcDisciplineStep t) s fun u => u.rtc.cal = c.date ∧ u.rtc.rollAt = max s.now t ∧ u.rtc.window = 0 ∧ u.rtc.timeLost = false ∧
      u.rtc.commits = s.rtc.commits.erase c) ∧
  (∀ t s, dark s = false → exec (.rtcCapture t .host) s = .next { atTime t s with rtc := { s.rtc with capture := true } }) ∧
  (∀ t s, s.rtc.capture = true → exec (.rtcCaptureComplete t) s = .next { atTime t s with rtc := { s.rtc with
    capture := false, copy := rtcCopy (atTime t s), copyAt := some (max s.now t) } }) ∧
  (∀ t (v : Word) s, dark s = false → civilOk (stagedDate s.rtc (v &&& 0x3F#32)) = true →
    exec (.rtcStgSecWrite t .host v) s = .next { atTime t s with rtc := { s.rtc with
      stgSec := v &&& 0x3F#32, commits := s.rtc.commits ++ [⟨stagedDate s.rtc (v &&& 0x3F#32), 0, false, none⟩] } }) ∧
  (∀ t (v : Word) s, dark s = false → civilOk (stagedDate s.rtc (v &&& 0x3F#32)) = false → Becomes (.rtcStgSecWrite t .host v) s fun u =>
    u.rtc = { s.rtc with stgSec := v &&& 0x3F#32, badDate := true } ∧ Frame [.rtc, .evr, .now, .out] s u) ∧
  (∀ t rail vbat s, (s.rtc.onVbat = false → rail + 50 < vbat ∨ rail < 2700 → exec (.backupSupplySwitch t ⟨rail, vbat⟩) s =
      .next { atTime t s with rtc := { s.rtc with onVbat := true, swoCnt := satInc s.rtc.swoCnt } }) ∧
    (s.rtc.onVbat = true → 2850 < rail → vbat + 50 < rail → exec (.backupSupplySwitch t ⟨rail, vbat⟩) s =
      .next { atTime t s with rtc := { s.rtc with onVbat := false } }) ∧
    (s.rtc.onVbat = false → vbat ≤ rail + 50 → 2700 ≤ rail → exec (.backupSupplySwitch t ⟨rail, vbat⟩) s = .next (atTime t s)) ∧
    (s.rtc.onVbat = true → (rail ≤ 2850 ∨ rail ≤ vbat + 50) → exec (.backupSupplySwitch t ⟨rail, vbat⟩) s = .next (atTime t s))) ∧
  (∀ t mv s, Becomes (.vbatSample t mv) s fun u => u.rtc = { s.rtc with
      vbatLows := if mv < 2400 then min 2 (s.rtc.vbatLows + 1) else 0, vbatOk := decide (2400 ≤ mv)
      vbatLow := s.rtc.vbatLow || (decide (mv < 2400) && decide (1 ≤ s.rtc.vbatLows)) } ∧ Frame [.rtc, .evr, .now, .out] s u)

/-- Rows of the network ports (R287, R288, R290 to R293): LINK sets and clears with its conditions; a PAUSE holds a port, and ends; a short frame is counted, a good one goes past the wake patterns to the filter, a PAUSE frame to the port. -/
def Obligations.PortRowsComplete : Prop :=
  (∀ t p since c s m, s.mac[p]? = some m → portPowered s p = true → m.link = false → condOk p m c = true → since + m.linkHold ≤ max s.now t →
    Becomes (.linkUp t p ⟨c, since⟩) s fun u => ∃ m', u.mac[p]? = some m' ∧ m'.link = true ∧ m'.cond = c ∧ m'.speed = modeSpeed p m c) ∧
  (∀ t p since c s m, s.mac[p]? = some m → portPowered s p = true → m.link = true → condOk p m c = true →
    Becomes (.linkUp t p ⟨c, since⟩) s fun u => Frame [.mac, .evr, .now, .out] s u ∧
      ∃ m', u.mac[p]? = some m' ∧ m'.link = true ∧ m'.cond = c ∧ m'.speed = modeSpeed p m c) ∧
  (∀ t p c s m, s.mac[p]? = some m → portPowered s p = true → m.link = true → condOk p m c = false →
    Becomes (.linkDown t p c) s fun u => ∃ m', u.mac[p]? = some m' ∧ m'.link = false ∧ m'.cond = c) ∧
  (∀ t p n s m, s.mac[p]? = some m → portPowered s p = true → linkUp s p = true → bit m.ctl 4 = true → n < 65536 →
    Becomes (.pauseReceive t p n) s fun u => Frame [.mac, .evr, .now, .out] s u ∧ ∃ m', u.mac[p]? = some m' ∧
      m'.pauseEnd = if n = 0 then none else some (max (max s.now t) m.txUntil + cdiv (n * quantumPs s p) 1000)) ∧
  (∀ t p s m e, s.mac[p]? = some m → m.pauseEnd = some e → e ≤ max s.now t →
    Becomes (.pauseExpire t p) s fun u => Frame [.mac, .evr, .now, .out] s u ∧ ∃ m', u.mac[p]? = some m' ∧ m'.pauseEnd = none) ∧
  (∀ t p s v m due, v = swcSettle (atTime t s) → v.mac[p]? = some m → m.xoffSent = some due → bit m.ctl 5 = true →
    (due ≤ max s.now t → cellsPort v p > m.xon → Becomes (.pauseRefresh t p) s fun u => ∃ m', u.mac[p]? = some m' ∧
      m'.xoffSent = some (max s.now t + m.quanta * quantumPs v p / 2000)) ∧
    (cellsPort v p ≤ m.xon → Becomes (.pauseRefresh t p) s fun u => ∃ m', u.mac[p]? = some m' ∧ m'.xoffSent = none)) ∧
  (∀ t (f : RxFrame) s, portPowered s f.port = true → linkUp s f.port = true → f.pcsErr = 0 → f.fcsOk = true →
    (f.octets.length + 4 < 64 → f.octets.length + 4 ≤ (macOf s f.port).lenMax → exec (.frameReceive t f) s = .next (macCount f.port 6 1 (atTime t s))) ∧
    (64 ≤ f.octets.length + 4 → f.octets.length + 4 ≤ (macOf s f.port).lenMax → (parseFrame f.octets).etype ≠ 0x8808 → s.sys.st ≠ .safelight →
      exec (.frameReceive t f) s = .next (stage4 f.port f (parseFrame f.octets) true (wakePatterns f.port (f.octets ++ le 4 (crc32 f.octets).toNat)
        (countGood f.port (parseFrame f.octets) (atTime t s))))) ∧
    (64 ≤ f.octets.length + 4 → f.octets.length + 4 ≤ (macOf s f.port).lenMax → (parseFrame f.octets).etype = 0x8808 →
      unbe (slice (f.octets.drop 14) 0 2) = 1 → (parseFrame f.octets).dst = pauseMac →
      exec (.frameReceive t f) s = .next (pauseReceive f.port (unbe (slice (f.octets.drop 14) 2 2)) (countGood f.port (parseFrame f.octets) (atTime t s)))))

/-- Rows of the switch core (R321, R323, R331): an output's scheduler runs, a dynamic entry past AGE_TIME goes and every other stays, the depth of a queue is selected. -/
def Obligations.SwitchRowsComplete : Prop :=
  (∀ t port s, s.sys.st ≠ .off → s.sys.st ≠ .safelight → exec (.swcFrameTransmit t port) s = .next (swcTransmit port (udpOut (atTime t s)))) ∧
  (∀ t mac vid s, ageTime s ≠ 0 → exec (.fdbAgeOut t mac vid) s = .next { atTime t s with swc := { s.swc with
    fdb := s.swc.fdb.filter fun e => !(e.mac == mac && e.vid == vid && !e.static && decide (e.seen + ageTime s * 1000000000 ≤ max s.now t)) } }) ∧
  (∀ t (v : Word) s, dark s = false → Becomes (.swcVoqSelWrite t .host v) s fun u => u.swc.voqSel = v &&& 0x1FF#32 ∧ Frame [.mac, .swc, .evr, .now, .out] s u)

/-- Rows of the redundant pairs (R297, R300, R303): supervision frames, forgotten nodes, a missed frame, the end of a standby fault, the end of the revert hold. -/
def Obligations.RedundancyRowsComplete : Prop :=
  (∀ t q s, q < 2 → (pairOf s q).cfg.mode = 1 → (pairOf s q).nextLife ≤ max s.now t → s.sys.st ≠ .off → s.pwr.gated = false →
    exec (.prpSupervisionTransmit t q) s = .next (swcOwn .pair (2 * q)
      (mkFrame (supMac s q) (Config.mac (2 * q)) none 0x88FB none (.prpSup (Config.mac (2 * q))))
      (modPair q (fun p => { p with nextLife := max s.now t + p.cfg.lifeCheckMs * 1000000 }) (atTime t s)))) ∧
  (∀ t q src s, exec (.prpNodeForget t q src) s = .next { atTime t s with red := { s.red with pair := lmod s.red.pair q fun p => { p with
    nodes := p.nodes.filter fun n => !(n.src == src && decide (n.seen + (pairOf s q).cfg.nodeForgetS * 1000000000 ≤ max s.now t)) } } }) ∧
  (∀ t q stream cnt s w, q < 2 → (pairOf s q).cfg.mode = 2 → (pairOf s q).waits.find? (missDue (atTime t s) q stream cnt) = some w →
    exec (.bracketMissDecide t q stream cnt) s = .next (frameMissed q stream cnt (1 - w.port)
      (modPair q (fun p => { p with waits := p.waits.filter fun x => !missDue (atTime t s) q stream cnt x }) (atTime t s)))) ∧
  (∀ q stream cnt side s u p, tget s.sve.subs stream = some u → s.red.pair[q]? = some p → p.revert = none → side ≠ p.active →
    ∃ p', (frameMissed q stream cnt side s).red.pair[q]? = some p' ∧ p'.missStbyCnt = satInc p.missStbyCnt ∧ p'.lastMissStby = s.now ∧ p'.stbyFault = true ∧
      p'.active = p.active) ∧
  (∀ t q s p, s.red.pair[q]? = some p → p.stbyFault = true → p.lastMissStby + 10000000000 ≤ max s.now t →
    Becomes (.standbyFaultClear t q) s fun u => u.red = { s.red with pair := lmod s.red.pair q fun p => { p with stbyFault := false } } ∧
      Frame [.red, .evr, .now, .out] s u) ∧
  (∀ t q s h, q < 2 → (pairOf s q).holdFrom = some h → h + (pairOf s q).cfg.revertHoldS * 1000000000 ≤ max s.now t →
    ((pairStreams s q).isEmpty = false → exec (.revertHoldExpire t q) s = .next { atTime t s with red := { s.red with
      pair := lmod s.red.pair q fun p => { p with holdFrom := none, revert := some ⟨(pairOf s q).active, [], []⟩, missPref := [] } } }) ∧
    ((pairStreams s q).isEmpty = true → Becomes (.revertHoldExpire t q) s fun u => ∀ p, s.red.pair[q]? = some p → ∃ p', u.red.pair[q]? = some p' ∧
      p'.active = p.cfg.pref ∧ p'.revert = none ∧ p'.reverts = satInc p.reverts))

/-- Rows of zone ownership (R304 to R308): a due beacon goes out; a beacon that the redundancy stage drops does nothing; of those that pass it one of a greater epoch fences the owner, one of its own epoch puts it into CONFLICT, a malformed one, the module's own or one on another pair is counted; 300 ms of listening end as what was heard, the silence of both links makes owners listen, and a claim ends with the next epoch. -/
def Obligations.OwnershipRowsComplete : Prop :=
  (∀ t zone s, (∀ l e, (zoneOwnOf s zone).lastSent = some (l, e) → l + 100000000 ≤ max s.now t) →
    exec (.ownBeaconTransmit t zone) s = .next (sendBeacon zone (atTime t s))) ∧
  (∀ t (b : Beacon) s, b.port < 4 → s.sys.st ≠ .off → s.sys.st ≠ .safelight → linkUp s b.port = true →
    (∀ v, b.port < 2 → beaconStage b (atTime t s) = (false, v) → exec (.ownBeaconReceive t b) s = .next v) ∧
    (∀ v, v = atTime t s ∧ 2 ≤ b.port ∨ b.port < 2 ∧ beaconStage b (atTime t s) = (true, v) ∧ (b.wellFormed = false ∨ b.unit = s.red.own.unitId) →
      exec (.ownBeaconReceive t b) s = .next { v with red := { v.red with ownDisc := satInc v.red.ownDisc } })) ∧
  (∀ t (b : Beacon) s v x, b.port < 2 → s.sys.st ≠ .off → s.sys.st ≠ .safelight → linkUp s b.port = true → beaconStage b (atTime t s) = (true, v) →
    b.wellFormed = true → b.unit ≠ s.red.own.unitId → b.zone < 64 → (s.red.own.macalg = 0 ∨ macAccepts v 2 s.red.own.keySlot 0xFFFF attrGooseMac b.ext b.octets = true) →
    ownEff s b.zone = true → s.red.zones[b.zone]? = some x → x.claim = none →
    (b.epoch > x.epoch → x.st = .owner ∨ x.st = .listening ∨ x.st = .conflict →
      Becomes (.ownBeaconReceive t b) s fun u => ∃ x', u.red.zones[b.zone]? = some x' ∧ x'.st = .fenced ∧ x'.heard = max x.heard b.epoch ∧ x'.epoch = x.epoch) ∧
    (b.epoch = x.epoch → x.st = .owner →
      Becomes (.ownBeaconReceive t b) s fun u => ∃ x', u.red.zones[b.zone]? = some x' ∧ x'.st = .conflict ∧ x'.epoch = x.epoch)) ∧
  (∀ t zone s x, ownEff s zone = true → s.red.zones[zone]? = some x → x.st = .listening → x.claim = none → 300000000 ≤ listenedFor (atTime t s) zone →
    (x.heardNow = none → Becomes (.ownListenExpire t zone) s fun u => ∃ x', u.red.zones[zone]? = some x' ∧ x'.st = if x.epoch = 0 then .released else .owner) ∧
    (∀ h n, x.heardNow = some (h, n) → h > x.epoch → Becomes (.ownListenExpire t zone) s fun u => ∃ x', u.red.zones[zone]? = some x' ∧ x'.st = .fenced) ∧
    (∀ h n, x.heardNow = some (h, n) → h = x.epoch → Becomes (.ownListenExpire t zone) s fun u => ∃ x', u.red.zones[zone]? = some x' ∧ x'.st = .conflict) ∧
    (∀ h n, x.heardNow = some (h, n) → h < x.epoch → Becomes (.ownListenExpire t zone) s fun u => ∃ x', u.red.zones[zone]? = some x' ∧ x'.st = .owner)) ∧
  (∀ t s f, s.red.silentFrom = some f → f + 100000000 ≤ max s.now t → Becomes (.ownSilenceDetect t) s fun u =>
    ∀ z x, z < 64 → ownEff s z = true → s.red.zones[z]? = some x → x.st = .owner ∨ x.st = .conflict →
      ∃ x', u.red.zones[z]? = some x' ∧ x'.st = .listening ∧ x'.epoch = x.epoch) ∧
  (∀ t zone s x c, s.red.zones[zone]? = some x → x.claim = some c → x.st = .listening → 300000000 ≤ listenedFor (atTime t s) zone →
    (max x.epoch x.heard + 1 < 2 ^ 32 → Becomes (.ownClaimComplete t zone) s fun u => ∃ x', u.red.zones[zone]? = some x' ∧ x'.claim = none ∧
      x'.epoch = max x.epoch x.heard + 1 ∧ x'.st = .owner) ∧
    (2 ^ 32 ≤ max x.epoch x.heard + 1 → Becomes (.ownClaimComplete t zone) s fun u => ∃ x', u.red.zones[zone]? = some x' ∧ x'.claim = none ∧
      x'.epoch = x.epoch ∧ x'.st = .listening))

/-- Rows of the host interface as a whole (R332 to R334, R354 to R357): the link, PERST_N, VF and PF FLR, VF Enable, the power state, the end of a Stop bath, a completion timeout. PERST_N and PF FLR leave the module's own state and discard what the host's channels had waiting; what comes by configuration request takes effect once those are answered, 100 ms after PERST_N. -/
def Obligations.HostInterfaceRowsComplete : Prop :=
  (∀ t up gen w l1 s, s.vfm.perst = false → s.vfm.linkUp ≠ up → exec (.hostLinkChange t up gen w l1) s =
    .next (settle (ev 0x0908 (u8 (b2n up) ++ u8 gen ++ u8 w ++ u8 0) { atTime t s with vfm := { s.vfm with
      linkUp := up, linkGen := if up then gen else 0, linkWidth := if up then w else s.vfm.linkWidth, linkL1 := up && l1 } }))) ∧
  (∀ t gen w l1 s, s.vfm.perst = false → s.vfm.linkUp = true → exec (.hostLinkChange t true gen w l1) s =
    .next (settle { atTime t s with vfm := { s.vfm with linkUp := true, linkGen := gen, linkWidth := w, linkL1 := l1 } })) ∧
  (∀ t s, s.vfm.perst = false → Becomes (.perstAssert t) s fun u =>
    u.sys = { s.sys with rstHist := s.sys.rstHist ||| 0x20#32, perstCount := satInc s.sys.perstCount } ∧
    u.cmd.queue = s.cmd.queue.filter (fun p => !isChannel p.env.src) ∧ u.cmd.running = s.cmd.running.filter (fun r => !isChannel r.src) ∧
    u.mbx.pmb = List.replicate 8 ⟨0#32, 0#32, false⟩ ∧ (∀ p ∈ u.mbx.sem, p.2 ≠ 0) ∧
    Frame [.sys, .trg, .sve, .trp, .cyc, .tbs, .mac, .red, .swc, .vfm, .mbx, .cmd, .evr, .now, .out] s u) ∧
  (∀ t s, pciReady (atTime t s) = true → Becomes (.pfFlr t) s fun u => u.sys = s.sys ∧ u.vfm.vfEnable = false ∧ u.vfm.numVfs = 0 ∧ u.vfm.pfBusMaster = false ∧
    u.vfm.evq = Ring.reset ∧ u.cmd.queue = s.cmd.queue.filter (fun p => !isChannel p.env.src) ∧ (∀ p ∈ u.mbx.sem, p.2 ≠ 0)) ∧
  (∀ t s, Becomes (.perstDeassert t) s fun u => u.vfm = (if s.vfm.perst then { s.vfm with perst := false, pciAt := max s.now t + 100000000 } else s.vfm) ∧
    Frame [.vfm, .evr, .now, .out] s u) ∧
  (∀ t d s, pciReady (atTime t s) = true →
    Becomes (.pfPowerStateChange t d) s fun u => u.vfm = { s.vfm with d3hot := d } ∧ Frame [.vfm, .evr, .now, .out] s u) ∧
  (∀ t v s, vfReady (atTime t s) v = true → pciReady (atTime t s) = true →
    exec (.vfFlr t v) s = .next (stopStart 0 v true false none (atTime t s)) ∧
    ((vfOf s v).stop = none → ∃ w, stopStart 0 v true false none (atTime t s) = settle w ∧ (vfOf w v).stop = some ⟨max s.now t, 0, [], 0, true, false⟩ ∧
      ∀ j < 16, v ≤ 1024 → w.cyc.v.getLsbD (16 * (v - 1) + j) = false) ∧
    ∀ b, (vfOf s v).stop = some b → (vfOf (stopStart 0 v true false none (atTime t s)) v).stop = some { b with flr := true }) ∧
  (∀ t n s, pciReady (atTime t s) = true → s.vfm.vfEnable = false → n ≤ 1024 →
    (∀ ari, exec (.vfEnableWrite t false n ari) s = .next { atTime t s with vfm := { s.vfm with numVfs := n, ari := ari } }) ∧
    (Becomes (.vfEnableWrite t true n true) s fun u =>
      u.vfm = { s.vfm with numVfs := n, ari := true, vfEnable := true, vfAt := max s.now t + 1000000 } ∧ Frame [.vfm, .evr, .now, .out] s u) ∧
    (Becomes (.vfEnableWrite t true n false) s fun u => u.vfm = { s.vfm with numVfs := n, ari := false } ∧ Frame [.vfm, .evr, .now, .out] s u)) ∧
  (∀ t n ari s, pciReady (atTime t s) = true → s.vfm.vfEnable = true → Becomes (.vfEnableWrite t false n ari) s fun u => u.vfm.vfEnable = false) ∧
  (∀ t v s b, (vfOf s v).stop = some b → (vfOf s v).txStage = [] → (vfOf s v).waiting = [] →
    Becomes (.stopBathComplete t v) s fun u => u.vfm.sbCnt = satInc s.vfm.sbCnt ∧ (∀ w ≠ v, vfOf u w = vfOf s w) ∧ vfOf u v = { vfOf s v with
      stop := none, bulk := [], lossless := [], gaps := [], overshare := false, stalled := false, rxq := Ring.reset, txq := Ring.reset
      busMaster := (vfOf s v).busMaster && !b.flr, memEn := (vfOf s v).memEn && !b.flr }) ∧
  (∀ t fn s, Becomes (.completionTimeout t fn) s fun u => .aer fn ∈ u.out ∧ Frame [.vfm, .evr, .now, .out] s u)

/-- Rows of the rings (R339 to R341, R345 to R348, R351 to R353): a write of 1 to EN starts a ring afresh, a doorbell moves TAIL or is ignored and counted, the interrupt of a coalescing ring comes in time, a delivery is written into the entry at HEAD or the entry is refused, an entry of a transmit ring is used, refused trip requests change no row, request bits are set and cleared. -/
def Obligations.RingRowsComplete : Prop :=
  (∀ t (q : RingId) (v : Word) s, q.ok = true → bit v 4 = true →
    ((ringOf s q).en = false → Becomes (.qCtlWrite t q v) s fun u => Frame [.vfm, .evr, .now, .out] s u ∧
      ringOf u q = { ringOf s q with ctl := v &&& 0x7F#32, head := 0, tail := 0, phase := true, seq := 0, baddesc := false, unsig := 0 }) ∧
    ((ringOf s q).en = true → Becomes (.qCtlWrite t q v) s fun u => Frame [.vfm, .evr, .now, .out] s u ∧ bits (ringOf u q).ctl 3 0 = bits (ringOf s q).ctl 3 0 ∧
      (ringOf u q).head = 0 ∧ (ringOf u q).tail = 0)) ∧
  (∀ t v (tail : Word) s, dark s = false → vfReady (atTime t s) v = true → (vfOf s v).memEn = true →
    (bits tail 13 0 < (vfOf s v).rxq.size → (vfOf s v).stop = none → Becomes (.doorbellRx t v tail) s fun u => Frame [.vfm, .evr, .now, .out] s u ∧
      vfOf u v = { vfOf s v with rxq := { (vfOf s v).rxq with tail := bits tail 13 0 } }) ∧
    ((vfOf s v).rxq.size ≤ bits tail 13 0 ∨ (vfOf s v).stop ≠ none → Becomes (.doorbellRx t v tail) s fun u => Frame [.vfm, .evr, .now, .out] s u ∧
      vfOf u v = { vfOf s v with rxq := { (vfOf s v).rxq with dbign := satInc (vfOf s v).rxq.dbign } }) ∧
    (bits tail 13 0 < (vfOf s v).txq.size → (vfOf s v).stop = none → Becomes (.doorbellTx t v tail) s fun u => Frame [.vfm, .evr, .now, .out] s u ∧
      vfOf u v = { vfOf s v with txq := { (vfOf s v).txq with tail := bits tail 13 0 } }) ∧
    ((vfOf s v).txq.size ≤ bits tail 13 0 ∨ (vfOf s v).stop ≠ none → Becomes (.doorbellTx t v tail) s fun u => Frame [.vfm, .evr, .now, .out] s u ∧
      vfOf u v = { vfOf s v with txq := { (vfOf s v).txq with dbign := satInc (vfOf s v).txq.dbign } })) ∧
  (∀ t q s, (ringOf s q).irqEn = true → 0 < (ringOf s q).unsig → 0 < (ringOf s q).coalUs → (ringOf s q).unsigFrom + (ringOf s q).coalUs * 1000 ≤ max s.now t →
    ringStopped s q = false → Becomes (.msixCoalesceExpire t q) s fun u => ringOf u q = { ringOf s q with unsig := 0 } ∧
      u.out = [.msix q.vector.1 q.vector.2] ∧ Frame [.vfm, .evr, .now, .out] s u) ∧
  (∀ t v (x : RxEntry) s d rest, ringUsable s (.rx v) = true → (vfOf s v).lossless = d :: rest → (vfOf s v).stalled = false →
    (x.ok = true → Becomes (.rxDeliveryWrite t (.rx v) x) s fun u => (vfOf u v).lossless = rest ∧ (vfOf u v).rxq.seq = ((vfOf s v).rxq.seq + 1) % 2 ^ 32 ∧
      (vfOf u v).rxq.head = ((vfOf s v).rxq.head + 1) % (vfOf s v).rxq.size ∧ .hostWrite x.bufAddr (d.payload.take x.bufLen) ∈ u.out ∧
      Frame [.vfm, .evr, .now, .out] s u) ∧
    (x.ok = false → Becomes (.rxDeliveryWrite t (.rx v) x) s fun u => (vfOf u v).lossless = d :: rest ∧ (vfOf u v).rxq.seq = (vfOf s v).rxq.seq ∧
      (vfOf u v).rxq.err = satInc (vfOf s v).rxq.err ∧ (vfOf u v).rxq.head = ((vfOf s v).rxq.head + 1) % (vfOf s v).rxq.size ∧
      Frame [.vfm, .evr, .now, .out] s u)) ∧
  (∀ t v (x : RxEntry) s d rest, ringUsable s (.rx v) = true → (vfOf s v).lossless = [] → (vfOf s v).bulk = d :: rest → losslessWaits s = false → x.ok = true →
    Becomes (.rxDeliveryWrite t (.rx v) x) s fun u => (vfOf u v).bulk = rest ∧ (vfOf u v).rxq.seq = ((vfOf s v).rxq.seq + 1) % 2 ^ 32 ∧
      .hostWrite x.bufAddr (d.payload.take x.bufLen) ∈ u.out ∧ Frame [.vfm, .evr, .now, .out] s u) ∧
  (∀ t (x : RxEntry) s b rest, ringUsable s .evq = true → s.vfm.evqStage = b :: rest → x.ok = true →
    Becomes (.rxDeliveryWrite t .evq x) s fun u => u.vfm.evqStage = rest ∧ u.vfm.evq.seq = (s.vfm.evq.seq + 1) % 2 ^ 32 ∧
      .hostWrite x.bufAddr (b.take x.bufLen) ∈ u.out ∧ Frame [.vfm, .evr, .now, .out] s u) ∧
  (∀ t v entry s u, (vfOf s v).stop = none → u = txDrain v 16 (atTime t s) → ringUsable u (.tx v) = true → s.pwr.shed < 4 →
    exec (.txEntryFetch t v entry) s = .next (txHandle v entry u)) ∧
  (∀ t v s, (vfOf s v).stop = none → (vfOf s v).txStage = [] → ringUsable s (.tx v) = true → s.pwr.shed < 4 →
    (Becomes (.txEntryFetch t v .nop) s fun u => Frame [.vfm, .evr, .now, .out] s u ∧
      (vfOf u v).txq.head = ((vfOf s v).txq.head + 1) % (vfOf s v).txq.size ∧ (vfOf u v).txq.done = satInc (vfOf s v).txq.done) ∧
    (Becomes (.txEntryFetch t v .bad) s fun u => Frame [.vfm, .evr, .now, .out] s u ∧
      (vfOf u v).txq.head = ((vfOf s v).txq.head + 1) % (vfOf s v).txq.size ∧ (vfOf u v).txq.err = satInc (vfOf s v).txq.err ∧ (vfOf u v).txq.baddesc = true) ∧
    (∀ grant row req (sec ns : Nat), grant < 256 → row < 16 → (vfOf s v).acksUsed < 16 → tripResult (atTime t s) v grant row ((sec : Int) * NS + ns) ≠ 0 →
      Becomes (.txEntryFetch t v (.tripReq grant row req sec ns)) s fun u => u.trp = { s.trp with vfRef := satInc s.trp.vfRef } ∧
        (vfOf u v).lossless.length = (vfOf s v).lossless.length + 1 ∧ Frame [.trp, .vfm, .evr, .now, .out] s u)) ∧
  (∀ t v (x : Word) s, dark s = false → vfReady (atTime t s) v = true → (vfOf s v).memEn = true → v ≤ 1024 →
    (∃ w, exec (.vfVreqSet t v x) s = .next (settle w) ∧ Frame [.cyc, .evr, .now, .out] s w ∧
      ∀ i, w.cyc.v.getLsbD i = (s.cyc.v.getLsbD i || (decide (16 * (v - 1) ≤ i ∧ i < 16 * v) && bit x (i - 16 * (v - 1))))) ∧
    (∃ w, exec (.vfVreqClr t v x) s = .next (settle w) ∧ Frame [.cyc, .evr, .now, .out] s w ∧
      ∀ i, w.cyc.v.getLsbD i = (s.cyc.v.getLsbD i && !(decide (16 * (v - 1) ≤ i ∧ i < 16 * v) && bit x (i - 16 * (v - 1))))))

/-- Rows of the mailboxes and semaphores (R361 to R363, R366, R368): a post to an empty mailbox stores the message with its sender and epoch, a post to a full one is discarded and counted with the sender, a read of DATA takes the message; a pointer mailbox, the fetch of a command packet, a reply notice; a free semaphore goes to the master that reads it, and its owner alone releases it. -/
def Obligations.MailboxRowsComplete : Prop :=
  (∀ t (m : Master) r slot (d : Word) s, coreSlotOk r slot = true → dark s = false → reaches m (0xF2000 + 0x100 * r + 4 * slot) = true →
    ((coreMail s r slot).full = false → exec (.mbxCorePost t m r slot d) s = .next { atTime t s with mbx := { s.mbx with
      core := tset s.mbx.core (16 * r + slot) ⟨d, true, epochOf s m, m.id⟩ } }) ∧
    ((coreMail s r slot).full = true → exec (.mbxCorePost t m r slot d) s = .next (nak m (atTime t s)))) ∧
  (∀ t r slot s, r < 16 → slot < 8 → dark s = false → (coreMail s r slot).full = true → exec (.mbxCoreDataRead t (.qc r) r slot) s = .next { atTime t s with
    out := [.readData (coreMail s r slot).data], mbx := { s.mbx with core := tset s.mbx.core (16 * r + slot) { coreMail s r slot with full := false } } }) ∧
  (∀ t v (d : Word) s, 1 ≤ v → v ≤ 1024 → dark s = false →
    ((tgetD s.mbx.vfTx v Mail.empty).full = false → exec (.mbxVfTxPost t v d) s = .next { atTime t s with mbx := { s.mbx with
      vfTx := tset s.mbx.vfTx v ⟨d, true, s.mbx.epochPf, 0⟩ } }) ∧
    ((tgetD s.mbx.vfTx v Mail.empty).full = true → exec (.mbxVfTxPost t v d) s = .next { atTime t s with mbx := { s.mbx with pfNak := satInc s.mbx.pfNak } }) ∧
    ((tgetD s.mbx.vfRx v Mail.empty).full = true → exec (.mbxVfRxDataRead t v) s = .next { atTime t s with
      out := [.readData (tgetD s.mbx.vfRx v Mail.empty).data]
      mbx := { s.mbx with vfRx := tset s.mbx.vfRx v { tgetD s.mbx.vfRx v Mail.empty with full := false } } })) ∧
  (∀ t v (d : Word) s, vfBarOk (atTime t s) v = true →
    ((tgetD s.mbx.vfRx v Mail.empty).full = false → exec (.mbTxPost t v d) s = .next { atTime t s with mbx := { s.mbx with
      vfRx := tset s.mbx.vfRx v ⟨d, true, tgetD s.mbx.epochVf v 0, v⟩ } }) ∧
    ((tgetD s.mbx.vfRx v Mail.empty).full = true → exec (.mbTxPost t v d) s = .next { atTime t s with mbx := { s.mbx with
      vfNak := tmodD s.mbx.vfNak v 0#32 satInc } }) ∧
    ((tgetD s.mbx.vfTx v Mail.empty).full = true → exec (.mbRxDataRead t v) s = .next { atTime t s with
      out := [.readData (tgetD s.mbx.vfTx v Mail.empty).data]
      mbx := { s.mbx with vfTx := tset s.mbx.vfTx v { tgetD s.mbx.vfTx v Mail.empty with full := false } } })) ∧
  (∀ t n (hi : Word) s, n < 4 → dark s = false →
    ((pmbOf s n).full = false → exec (.pmbPost t n hi) s = .next { atTime t s with mbx := { s.mbx with
      pmb := lmod s.mbx.pmb n fun p => { p with hi := hi, full := true } } }) ∧
    ((pmbOf s n).full = true → exec (.pmbPost t n hi) s = .next { atTime t s with mbx := { s.mbx with pfNak := satInc s.mbx.pfNak } }) ∧
    exec (.pmbReplyRead t n) s = .next { atTime t s with
      out := [.readData (pmbOf s (n + 4)).hi], mbx := { s.mbx with pmb := lmod s.mbx.pmb (n + 4) fun p => { p with full := false } } }) ∧
  (∀ t n s, n < 4 → (pmbOf s n).full = true → queuedOn s n < 16 → s.cmd.interp = true →
    exec (.cmdFetch t n none) s = .next { atTime t s with
      mbx := { s.mbx with pmb := lmod s.mbx.pmb n fun p => { p with full := false } }, cmd := { s.cmd with fetchErr := satInc s.cmd.fetchErr } } ∧
    ∀ e, e.hdr.auth = false → unreplyable { e with src := n, remote := (0, 0) } = false → headerFault { e with src := n, remote := (0, 0) } false = none →
      e.payload.length = e.hdr.plen → e.trailer = [] →
      exec (.cmdFetch t n (some e)) s = .next (flushUnknown (s.cmd.queue.length + 1) { atTime t s with
        mbx := { s.mbx with pmb := lmod s.mbx.pmb n fun p => { p with full := false } }
        cmd := { s.cmd with queue := s.cmd.queue ++ [⟨{ e with src := n, remote := (0, 0) }, none⟩] } })) ∧
  (∀ t n s a rest, n < 4 → s.mbx.held[n]? = some (a :: rest) → (pmbOf s (n + 4)).full = false →
    exec (.replyNoticePost t n) s = .next { atTime t s with out := [.msix 0 1], mbx := { s.mbx with
      held := lset s.mbx.held n rest, pmb := lset s.mbx.pmb (n + 4) ⟨wd a, wd (a / 2 ^ 32), true⟩ } }) ∧
  (∀ t (m : Master) n s, n < 64 → dark s = false → reaches m (0x100 + 4 * n) = true →
    (tget s.mbx.sem n = none → exec (.semRead t m n) s = .next { atTime t s with out := [.readData 0#32], mbx := { s.mbx with sem := tset s.mbx.sem n m.id } }) ∧
    (tget s.mbx.sem n ≠ none → exec (.semRead t m n) s = .next { atTime t s with out := [.readData 1#32] })) ∧
  (∀ t (m : Master) (v : Word) s, dark s = false → reaches m 0xF0008 = true →
    (tget s.mbx.sem (bits v 5 0) = some m.id → exec (.semRelease t m v) s = .next { atTime t s with mbx := { s.mbx with sem := tdel s.mbx.sem (bits v 5 0) } }) ∧
    (tget s.mbx.sem (bits v 5 0) ≠ some m.id → exec (.semRelease t m v) s = .next { atTime t s with mbx := { s.mbx with semBadrel := satInc s.mbx.semBadrel } }))

/-- Rows of the UDP and console transports (R378 to R381, R389): a datagram that passes the first checks joins its sequence, waits behind the other commands, or, as a piece that is not the last, is acknowledged with PENDING, again when the latest piece is repeated; a bad one is counted; a held output is sent again from an offset; idle sequences and outputs end; ARP and ICMP requests are answered; a console line waits as a packet, and one that is none is answered as such. -/
def Obligations.DatagramRowsComplete : Prop :=
  (∀ t (d : UdpDatagram) s, udpServed s d.port = true → d.env.hdr.opcode < 0x8000 → d.ok = true → s.pwr.shed = 0 →
    (∀ p w, s.cmd.seqs.find? (fun q => q.of d.env && q.latest == d.octets) = none →
      (if d.env.hdr.cont then packetChecks d.env false (atTime t s) else arrive d.env false (atTime t s)) = (some p, w) →
      exec (.udpCommandReceive t d) s = .next (takePiece d.octets p w)) ∧
    (∀ q, s.cmd.seqs.find? (fun q => q.of d.env && q.latest == d.octets) = some q →
      exec (.udpCommandReceive t d) s = .next (reply (replyToOf d.env (cmdKey s d.env.hdr.authSlot)) stPending q.joined.length []
        { atTime t s with cmd := { s.cmd with seqs := s.cmd.seqs.map fun x => if x.of d.env then { x with last := max s.now t } else x } }))) ∧
  (∀ t (d : UdpDatagram) s p w, udpServed s d.port = true → d.env.hdr.opcode < 0x8000 → d.ok = true → s.pwr.shed = 0 → s.cmd.seqs = [] →
    isConsole d.env.src = false → udpWaiting s < 32 → packetChecks d.env false (atTime t s) = (some p, w) → d.env.payload.length ≤ 1048576 →
    (d.env.hdr.cont = false → exec (.udpCommandReceive t d) s = .next (enqueue ⟨d.env, p.key⟩ w)) ∧
    (d.env.hdr.cont = true → pieceFault p w = none → exec (.udpCommandReceive t d) s = .next (reply (replyToOf d.env p.key) stPending d.env.payload.length []
      { w with cmd := { w.cmd with seqs := [⟨d.env.src, d.env.remote, d.env.hdr, d.env.payload, d.octets, w.now⟩] } }))) ∧
  (∀ t (d : UdpDatagram) s, udpServed s d.port = true → (d.ok = false ∨ 1 ≤ s.pwr.shed) → d.env.hdr.opcode < 0x8000 →
    exec (.udpCommandReceive t d) s = .next { atTime t s with cmd := { s.cmd with udpDrop := satInc s.cmd.udpDrop } }) ∧
  (∀ t (d : UdpDatagram) s p w o, udpServed s d.port = true → 0x8000 ≤ d.env.hdr.opcode → d.ok = true → s.pwr.shed = 0 →
    packetChecks d.env false (atTime t s) = (some p, w) → cmdAuthAttr w d.env.hdr.authSlot = true → d.env.hdr.plen = 8 → fld d.env.payload 4 4 = 0 → s.cmd.outs = [o] → o.rt.src = d.env.src →
    o.rt.remote = d.env.remote → o.rt.hdr.tag = d.env.hdr.tag → o.rt.hdr.opcode + 0x8000 = d.env.hdr.opcode →
    exec (.udpDataRequest t d) s = .next (dataReplies (replyToOf d.env p.key) o.data 16 (fld d.env.payload 0 4)
      { w with cmd := { w.cmd with outs := [{ o with last := w.now }] } })) ∧
  (∀ t src remote tag s, exec (.udpSequenceIdleExpire t src remote tag) s = .next { atTime t s with cmd := { s.cmd with seqs := s.cmd.seqs.filter fun q =>
    !(q.src == src && q.remote == remote && q.hdr.tag == tag && decide (q.last + 10000000000 ≤ max s.now t)) } }) ∧
  (∀ t src remote tag s, exec (.udpOutputExpire t src remote tag) s = .next { atTime t s with cmd := { s.cmd with outs := s.cmd.outs.filter fun o =>
    !(o.rt.src == src && o.rt.remote == remote && o.rt.hdr.tag == tag && decide (o.last + 10000000000 ≤ max s.now t)) } }) ∧
  (∀ t port target sender (b : Bytes) s, ipServed s port = true → (ipOf s port).addr.toNat = target →
    exec (.arpRequestReceive t port target sender) s = .next (svcFrame sender port 0x0806 64 (.arp target) (atTime t s)) ∧
    ((ipOf s port).ctl.getLsbD 1 = true →
      exec (.icmpEchoReceive t port target sender b) s = .next (svcFrame sender port 0x0800 (46 + b.length) (.icmp target b) (atTime t s)))) ∧
  (∀ t line s, s.cmd.interp = true → line ≠ [] → (8192 < line.length ∨ hexOctets line = none) →
    exec (.consoleLineReceive t line) s = .next { atTime t s with out := [.consoleErr] }) ∧
  (∀ t line b s, s.cmd.interp = true → line ≠ [] → line.length ≤ 8192 → hexOctets line = some b → consoleBusy s = false →
    (envOf 0x10 (0, 0) b).hdr.auth = false → headerFault (envOf 0x10 (0, 0) b) false = none →
    (envOf 0x10 (0, 0) b).payload.length = (envOf 0x10 (0, 0) b).hdr.plen → (envOf 0x10 (0, 0) b).trailer = [] →
    exec (.consoleLineReceive t line) s = .next (enqueue ⟨envOf 0x10 (0, 0) b, none⟩ (atTime t s)))

/-- Rows of the key core (R272, R391, R399, R400, R408): a tamper source that is enabled fogs the keys, with its record when the module has power and silently on VBAT, and only joins the latch bits while the latch is set; the loss of the backup rail clears RK, the tamper latch and the calendar; a quote that has been signed goes out. -/
def Obligations.KeyRowsComplete : Prop :=
  (∀ t src active s, s.key.tampLatched = false → s.sys.st ≠ .off → nbit (active % 32) src = true → tamperEnabled s src = true → s.key.attest = none →
    Becomes (.tamperDetect t src active false) s fun u => Frame [.key, .evr, .now, .out] s u ∧ u.key = { s.key with
      active := BitVec.ofNat 6 (active % 32), latched := s.key.latched ||| BitVec.ofNat 6 (2 ^ src), tampLatched := true, rkValid := false
      fogCount := satInc s.key.fogCount, slots := s.key.slots.filter fun p => p.1 == 0, fogOptime := u.evr.optime }) ∧
  (∀ t src active onVbat s, s.key.tampLatched = false → nbit (active % 32) src = true → tamperEnabled s src = true → (onVbat = true ∨ s.sys.st = .off) →
    exec (.tamperDetect t src active onVbat) s = .next { atTime t s with key := { s.key with
      active := BitVec.ofNat 6 (active % 32), latched := s.key.latched ||| BitVec.ofNat 6 (2 ^ src), tampLatched := true, rkValid := false
      fogCount := satInc s.key.fogCount, fogVbat := true } }) ∧
  (∀ t src active onVbat s, (nbit (active % 32) src = false ∨ tamperEnabled s src = false → exec (.tamperDetect t src active onVbat) s =
      .next { atTime t s with key := { s.key with active := BitVec.ofNat 6 (active % 32) } }) ∧
    (nbit (active % 32) src = true → tamperEnabled s src = true → s.key.tampLatched = true → exec (.tamperDetect t src active onVbat) s =
      .next { atTime t s with key := { s.key with active := BitVec.ofNat 6 (active % 32), latched := s.key.latched ||| BitVec.ofNat 6 (2 ^ src) } })) ∧
  (∀ t s, exec (.backupDomainRestart t) s = .next { atTime t s with rtc := { Rtc.reset with rollAt := max s.now t }, key := { s.key with
    rkValid := false, active := 0#6, latched := 0#6, tampLatched := false, tampEn := 0#2, fogCount := 0#32, fogOptime := 0#32, fogVbat := false } }) ∧
  (∀ t s j, s.key.attest = some j → Becomes (.attestSignComplete t) s fun u => u.key = { s.key with attest := none } ∧
    u.cmd.running = s.cmd.running.erase j.reply ∧ Frame [.key, .mbx, .cmd, .evr, .now, .out] s u)

/-- Rows of the event recorder (R419, R420, R422, R424 to R427): the oldest record that waits is written under the next SEQ, or its block fails and the record waits on; OPTIME is stored; the register window shows the record selected and the next one; a sheet's copy ends, a sheet times out, and a clear leaves one record, whose SEQ goes on. -/
def Obligations.RecorderRowsComplete : Prop :=
  (∀ t s r rest b, writingRuns s = true → s.sys.st ≠ .off → s.sys.st ≠ .safelight → s.evr.stage = r :: rest → tget s.evr.blocks s.evr.cur = some b → b.st = .used →
    b.used + r.stored ≤ blkRoom → s.evr.stageFull = false →
    (Becomes (.evrRecordWrite t true) s fun u => u.evr.nextSeq = s.evr.nextSeq + 1 ∧ u.evr.stage = rest ∧ Frame [.rtc, .vfm, .evr, .now, .out] s u ∧
      blkOf u.evr s.evr.cur = { b with recs := b.recs ++ [⟨s.evr.nextSeq, r⟩] }) ∧
    (Becomes (.evrRecordWrite t false) s fun u => u.evr.nextSeq = s.evr.nextSeq ∧ u.evr.stage.head? = some r ∧ Frame [.evr, .now, .out] s u ∧
      blkOf u.evr s.evr.cur = { b with st := .bad, recs := [] })) ∧
  (∀ t s, Becomes (.optimeStore t) s fun u => u.evr = { (atTime t s).evr with optimeStored := (atTime t s).evr.optime } ∧ Frame [.evr, .now, .out] s u) ∧
  (∀ t (hi : Word) s, dark s = false → Becomes (.evrRdSelect t .host hi) s fun u => u.evr.rdSelHi = hi ∧ Frame [.evr, .now, .out] s u ∧
    u.evr.rdBuf = (heldRecs s.evr).find? (fun r => r.seq == s.evr.rdSelLo.toNat + hi.toNat * 2 ^ 32) ∧ u.evr.rdStat = if u.evr.rdBuf.isSome then 2 else 3) ∧
  (∀ t (v : Word) s, dark s = false → bit v 0 = true → Becomes (.evrRdNext t .host v) s fun u => Frame [.evr, .now, .out] s u ∧
    u.evr.rdBuf = (heldRecs s.evr).find? (fun r => decide (s.evr.rdSelLo.toNat + s.evr.rdSelHi.toNat * 2 ^ 32 < r.seq))) ∧
  (∀ t n s h rt, sheetOf s n = some h → h.copying = some rt → Becomes (.snapshotCopyComplete t n) s fun u =>
    sheetOf u n = some { h with copying := none } ∧ u.cmd.running = s.cmd.running.erase rt ∧ Frame [.evr, .mbx, .cmd, .now, .out] s u) ∧
  (∀ t n s h, sheetOf s n = some h → h.copying = none → h.last + 60000000000 ≤ max s.now t →
    Becomes (.snapshotTimeout t n) s fun u => sheetOf u n = none ∧ Frame [.evr, .now, .out] s u) ∧
  (∀ t s j, s.evr.clearing = some j → j.run = true → s.evr.ready = true → s.evr.cur < 160 → (blkOf s.evr s.evr.cur).st ≠ .bad →
    Becomes (.evrClearComplete t) s fun u => u.evr.clearing = none ∧ u.evr.clearCnt = s.evr.clearCnt + 1 ∧ (heldRecs u.evr).map LogRec.seq = [s.evr.nextSeq] ∧
      u.evr.nextSeq = s.evr.nextSeq + 1 ∧ Frame [.rtc, .vfm, .evr, .mbx, .cmd, .now, .out] s u)

/-- Rows of the supply and of shedding (R432 to R434, R436, R438, R440, R452, R459): levels are entered and left one at a time and counted, VIN is disconnected above 154 V and below 12 V and joined again, the module goes OFF below 18.0 V on its bank, a hold-up test starts and gives C_HU. -/
def Obligations.SupplyRowsComplete : Prop :=
  (∀ t vin vhu s, s.sys.st ≠ .off → s.pwr.shed = 0 → vin < s.pwr.floor ∨ s.pwr.vinOver = true → 18000 ≤ vhu →
    Becomes (.shed1Enter t vin vhu) s fun u => u.pwr.shed = 1 ∧ u.pwr.intCnt = satInc s.pwr.intCnt ∧ u.pwr.shedCnt = lmod s.pwr.shedCnt 0 satInc ∧
      u.pwr.vin = vin ∧ u.pwr.vhu = vhu ∧ u.sys = s.sys) ∧
  (∀ t vin vhu s, s.sys.st ≠ .off → 1 ≤ s.pwr.shed → s.pwr.shed ≤ 4 → vhu < s.pwr.thr.getD (s.pwr.shed - 1) 0 →
    Becomes (.shedLevelEnter t vin vhu) s fun u => u.pwr.shed = s.pwr.shed + 1 ∧ u.pwr.shedCnt = lmod s.pwr.shedCnt s.pwr.shed satInc ∧ u.sys = s.sys) ∧
  (∀ t vin s, s.sys.st ≠ .off → s.pwr.recoverAt < vin → s.pwr.vinOver = false →
    Becomes (.supplyRecovered t vin) s fun u => u.pwr.recovered = true ∧ u.pwr.shed = s.pwr.shed ∧ Frame [.pwr, .evr, .now, .out] s u) ∧
  (∀ t vin vhu s, s.sys.st ≠ .off → s.sys.st ≠ .start → 1 ≤ s.pwr.shed → s.pwr.recovered = true → s.pwr.recoverAt < vin →
    (∀ a, s.pwr.leftAt = some a → a + 1000000 ≤ max s.now t) → leaveAt s.pwr s.pwr.shed ≤ vhu →
    Becomes (.shedLevelLeave t vin vhu) s fun u => u.pwr.shed = s.pwr.shed - 1 ∧ u.pwr.leftAt = some (max s.now t) ∧ u.pwr.shedCnt = s.pwr.shedCnt ∧ u.sys = s.sys) ∧
  (∀ t vhu s, s.pwr.onBank = true → vhu < 18000 → s.sys.st ≠ .off → Becomes (.powerDown t vhu) s fun u => u.sys = { s.sys with st := .off, leaving := none } ∧
    u.trp.pins = 0#8 ∧ (∀ r ∈ u.trp.rows, r.active = false) ∧ u.cmd.interp = false ∧ u.cmd.queue = [] ∧ u.evr.stage = [] ∧ u.pwr.shed = 0 ∧
    Frame [.sys, .trp, .mac, .vfm, .cmd, .evr, .pwr, .now, .out] s u) ∧
  (∀ t vin s, s.sys.st ≠ .off → 154000 < vin → 18000 ≤ s.pwr.vhu → Becomes (.vinOvervoltageDisconnect t vin) s fun u => u.pwr.vinOver = true ∧
    u.pwr.onBank = true ∧ u.pwr.charging = false ∧ u.pwr.recovered = false ∧ Frame [.pwr, .evr, .now, .out] s u) ∧
  (∀ t vin vhu s, s.sys.st ≠ .off → 18000 ≤ vhu → s.pwr.vinOver = false →
    Becomes (.vinUndervoltage t vin vhu) s fun u => u.pwr.onBank = decide (vin < 12000) ∧ Frame [.pwr, .evr, .now, .out] s u) ∧
  (∀ t vin extreme s, s.sys.st ≠ .off → 14400 ≤ vin → vin ≤ 154000 → Becomes (.vinExcursionEnd t vin extreme) s fun u => u.pwr.excursion = none ∧
    u.pwr.vinOver = false ∧ u.pwr.onBank = false ∧ Frame [.pwr, .evr, .now, .out] s u) ∧
  (∀ t s, exec (.holdShortDisconnect t) s = .next { atTime t s with pwr := { s.pwr with holdShort := true } }) ∧
  (∀ t vhu s, s.sys.st ≠ .off → s.pwr.htAuto ≠ 0 → s.pwr.ht = none → s.pwr.htReply = none → s.pwr.shed = 0 → 47000 ≤ vhu →
    Becomes (.holdupTestDue t vhu) s fun u => u.pwr.ht = some ⟨max s.now t, none⟩ ∧ u.pwr.charging = false ∧ Frame [.pwr, .evr, .now, .out] s u) ∧
  (∀ t dt s h, s.pwr.ht = some h → Becomes (.holdupTestComplete t dt) s fun u => u.pwr.ht = none ∧ u.pwr.cHu = holdupCap dt ∧ u.pwr.capValid = true ∧
    u.spd = { s.spd with deferred := true } ∧ Frame [.pwr, .spd, .evr, .now, .out] s u)

/-- Rows of Safelight (R447 to R450): 10 ms after the reply the fabric is power-gated, an enabled source starts the wake or is held while the entry runs, and the wake ends in SERVICE. -/
def Obligations.SafelightRowsComplete : Prop :=
  (∀ t s a, s.pwr.entry = some a → s.sys.st = .safelight → a.at' + 10000000 ≤ max s.now t → Becomes (.safelightPowerGate t) s fun u => u.pwr.gated = true ∧
    u.pwr.entry = none ∧ u.vfm = { s.vfm with linkUp := false, linkGen := 0, linkL1 := false } ∧ u.sys = s.sys ∧ u.trp = s.trp ∧ u.cyc = s.cyc) ∧
  (∀ t src s, wakeEnabled s src = true → s.sys.st = .safelight → s.pwr.waking = none →
    (s.pwr.entry = none → s.pwr.shed < 2 → Becomes (.safelightWake t src) s fun u => (∃ sec ns, u.pwr = { s.pwr with
      wakeHeld := none, waking := some ⟨src, max s.now t, sec, ns⟩ }) ∧ Frame [.pwr, .evr, .now, .out] s u) ∧
    (s.pwr.entry ≠ none ∨ 2 ≤ s.pwr.shed → s.pwr.wakeHeld = none →
      exec (.safelightWake t src) s = .next { atTime t s with pwr := { s.pwr with wakeHeld := some src } })) ∧
  (∀ t s w, s.pwr.waking = some w → s.sys.st = .safelight → s.pwr.shed < 2 → Becomes (.wakeComplete t) s fun u => u.sys.st = .service ∧ u.cmd.interp = true ∧
    u.pwr.gated = false ∧ u.pwr.waking = none ∧ u.pwr.wakeSrc = wd (w.src.cls + w.src.index * 256) ∧ u.pwr.wakeTime = sat32 ((max s.now t - w.at') / 1000))

/-- Rows of the speed monitors and of the VCORE control (R229, R230, R235 to R237, R239, R240): SI_MEAS is the lowest count, BELOW_PLAN sets and clears by it, the fast loop steps up, and down after 10 s of ample speed, a plan takes effect with its thresholds, the day of the OCXO is valued, SI_PLAN and the override are written in MAINT. -/
def Obligations.SpeedRowsComplete : Prop :=
  (∀ t counts s, s.sys.st ≠ .off → s.pwr.gated = false → counts.length = 22 → Becomes (.speedMeasurement t counts) s fun u =>
    u.spd.siCount = (lowestMon counts).1 ∧ u.spd.siMon = (lowestMon counts).2 ∧ u.spd.mon = counts ++ s.spd.mon.drop 22 ∧ Frame [.spd, .evr, .now, .out] s u ∧
    ((lowestMon counts).1 < siRef s → u.spd.belowPlan = true ∧ u.spd.okSets = 0 ∧ u.spd.belowCnt = satInc s.spd.belowCnt) ∧
    (siRef s ≤ (lowestMon counts).1 → u.spd.okSets = s.spd.okSets + 1 ∧ u.spd.belowCnt = s.spd.belowCnt ∧
      (u.spd.belowPlan = true ↔ s.spd.belowPlan = true ∧ s.spd.okSets + 1 < 10))) ∧
  (∀ t s, s.sys.st ≠ .off → s.pwr.gated = false → s.pwr.shed < 4 → s.spd.belowPlan = true → (∀ a, s.spd.fastAt = some a → a + 1000000 ≤ max s.now t) →
    exec (.vcoreFastLoopStep t) s = .next { atTime t s with spd := { s.spd with
      fastSteps := min 255 (s.spd.fastSteps + 1), fastAt := some (max s.now t), fastDown := false } }) ∧
  (∀ t s a, s.sys.st ≠ .off → s.pwr.gated = false → s.pwr.shed < 4 → s.spd.belowPlan = false → 515 * s.spd.siPlan ≤ 100 * s.spd.siCount → 0 < s.spd.fastSteps →
    s.spd.highSince = some a → a + 10000000000 ≤ max s.now t → (∀ a, s.spd.fastAt = some a → a + 100000000 ≤ max s.now t) →
    exec (.vcoreFastLoopStep t) s = .next { atTime t s with spd := { s.spd with
      fastSteps := s.spd.fastSteps - 1, fastAt := some (max s.now t), fastDown := true } }) ∧
  (∀ t a b s, planDue (atTime t s) = true → planBarred s = false → Becomes (.marginPlan t a b) s fun u => u.spd.planNo = s.spd.planNo + 1 ∧
    u.spd.deferred = false ∧ u.pwr.thr = shedThr s ∧ u.spd.planCode = (planOf a b (atTime t s)).planCode ∧
    u.spd.plans = (planOf a b (atTime t s) :: s.spd.plans).take 256 ∧ Frame [.spd, .pwr, .mbx, .cmd, .evr, .now, .out] s u) ∧
  (∀ t s a, (baseOf s 0).traceSince = some a → a + 86400000000000 ≤ max s.now t → Becomes (.ocxoDailyValue t) s fun u =>
    u.spd = { s.spd with ocxoDays := s.spd.ocxoDays + 1, ocxo :=
      ((secOf (baseNs (atTime t s) 0), satI32 (rdivEven (((baseOf s 0).areaNow (max s.now t) - (baseOf s 0).dayArea) * 100) ((max s.now t - a) * 65536)))
        :: s.spd.ocxo).take 30 } ∧
    Frame [.spd, .tbs, .evr, .now, .out] s u) ∧
  (∀ t (v : Word) s, dark s = false →
    (s.sys.st = .maint → Becomes (.spdSiPlanWrite t .host v) s fun u => u.spd.siPlan = max 960 (min 1500 (bits v 10 0)) ∧ u.spd.deferred = true ∧
      u.cmd.dirty = true ∧ Frame [.spd, .cmd, .evr, .now, .out] s u) ∧
    (s.sys.st ≠ .maint → Becomes (.spdSiPlanWrite t .host v) s fun u => u.sys.busViol = satInc s.sys.busViol ∧ Frame [.sys, .evr, .now, .out] s u) ∧
    (s.sys.st = .maint → bit v 8 = true → Becomes (.spdVcoreOvrWrite t .host v) s fun u => u.spd = { s.spd with ovrCode := bits v 7 0, ovrEn := true } ∧
      Frame [.spd, .evr, .now, .out] s u) ∧
    (s.sys.st = .maint → bit v 8 = false → Becomes (.spdVcoreOvrWrite t .host v) s fun u => u.spd = { s.spd with ovrCode := bits v 7 0, ovrEn := false } ∧
      Frame [.spd, .evr, .now, .out] s u) ∧
    (s.sys.st ≠ .maint → exec (.spdVcoreOvrWrite t .host v) s = .next (atTime t s)))

/-- Register accesses (R5, R7, R9, R10, R35, R37, R38): a read returns the register's value and has its read effect, the low word of a pair latches the high one, an address without a register reads 0 and ignores a write; an access from a master that does not reach the block is refused, reads 0, changes no register, and is counted with its address. A configuration field that the host writes outside MAINT keeps its value; in MAINT the write takes effect and DIRTY sets (ACQ_PLAUS). -/
def Obligations.RegisterAccessesComplete : Prop :=
  (∀ t (m : Master) addr s, dark s = false → addr < cfgWindow → reaches m addr = true →
    (∀ r, regAt addr = some r → r.read = none → Becomes (.registerRead t m addr) s fun u => .readData (r.get (atTime t s)) ∈ u.out ∧
      ∀ h, r.hi (atTime t s) = some h → tget u.hiLatch addr = some h) ∧
    (regAt addr = none → exec (.registerRead t m addr) s = .next { atTime t s with out := [.readData 0#32] }) ∧
    (∀ v, keyRefused m addr = false → (∀ r, regAt addr = some r → exec (.registerWrite t m addr v) s = r.set t addr m v (atTime t s)) ∧
      (regAt addr = none → exec (.registerWrite t m addr v) s = .next (atTime t s)))) ∧
  (∀ t (m : Master) addr s, dark s = false → addr < cfgWindow → reaches m addr = false →
    (∀ v, Becomes (.registerWrite t m addr v) s fun u => u.sys.busViol = satInc s.sys.busViol ∧ u.sys.busViolAddr = wd (0x40000000 + addr) ∧
      Frame [.sys, .evr, .now, .out] s u) ∧
    (Becomes (.registerRead t m addr) s fun u => u.out = [.readData 0#32] ∧ u.sys.busViol = satInc s.sys.busViol ∧ Frame [.sys, .evr, .now, .out] s u)) ∧
  (∀ t (v : Word) s, dark s = false → Becomes (.registerWrite t .host 0x11000C v) s fun u => u.key = s.key ∧ u.sys.busViol = satInc s.sys.busViol) ∧
  (∀ t (v : Word) s, dark s = false →
    (s.sys.st ≠ .maint → Becomes (.registerWrite t .host 0x03000C v) s fun u => u.sys.busViol = satInc s.sys.busViol ∧ Frame [.sys, .evr, .now, .out] s u) ∧
    (s.sys.st = .maint → Becomes (.registerWrite t .host 0x03000C v) s fun u => u.acq.plausCtl = v &&& 0x1FFFFFF#32 ∧ u.cmd.dirty = true ∧
      Frame [.acq, .cmd, .evr, .now, .out] s u))

/-- Time, calendar and speed commands (R243, R253, R268, R277, R278, R283): a step of a base without a source, or with PPS_IN and whole seconds, waits for its instant, the status of a base is read, a date waits for the next CD7 edge, the calendar is read with its copy, a plan record is read. -/
def Obligations.TimeCommandsComplete : Prop :=
  (∀ p : TimStepCmd, p.tb ≤ 3 → (p.mode = 0 ∧ p.ns = 0 ∧ p.sec = 0 ∨ p.mode = 1 ∧ p.delta = 0 ∧ p.ns < 1000000000) →
    Waits (fun t e => .timStep t e p) ⟨0x0601, true, plenIs 24, 24, [.service, .maint]⟩
    (fun _ _ u => ((baseOf u p.tb).cfg.src = 0 ∨ (baseOf u p.tb).cfg.src = 3 ∧ p.mode = 1 ∧ p.ns = 0) ∧ (baseOf u p.tb).pend = none ∧
      0 ≤ (timStepPlan u p).1 + (timStepPlan u p).2 ∧ (timStepPlan u p).1 + (timStepPlan u p).2 < ((2 ^ 48 * 1000000000 : Nat) : Int))
    (fun _ rt u => { u with
      tbs := { u.tbs with base := lmod u.tbs.base p.tb fun x => { x with pend := some ⟨(timStepPlan u p).1, (timStepPlan u p).2, some rt⟩ } }
      cmd := { u.cmd with running := u.cmd.running ++ [rt] } })) ∧
  (∀ base ≤ 3, Reads (fun t e => .timGetStatus t e base) ⟨0x0602, false, plenIs 4, 64, [.service, .maint, .safeService]⟩ (fun _ _ _ => True)
    (fun _ _ u => u8 (baseOf u base).st.code ++ u8 (baseOf u base).cfg.src)) ∧
  (∀ p : RtcSet, p.mode = 0 → civilOk p.date = true → Waits (fun t e => .rtcSet t e p) ⟨0x0603, true, plenIs 12, 8, [.service, .maint, .safeService]⟩
    (fun _ _ u => u.rtc.discEn = false ∨ utcValid (baseOf u 0) = false)
    (fun _ rt u => { u with
      rtc := { u.rtc with commits := u.rtc.commits ++ [⟨p.date, 1, false, some rt⟩] }, cmd := { u.cmd with running := u.cmd.running ++ [rt] } })) ∧
  (∀ t e s rt u, begins e ⟨0x0604, false, plenIs 4, 24, [.service, .maint, .safeService]⟩ (atTime t s) = some (rt, u) → e.resvOk = true →
    ∃ p : Bytes, p.length = 24 ∧ u16 u.rtc.cal.year ++ u8 u.rtc.cal.mon ++ u8 u.rtc.cal.day ++ u8 u.rtc.cal.hour ++ u8 u.rtc.cal.min ++ u8 u.rtc.cal.sec <+: p ∧
      exec (.rtcGet t e) s = .next (answered u.cmd.queue.length rt p { u with rtc := { u.rtc with capture := false, copy := rtcCopy u } })) ∧
  (∀ back p, Completes (fun t e => .spdGetPlan t e back) ⟨0x0B02, false, plenIs 4, 64, [.service, .maint, .safeService]⟩
    (fun _ _ u => u.spd.plans[back]? = some p) (fun _ _ _ => p.octets) (fun _ _ u => u))

/-- Network and host commands (R309, R329, R354, R358): the counters of a port or of a pair are read, and cleared when FLAGS bit 0 asks for it, entries of a switch table are read, the dynamic entries go, VFM_RESET of an enabled VF starts its Stop bath and waits for the end, and of another VF ends it at once. -/
def Obligations.NetworkCommandsComplete : Prop :=
  (∀ p : NetCounters, p.target < 4 → p.flags < 2 → Completes (fun t e => .netCounters t e p) ⟨0x0706, false, plenIs 4, 144, [.service, .maint, .safeService]⟩
    (fun _ _ _ => True) (fun _ _ u => (macOf (pauseAccrue p.target u) p.target).cnt.flatMap fun c => u64 c.toNat)
    (fun _ _ u => if p.flags = 1 then modMac p.target (fun m => { m with cnt := List.replicate 18 0#64 }) (pauseAccrue p.target u) else pauseAccrue p.target u)) ∧
  (∀ p : NetCounters, p.target = 0x10 ∨ p.target = 0x11 → p.flags < 2 → Completes (fun t e => .netCounters t e p)
    ⟨0x0706, false, plenIs 4, 48, [.service, .maint, .safeService]⟩ (fun _ _ _ => True) (fun _ _ u => (pairOf u (p.target - 0x10)).counters.flatMap w32)
    (fun _ _ u => if p.flags = 1 then { u with red := { u.red with pair := lmod u.red.pair (p.target - 0x10) Pair.clearCounters } } else u)) ∧
  (∀ p : SwcTable, p.table < 4 → 1 ≤ p.count → p.count ≤ 64 → Completes (fun t e => .swcTableRead t e p)
    ⟨0x0704, false, fun n => n == 8 || n == 8 + 16 * p.count, 8 + 16 * p.count, [.service, .maint]⟩ (fun _ _ _ => True)
    (fun _ _ u => u32 (if p.index + ((swcEntries u p.table).drop p.index |>.take p.count).length < (swcEntries u p.table).length
        then p.index + ((swcEntries u p.table).drop p.index |>.take p.count).length else 0xFFFFFFFF)
      ++ u16 ((swcEntries u p.table).drop p.index |>.take p.count).length ++ u16 0 ++ ((swcEntries u p.table).drop p.index |>.take p.count).flatten)
    (fun _ _ u => u)) ∧
  (∀ p : SwcTable, p.table < 4 → p.count = 0 → p.index = 0 → Completes (fun t e => .swcTableFlush t e p) ⟨0x0704, false, plenIs 8, 0, [.service, .maint]⟩
    (fun _ _ _ => True) (fun _ _ _ => [])
    (fun _ rt u => evBy (0x1000 + rt.src) 0x0841 (u8 p.table ++ u8 3 ++ u16 0) { u with swc := { u.swc with
      fdb := u.swc.fdb.filter fun e => e.static || e.fresh u.now } })) ∧
  Waits Instr.vfmReset ⟨0x0803, false, plenIs 4, 16, [.service, .maint, .safeService]⟩
    (fun e _ u => 1 ≤ e.hdr.scope ∧ e.hdr.scope ≤ 1024 ∧ vfEnabled u e.hdr.scope = true)
    (fun e rt u => stopStart 1 e.hdr.scope false false (some rt) { u with cmd := { u.cmd with running := u.cmd.running ++ [rt] } }) ∧
  Waits Instr.vfmReset ⟨0x0803, false, plenIs 4, 16, [.service, .maint, .safeService]⟩
    (fun e _ u => 1 ≤ e.hdr.scope ∧ e.hdr.scope ≤ 1024 ∧ vfEnabled u e.hdr.scope = false)
    (fun e rt u => stopEnd e.hdr.scope (stopStart 1 e.hdr.scope false false (some rt) { u with cmd := { u.cmd with running := u.cmd.running ++ [rt] } }))

/-- Key commands (R393 to R399, R401 to R403, R408, R410): each changes the key core as its rule says and nothing else but its record, the replay window of the slot and the reply. A clear load fills an empty slot 0 with its fixed attributes, a wrapped load a slot with the key it unwraps to; a derived key is KMAC256 of its parent; KEY_FOG_NOW fogs; KEY_TAMPER_CLEAR takes a new root key. -/
def Obligations.KeyCommandsComplete : Prop :=
  (∀ p : KeyLoad, p.form = 0 → p.slot = 0 → p.type = 3 → p.klen = 32 → p.xslot = 0xFFFF →
    ∀ t e s rt u, begins e ⟨0x0900, false, plenIs 48, 0, [.service, .maint, .safeService]⟩ (atTime t s) = some (rt, u) → e.resvOk = true → e.hdr.auth = false →
      isUdp e.src = false → u.sys.st = .maint ∨ u.sys.st = .safeService → tget u.key.slots 0 = none → u.key.tampLatched = false →
      exec (.keyLoad t e p) s = .next (answered u.cmd.queue.length rt [] (evBy (0x1000 + rt.src) 0x0A01 (u8 0 ++ u8 3 ++ u8 0xC9 ++ u8 0 ++ u32 p.keyId)
        { u with
          key := { u.key with
            slots := tset u.key.slots 0 ⟨3, 0xC9#8, wd p.keyId, p.body⟩, copies := tset u.key.copies 0 ⟨⟨3, 0xC9#8, wd p.keyId, p.body⟩, u.key.rkGen⟩ }
          cmd := { u.cmd with replay := tset u.cmd.replay 0 ⟨0, [], 0⟩ } }))) ∧
  (∀ (p : KeyLoad) k, p.form = 1 → keyLen p.type = some p.klen → attrOk p.slot p.type (attrOf p.slot p.attr) = true →
    Completes (fun t e => .keyLoad t e p) ⟨0x0900, true, fun n => n == 64 + p.klen, 0, [.service, .maint, .safeService]⟩
      (fun _ _ u => u.key.tampLatched = false ∧ loadedKey u p = some k ∧ (p.slot = 0 → tget u.key.slots 0 ≠ none → p.xslot = 0)) (fun _ _ _ => [])
      (fun _ rt u => evBy (0x1000 + rt.src) 0x0A01 (u8 p.slot ++ u8 p.type ++ u8 (attrOf p.slot p.attr).toNat ++ u8 1 ++ u32 p.keyId)
        (putSlot p.slot (some ⟨p.type, attrOf p.slot p.attr, wd p.keyId, k⟩) u))) ∧
  (∀ (p : KeyDerive) par n, 1 ≤ p.slot → p.slot ≤ 255 → keyLen p.type = some n → p.ctxlen ≤ 256 → p.parent ≠ p.slot →
    attrOk p.slot p.type (BitVec.ofNat 8 p.attr) = true →
    Completes (fun t e => .keyDerive t e p) ⟨0x0901, true, plenIs (12 + p.ctxlen), 0, [.service, .maint]⟩
      (fun _ _ u => u.key.tampLatched = false ∧ tget u.key.slots p.parent = some par ∧ par.attr.getLsbD 4 = true) (fun _ _ _ => [])
      (fun _ rt u => evBy (0x1000 + rt.src) 0x0A02 (u8 p.slot ++ u8 p.parent ++ u8 p.type ++ u8 p.attr ++ u32 p.keyId)
        (putSlot p.slot (some ⟨p.type, BitVec.ofNat 8 p.attr, wd p.keyId,
          Config.kmac256 par.key (u16 p.ctxlen ++ p.context ++ u8 p.type ++ u32 p.keyId) n (ascii "MQ16-DERIVE")⟩) u))) ∧
  (∀ p : KeyDestroy, 1 ≤ p.slot → p.slot ≤ 255 → p.tampEn = 0 →
    Completes (fun t e => .keyDestroySlot t e p) ⟨0x0902, true, plenIs 4, 0, [.start, .service, .maint, .safeService]⟩ (fun _ _ _ => True) (fun _ _ _ => [])
      (fun _ rt u => evBy (0x1000 + rt.src) 0x0A03 (u8 p.slot ++ zeros 3 ++ u32 (((tget u.key.slots p.slot).map fun k => k.keyId.toNat).getD 0))
        { u with
          key := { u.key with slots := tdel u.key.slots p.slot, copies := tdel u.key.copies p.slot }
          cmd := { u.cmd with replay := tset u.cmd.replay p.slot ⟨0, [], 0⟩ } })) ∧
  (∀ p : KeyDestroy, p.slot = 0 → p.tampEn = 0 →
    Completes (fun t e => .keyFogNow t e p) ⟨0x0902, true, plenIs 4, 0, [.start, .service, .maint, .safeService]⟩ (fun _ _ _ => True) (fun _ _ _ => [])
      (fun _ _ u => fogging 5 false u)) ∧
  (∀ p : KeyDestroy, p.slot = 0 → p.tampEn = 0 →
    Completes (fun t e => .keyTamperClear t e p) ⟨0x0902, true, plenIs 4, 0, [.start, .service, .maint, .safeService]⟩
      (fun e _ u => e.hdr.authSlot = 0 ∧ u.key.active = 0#6) (fun _ _ _ => [])
      (fun _ rt u => evBy (0x1000 + rt.src) 0x0A05 (u32 (u.key.rkGen + 1)) { u with key := { u.key with
        latched := 0#6, tampLatched := false, rkValid := true, rkGen := u.key.rkGen + 1 } })) ∧
  (∀ p : KeyDestroy, p.slot = 0 → p.tampEn < 4 →
    Completes (fun t e => .keySetTampEn t e p) ⟨0x0902, true, plenIs 4, 0, [.start, .service, .maint, .safeService]⟩ (fun _ _ _ => True) (fun _ _ _ => [])
      (fun _ rt u => evBy (0x1000 + rt.src) 0x0A06 (u16 p.tampEn ++ u16 0) { u with key := { u.key with tampEn := BitVec.ofNat 2 p.tampEn } })) ∧
  (∀ (p : KeyChallenge) k, Completes (fun t e => .keyChallenge t e p) ⟨0x0903, false, plenIs 36, 40, [.service, .maint, .safeService]⟩
    (fun _ _ u => tget u.key.slots p.slot = some k ∧ k.attr.getLsbD 5 = true ∧
      (if u.key.chalSec = u.now / 1000000000 then u.key.chalN else 0) < 10)
    (fun _ _ _ => Config.kmac256 k.key (p.chal ++ uidOctets ++ u8 p.slot ++ w32 k.keyId) 32 (ascii "MQ16-CHAL") ++ w32 k.keyId ++ u32 0)
    (fun _ _ u => { u with key := { u.key with chalSec := u.now / 1000000000, chalN := (if u.key.chalSec = u.now / 1000000000 then u.key.chalN else 0) + 1 } })) ∧
  (∀ p : KeyAttest, p.nonceA.all (· == 0#8) = true → p.bufAddr = 0 → p.bufLen = 0 →
    Completes (fun t e => .keyAttestPubkey t e p) ⟨0x0904, false, plenIs 52, 64, [.service, .maint, .safeService]⟩ (fun _ _ _ => True)
      (fun _ _ _ => Config.idkPk) (fun _ _ u => u)) ∧
  (∀ p : KeyAttest, 50224 ≤ p.bufLen → Waits (fun t e => .keyAttestQuote t e p) ⟨0x0904, false, plenIs 52, 72, [.service, .maint, .safeService]⟩
    (fun _ rt u => u.key.attest = none ∧ (isUdp rt.src = true → p.bufAddr = 0))
    (fun _ rt u => { u with key := { u.key with attest := some ⟨rt, p.nonceA, p.bufAddr⟩ }, cmd := { u.cmd with running := u.cmd.running ++ [rt] } }))

/-- Firmware commands (R404, R407, R410): a write fills the bank that does not run and ends its verification, a bank that verifies is reported with its version, ACTIVATE sets the trial, COMMIT of a running trial raises the fuses and commits the bank, REVERT ends the trial. -/
def Obligations.FirmwareCommandsComplete : Prop :=
  (∀ p : FwUpdate, 1 ≤ p.len → p.len ≤ 65536 → p.offset + p.len ≤ 33554432 →
    Completes (fun t e => .fwUpdateWrite t e p) ⟨0x0905, true, plenIs (16 + p.len), 0, [.service, .maint]⟩ (fun _ _ u => otherBank u ≠ u.key.committed)
      (fun _ _ _ => []) (fun _ _ u => { u with key := { u.key with
        otherVerified := false, bankW := lmod u.key.bankW (otherBank u) (bankWrite p.offset (p.data.take p.len)) } })) ∧
  (∀ p : FwUpdate, p.blank = true → ∀ m : Manifest,
    Completes (fun t e => .fwUpdateVerify t e p) ⟨0x0905, true, plenIs 16, 72, [.service, .maint]⟩ (fun _ _ u => verifyBank u (otherBank u) = (0, m))
      (fun _ _ _ => w32 m.fwVer ++ u16 m.svn ++ u8 m.keyIndex ++ u8 0 ++ m.digest)
      (fun _ rt u => evBy (0x1000 + rt.src) 0x0A0A (u8 0 ++ u8 m.keyIndex ++ u16 m.svn ++ w32 m.fwVer) { u with key := { u.key with
        otherVerified := true, manifests := lset u.key.manifests (otherBank u) m } })) ∧
  (∀ p : FwUpdate, p.blank = true → Completes (fun t e => .fwUpdateActivate t e p) ⟨0x0905, true, plenIs 16, 0, [.maint]⟩
    (fun _ _ u => u.key.otherVerified = true) (fun _ _ _ => [])
    (fun _ rt u => evBy (0x1000 + rt.src) 0x0A0B (u8 (otherBank u) ++ u8 2 ++ u16 (manifestOf u (otherBank u)).svn ++ w32 (manifestOf u (otherBank u)).fwVer)
      { u with key := { u.key with trialNext := some (otherBank u) } })) ∧
  (∀ p : FwUpdate, p.blank = true → ∀ m : Manifest, Completes (fun t e => .fwUpdateCommit t e p) ⟨0x0905, true, plenIs 16, 0, [.service, .maint]⟩
    (fun _ _ u => u.key.trial = true ∧ manifestOf u u.key.running = m) (fun _ _ _ => [])
    (fun _ rt u => evBy (0x1000 + rt.src) 0x0A0C (u8 u.key.running ++ u8 m.revoke.toNat ++ u16 (max u.key.svnFuse m.svn) ++ w32 m.fwVer)
      { u with key := { u.key with svnFuse := max u.key.svnFuse m.svn, revoked := u.key.revoked ||| m.revoke, committed := u.key.running
                                   trial := false, trialNext := none } })) ∧
  (∀ p : FwUpdate, p.blank = true → ∀ b, Completes (fun t e => .fwUpdateRevert t e p) ⟨0x0905, true, plenIs 16, 0, [.service, .maint]⟩
    (fun _ _ u => u.key.trialNext.getD (otherBank u) = b) (fun _ _ _ => [])
    (fun _ rt u => evBy (0x1000 + rt.src) 0x0A0B (u8 b ++ u8 4 ++ u16 (manifestOf u b).svn ++ w32 (manifestOf u b).fwVer)
      { u with key := { u.key with trialNext := none, trial := false } }))

/-- Recorder and supply commands (R426 to R429, R440, R447, R451): a Contact sheet is opened with the records that its filter takes, read and closed by its source, a clear waits, the log's status is read, a hold-up test starts at SHED0 from 47.0 V, PWR_SAFELIGHT begins the change out of SERVICE, whose end is SAFELIGHT with the interpreter stopped. -/
def Obligations.RecorderCommandsComplete : Prop :=
  (∀ (p : EvrSnapshot) n, p.snap = 0 → p.offset = 0 → p.len = 0 → p.bufAddr = 0 → p.typeMin ≤ p.typeMax →
    Waits (fun t e => .evrSnapshotOpen t e p) ⟨0x0A00, false, plenIs 32, 32, [.service, .maint, .safeService]⟩
      (fun _ _ u => sheetOf u n = none ∧ (n = 0 ∨ n = 1 ∧ sheetOf u 0 ≠ none))
      (fun _ rt u => { u with
        evr := { u.evr with snaps := lset u.evr.snaps n (some ⟨rt.src, rt.remote,
          (heldRecs u.evr).filter fun r => decide (p.firstSeq ≤ r.seq ∧ p.typeMin ≤ r.ev.type ∧ r.ev.type ≤ p.typeMax), p.firstSeq, newestSeq u.evr, 0, u.now, some rt⟩) }
        cmd := { u.cmd with running := u.cmd.running ++ [rt] } })) ∧
  (∀ (p : EvrSnapshot) h, p.snap ≤ 1 → p.typeMin = 0 → p.typeMax = 0 → p.firstSeq = 0 → p.offset < h.len → 1 ≤ p.len →
    Waits (fun t e => .evrSnapshotRead t e p) ⟨0x0A00, false, plenIs 32, 8, [.service, .maint, .safeService]⟩
      (fun _ rt u => sheetOf u p.snap = some h ∧ h.src = rt.src ∧ h.remote = rt.remote ∧
        outputFault rt p.bufAddr p.len ((h.octets.drop p.offset).take p.len).length = none)
      (fun _ rt u => replyWithOutput rt p.bufAddr ((h.octets.drop p.offset).take p.len) (u32 ((h.octets.drop p.offset).take p.len).length ++ u32 0)
        (setSheet p.snap (some { h with last := u.now }) u))) ∧
  (∀ (p : EvrSnapshot) h, p.snap ≤ 1 → p.typeMin = 0 → p.typeMax = 0 → p.firstSeq = 0 → p.offset = 0 → p.len = 0 → p.bufAddr = 0 →
    Completes (fun t e => .evrSnapshotClose t e p) ⟨0x0A00, false, plenIs 32, 0, [.service, .maint, .safeService]⟩
      (fun _ rt u => sheetOf u p.snap = some h ∧ h.src = rt.src ∧ h.remote = rt.remote) (fun _ _ _ => []) (fun _ _ u => setSheet p.snap none u)) ∧
  (∀ p : EvrClear, Waits (fun t e => .evrClear t e p) ⟨0x0A01, true, plenIs 16, 16, [.maint, .safeService]⟩
    (fun _ _ u => u.evr.clearing = none ∧ (p.expect = 0 ∨ p.expect = newestSeq u.evr))
    (fun _ rt u => { u with
      evr := { u.evr with clearing := some ⟨rt, p.reason, !copying u.evr⟩, intent := some ⟨rt, p.reason, !copying u.evr⟩ }
      cmd := { u.cmd with running := u.cmd.running ++ [rt] } })) ∧
  Reads Instr.evrStatus ⟨0x0A02, false, plenIs 4, 64, [.start, .service, .maint, .safeService]⟩ (fun _ _ _ => True)
    (fun _ _ u => u64 (oldestSeq u.evr) ++ u64 (newestSeq u.evr) ++ u32 (heldRecs u.evr).length) ∧
  (∀ t e vhu s rt u, begins e ⟨0x0B03, true, plenIs 4, 16, [.service, .maint]⟩ (supply s.pwr.vin vhu (atTime t s)) = some (rt, u) → e.resvOk = true →
    u.pwr.shed = 0 → 47000 ≤ u.pwr.vhu → u.pwr.ht = none → u.pwr.htReply = none →
    exec (.pwrHoldupTest t e vhu) s = .next (flushUnknown u.cmd.queue.length { u with
      pwr := { u.pwr with ht := some ⟨u.now, some rt⟩, htDue := false, charging := false }, cmd := { u.cmd with running := u.cmd.running ++ [rt] } })) ∧
  (∀ t e (p : PwrSafelight) s rt u, begins e ⟨0x0B01, true, plenIs 8, 0, [.service]⟩ (atTime t s) = some (rt, u) → e.resvOk = true →
    safelightPre u = none → safelightCheck p u = none → ∃ v, v = leaveStart rt (some p) u ∧
      exec (.pwrSafelight t e p) s = .next (flushUnknown u.cmd.queue.length v) ∧
      (v.sys.leaving = none → v.sys.st = .safelight ∧ v.cmd.interp = false ∧ v.pwr.entry = some ⟨u.now⟩ ∧ v.pwr.slCnt = u.pwr.slCnt + 1 ∧
        v.pwr.wakeBi = p.wakeBi ∧ v.pwr.wakeTeg = p.wakeTeg))

/-- The commands are executed in order (R375; log entry 1): a step takes the command at the front of the queue and executes it with the rest of the queue; on an empty queue the block idles, which is the model's own choice. -/
def Obligations.StepExecutesTheFront : Prop :=
  (∀ (c : Instr) (s : State) (rest : List Instr), step { s with pending := c :: rest } = exec c { s with pending := rest }) ∧
  (∀ s : State, s.pending = [] → step s = .next s)

/-- Every command and event completes in every state, changes only the blocks of its row, and leaves the queue (R136, R375): no row faults, none is refused, and a step takes exactly one command from the queue. -/
def Obligations.EveryRowHasItsFrame : Prop :=
  (∀ i s, Becomes i s fun u => Frame (writes i) s u ∧ u.pending = s.pending) ∧
  (∀ s, ∃ u, step s = .next u ∧ u.pending = s.pending.tail)

/-- After a cold start every register reads the Reset column of its table (R8), here for registers of every block; the module is in START (R32), no command runs (R381), no trip row is active (R184). -/
def Obligations.RegistersReadTheirResetValues : Prop :=
  (∀ p ∈ ([
      (0x000000, 0x4D510016#32), (0x00000C, 0x1#32), (0x000010, 0x1#32), (0x010000, 0x3C6E#32), (0x010010, 0x101D0#32), (0x010014, 0x9C40#32),
      (0x020000, 0x3C0#32), (0x020004, 0x0#32), (0x02000C, 0xFFFF#32), (0x03000C, 0x10010E#32), (0x030010, 0xFFFFFF#32), (0x030018, 0xFFFFFF#32),
      (0x040000, 0x81F0000#32), (0x040004, 0x3F800000#32), (0x04000C, 0x60#32), (0x050000, 0x70#32), (0x050008, 0x64#32), (0x05000C, 0x190#32),
      (0x060000, 0x0#32), (0x060004, 0x0#32), (0x060010, 0x5A#32), (0x070000, 0x0#32), (0x072000, 0x0#32), (0x074000, 0x0#32), (0x08002C, 0x14#32),
      (0x080100, 0x1E#32), (0x081004, 0x96#32), (0x090000, 0x50#32), (0x090004, 0x0#32), (0x090040, 0x10000#32), (0x0A0048, 0xFFFFFFFF#32),
      (0x0A0100, 0x40#32), (0x0A0104, 0x250002#32), (0x0B000C, 0x7D00101#32), (0x0B0010, 0x0#32), (0x0B0014, 0x0#32), (0x0D0000, 0xA8#32),
      (0x0D0004, 0x2710#32), (0x0D0008, 0x0#32), (0x0E0000, 0x12C#32), (0x0E0008, 0xFFE#32), (0x0E000C, 0x400#32), (0x0F0000, 0x0#32),
      (0x0F0004, 0x0#32), (0x0F0100, 0xFFFF#32), (0x100000, 0x0#32), (0x100004, 0x0#32), (0x100008, 0x70000#32), (0x110000, 0x0#32),
      (0x11001C, 0x0#32), (0x110040, 0x0#32), (0x120000, 0x0#32), (0x12001C, 0x0#32), (0x120020, 0x0#32), (0x130000, 0xFF00#32),
      (0x130008, 0x0#32), (0x13010C, 0x3#32)] : List (Nat × Word)),
    (regAt p.1).map (fun r => r.get State.reset) = some p.2) ∧
  State.reset.sys.st = .start ∧ State.reset.cmd.interp = false ∧ State.reset.cmd.queue = [] ∧ State.reset.cmd.txn = none ∧
  (∀ r ∈ State.reset.trp.rows, r.active = false) ∧ State.reset.trp.pins = 0#8 ∧ State.reset.mbx = Mbx.reset ∧ State.reset.pwr.shed = 0

/-- Only the rows of the key core change it (R37): commands that the KSC executes, tamper, the backup rail and starts. A register access never does, so no master but the KSC can write the KEY block; and none of these rows lowers FOG_COUNT, the loss of the backup rail apart (R272, R402). -/
def Obligations.KeyCoreChangesByItsRowsAlone : Prop :=
  (∀ i s u, exec i s = .next u → keyRow i = false → u.key = s.key) ∧
  (∀ t m addr v, keyRow (.registerWrite t m addr v) = false ∧ keyRow (.registerRead t m addr) = false) ∧
  (∀ i s u, exec i s = .next u → (∀ t, i ≠ .backupDomainRestart t) → s.key.fogCount.toNat ≤ u.key.fogCount.toNat)

/-- What Fogging leaves is kept by every step (R400, R401): while TAMP_LATCHED stands there is no root key and no loaded slot but slot 0, so no command but one signed with slot 0 is authenticated, whatever commands, starts and losses of supply come. The boot banks keep their form with it. -/
def Obligations.KeyInvariantIsKept : Prop := ∀ s u, KeyInv s → step s = .next u → KeyInv u

/-- The key core's invariant (R400, R404) holds after reset (R8). -/
def Obligations.KeyInvariantHoldsAtReset : Prop := KeyInv State.reset

/-- A packet that may begin is checked in the order of its steps (R375), here from step 4 on, and the first check that fails is its status: nothing else of the command happens. Here for SYS_SET_STATE, CFG_BEGIN and KEY_DESTROY OP 1, with the refusals for URGENT, for AUTH required, for an opcode that the console does not permit, for a slot without command authentication, for the payload length and for the state. -/
def Obligations.FirstFailingCheckDecides : Prop :=
  (∀ t e st s p u f, turn e 0x0102 (atTime t s) = (some p, u) → pktFault ⟨0x0102, true, plenIs 4, 0, [.service, .maint]⟩ p (touchTxn p.env u) = some f →
    exec (.sysSetState t e st) s = .next (flushUnknown u.cmd.queue.length (refuse (replyToOf p.env p.key) f.1 f.2 (touchTxn p.env u)))) ∧
  (∀ t e x s p u f, turn e 0x0200 (atTime t s) = (some p, u) → pktFault ⟨0x0200, false, plenIs 4, 4, [.service, .maint]⟩ p (touchTxn p.env u) = some f →
    exec (.cfgBegin t e x) s = .next (flushUnknown u.cmd.queue.length (refuse (replyToOf p.env p.key) f.1 f.2 (touchTxn p.env u)))) ∧
  (∀ t e x s p u f, turn e 0x0902 (atTime t s) = (some p, u) →
    pktFault ⟨0x0902, true, plenIs 4, 0, [.start, .service, .maint, .safeService]⟩ p (touchTxn p.env u) = some f →
    exec (.keyFogNow t e x) s = .next (flushUnknown u.cmd.queue.length (refuse (replyToOf p.env p.key) f.1 f.2 (touchTxn p.env u)))) ∧
  (∀ (q : CmdReq) (p : Pkt) (s : State) i, opInfo p.env.hdr.opcode = some i →
    (p.env.hdr.urgent = true → i.urgent = false → pktFault q p s = some (stBadParam, 2)) ∧
    ((p.env.hdr.urgent = false ∨ i.urgent = true) →
      (q.auth = true → p.env.hdr.auth = false → pktFault q p s = some (stNotAuthorised, 1)) ∧
      ((q.auth = false ∨ p.env.hdr.auth = true) →
        (isConsole p.env.src = true → i.console = false → pktFault q p s = some (stNotAuthorised, 2)) ∧
        ((isConsole p.env.src = false ∨ i.console = true) → p.env.hdr.auth = true → cmdAuthAttr s p.env.hdr.authSlot = false → pktFault q p s = some (stNotAuthorised, 3)) ∧
        (isConsole p.env.src = false → isChannel p.env.src = false → (p.env.hdr.auth = true → cmdAuthAttr s p.env.hdr.authSlot = true) →
          (q.plen p.env.payload.length = false → pktFault q p s = some (stBadLength, 0)) ∧
          (q.plen p.env.payload.length = true → s.sys.st ∉ q.states → pktFault q p s = some (stConflict, s.sys.st.code))))))

/-- SPD_GET_PLAN (R243): in SERVICE, MAINT and SAFE_SERVICE, with a 4-byte payload, the reply is the 64-byte record of the plan BACK before the latest; a reserved field that is not 0 and a BACK beyond the records held are refused with BAD_PARAM. The latest plan stands first: a plan that takes effect is BACK 0 from then on. -/
def Obligations.SpdGetPlanReadsTheRecord : Prop :=
  (∀ t e back s rt u, begins e ⟨0x0B02, false, plenIs 4, 64, [.service, .maint, .safeService]⟩ (atTime t s) = some (rt, u) →
    (∀ p, u.spd.plans[back]? = some p → e.resvOk = true → exec (.spdGetPlan t e back) s = .next (answered u.cmd.queue.length rt p.octets u)) ∧
    (u.spd.plans[back]? = none ∨ e.resvOk = false → exec (.spdGetPlan t e back) s = .next (flushUnknown u.cmd.queue.length (refuse rt stBadParam 0 u)))) ∧
  (∀ p : PlanRec, p.vhu.length = 4 → p.octets.length = 64) ∧
  (∀ p a b s, (planApply p a b s).spd.plans = (p :: s.spd.plans).take 256)

/-- KEY_DERIVE (R397): the target slot holds KMAC256 of its parent with CTXLEN, CONTEXT, TYPE and KEY_ID, as long as its TYPE says. The parent must carry DERIVE; the target may not be the parent or slot 0; an empty parent, or one without DERIVE, gives BAD_PARAM. -/
def Obligations.KeyDeriveFormsTheKey : Prop :=
  ∀ t e (p : KeyDerive) s rt u, begins e ⟨0x0901, true, plenIs (12 + p.ctxlen), 0, [.service, .maint]⟩ (atTime t s) = some (rt, u) → e.resvOk = true →
    u.key.tampLatched = false →
    (∀ par n, p.slot ≠ 0 → p.slot ≤ 255 → keyLen p.type = some n → attrOk p.slot p.type (BitVec.ofNat 8 p.attr) = true → p.ctxlen ≤ 256 → p.parent ≠ p.slot →
      tget u.key.slots p.parent = some par → par.attr.getLsbD 4 = true →
      exec (.keyDerive t e p) s = .next (answered u.cmd.queue.length rt [] (evBy (0x1000 + rt.src) 0x0A02
        (u8 p.slot ++ u8 p.parent ++ u8 p.type ++ u8 p.attr ++ u32 p.keyId) (putSlot p.slot (some ⟨p.type, BitVec.ofNat 8 p.attr, wd p.keyId,
          Config.kmac256 par.key (u16 p.ctxlen ++ p.context ++ u8 p.type ++ u32 p.keyId) n (ascii "MQ16-DERIVE")⟩) u)))) ∧
    (p.slot = 0 ∨ p.parent = p.slot ∨ tget u.key.slots p.parent = none ∨ (∃ par, tget u.key.slots p.parent = some par ∧ par.attr.getLsbD 4 = false) →
      exec (.keyDerive t e p) s = .next (flushUnknown u.cmd.queue.length (refuse rt stBadParam 0 u))) ∧
    (∀ k v, tget (putSlot p.slot (some v) u).key.slots k = if k = p.slot then some v else tget u.key.slots k)

/-- A write of 4,095 to ACQ_SKEW[n].SKEW is stored as 4,094 (R45); every other value is stored as written. -/
def Obligations.SkewTopValue : Prop :=
  ∀ t n (v : Word) s c, n < 24 → dark s = false → s.sys.st = .maint → s.acq.ch[n]? = some c →
    Becomes (.registerWrite t .host (0x030100 + 4 * n) v) s fun u => ∃ c', u.acq.ch[n]? = some c' ∧
      c'.skew = if bits v 11 0 = 4095 then 4094 else bits v 11 0

/-- A message survives every reset of its sender and of its receiver, and so do the NAK counters; only a cold start clears them (R364). A reset that comes in the START of a cold start is part of that cold start (R40; the model reads it so, log entry 18). -/
def Obligations.MessagesSurviveResets : Prop :=
  (∀ i s, isReset i = true → (s.sys.st = .start → s.sys.startCold = false) → Becomes i s fun u => sameMail s u) ∧
  (∀ t vin vhu s, s.sys.st = .off → 16000 ≤ vin → Becomes (.coldStart t true vin vhu) s fun u => sameMail State.reset u)
end

