-- ==== Sys2Proof/Laws/Frame.lean ====
section
/-! SUPPORT. Frames: which fields of the state an operation may change. Every operation over the state has one lemma `<operation>_frame` under Laws/Frames/, which later proofs cite in place of its definition. -/

namespace Sys2Proof.Machine

/-- Every name of l stands in m. -/
abbrev subs (l m : List Block) : Bool := l.all (fun b => m.contains b)

theorem Block.same_refl (b : Block) (s : State) : b.same s s := by cases b <;> rfl

theorem Block.same_trans {b : Block} {s u v : State} (h : b.same s u) (k : b.same u v) : b.same s v := by
  cases b <;> exact Eq.trans k h

theorem subs_mem {l m : List Block} (h : subs l m = true) {b : Block} (hb : b ∉ m) : b ∉ l := fun hl => by
  simp only [subs, List.all_eq_true] at h
  exact hb (by simpa using h b hl)

theorem subs_trans {k l m : List Block} (h : subs k l = true) (h' : subs l m = true) : subs k m = true := by
  simp only [subs, List.all_eq_true] at *
  exact fun b hb => h' b (by simpa using h b hb)

theorem Frame.refl (m : List Block) (s : State) : Frame m s s := ⟨fun b _ => b.same_refl s⟩

theorem Frame.mono {l m : List Block} {s u : State} (h : Frame l s u) (hm : subs l m = true) : Frame m s u :=
  ⟨fun b hb => h.same b (subs_mem hm hb)⟩

theorem Frame.trans {m : List Block} {s u v : State} (h : Frame m s u) (k : Frame m u v) : Frame m s v :=
  ⟨fun b hb => Block.same_trans (h.same b hb) (k.same b hb)⟩

/-- An operation applied last. -/
theorem Frame.app {l m : List Block} {s u v : State} (h : Frame m s u) (k : Frame l u v) (hm : subs l m = true) : Frame m s v :=
  h.trans (k.mono hm)

theorem Frame.foldOver {α : Type} {m : List Block} {f : α → State → State} (hf : ∀ a x, Frame m x (f a x)) (l : List α) (s : State) :
    Frame m s (foldOver l f s) := by
  induction l generalizing s with
  | nil => exact .refl m s
  | cons a r ih => exact (hf a s).trans (ih (f a s))

theorem Frame.foldOver_mem {α : Type} {m : List Block} {f : α → State → State} {l : List α} (hf : ∀ a ∈ l, ∀ x, Frame m x (f a x)) (s : State) :
    Frame m s (Machine.foldOver l f s) := by
  induction l generalizing s with
  | nil => exact .refl m s
  | cons a r ih => exact (hf a (by simp) s).trans (ih (fun b hb => hf b (by simp [hb])) (f a s))

theorem Frame.foldOver_snd {α β : Type} {m : List Block} {f : α → β × State → β × State} (hf : ∀ a p, Frame m p.2 (f a p).2) (l : List α)
    (p : β × State) : Frame m p.2 (Machine.foldOver l f p).2 := by
  induction l generalizing p with
  | nil => exact .refl m p.2
  | cons a r ih => exact (hf a p).trans (ih (f a p))

theorem Frame.foldl {α : Type} {m : List Block} {f : State → α → State} (hf : ∀ x a, Frame m x (f x a)) (l : List α) (s : State) :
    Frame m s (l.foldl f s) := by
  induction l generalizing s with
  | nil => exact .refl m s
  | cons a r ih => exact (hf s a).trans (ih (f s a))

theorem Frame.fst {α : Type} {m : List Block} {s u : State} {p : State × α} {a : α} (h : p = (u, a)) (k : Frame m s p.1) : Frame m s u := by
  subst h; exact k

theorem Frame.snd {α : Type} {m : List Block} {s u : State} {p : α × State} {a : α} (h : p = (a, u)) (k : Frame m s p.2) : Frame m s u := by
  subst h; exact k

theorem Frame.ofEq {m : List Block} {s u v : State} (h : v = u) (k : Frame m s v) : Frame m s u := h ▸ k

theorem Frame.ite {m : List Block} {s a b : State} {c : Prop} [Decidable c] (h : Frame m s a) (k : Frame m s b) :
    Frame m s (if c then a else b) := by
  split <;> assumption

theorem Frame.ite_snd {α : Type} {m : List Block} {s : State} {a b : α × State} {c : Prop} [Decidable c] (h : Frame m s a.2) (k : Frame m s b.2) :
    Frame m s (if c then a else b).2 := by
  split <;> assumption

theorem Frames.next {m : List Block} {s u : State} (h : Frame m s u) : Frames m s (.next u) := ⟨⟨_, rfl, h⟩⟩

theorem Frames.trans {m : List Block} {s u : State} {r : Res} (h : Frame m s u) (k : Frames m u r) : Frames m s r :=
  let ⟨v, hv, kv⟩ := k.after
  ⟨⟨v, hv, h.trans kv⟩⟩

theorem Frames.ite {m : List Block} {s : State} {a b : Res} {c : Prop} [Decidable c] (h : Frames m s a) (k : Frames m s b) :
    Frames m s (if c then a else b) := by
  split <;> assumption

theorem Frames.ofState {l m : List Block} {s u : State} {r : Res} (h : Frame m s u) (k : Frames l u r) (hm : subs l m = true) : Frames m s r :=
  let ⟨v, hv, kv⟩ := k.after
  ⟨⟨v, hv, h.app kv hm⟩⟩

theorem Frame.sys {m : List Block} {s u : State} (h : Frame m s u) (hm : Block.sys ∉ m) : u.sys = s.sys := h.same .sys hm
theorem Frame.acq {m : List Block} {s u : State} (h : Frame m s u) (hm : Block.acq ∉ m) : u.acq = s.acq := h.same .acq hm
theorem Frame.flt {m : List Block} {s u : State} (h : Frame m s u) (hm : Block.flt ∉ m) : u.flt = s.flt := h.same .flt hm
theorem Frame.trg {m : List Block} {s u : State} (h : Frame m s u) (hm : Block.trg ∉ m) : u.trg = s.trg := h.same .trg hm
theorem Frame.sve {m : List Block} {s u : State} (h : Frame m s u) (hm : Block.sve ∉ m) : u.sve = s.sve := h.same .sve hm
theorem Frame.prt {m : List Block} {s u : State} (h : Frame m s u) (hm : Block.prt ∉ m) : u.prt = s.prt := h.same .prt hm
theorem Frame.trp {m : List Block} {s u : State} (h : Frame m s u) (hm : Block.trp ∉ m) : u.trp = s.trp := h.same .trp hm
theorem Frame.cyc {m : List Block} {s u : State} (h : Frame m s u) (hm : Block.cyc ∉ m) : u.cyc = s.cyc := h.same .cyc hm
theorem Frame.spd {m : List Block} {s u : State} (h : Frame m s u) (hm : Block.spd ∉ m) : u.spd = s.spd := h.same .spd hm
theorem Frame.tbs {m : List Block} {s u : State} (h : Frame m s u) (hm : Block.tbs ∉ m) : u.tbs = s.tbs := h.same .tbs hm
theorem Frame.rtc {m : List Block} {s u : State} (h : Frame m s u) (hm : Block.rtc ∉ m) : u.rtc = s.rtc := h.same .rtc hm
theorem Frame.mac {m : List Block} {s u : State} (h : Frame m s u) (hm : Block.mac ∉ m) : u.mac = s.mac := h.same .mac hm
theorem Frame.red {m : List Block} {s u : State} (h : Frame m s u) (hm : Block.red ∉ m) : u.red = s.red := h.same .red hm
theorem Frame.swc {m : List Block} {s u : State} (h : Frame m s u) (hm : Block.swc ∉ m) : u.swc = s.swc := h.same .swc hm
theorem Frame.vfm {m : List Block} {s u : State} (h : Frame m s u) (hm : Block.vfm ∉ m) : u.vfm = s.vfm := h.same .vfm hm
theorem Frame.mbx {m : List Block} {s u : State} (h : Frame m s u) (hm : Block.mbx ∉ m) : u.mbx = s.mbx := h.same .mbx hm
theorem Frame.cmd {m : List Block} {s u : State} (h : Frame m s u) (hm : Block.cmd ∉ m) : u.cmd = s.cmd := h.same .cmd hm
theorem Frame.key {m : List Block} {s u : State} (h : Frame m s u) (hm : Block.key ∉ m) : u.key = s.key := h.same .key hm
theorem Frame.evr {m : List Block} {s u : State} (h : Frame m s u) (hm : Block.evr ∉ m) : u.evr = s.evr := h.same .evr hm
theorem Frame.pwr {m : List Block} {s u : State} (h : Frame m s u) (hm : Block.pwr ∉ m) : u.pwr = s.pwr := h.same .pwr hm
theorem Frame.hiLatch {m : List Block} {s u : State} (h : Frame m s u) (hm : Block.hiLatch ∉ m) : u.hiLatch = s.hiLatch := h.same .hiLatch hm
theorem Frame.now {m : List Block} {s u : State} (h : Frame m s u) (hm : Block.now ∉ m) : u.now = s.now := h.same .now hm
theorem Frame.out {m : List Block} {s u : State} (h : Frame m s u) (hm : Block.out ∉ m) : u.out = s.out := h.same .out hm
theorem Frame.freeCtr {m : List Block} {s u : State} (h : Frame m s u) (hm : Block.freeCtr ∉ m) : u.freeCtr = s.freeCtr := h.same .freeCtr hm
theorem Frame.pending {m : List Block} {s u : State} (h : Frame m s u) (hm : Block.pending ∉ m) : u.pending = s.pending := h.same .pending hm

theorem Frame.set_sys {m : List Block} {s u : State} {v0} (h : Frame m s u) (hm : subs [.sys] m = true) :
    Frame m s { u with sys := v0 } :=
  ⟨fun b hb => Block.same_trans (h.same b hb) (by have := subs_mem hm hb; cases b <;> first | rfl | simp at this)⟩

theorem Frame.of_set_sys {m : List Block} {s u : State} {v0} (hm : subs [.sys] m = true) :
    Frame m s { u with sys := v0 } ↔ Frame m s u :=
  ⟨fun h => ⟨fun b hb => Block.same_trans (h.same b hb) (by have := subs_mem hm hb; cases b <;> first | rfl | simp at this)⟩,
    fun h => h.set_sys hm⟩

theorem Frame.set_acq {m : List Block} {s u : State} {v0} (h : Frame m s u) (hm : subs [.acq] m = true) :
    Frame m s { u with acq := v0 } :=
  ⟨fun b hb => Block.same_trans (h.same b hb) (by have := subs_mem hm hb; cases b <;> first | rfl | simp at this)⟩

theorem Frame.of_set_acq {m : List Block} {s u : State} {v0} (hm : subs [.acq] m = true) :
    Frame m s { u with acq := v0 } ↔ Frame m s u :=
  ⟨fun h => ⟨fun b hb => Block.same_trans (h.same b hb) (by have := subs_mem hm hb; cases b <;> first | rfl | simp at this)⟩,
    fun h => h.set_acq hm⟩

theorem Frame.set_flt {m : List Block} {s u : State} {v0} (h : Frame m s u) (hm : subs [.flt] m = true) :
    Frame m s { u with flt := v0 } :=
  ⟨fun b hb => Block.same_trans (h.same b hb) (by have := subs_mem hm hb; cases b <;> first | rfl | simp at this)⟩

theorem Frame.of_set_flt {m : List Block} {s u : State} {v0} (hm : subs [.flt] m = true) :
    Frame m s { u with flt := v0 } ↔ Frame m s u :=
  ⟨fun h => ⟨fun b hb => Block.same_trans (h.same b hb) (by have := subs_mem hm hb; cases b <;> first | rfl | simp at this)⟩,
    fun h => h.set_flt hm⟩

theorem Frame.set_trg {m : List Block} {s u : State} {v0} (h : Frame m s u) (hm : subs [.trg] m = true) :
    Frame m s { u with trg := v0 } :=
  ⟨fun b hb => Block.same_trans (h.same b hb) (by have := subs_mem hm hb; cases b <;> first | rfl | simp at this)⟩

theorem Frame.of_set_trg {m : List Block} {s u : State} {v0} (hm : subs [.trg] m = true) :
    Frame m s { u with trg := v0 } ↔ Frame m s u :=
  ⟨fun h => ⟨fun b hb => Block.same_trans (h.same b hb) (by have := subs_mem hm hb; cases b <;> first | rfl | simp at this)⟩,
    fun h => h.set_trg hm⟩

theorem Frame.set_sve {m : List Block} {s u : State} {v0} (h : Frame m s u) (hm : subs [.sve] m = true) :
    Frame m s { u with sve := v0 } :=
  ⟨fun b hb => Block.same_trans (h.same b hb) (by have := subs_mem hm hb; cases b <;> first | rfl | simp at this)⟩

theorem Frame.of_set_sve {m : List Block} {s u : State} {v0} (hm : subs [.sve] m = true) :
    Frame m s { u with sve := v0 } ↔ Frame m s u :=
  ⟨fun h => ⟨fun b hb => Block.same_trans (h.same b hb) (by have := subs_mem hm hb; cases b <;> first | rfl | simp at this)⟩,
    fun h => h.set_sve hm⟩

theorem Frame.set_prt {m : List Block} {s u : State} {v0} (h : Frame m s u) (hm : subs [.prt] m = true) :
    Frame m s { u with prt := v0 } :=
  ⟨fun b hb => Block.same_trans (h.same b hb) (by have := subs_mem hm hb; cases b <;> first | rfl | simp at this)⟩

theorem Frame.of_set_prt {m : List Block} {s u : State} {v0} (hm : subs [.prt] m = true) :
    Frame m s { u with prt := v0 } ↔ Frame m s u :=
  ⟨fun h => ⟨fun b hb => Block.same_trans (h.same b hb) (by have := subs_mem hm hb; cases b <;> first | rfl | simp at this)⟩,
    fun h => h.set_prt hm⟩

theorem Frame.set_trp {m : List Block} {s u : State} {v0} (h : Frame m s u) (hm : subs [.trp] m = true) :
    Frame m s { u with trp := v0 } :=
  ⟨fun b hb => Block.same_trans (h.same b hb) (by have := subs_mem hm hb; cases b <;> first | rfl | simp at this)⟩

theorem Frame.of_set_trp {m : List Block} {s u : State} {v0} (hm : subs [.trp] m = true) :
    Frame m s { u with trp := v0 } ↔ Frame m s u :=
  ⟨fun h => ⟨fun b hb => Block.same_trans (h.same b hb) (by have := subs_mem hm hb; cases b <;> first | rfl | simp at this)⟩,
    fun h => h.set_trp hm⟩

theorem Frame.set_cyc {m : List Block} {s u : State} {v0} (h : Frame m s u) (hm : subs [.cyc] m = true) :
    Frame m s { u with cyc := v0 } :=
  ⟨fun b hb => Block.same_trans (h.same b hb) (by have := subs_mem hm hb; cases b <;> first | rfl | simp at this)⟩

theorem Frame.of_set_cyc {m : List Block} {s u : State} {v0} (hm : subs [.cyc] m = true) :
    Frame m s { u with cyc := v0 } ↔ Frame m s u :=
  ⟨fun h => ⟨fun b hb => Block.same_trans (h.same b hb) (by have := subs_mem hm hb; cases b <;> first | rfl | simp at this)⟩,
    fun h => h.set_cyc hm⟩

theorem Frame.set_spd {m : List Block} {s u : State} {v0} (h : Frame m s u) (hm : subs [.spd] m = true) :
    Frame m s { u with spd := v0 } :=
  ⟨fun b hb => Block.same_trans (h.same b hb) (by have := subs_mem hm hb; cases b <;> first | rfl | simp at this)⟩

theorem Frame.of_set_spd {m : List Block} {s u : State} {v0} (hm : subs [.spd] m = true) :
    Frame m s { u with spd := v0 } ↔ Frame m s u :=
  ⟨fun h => ⟨fun b hb => Block.same_trans (h.same b hb) (by have := subs_mem hm hb; cases b <;> first | rfl | simp at this)⟩,
    fun h => h.set_spd hm⟩

theorem Frame.set_tbs {m : List Block} {s u : State} {v0} (h : Frame m s u) (hm : subs [.tbs] m = true) :
    Frame m s { u with tbs := v0 } :=
  ⟨fun b hb => Block.same_trans (h.same b hb) (by have := subs_mem hm hb; cases b <;> first | rfl | simp at this)⟩

theorem Frame.of_set_tbs {m : List Block} {s u : State} {v0} (hm : subs [.tbs] m = true) :
    Frame m s { u with tbs := v0 } ↔ Frame m s u :=
  ⟨fun h => ⟨fun b hb => Block.same_trans (h.same b hb) (by have := subs_mem hm hb; cases b <;> first | rfl | simp at this)⟩,
    fun h => h.set_tbs hm⟩

theorem Frame.set_rtc {m : List Block} {s u : State} {v0} (h : Frame m s u) (hm : subs [.rtc] m = true) :
    Frame m s { u with rtc := v0 } :=
  ⟨fun b hb => Block.same_trans (h.same b hb) (by have := subs_mem hm hb; cases b <;> first | rfl | simp at this)⟩

theorem Frame.of_set_rtc {m : List Block} {s u : State} {v0} (hm : subs [.rtc] m = true) :
    Frame m s { u with rtc := v0 } ↔ Frame m s u :=
  ⟨fun h => ⟨fun b hb => Block.same_trans (h.same b hb) (by have := subs_mem hm hb; cases b <;> first | rfl | simp at this)⟩,
    fun h => h.set_rtc hm⟩

theorem Frame.set_mac {m : List Block} {s u : State} {v0} (h : Frame m s u) (hm : subs [.mac] m = true) :
    Frame m s { u with mac := v0 } :=
  ⟨fun b hb => Block.same_trans (h.same b hb) (by have := subs_mem hm hb; cases b <;> first | rfl | simp at this)⟩

theorem Frame.of_set_mac {m : List Block} {s u : State} {v0} (hm : subs [.mac] m = true) :
    Frame m s { u with mac := v0 } ↔ Frame m s u :=
  ⟨fun h => ⟨fun b hb => Block.same_trans (h.same b hb) (by have := subs_mem hm hb; cases b <;> first | rfl | simp at this)⟩,
    fun h => h.set_mac hm⟩

theorem Frame.set_red {m : List Block} {s u : State} {v0} (h : Frame m s u) (hm : subs [.red] m = true) :
    Frame m s { u with red := v0 } :=
  ⟨fun b hb => Block.same_trans (h.same b hb) (by have := subs_mem hm hb; cases b <;> first | rfl | simp at this)⟩

theorem Frame.of_set_red {m : List Block} {s u : State} {v0} (hm : subs [.red] m = true) :
    Frame m s { u with red := v0 } ↔ Frame m s u :=
  ⟨fun h => ⟨fun b hb => Block.same_trans (h.same b hb) (by have := subs_mem hm hb; cases b <;> first | rfl | simp at this)⟩,
    fun h => h.set_red hm⟩

theorem Frame.set_swc {m : List Block} {s u : State} {v0} (h : Frame m s u) (hm : subs [.swc] m = true) :
    Frame m s { u with swc := v0 } :=
  ⟨fun b hb => Block.same_trans (h.same b hb) (by have := subs_mem hm hb; cases b <;> first | rfl | simp at this)⟩

theorem Frame.of_set_swc {m : List Block} {s u : State} {v0} (hm : subs [.swc] m = true) :
    Frame m s { u with swc := v0 } ↔ Frame m s u :=
  ⟨fun h => ⟨fun b hb => Block.same_trans (h.same b hb) (by have := subs_mem hm hb; cases b <;> first | rfl | simp at this)⟩,
    fun h => h.set_swc hm⟩

theorem Frame.set_vfm {m : List Block} {s u : State} {v0} (h : Frame m s u) (hm : subs [.vfm] m = true) :
    Frame m s { u with vfm := v0 } :=
  ⟨fun b hb => Block.same_trans (h.same b hb) (by have := subs_mem hm hb; cases b <;> first | rfl | simp at this)⟩

theorem Frame.of_set_vfm {m : List Block} {s u : State} {v0} (hm : subs [.vfm] m = true) :
    Frame m s { u with vfm := v0 } ↔ Frame m s u :=
  ⟨fun h => ⟨fun b hb => Block.same_trans (h.same b hb) (by have := subs_mem hm hb; cases b <;> first | rfl | simp at this)⟩,
    fun h => h.set_vfm hm⟩

theorem Frame.set_mbx {m : List Block} {s u : State} {v0} (h : Frame m s u) (hm : subs [.mbx] m = true) :
    Frame m s { u with mbx := v0 } :=
  ⟨fun b hb => Block.same_trans (h.same b hb) (by have := subs_mem hm hb; cases b <;> first | rfl | simp at this)⟩

theorem Frame.of_set_mbx {m : List Block} {s u : State} {v0} (hm : subs [.mbx] m = true) :
    Frame m s { u with mbx := v0 } ↔ Frame m s u :=
  ⟨fun h => ⟨fun b hb => Block.same_trans (h.same b hb) (by have := subs_mem hm hb; cases b <;> first | rfl | simp at this)⟩,
    fun h => h.set_mbx hm⟩

theorem Frame.set_cmd {m : List Block} {s u : State} {v0} (h : Frame m s u) (hm : subs [.cmd] m = true) :
    Frame m s { u with cmd := v0 } :=
  ⟨fun b hb => Block.same_trans (h.same b hb) (by have := subs_mem hm hb; cases b <;> first | rfl | simp at this)⟩

theorem Frame.of_set_cmd {m : List Block} {s u : State} {v0} (hm : subs [.cmd] m = true) :
    Frame m s { u with cmd := v0 } ↔ Frame m s u :=
  ⟨fun h => ⟨fun b hb => Block.same_trans (h.same b hb) (by have := subs_mem hm hb; cases b <;> first | rfl | simp at this)⟩,
    fun h => h.set_cmd hm⟩

theorem Frame.set_key {m : List Block} {s u : State} {v0} (h : Frame m s u) (hm : subs [.key] m = true) :
    Frame m s { u with key := v0 } :=
  ⟨fun b hb => Block.same_trans (h.same b hb) (by have := subs_mem hm hb; cases b <;> first | rfl | simp at this)⟩

theorem Frame.of_set_key {m : List Block} {s u : State} {v0} (hm : subs [.key] m = true) :
    Frame m s { u with key := v0 } ↔ Frame m s u :=
  ⟨fun h => ⟨fun b hb => Block.same_trans (h.same b hb) (by have := subs_mem hm hb; cases b <;> first | rfl | simp at this)⟩,
    fun h => h.set_key hm⟩

theorem Frame.set_evr {m : List Block} {s u : State} {v0} (h : Frame m s u) (hm : subs [.evr] m = true) :
    Frame m s { u with evr := v0 } :=
  ⟨fun b hb => Block.same_trans (h.same b hb) (by have := subs_mem hm hb; cases b <;> first | rfl | simp at this)⟩

theorem Frame.of_set_evr {m : List Block} {s u : State} {v0} (hm : subs [.evr] m = true) :
    Frame m s { u with evr := v0 } ↔ Frame m s u :=
  ⟨fun h => ⟨fun b hb => Block.same_trans (h.same b hb) (by have := subs_mem hm hb; cases b <;> first | rfl | simp at this)⟩,
    fun h => h.set_evr hm⟩

theorem Frame.set_pwr {m : List Block} {s u : State} {v0} (h : Frame m s u) (hm : subs [.pwr] m = true) :
    Frame m s { u with pwr := v0 } :=
  ⟨fun b hb => Block.same_trans (h.same b hb) (by have := subs_mem hm hb; cases b <;> first | rfl | simp at this)⟩

theorem Frame.of_set_pwr {m : List Block} {s u : State} {v0} (hm : subs [.pwr] m = true) :
    Frame m s { u with pwr := v0 } ↔ Frame m s u :=
  ⟨fun h => ⟨fun b hb => Block.same_trans (h.same b hb) (by have := subs_mem hm hb; cases b <;> first | rfl | simp at this)⟩,
    fun h => h.set_pwr hm⟩

theorem Frame.set_hiLatch {m : List Block} {s u : State} {v0} (h : Frame m s u) (hm : subs [.hiLatch] m = true) :
    Frame m s { u with hiLatch := v0 } :=
  ⟨fun b hb => Block.same_trans (h.same b hb) (by have := subs_mem hm hb; cases b <;> first | rfl | simp at this)⟩

theorem Frame.of_set_hiLatch {m : List Block} {s u : State} {v0} (hm : subs [.hiLatch] m = true) :
    Frame m s { u with hiLatch := v0 } ↔ Frame m s u :=
  ⟨fun h => ⟨fun b hb => Block.same_trans (h.same b hb) (by have := subs_mem hm hb; cases b <;> first | rfl | simp at this)⟩,
    fun h => h.set_hiLatch hm⟩

theorem Frame.set_now {m : List Block} {s u : State} {v0} (h : Frame m s u) (hm : subs [.now] m = true) :
    Frame m s { u with now := v0 } :=
  ⟨fun b hb => Block.same_trans (h.same b hb) (by have := subs_mem hm hb; cases b <;> first | rfl | simp at this)⟩

theorem Frame.of_set_now {m : List Block} {s u : State} {v0} (hm : subs [.now] m = true) :
    Frame m s { u with now := v0 } ↔ Frame m s u :=
  ⟨fun h => ⟨fun b hb => Block.same_trans (h.same b hb) (by have := subs_mem hm hb; cases b <;> first | rfl | simp at this)⟩,
    fun h => h.set_now hm⟩

theorem Frame.set_out {m : List Block} {s u : State} {v0} (h : Frame m s u) (hm : subs [.out] m = true) :
    Frame m s { u with out := v0 } :=
  ⟨fun b hb => Block.same_trans (h.same b hb) (by have := subs_mem hm hb; cases b <;> first | rfl | simp at this)⟩

theorem Frame.of_set_out {m : List Block} {s u : State} {v0} (hm : subs [.out] m = true) :
    Frame m s { u with out := v0 } ↔ Frame m s u :=
  ⟨fun h => ⟨fun b hb => Block.same_trans (h.same b hb) (by have := subs_mem hm hb; cases b <;> first | rfl | simp at this)⟩,
    fun h => h.set_out hm⟩

theorem Frame.set_freeCtr {m : List Block} {s u : State} {v0} (h : Frame m s u) (hm : subs [.freeCtr] m = true) :
    Frame m s { u with freeCtr := v0 } :=
  ⟨fun b hb => Block.same_trans (h.same b hb) (by have := subs_mem hm hb; cases b <;> first | rfl | simp at this)⟩

theorem Frame.of_set_freeCtr {m : List Block} {s u : State} {v0} (hm : subs [.freeCtr] m = true) :
    Frame m s { u with freeCtr := v0 } ↔ Frame m s u :=
  ⟨fun h => ⟨fun b hb => Block.same_trans (h.same b hb) (by have := subs_mem hm hb; cases b <;> first | rfl | simp at this)⟩,
    fun h => h.set_freeCtr hm⟩

theorem Frame.set_evr_now_out {m : List Block} {s u : State} {v0 v1 v2} (h : Frame m s u) (hm : subs [.evr, .now, .out] m = true) :
    Frame m s { u with evr := v0, now := v1, out := v2 } :=
  ⟨fun b hb => Block.same_trans (h.same b hb) (by have := subs_mem hm hb; cases b <;> first | rfl | simp at this)⟩

theorem Frame.of_set_evr_now_out {m : List Block} {s u : State} {v0 v1 v2} (hm : subs [.evr, .now, .out] m = true) :
    Frame m s { u with evr := v0, now := v1, out := v2 } ↔ Frame m s u :=
  ⟨fun h => ⟨fun b hb => Block.same_trans (h.same b hb) (by have := subs_mem hm hb; cases b <;> first | rfl | simp at this)⟩,
    fun h => h.set_evr_now_out hm⟩

theorem Frame.set_sys_evr {m : List Block} {s u : State} {v0 v1} (h : Frame m s u) (hm : subs [.sys, .evr] m = true) :
    Frame m s { u with sys := v0, evr := v1 } :=
  ⟨fun b hb => Block.same_trans (h.same b hb) (by have := subs_mem hm hb; cases b <;> first | rfl | simp at this)⟩

theorem Frame.of_set_sys_evr {m : List Block} {s u : State} {v0 v1} (hm : subs [.sys, .evr] m = true) :
    Frame m s { u with sys := v0, evr := v1 } ↔ Frame m s u :=
  ⟨fun h => ⟨fun b hb => Block.same_trans (h.same b hb) (by have := subs_mem hm hb; cases b <;> first | rfl | simp at this)⟩,
    fun h => h.set_sys_evr hm⟩

theorem Frame.set_sys_pwr {m : List Block} {s u : State} {v0 v1} (h : Frame m s u) (hm : subs [.sys, .pwr] m = true) :
    Frame m s { u with sys := v0, pwr := v1 } :=
  ⟨fun b hb => Block.same_trans (h.same b hb) (by have := subs_mem hm hb; cases b <;> first | rfl | simp at this)⟩

theorem Frame.of_set_sys_pwr {m : List Block} {s u : State} {v0 v1} (hm : subs [.sys, .pwr] m = true) :
    Frame m s { u with sys := v0, pwr := v1 } ↔ Frame m s u :=
  ⟨fun h => ⟨fun b hb => Block.same_trans (h.same b hb) (by have := subs_mem hm hb; cases b <;> first | rfl | simp at this)⟩,
    fun h => h.set_sys_pwr hm⟩

theorem Frame.set_cyc_cmd {m : List Block} {s u : State} {v0 v1} (h : Frame m s u) (hm : subs [.cyc, .cmd] m = true) :
    Frame m s { u with cyc := v0, cmd := v1 } :=
  ⟨fun b hb => Block.same_trans (h.same b hb) (by have := subs_mem hm hb; cases b <;> first | rfl | simp at this)⟩

theorem Frame.of_set_cyc_cmd {m : List Block} {s u : State} {v0 v1} (hm : subs [.cyc, .cmd] m = true) :
    Frame m s { u with cyc := v0, cmd := v1 } ↔ Frame m s u :=
  ⟨fun h => ⟨fun b hb => Block.same_trans (h.same b hb) (by have := subs_mem hm hb; cases b <;> first | rfl | simp at this)⟩,
    fun h => h.set_cyc_cmd hm⟩

theorem Frame.set_sys_pwr_hiLatch {m : List Block} {s u : State} {v0 v1 v2} (h : Frame m s u) (hm : subs [.sys, .pwr, .hiLatch] m = true) :
    Frame m s { u with sys := v0, pwr := v1, hiLatch := v2 } :=
  ⟨fun b hb => Block.same_trans (h.same b hb) (by have := subs_mem hm hb; cases b <;> first | rfl | simp at this)⟩

theorem Frame.of_set_sys_pwr_hiLatch {m : List Block} {s u : State} {v0 v1 v2} (hm : subs [.sys, .pwr, .hiLatch] m = true) :
    Frame m s { u with sys := v0, pwr := v1, hiLatch := v2 } ↔ Frame m s u :=
  ⟨fun h => ⟨fun b hb => Block.same_trans (h.same b hb) (by have := subs_mem hm hb; cases b <;> first | rfl | simp at this)⟩,
    fun h => h.set_sys_pwr_hiLatch hm⟩

theorem Frame.set_sys_trp_mac_evr {m : List Block} {s u : State} {v0 v1 v2 v3} (h : Frame m s u) (hm : subs [.sys, .trp, .mac, .evr] m = true) :
    Frame m s { u with sys := v0, trp := v1, mac := v2, evr := v3 } :=
  ⟨fun b hb => Block.same_trans (h.same b hb) (by have := subs_mem hm hb; cases b <;> first | rfl | simp at this)⟩

theorem Frame.of_set_sys_trp_mac_evr {m : List Block} {s u : State} {v0 v1 v2 v3} (hm : subs [.sys, .trp, .mac, .evr] m = true) :
    Frame m s { u with sys := v0, trp := v1, mac := v2, evr := v3 } ↔ Frame m s u :=
  ⟨fun h => ⟨fun b hb => Block.same_trans (h.same b hb) (by have := subs_mem hm hb; cases b <;> first | rfl | simp at this)⟩,
    fun h => h.set_sys_trp_mac_evr hm⟩

theorem Frame.set_sys_acq_flt_sve_spd_tbs_rtc_mac_key_evr_pwr {m : List Block} {s u : State} {v0 v1 v2 v3 v4 v5 v6 v7 v8 v9 v10} (h : Frame m s u) (hm : subs [.sys, .acq, .flt, .sve, .spd, .tbs, .rtc, .mac, .key, .evr, .pwr] m = true) :
    Frame m s { u with sys := v0, acq := v1, flt := v2, sve := v3, spd := v4, tbs := v5, rtc := v6, mac := v7, key := v8, evr := v9, pwr := v10 } :=
  ⟨fun b hb => Block.same_trans (h.same b hb) (by have := subs_mem hm hb; cases b <;> first | rfl | simp at this)⟩

theorem Frame.of_set_sys_acq_flt_sve_spd_tbs_rtc_mac_key_evr_pwr {m : List Block} {s u : State} {v0 v1 v2 v3 v4 v5 v6 v7 v8 v9 v10} (hm : subs [.sys, .acq, .flt, .sve, .spd, .tbs, .rtc, .mac, .key, .evr, .pwr] m = true) :
    Frame m s { u with sys := v0, acq := v1, flt := v2, sve := v3, spd := v4, tbs := v5, rtc := v6, mac := v7, key := v8, evr := v9, pwr := v10 } ↔ Frame m s u :=
  ⟨fun h => ⟨fun b hb => Block.same_trans (h.same b hb) (by have := subs_mem hm hb; cases b <;> first | rfl | simp at this)⟩,
    fun h => h.set_sys_acq_flt_sve_spd_tbs_rtc_mac_key_evr_pwr hm⟩


end Sys2Proof.Machine
end

