-- ==== Sys2Proof/Laws/Frames/Ops.lean ====
section
/-! SUPPORT. What each operation of Machine/Ops.lean may change. -/

namespace Sys2Proof.Machine

theorem evFull_frame {a0 a1 a2 a3 s4} : Frame [.evr] s4 (evFull a0 a1 a2 a3 s4) := by
  unfold evFull
  repeat' first
    | with_reducible exact Frame.refl _ _
    | exact rfl
    | with_reducible apply Frame.ite
    | simp (disch := decide) only [↓Frame.of_set_evr]
    | split
    | intro _

theorem evBy_frame {a0 a1 a2 s3} : Frame [.evr] s3 (evBy a0 a1 a2 s3) := by
  unfold evBy
  repeat' first
    | with_reducible exact Frame.refl _ _
    | exact rfl
    | with_reducible apply Frame.app (k := evFull_frame)
    | dsimp only
    | split
    | intro _

theorem evStamped_frame {a0 a1 a2 a3 s4} : Frame [.evr] s4 (evStamped a0 a1 a2 a3 s4) := by
  unfold evStamped
  repeat' first
    | with_reducible exact Frame.refl _ _
    | exact rfl
    | with_reducible apply Frame.app (k := evFull_frame)
    | dsimp only
    | split
    | intro _

theorem setBkp_frame {a0 a1 s2} : Frame [.rtc] s2 (setBkp a0 a1 s2) := by
  unfold setBkp
  repeat' first
    | with_reducible exact Frame.refl _ _
    | exact rfl
    | simp (disch := decide) only [↓Frame.of_set_rtc]
    | split
    | intro _

theorem ev_frame {a0 a1 s2} : Frame [.evr] s2 (ev a0 a1 s2) := by
  unfold ev
  repeat' first
    | with_reducible exact Frame.refl _ _
    | exact rfl
    | with_reducible apply Frame.app (k := evFull_frame)
    | dsimp only
    | split
    | intro _

theorem atTime_frame {a0 s1} : Frame [.evr, .now, .out] s1 (atTime a0 s1) := by
  unfold atTime
  repeat' first
    | with_reducible exact Frame.refl _ _
    | exact rfl
    | with_reducible apply Frame.ite
    | simp (disch := decide) only [↓Frame.of_set_evr, ↓Frame.of_set_now, ↓Frame.of_set_out, ↓Frame.of_set_evr_now_out]
    | split
    | intro _

theorem emit_frame {a0 s1} : Frame [.out] s1 (emit a0 s1) := by
  unfold emit
  repeat' first
    | with_reducible exact Frame.refl _ _
    | exact rfl
    | simp (disch := decide) only [↓Frame.of_set_out]
    | split
    | intro _

theorem drawFree_frame {s0} : Frame [.freeCtr] s0 (drawFree s0).2 := by
  unfold drawFree
  repeat' first
    | with_reducible exact Frame.refl _ _
    | exact rfl
    | simp (disch := decide) only [↓Frame.of_set_freeCtr]
    | split
    | intro _

end Sys2Proof.Machine
end

