-- ==== Sys2Proof/Laws/Frames/Reply.lean ====
section
/-! SUPPORT. What each operation of Machine/Reply.lean may change. -/

namespace Sys2Proof.Machine

theorem postNotice_frame {a0 a1 s2} : Frame [.mbx, .out] s2 (postNotice a0 a1 s2) := by
  unfold postNotice
  repeat' first
    | with_reducible exact Frame.refl _ _
    | exact rfl
    | with_reducible apply Frame.ite
    | with_reducible apply Frame.app (k := emit_frame)
    | simp (disch := decide) only [↓Frame.of_set_mbx]
    | split
    | intro _

theorem sendReply_frame {a0 a1 s2} : Frame [.mbx, .cmd, .out] s2 (sendReply a0 a1 s2) := by
  unfold sendReply
  repeat' first
    | with_reducible exact Frame.refl _ _
    | exact rfl
    | with_reducible apply Frame.ite
    | with_reducible apply Frame.app (k := emit_frame)
    | with_reducible apply Frame.app (k := postNotice_frame)
    | simp (disch := decide) only [↓Frame.of_set_cmd]
    | split
    | intro _

theorem reply_frame {a0 a1 a2 a3 s4} : Frame [.mbx, .cmd, .out] s4 (reply a0 a1 a2 a3 s4) := by
  unfold reply
  repeat' first
    | with_reducible exact Frame.refl _ _
    | exact rfl
    | with_reducible apply Frame.ite
    | with_reducible apply Frame.app (k := sendReply_frame)
    | simp (disch := decide) only [↓Frame.of_set_cmd]
    | split
    | intro _

theorem refuse_frame {a0 a1 a2 s3} : Frame [.mbx, .cmd, .out] s3 (refuse a0 a1 a2 s3) := by
  unfold refuse
  repeat' first
    | with_reducible exact Frame.refl _ _
    | exact rfl
    | with_reducible apply Frame.app (k := reply_frame)
    | dsimp only
    | split
    | intro _

theorem packetChecks.authFail_frame {a0 s1} : Frame [.mbx, .cmd, .out] s1 (packetChecks.authFail a0 s1).2 := by
  unfold packetChecks.authFail
  repeat' first
    | with_reducible exact Frame.refl _ _
    | exact rfl
    | with_reducible apply Frame.ite_snd
    | with_reducible apply Frame.app (k := refuse_frame)
    | with_reducible apply Frame.ite
    | simp (disch := decide) only [↓Frame.of_set_cmd]
    | split
    | intro _

theorem packetChecks_frame {a0 a1 s2} : Frame [.mbx, .cmd, .out] s2 (packetChecks a0 a1 s2).2 := by
  unfold packetChecks
  repeat' first
    | with_reducible exact Frame.refl _ _
    | exact rfl
    | with_reducible apply Frame.ite_snd
    | with_reducible apply Frame.app (k := refuse_frame)
    | with_reducible apply Frame.app (k := packetChecks.authFail_frame)
    | with_reducible apply Frame.ite
    | simp (disch := decide) only [↓Frame.of_set_cmd]
    | split
    | with_reducible refine Frame.app ?_ (Frame.snd (by assumption) (packetChecks.authFail_frame ..)) ?_
    | intro _

theorem arrive_frame {a0 a1 s2} : Frame [.mbx, .cmd, .out] s2 (arrive a0 a1 s2).2 := by
  unfold arrive
  repeat' first
    | with_reducible exact Frame.refl _ _
    | exact rfl
    | with_reducible apply Frame.ite_snd
    | with_reducible apply Frame.app (k := refuse_frame)
    | with_reducible apply Frame.app (k := packetChecks_frame)
    | with_reducible apply Frame.ite
    | simp (disch := decide) only [↓Frame.of_set_cmd]
    | split
    | with_reducible refine Frame.app ?_ (Frame.snd (by assumption) (packetChecks_frame ..)) ?_
    | intro _

theorem replyWithOutput_frame {a0 a1 a2 a3 s4} : Frame [.mbx, .cmd, .out] s4 (replyWithOutput a0 a1 a2 a3 s4) := by
  unfold replyWithOutput
  repeat' first
    | with_reducible exact Frame.refl _ _
    | exact rfl
    | with_reducible apply Frame.ite
    | with_reducible apply Frame.app (k := reply_frame)
    | with_reducible apply Frame.app (k := emit_frame)
    | simp (disch := decide) only [↓Frame.of_set_cmd]
    | split
    | intro _

theorem finish_frame {a0 a1 a2 a3 s4} : Frame [.mbx, .cmd, .out] s4 (finish a0 a1 a2 a3 s4) := by
  unfold finish
  repeat' first
    | with_reducible exact Frame.refl _ _
    | exact rfl
    | with_reducible apply Frame.ite
    | with_reducible apply Frame.app (k := reply_frame)
    | simp (disch := decide) only [↓Frame.of_set_cmd]
    | split
    | intro _

theorem turn_frame {a0 a1 s2} : Frame [.mbx, .cmd, .out] s2 (turn a0 a1 s2).2 := by
  unfold turn
  repeat' first
    | with_reducible exact Frame.refl _ _
    | exact rfl
    | with_reducible apply Frame.ite_snd
    | with_reducible apply Frame.app (k := arrive_frame)
    | with_reducible apply Frame.ite
    | simp (disch := decide) only [↓Frame.of_set_cmd]
    | split
    | with_reducible refine Frame.app ?_ (Frame.snd (by assumption) (arrive_frame ..)) ?_
    | intro _

theorem evCmd_frame {a0 a1 a2 s3} : Frame [.evr] s3 (evCmd a0 a1 a2 s3) := by
  unfold evCmd
  repeat' first
    | with_reducible exact Frame.refl _ _
    | exact rfl
    | with_reducible apply Frame.app (k := evBy_frame)
    | dsimp only
    | split
    | intro _

theorem execPkt_frame {a0 a1 a2 s3} {m : List Block} (hm : subs [.mbx, .cmd, .out] m = true) (ha2 : ∀ x0 x1, Frame m x1 (a2 x0 x1)) : Frame m s3 (execPkt a0 a1 a2 s3) := by
  unfold execPkt
  repeat' first
    | with_reducible exact Frame.refl _ _
    | exact rfl
    | with_reducible apply Frame.trans (k := ha2 ..)
    | exact subs_trans rfl hm
    | with_reducible apply Frame.app (k := refuse_frame)
    | dsimp only
    | split
    | intro _

theorem touchTxn_frame {a0 s1} : Frame [.cmd] s1 (touchTxn a0 s1) := by
  unfold touchTxn
  repeat' first
    | with_reducible exact Frame.refl _ _
    | exact rfl
    | with_reducible apply Frame.ite
    | simp (disch := decide) only [↓Frame.of_set_cmd]
    | split
    | intro _

theorem flushUnknown_frame {n s} : Frame [.mbx, .cmd, .out] s (flushUnknown n s) := by
  induction n generalizing s with
  | zero => exact .refl _ _
  | succ n ih =>
    unfold flushUnknown
    dsimp only
    split
    · refine Frame.trans (Frame.app ?_ refuse_frame rfl) ih
      simp (disch := decide) only [↓Frame.of_set_cmd]
      exact .refl _ _
    · exact .refl _ _

theorem begin'_frame {a0 a1 a2 s3} {m : List Block} (hm : subs [.mbx, .cmd, .out] m = true) (ha2 : ∀ x0 x1, Frame m x1 (a2 x0 x1)) : Frame m s3 (begin' a0 a1 a2 s3) := by
  unfold begin'
  repeat' first
    | with_reducible exact Frame.refl _ _
    | exact rfl
    | with_reducible apply Frame.trans (k := ha2 ..)
    | exact subs_trans rfl hm
    | with_reducible apply Frame.app (k := flushUnknown_frame)
    | with_reducible apply Frame.trans (k := execPkt_frame ?_ ?_)
    | with_reducible apply Frame.app (k := touchTxn_frame)
    | dsimp only
    | split
    | intro _

theorem holdReply_frame {a0 s1} : Frame [.cmd] s1 (holdReply a0 s1) := by
  unfold holdReply
  repeat' first
    | with_reducible exact Frame.refl _ _
    | exact rfl
    | simp (disch := decide) only [↓Frame.of_set_cmd]
    | split
    | intro _

theorem runCmd_frame {a0 a1 a2 s3} {m : List Block} (hm : subs [.mbx, .cmd, .out] m = true) (ha2 : ∀ x0 x1, Frame m x1 (a2 x0 x1)) : Frame m s3 (runCmd a0 a1 a2 s3) := by
  unfold runCmd
  repeat' first
    | with_reducible exact Frame.refl _ _
    | exact rfl
    | with_reducible apply Frame.trans (k := ha2 ..)
    | exact subs_trans rfl hm
    | with_reducible apply Frame.app (k := turn_frame)
    | with_reducible apply Frame.trans (k := begin'_frame ?_ ?_)
    | dsimp only
    | split
    | with_reducible refine Frame.app ?_ (Frame.snd (by assumption) (turn_frame ..)) ?_
    | intro _

theorem evCfg_frame {a0 a1 a2 s3} : Frame [.evr] s3 (evCfg a0 a1 a2 s3) := by
  unfold evCfg
  repeat' first
    | with_reducible exact Frame.refl _ _
    | exact rfl
    | with_reducible apply Frame.app (k := evBy_frame)
    | dsimp only
    | split
    | intro _

theorem checked_frame {a0 a1 a2 a3 s4} {m : List Block} (hm : subs [.mbx, .cmd, .out] m = true) (ha3 : ∀ x0, Frame m x0 (a3 x0)) : Frame m s4 (checked a0 a1 a2 a3 s4) := by
  unfold checked
  repeat' first
    | with_reducible exact Frame.refl _ _
    | exact rfl
    | with_reducible apply Frame.ite
    | with_reducible apply Frame.trans (k := ha3 ..)
    | exact subs_trans rfl hm
    | with_reducible apply Frame.app (k := refuse_frame)
    | dsimp only
    | split
    | intro _

theorem checked8_frame {a0 a1 a2 a3 a4 s5} {m : List Block} (hm : subs [.mbx, .cmd, .out] m = true) (ha4 : ∀ x0, Frame m x0 (a4 x0)) : Frame m s5 (checked8 a0 a1 a2 a3 a4 s5) := by
  unfold checked8
  repeat' first
    | with_reducible exact Frame.refl _ _
    | exact rfl
    | with_reducible apply Frame.trans (k := ha4 ..)
    | exact subs_trans rfl hm
    | with_reducible apply Frame.app (k := refuse_frame)
    | with_reducible apply Frame.trans (k := checked_frame ?_ ?_)
    | dsimp only
    | split
    | intro _

end Sys2Proof.Machine
end

