-- ==== Sys2Proof/Laws/Commands.lean ====
section
/-! SUPPORT. The course of a command packet: one lemma for each way in which a row's own part is reached. -/

namespace Sys2Proof.Machine

theorem touchTxn_queue (e : Env) (s : State) : (touchTxn e s).cmd.queue = s.cmd.queue := by
  unfold touchTxn
  split
  · split <;> rfl
  · rfl

/-- A command that begins runs its own part, and then the packets behind it that are no command are refused. -/
theorem runCmd_begins {e : Env} {q : CmdReq} {body : ReplyTo → State → State} {s u : State} {rt : ReplyTo} (h : begins e q s = some (rt, u)) :
    runCmd e q body s = flushUnknown u.cmd.queue.length (body rt u) := by
  unfold begins at h
  unfold runCmd
  split at h
  · rename_i p v hp
    split at h
    · rename_i hf
      cases h
      simp only [hp, begin', execPkt, touchTxn_queue]
      rw [Option.isNone_iff_eq_none] at hf
      simp only [hf]
    · cases h
  · cases h

/-- What the first part of a command's course changes: counters and queues of the interpreter, and replies. -/
theorem begins_frame {e : Env} {q : CmdReq} {s u : State} {rt : ReplyTo} (h : begins e q s = some (rt, u)) : Frame [.mbx, .cmd, .out] s u := by
  unfold begins at h
  have k : Frame [.mbx, .cmd, .out] s (turn e q.opcode s).2 := turn_frame
  split at h
  · rename_i p v hp
    rw [hp] at k
    split at h
    · cases h
      exact k.app touchTxn_frame (by decide)
    · cases h
  · cases h

/-- The state that a command's own part starts in satisfies its requirements (R375). -/
theorem begins_state {e : Env} {q : CmdReq} {s u : State} {rt : ReplyTo} (h : begins e q s = some (rt, u)) : u.sys.st ∈ q.states := by
  unfold begins at h
  split at h
  · split at h
    · rename_i hf
      cases h
      rw [Option.isNone_iff_eq_none] at hf
      unfold pktFault at hf
      dsimp only at hf
      split at hf
      · cases hf
      · have step : ∀ {b : Bool} {a : Nat × Nat} {r : Option (Nat × Nat)}, (if b = true then some a else r) = none → b = false ∧ r = none := by
          intro b a r h
          cases b <;> simp_all
        have k := (step (step (step (step (step (step (step hf).2).2).2).2).2).2).1
        simpa using k
    · cases h
  · cases h

variable {e : Env} {rt : ReplyTo} {f : State → State} {s : State} {c pre : Option (Nat × Nat)}

theorem checked_ok (h : e.resvOk = true) : checked e rt none f s = f s := by simp [checked, h]

theorem checked8_ok (h : e.resvOk = true) : checked8 e rt none none f s = f s := by simp [checked8, checked, h]

theorem checked8_pre {st d : Nat} : checked8 e rt (some (st, d)) c f s = refuse rt st d s := rfl

theorem checked_fault {st d : Nat} (h : e.resvOk = true) : checked e rt (some (st, d)) f s = refuse rt st d s := by simp [checked, h]

@[simp] theorem firstFail_nil : firstFail [] = none := rfl

theorem firstFail_cons (b : Bool) (x : Nat × Nat) (l : List (Bool × Nat × Nat)) : firstFail ((b, x) :: l) = if b then firstFail l else some x := by
  cases b <;> simp [firstFail, List.find?]

end Sys2Proof.Machine
end

