-- ==== Sys2Proof/Laws/Frames/Bus.lean ====
section
/-! SUPPORT. What each operation of Machine/Bus.lean may change. -/

namespace Sys2Proof.Machine

theorem busViolate_frame {a0 a1 s2} : Frame [.sys, .evr] s2 (busViolate a0 a1 s2) := by
  unfold busViolate
  repeat' first
    | with_reducible exact Frame.refl _ _
    | exact rfl
    | with_reducible apply Frame.ite
    | with_reducible apply Frame.app (k := ev_frame)
    | simp (disch := decide) only [↓Frame.of_set_sys]
    | split
    | intro _

theorem setDirty_frame {s0} : Frame [.cmd] s0 (setDirty s0) := by
  unfold setDirty
  repeat' first
    | with_reducible exact Frame.refl _ _
    | exact rfl
    | simp (disch := decide) only [↓Frame.of_set_cmd]
    | split
    | intro _

theorem regWrite_frame {a0 a1 a2 s3} {m : List Block} (hm : subs [.sys, .evr] m = true) (ha2 : ∀ x0, Frame m x0 (a2 x0)) : Frame m s3 (regWrite a0 a1 a2 s3) := by
  unfold regWrite
  repeat' first
    | with_reducible exact Frame.refl _ _
    | exact rfl
    | with_reducible apply Frame.ite
    | with_reducible apply Frame.trans (k := ha2 ..)
    | exact subs_trans rfl hm
    | with_reducible apply Frame.app (k := busViolate_frame)
    | dsimp only
    | split
    | intro _

theorem cfgWrite_frame {a0 a1 a2 s3} {m : List Block} (hm : subs [.sys, .cmd, .evr] m = true) (ha2 : ∀ x0, Frame m x0 (a2 x0)) : Frame m s3 (cfgWrite a0 a1 a2 s3) := by
  unfold cfgWrite
  repeat' first
    | with_reducible exact Frame.refl _ _
    | exact rfl
    | with_reducible apply Frame.ite
    | with_reducible apply Frame.trans (k := ha2 ..)
    | exact subs_trans rfl hm
    | with_reducible apply Frame.app (k := setDirty_frame)
    | with_reducible apply Frame.app (k := busViolate_frame)
    | dsimp only
    | split
    | intro _

end Sys2Proof.Machine
end

