-- ==== Sys2Proof/Laws/Frames/Shutter.lean ====
section
/-! SUPPORT. What each operation of Machine/Shutter.lean may change. -/

namespace Sys2Proof.Machine

theorem modTrg_frame {a0 s1} : Frame [.trg] s1 (modTrg a0 s1) := by
  unfold modTrg
  repeat' first
    | with_reducible exact Frame.refl _ _
    | exact rfl
    | simp (disch := decide) only [↓Frame.of_set_trg]
    | split
    | intro _

theorem digNote_frame {a0 a1 a2 s3} : Frame [.trg] s3 (digNote a0 a1 a2 s3) := by
  unfold digNote
  repeat' first
    | with_reducible exact Frame.refl _ _
    | exact rfl
    | with_reducible apply Frame.ite
    | with_reducible apply Frame.app (k := modTrg_frame)
    | dsimp only
    | split
    | intro _

theorem fireEntry_frame {a0 a1 a2 a3 s4} : Frame [.trg] s4 (fireEntry a0 a1 a2 a3 s4) := by
  unfold fireEntry
  repeat' first
    | with_reducible exact Frame.refl _ _
    | exact rfl
    | with_reducible apply Frame.app (k := modTrg_frame)
    | dsimp only
    | split
    | intro _

theorem fireEntries_frame {a0 a1 a2 a3 a4 a5 s6} : Frame [.trg] s6 (fireEntries a0 a1 a2 a3 a4 a5 s6) := by
  unfold fireEntries
  repeat' first
    | with_reducible exact Frame.refl _ _
    | exact rfl
    | with_reducible apply Frame.ite
    | with_reducible apply Frame.app (k := fireEntry_frame)
    | with_reducible apply Frame.trans (k := Frame.foldOver ?_ _ _)
    | with_reducible apply Frame.trans (k := Frame.foldOver_snd ?_ _ _)
    | dsimp only
    | split
    | intro _

theorem pinEdge_frame {a0 a1 a2 s3} : Frame [.trg] s3 (pinEdge a0 a1 a2 s3) := by
  unfold pinEdge
  repeat' first
    | with_reducible exact Frame.refl _ _
    | exact rfl
    | with_reducible apply Frame.ite
    | with_reducible apply Frame.app (k := digNote_frame)
    | with_reducible apply Frame.app (k := modTrg_frame)
    | with_reducible apply Frame.app (k := fireEntries_frame)
    | with_reducible apply Frame.trans (k := Frame.foldl ?_ _ _)
    | dsimp only
    | split
    | intro _

theorem replyForce_frame {a0 a1 s2} : Frame [.mbx, .cmd, .out] s2 (replyForce a0 a1 s2) := by
  unfold replyForce
  repeat' first
    | with_reducible exact Frame.refl _ _
    | exact rfl
    | with_reducible apply Frame.app (k := finish_frame)
    | dsimp only
    | split
    | intro _

theorem loseTrigger_frame {a0 a1 s2} : Frame [.trg, .evr] s2 (loseTrigger a0 a1 s2) := by
  unfold loseTrigger
  repeat' first
    | with_reducible exact Frame.refl _ _
    | exact rfl
    | with_reducible apply Frame.ite
    | with_reducible apply Frame.app (k := modTrg_frame)
    | with_reducible apply Frame.app (k := ev_frame)
    | dsimp only
    | split
    | intro _

theorem storeFault_frame {a0 a1 s2} : Frame [.trg, .evr] s2 (storeFault a0 a1 s2) := by
  unfold storeFault
  repeat' first
    | with_reducible exact Frame.refl _ _
    | exact rfl
    | with_reducible apply Frame.app (k := ev_frame)
    | with_reducible apply Frame.app (k := modTrg_frame)
    | dsimp only
    | split
    | intro _

theorem takeBlock_frame {s0} : Frame [.trg, .evr] s0 (takeBlock s0).2 := by
  unfold takeBlock
  repeat' first
    | with_reducible exact Frame.refl _ _
    | exact rfl
    | with_reducible apply Frame.ite_snd
    | with_reducible apply Frame.app (k := modTrg_frame)
    | with_reducible apply Frame.app (k := ev_frame)
    | with_reducible apply Frame.ite
    | dsimp only
    | split
    | intro _

theorem takeGood_frame {l r n s} : Frame [.trg, .evr] s (takeGood l r n s).2 := by
  induction n generalizing s with
  | zero => exact .refl _ _
  | succ n ih =>
    have h0 : Frame [.trg, .evr] s (takeBlock s).2 := takeBlock_frame.mono rfl
    rw [takeGood]
    generalize takeBlock s = x at *
    obtain ⟨_ | b, u⟩ := x
    · exact h0
    · unfold unlessFailing
      dsimp only
      split
      · exact (h0.app storeFault_frame rfl).trans ih
      · exact h0

theorem openRec_frame {a0 a1 a2 a3 a4 a5 a6 a7 a8 s9} : Frame [.trg, .evr] s9 (openRec a0 a1 a2 a3 a4 a5 a6 a7 a8 s9) := by
  have h0 : Frame [.trg, .evr] s9 (takeGood a0 s9.trg.nextRecno 3584 s9).2 := takeGood_frame.mono rfl
  unfold openRec
  generalize takeGood a0 s9.trg.nextRecno 3584 s9 = x at *
  obtain ⟨_ | b, u⟩ := x
  · exact h0
  · exact (h0.app modTrg_frame rfl).app ev_frame rfl

theorem openChain_frame {a0 a1 a2 s3} : Frame [.trg, .evr] s3 (openChain a0 a1 a2 s3) := by
  unfold openChain
  repeat' first
    | with_reducible exact Frame.refl _ _
    | exact rfl
    | with_reducible apply Frame.ite
    | with_reducible apply Frame.app (k := openRec_frame)
    | dsimp only
    | split
    | intro _

theorem modRec_frame {a0 a1 s2} : Frame [.trg] s2 (modRec a0 a1 s2) := by
  unfold modRec
  repeat' first
    | with_reducible exact Frame.refl _ _
    | exact rfl
    | with_reducible apply Frame.ite
    | with_reducible apply Frame.app (k := modTrg_frame)
    | dsimp only
    | split
    | intro _

theorem realiseChain_frame {a0 a1 s2} : Frame [.trg, .evr] s2 (realiseChain a0 a1 s2) := by
  unfold realiseChain
  repeat' first
    | with_reducible exact Frame.refl _ _
    | exact rfl
    | with_reducible apply Frame.ite
    | with_reducible apply Frame.app (k := openChain_frame)
    | with_reducible apply Frame.app (k := modRec_frame)
    | dsimp only
    | split
    | intro _

theorem retrigger_frame {a0 a1 s2} : Frame [.trg] s2 (retrigger a0 a1 s2).2 := by
  unfold retrigger
  repeat' first
    | with_reducible exact Frame.refl _ _
    | exact rfl
    | with_reducible apply Frame.ite_snd
    | with_reducible apply Frame.app (k := modTrg_frame)
    | with_reducible apply Frame.app (k := modRec_frame)
    | with_reducible apply Frame.ite
    | dsimp only
    | split
    | intro _

theorem newRecord_frame {a0 a1 s2} : Frame [.trg, .evr] s2 (newRecord a0 a1 s2).2 := by
  unfold newRecord
  repeat' first
    | with_reducible exact Frame.refl _ _
    | exact rfl
    | with_reducible apply Frame.ite_snd
    | with_reducible apply Frame.app (k := openRec_frame)
    | with_reducible apply Frame.ite
    | dsimp only
    | split
    | intro _

theorem urgentRequest_frame {a0 a1 s2} : Frame [.acq] s2 (urgentRequest a0 a1 s2).2 := by
  unfold urgentRequest
  repeat' first
    | with_reducible exact Frame.refl _ _
    | exact rfl
    | with_reducible apply Frame.ite_snd
    | with_reducible apply Frame.ite
    | simp (disch := decide) only [↓Frame.of_set_acq]
    | split
    | intro _

theorem urgRefusedEvent_frame {s0} : Frame [.acq, .evr] s0 (urgRefusedEvent s0) := by
  unfold urgRefusedEvent
  repeat' first
    | with_reducible exact Frame.refl _ _
    | exact rfl
    | with_reducible apply Frame.ite
    | with_reducible apply Frame.app (k := ev_frame)
    | simp (disch := decide) only [↓Frame.of_set_acq]
    | split
    | intro _

theorem entryActions_frame {a0 s1} : Frame [.acq, .trg, .evr] s1 (entryActions a0 s1) := by
  unfold entryActions
  repeat' first
    | with_reducible exact Frame.refl _ _
    | exact rfl
    | with_reducible apply Frame.ite
    | with_reducible apply Frame.app (k := urgentRequest_frame)
    | with_reducible apply Frame.app (k := modRec_frame)
    | with_reducible apply Frame.app (k := urgRefusedEvent_frame)
    | with_reducible apply Frame.app (k := modTrg_frame)
    | dsimp only
    | split
    | with_reducible refine Frame.app ?_ (Frame.snd (by assumption) (urgentRequest_frame ..)) ?_
    | intro _

theorem noteTaken_frame {a0 s1} : Frame [.trg] s1 (noteTaken a0 s1) := by
  unfold noteTaken
  repeat' first
    | with_reducible exact Frame.refl _ _
    | exact rfl
    | with_reducible apply Frame.app (k := modTrg_frame)
    | dsimp only
    | split
    | intro _

theorem openWindow_frame {a0 s1} : Frame [.trg, .evr] s1 (openWindow a0 s1) := by
  unfold openWindow
  repeat' first
    | with_reducible exact Frame.refl _ _
    | exact rfl
    | with_reducible apply Frame.ite
    | with_reducible apply Frame.app (k := ev_frame)
    | with_reducible apply Frame.app (k := modRec_frame)
    | with_reducible apply Frame.app (k := modTrg_frame)
    | with_reducible apply Frame.trans (k := Frame.foldl ?_ _ _)
    | dsimp only
    | split
    | intro _

theorem takeTrigger_frame {a0 a1 s2} : Frame [.acq, .trg, .mbx, .cmd, .evr, .out] s2 (takeTrigger a0 a1 s2) := by
  unfold takeTrigger
  repeat' first
    | with_reducible exact Frame.refl _ _
    | exact rfl
    | with_reducible apply Frame.ite
    | with_reducible apply Frame.app (k := replyForce_frame)
    | with_reducible apply Frame.app (k := loseTrigger_frame)
    | with_reducible apply Frame.app (k := finish_frame)
    | with_reducible apply Frame.app (k := realiseChain_frame)
    | with_reducible apply Frame.app (k := retrigger_frame)
    | with_reducible apply Frame.app (k := newRecord_frame)
    | with_reducible apply Frame.app (k := entryActions_frame)
    | with_reducible apply Frame.app (k := noteTaken_frame)
    | with_reducible apply Frame.app (k := openWindow_frame)
    | dsimp only
    | split
    | with_reducible refine Frame.app ?_ (Frame.snd (by assumption) (retrigger_frame ..)) ?_
    | with_reducible refine Frame.app ?_ (Frame.snd (by assumption) (newRecord_frame ..)) ?_
    | intro _

theorem ringPush_frame {a0 a1 a2 a3 a4 a5 s6} : Frame [.trg] s6 (ringPush a0 a1 a2 a3 a4 a5 s6) := by
  unfold ringPush
  repeat' first
    | with_reducible exact Frame.refl _ _
    | exact rfl
    | with_reducible apply Frame.ite
    | with_reducible apply Frame.app (k := modTrg_frame)
    | dsimp only
    | split
    | intro _

theorem shutterCold_frame {s0} : Frame [.trg, .evr] s0 (shutterCold s0) := by
  unfold shutterCold
  repeat' first
    | with_reducible exact Frame.refl _ _
    | exact rfl
    | with_reducible apply Frame.app (k := modTrg_frame)
    | with_reducible apply Frame.app (k := ev_frame)
    | with_reducible apply Frame.trans (k := Frame.foldOver ?_ _ _)
    | with_reducible apply Frame.trans (k := Frame.foldOver_snd ?_ _ _)
    | dsimp only
    | split
    | intro _

theorem srcEdge_frame {a0 a1 a2 a3 s4} : Frame [.trg] s4 (srcEdge a0 a1 a2 a3 s4) := by
  unfold srcEdge
  repeat' first
    | with_reducible exact Frame.refl _ _
    | exact rfl
    | with_reducible apply Frame.app (k := fireEntries_frame)
    | with_reducible apply Frame.app (k := digNote_frame)
    | dsimp only
    | split
    | intro _

theorem shutterTest_frame {s0} : Frame [.trg] s0 (shutterTest s0) := by
  unfold shutterTest
  repeat' first
    | with_reducible exact Frame.refl _ _
    | exact rfl
    | with_reducible apply Frame.ite
    | with_reducible apply Frame.app (k := modTrg_frame)
    | dsimp only
    | split
    | intro _

theorem closeRec_frame {a0 s1} : Frame [.trg] s1 (closeRec a0 s1) := by
  unfold closeRec
  repeat' first
    | with_reducible exact Frame.refl _ _
    | exact rfl
    | with_reducible apply Frame.app (k := modRec_frame)
    | dsimp only
    | split
    | intro _

theorem shutterWarm_frame {s0} : Frame [.trg] s0 (shutterWarm s0) := by
  unfold shutterWarm
  repeat' first
    | with_reducible exact Frame.refl _ _
    | exact rfl
    | with_reducible apply Frame.app (k := modTrg_frame)
    | dsimp only
    | split
    | intro _

theorem rawPush_frame {a0 a1 a2 s3} : Frame [.trg] s3 (rawPush a0 a1 a2 s3) := by
  unfold rawPush
  repeat' first
    | with_reducible exact Frame.refl _ _
    | exact rfl
    | with_reducible apply Frame.ite
    | with_reducible apply Frame.app (k := modTrg_frame)
    | dsimp only
    | split
    | intro _

theorem committedEvent_frame {a0 a1 s2} : Frame [.evr] s2 (committedEvent a0 a1 s2) := by
  unfold committedEvent
  repeat' first
    | with_reducible exact Frame.refl _ _
    | exact rfl
    | with_reducible apply Frame.app (k := ev_frame)
    | dsimp only
    | split
    | intro _

theorem shutterShed5_frame {s0} : Frame [.trg, .evr] s0 (shutterShed5 s0) := by
  unfold shutterShed5
  repeat' first
    | with_reducible exact Frame.refl _ _
    | exact rfl
    | with_reducible apply Frame.app (k := committedEvent_frame)
    | with_reducible apply Frame.app (k := modRec_frame)
    | with_reducible apply Frame.trans (k := Frame.foldOver ?_ _ _)
    | with_reducible apply Frame.trans (k := Frame.foldOver_snd ?_ _ _)
    | dsimp only
    | split
    | intro _

theorem ringsRestart_frame {s0} : Frame [.trg] s0 (ringsRestart s0) := by
  unfold ringsRestart
  repeat' first
    | with_reducible exact Frame.refl _ _
    | exact rfl
    | with_reducible apply Frame.ite
    | with_reducible apply Frame.app (k := modTrg_frame)
    | dsimp only
    | split
    | intro _

theorem ringDrop_frame {a0 s1} : Frame [.trg] s1 (ringDrop a0 s1) := by
  unfold ringDrop
  repeat' first
    | with_reducible exact Frame.refl _ _
    | exact rfl
    | with_reducible apply Frame.app (k := modTrg_frame)
    | dsimp only
    | split
    | intro _

theorem shutterStep_frame {a0 s1} : Frame [.trg] s1 (shutterStep a0 s1) := by
  unfold shutterStep
  repeat' first
    | with_reducible exact Frame.refl _ _
    | exact rfl
    | with_reducible apply Frame.ite
    | with_reducible apply Frame.app (k := ringsRestart_frame)
    | with_reducible apply Frame.app (k := modTrg_frame)
    | dsimp only
    | split
    | intro _

theorem tegTrigger_frame {a0 a1 a2 s3} : Frame [.trg] s3 (tegTrigger a0 a1 a2 s3) := by
  unfold tegTrigger
  repeat' first
    | with_reducible exact Frame.refl _ _
    | exact rfl
    | with_reducible apply Frame.app (k := fireEntries_frame)
    | dsimp only
    | split
    | intro _

end Sys2Proof.Machine
end

