-- ==== Sys2Proof/Laws/Frames/TbsOps.lean ====
section
/-! SUPPORT. What each operation of Machine/TbsOps.lean may change. -/

namespace Sys2Proof.Machine

theorem modTbs_frame {a0 s1} : Frame [.tbs] s1 (modTbs a0 s1) := by
  unfold modTbs
  repeat' first
    | with_reducible exact Frame.refl _ _
    | exact rfl
    | simp (disch := decide) only [↓Frame.of_set_tbs]
    | split
    | intro _

theorem modBase_frame {a0 a1 s2} : Frame [.tbs] s2 (modBase a0 a1 s2) := by
  unfold modBase
  repeat' first
    | with_reducible exact Frame.refl _ _
    | exact rfl
    | with_reducible apply Frame.app (k := modTbs_frame)
    | dsimp only
    | split
    | intro _

theorem modPtp_frame {a0 a1 s2} : Frame [.tbs] s2 (modPtp a0 a1 s2) := by
  unfold modPtp
  repeat' first
    | with_reducible exact Frame.refl _ _
    | exact rfl
    | with_reducible apply Frame.app (k := modTbs_frame)
    | dsimp only
    | split
    | intro _

theorem modInstPort_frame {a0 a1 a2 s3} : Frame [.tbs] s3 (modInstPort a0 a1 a2 s3) := by
  unfold modInstPort
  repeat' first
    | with_reducible exact Frame.refl _ _
    | exact rfl
    | with_reducible apply Frame.app (k := modBase_frame)
    | dsimp only
    | split
    | intro _

theorem ptpStamp_frame {a0 a1 a2 s3} : Frame [.tbs] s3 (ptpStamp a0 a1 a2 s3).2 := by
  unfold ptpStamp
  repeat' first
    | with_reducible exact Frame.refl _ _
    | exact rfl
    | with_reducible apply Frame.ite_snd
    | with_reducible apply Frame.app (k := modInstPort_frame)
    | with_reducible apply Frame.app (k := modPtp_frame)
    | with_reducible apply Frame.ite
    | dsimp only
    | split
    | intro _

theorem ptpLeave_frame {a0 a1 s2} : Frame [.tbs] s2 (ptpLeave a0 a1 s2).2 := by
  unfold ptpLeave
  repeat' first
    | with_reducible exact Frame.refl _ _
    | exact rfl
    | with_reducible apply Frame.app (k := ptpStamp_frame)
    | dsimp only
    | split
    | with_reducible refine Frame.app ?_ (Frame.snd (by assumption) (ptpStamp_frame ..)) ?_
    | intro _

end Sys2Proof.Machine
end

