-- ==== Sys2Proof/Laws/Frames/VfmOps.lean ====
section
/-! SUPPORT. What each operation of Machine/VfmOps.lean may change. -/

namespace Sys2Proof.Machine

theorem stalledEvent_frame {a0 a1 s2} : Frame [.evr] s2 (stalledEvent a0 a1 s2) := by
  unfold stalledEvent
  repeat' first
    | with_reducible exact Frame.refl _ _
    | exact rfl
    | with_reducible apply Frame.app (k := ev_frame)
    | dsimp only
    | split
    | intro _

theorem modVf_frame {a0 a1 s2} : Frame [.vfm] s2 (modVf a0 a1 s2) := by
  unfold modVf
  repeat' first
    | with_reducible exact Frame.refl _ _
    | exact rfl
    | simp (disch := decide) only [↓Frame.of_set_vfm]
    | split
    | intro _

theorem dropEvent_frame {a0 s1} : Frame [.vfm, .evr] s1 (dropEvent a0 s1) := by
  unfold dropEvent
  repeat' first
    | with_reducible exact Frame.refl _ _
    | exact rfl
    | with_reducible apply Frame.ite
    | with_reducible apply Frame.app (k := ev_frame)
    | with_reducible apply Frame.app (k := modVf_frame)
    | dsimp only
    | split
    | intro _

theorem countDrop_frame {a0 a1 a2 s3} : Frame [.vfm, .evr] s3 (countDrop a0 a1 a2 s3) := by
  unfold countDrop
  repeat' first
    | with_reducible exact Frame.refl _ _
    | exact rfl
    | with_reducible apply Frame.ite
    | with_reducible apply Frame.app (k := dropEvent_frame)
    | with_reducible apply Frame.app (k := modVf_frame)
    | dsimp only
    | split
    | intro _

theorem admitAck_frame {a0 a1 s2} : Frame [.vfm] s2 (admitAck a0 a1 s2) := by
  unfold admitAck
  repeat' first
    | with_reducible exact Frame.refl _ _
    | exact rfl
    | with_reducible apply Frame.app (k := modVf_frame)
    | dsimp only
    | split
    | intro _

theorem statSignal_frame {a0 a1 s2} : Frame [.out] s2 (statSignal a0 a1 s2) := by
  unfold statSignal
  repeat' first
    | with_reducible exact Frame.refl _ _
    | exact rfl
    | with_reducible apply Frame.ite
    | with_reducible apply Frame.app (k := emit_frame)
    | dsimp only
    | split
    | intro _

theorem vfChange_frame {a0 a1 s2} {m : List Block} (hm : subs [.out] m = true) (ha1 : ∀ x0, Frame m x0 (a1 x0)) : Frame m s2 (vfChange a0 a1 s2) := by
  unfold vfChange
  repeat' first
    | with_reducible exact Frame.refl _ _
    | exact rfl
    | with_reducible apply Frame.trans (k := ha1 ..)
    | exact subs_trans rfl hm
    | with_reducible apply Frame.app (k := statSignal_frame)
    | dsimp only
    | split
    | intro _

theorem losslessState_frame {a0 s1} : Frame [.vfm, .evr, .out] s1 (losslessState a0 s1) := by
  unfold losslessState
  repeat' first
    | with_reducible exact Frame.refl _ _
    | exact rfl
    | with_reducible apply Frame.ite
    | with_reducible apply Frame.app (k := stalledEvent_frame)
    | with_reducible apply Frame.trans (k := vfChange_frame ?_ ?_)
    | with_reducible apply Frame.app (k := modVf_frame)
    | dsimp only
    | split
    | intro _

theorem admitBulk_frame {a0 a1 s2} : Frame [.vfm, .evr] s2 (admitBulk a0 a1 s2) := by
  unfold admitBulk
  repeat' first
    | with_reducible exact Frame.refl _ _
    | exact rfl
    | with_reducible apply Frame.ite
    | with_reducible apply Frame.app (k := countDrop_frame)
    | with_reducible apply Frame.app (k := modVf_frame)
    | dsimp only
    | split
    | intro _

theorem frameToVfs_frame {a0 a1 a2 a3 s4} : Frame [.vfm, .evr] s4 (frameToVfs a0 a1 a2 a3 s4) := by
  unfold frameToVfs
  repeat' first
    | with_reducible exact Frame.refl _ _
    | exact rfl
    | with_reducible apply Frame.ite
    | with_reducible apply Frame.app (k := admitBulk_frame)
    | with_reducible apply Frame.trans (k := Frame.foldOver ?_ _ _)
    | with_reducible apply Frame.trans (k := Frame.foldOver_snd ?_ _ _)
    | simp (disch := decide) only [↓Frame.of_set_vfm]
    | split
    | intro _

theorem oversharePass_frame {a0 s1} : Frame [.vfm, .evr, .out] s1 (oversharePass a0 s1) := by
  unfold oversharePass
  repeat' first
    | with_reducible exact Frame.refl _ _
    | exact rfl
    | with_reducible apply Frame.ite
    | with_reducible apply Frame.app (k := ev_frame)
    | with_reducible apply Frame.trans (k := vfChange_frame ?_ ?_)
    | with_reducible apply Frame.app (k := modVf_frame)
    | dsimp only
    | split
    | intro _

theorem admitLossless_frame {a0 a1 s2} : Frame [.vfm, .evr, .out] s2 (admitLossless a0 a1 s2) := by
  unfold admitLossless
  repeat' first
    | with_reducible exact Frame.refl _ _
    | exact rfl
    | with_reducible apply Frame.ite
    | with_reducible apply Frame.app (k := modVf_frame)
    | with_reducible apply Frame.app (k := stalledEvent_frame)
    | with_reducible apply Frame.trans (k := vfChange_frame ?_ ?_)
    | dsimp only
    | split
    | intro _

theorem deliverBound_frame {a0 a1 s2} : Frame [.vfm, .evr, .out] s2 (deliverBound a0 a1 s2) := by
  unfold deliverBound
  repeat' first
    | with_reducible exact Frame.refl _ _
    | exact rfl
    | with_reducible apply Frame.ite
    | with_reducible apply Frame.app (k := losslessState_frame)
    | with_reducible apply Frame.app (k := admitLossless_frame)
    | with_reducible apply Frame.trans (k := Frame.foldOver ?_ _ _)
    | with_reducible apply Frame.trans (k := Frame.foldOver_snd ?_ _ _)
    | dsimp only
    | split
    | intro _

end Sys2Proof.Machine
end

