-- ==== Sys2Proof/Laws/Frames/Switch.lean ====
section
/-! SUPPORT. What each operation of Machine/Switch.lean may change. -/

namespace Sys2Proof.Machine

theorem modMac_frame {a0 a1 s2} : Frame [.mac] s2 (modMac a0 a1 s2) := by
  unfold modMac
  repeat' first
    | with_reducible exact Frame.refl _ _
    | exact rfl
    | simp (disch := decide) only [↓Frame.of_set_mac]
    | split
    | intro _

theorem macCount_frame {a0 a1 a2 s3} : Frame [.mac] s3 (macCount a0 a1 a2 s3) := by
  unfold macCount
  repeat' first
    | with_reducible exact Frame.refl _ _
    | exact rfl
    | with_reducible apply Frame.app (k := modMac_frame)
    | dsimp only
    | split
    | intro _

theorem sendPause_frame {a0 a1 s2} : Frame [.mac, .out] s2 (sendPause a0 a1 s2) := by
  unfold sendPause
  repeat' first
    | with_reducible exact Frame.refl _ _
    | exact rfl
    | with_reducible apply Frame.ite
    | with_reducible apply Frame.app (k := modMac_frame)
    | with_reducible apply Frame.app (k := macCount_frame)
    | with_reducible apply Frame.app (k := emit_frame)
    | dsimp only
    | split
    | intro _

theorem pauseCheck_frame {a0 s1} : Frame [.mac, .out] s1 (pauseCheck a0 s1) := by
  unfold pauseCheck
  repeat' first
    | with_reducible exact Frame.refl _ _
    | exact rfl
    | with_reducible apply Frame.ite
    | with_reducible apply Frame.app (k := sendPause_frame)
    | with_reducible apply Frame.app (k := modMac_frame)
    | dsimp only
    | split
    | intro _

theorem pauseChecks_frame {s0} : Frame [.mac, .out] s0 (pauseChecks s0) := by
  unfold pauseChecks
  repeat' first
    | with_reducible exact Frame.refl _ _
    | exact rfl
    | with_reducible apply Frame.app (k := pauseCheck_frame)
    | with_reducible apply Frame.trans (k := Frame.foldOver ?_ _ _)
    | with_reducible apply Frame.trans (k := Frame.foldOver_snd ?_ _ _)
    | dsimp only
    | split
    | intro _

theorem modSwc_frame {a0 s1} : Frame [.swc] s1 (modSwc a0 s1) := by
  unfold modSwc
  repeat' first
    | with_reducible exact Frame.refl _ _
    | exact rfl
    | simp (disch := decide) only [↓Frame.of_set_swc]
    | split
    | intro _

theorem swcSettle_frame {s0} : Frame [.mac, .swc, .out] s0 (swcSettle s0) := by
  unfold swcSettle
  repeat' first
    | with_reducible exact Frame.refl _ _
    | exact rfl
    | with_reducible apply Frame.ite
    | with_reducible apply Frame.app (k := pauseChecks_frame)
    | with_reducible apply Frame.app (k := modSwc_frame)
    | with_reducible apply Frame.trans (k := Frame.foldOver ?_ _ _)
    | with_reducible apply Frame.trans (k := Frame.foldOver_snd ?_ _ _)
    | dsimp only
    | split
    | intro _

theorem modSwcPort_frame {a0 a1 s2} : Frame [.swc] s2 (modSwcPort a0 a1 s2) := by
  unfold modSwcPort
  repeat' first
    | with_reducible exact Frame.refl _ _
    | exact rfl
    | simp (disch := decide) only [↓Frame.of_set_swc]
    | split
    | intro _

theorem swcInDrop_frame {a0 a1 s2} : Frame [.mac, .swc, .evr] s2 (swcInDrop a0 a1 s2) := by
  unfold swcInDrop
  repeat' first
    | with_reducible exact Frame.refl _ _
    | exact rfl
    | with_reducible apply Frame.ite
    | with_reducible apply Frame.app (k := modSwcPort_frame)
    | with_reducible apply Frame.app (k := macCount_frame)
    | with_reducible apply Frame.app (k := ev_frame)
    | dsimp only
    | split
    | intro _

theorem learnFailed_frame {a0 s1} : Frame [.swc, .evr] s1 (learnFailed a0 s1) := by
  unfold learnFailed
  repeat' first
    | with_reducible exact Frame.refl _ _
    | exact rfl
    | with_reducible apply Frame.ite
    | with_reducible apply Frame.app (k := modSwc_frame)
    | with_reducible apply Frame.app (k := ev_frame)
    | dsimp only
    | split
    | intro _

theorem fdbLearn_frame {a0 a1 a2 s3} : Frame [.swc, .evr] s3 (fdbLearn a0 a1 a2 s3) := by
  unfold fdbLearn
  repeat' first
    | with_reducible exact Frame.refl _ _
    | exact rfl
    | with_reducible apply Frame.ite
    | with_reducible apply Frame.app (k := modSwc_frame)
    | with_reducible apply Frame.app (k := learnFailed_frame)
    | dsimp only
    | split
    | intro _

theorem swcStomp_frame {a0 s1} : Frame [.mac, .swc, .evr, .out] s1 (swcStomp a0 s1) := by
  unfold swcStomp
  repeat' first
    | with_reducible exact Frame.refl _ _
    | exact rfl
    | with_reducible apply Frame.ite
    | with_reducible apply Frame.app (k := emit_frame)
    | with_reducible apply Frame.app (k := modSwcPort_frame)
    | with_reducible apply Frame.app (k := macCount_frame)
    | with_reducible apply Frame.app (k := ev_frame)
    | with_reducible apply Frame.trans (k := Frame.foldOver ?_ _ _)
    | with_reducible apply Frame.trans (k := Frame.foldOver_snd ?_ _ _)
    | dsimp only
    | split
    | intro _

theorem mirrorAdd_frame {a0 a1 a2 s3} : Frame [.swc] s3 (mirrorAdd a0 a1 a2 s3).2 := by
  unfold mirrorAdd
  repeat' first
    | with_reducible exact Frame.refl _ _
    | exact rfl
    | with_reducible apply Frame.ite_snd
    | with_reducible apply Frame.app (k := modSwc_frame)
    | with_reducible apply Frame.ite
    | dsimp only
    | split
    | intro _

theorem macTx_frame {a0 a1 a2 s3} : Frame [.mac, .out] s3 (macTx a0 a1 a2 s3) := by
  unfold macTx
  repeat' first
    | with_reducible exact Frame.refl _ _
    | exact rfl
    | with_reducible apply Frame.ite
    | with_reducible apply Frame.app (k := modMac_frame)
    | with_reducible apply Frame.app (k := emit_frame)
    | with_reducible apply Frame.app (k := macCount_frame)
    | dsimp only
    | split
    | intro _

theorem tcCorrect_frame {a0 a1 a2 a3 s4} : Frame [.tbs] s4 (tcCorrect a0 a1 a2 a3 s4).2 := by
  unfold tcCorrect
  repeat' first
    | with_reducible exact Frame.refl _ _
    | exact rfl
    | with_reducible apply Frame.ite_snd
    | with_reducible apply Frame.ite
    | simp (disch := decide) only [↓Frame.of_set_tbs]
    | split
    | intro _

theorem macSend_frame {a0 a1 a2 a3 s4} : Frame [.tbs, .mac, .out] s4 (macSend a0 a1 a2 a3 s4) := by
  unfold macSend
  repeat' first
    | with_reducible exact Frame.refl _ _
    | exact rfl
    | with_reducible apply Frame.ite
    | with_reducible apply Frame.app (k := tcCorrect_frame)
    | with_reducible apply Frame.app (k := macTx_frame)
    | dsimp only
    | split
    | with_reducible refine Frame.app ?_ (Frame.snd (by assumption) (tcCorrect_frame ..)) ?_
    | intro _

theorem modPair_frame {a0 a1 s2} : Frame [.red] s2 (modPair a0 a1 s2) := by
  unfold modPair
  repeat' first
    | with_reducible exact Frame.refl _ _
    | exact rfl
    | simp (disch := decide) only [↓Frame.of_set_red]
    | split
    | intro _

theorem pairSend_frame {a0 a1 a2 s3} : Frame [.tbs, .mac, .red, .out] s3 (pairSend a0 a1 a2 s3) := by
  unfold pairSend
  repeat' first
    | with_reducible exact Frame.refl _ _
    | exact rfl
    | with_reducible apply Frame.ite
    | with_reducible apply Frame.app (k := macSend_frame)
    | with_reducible apply Frame.app (k := modPair_frame)
    | dsimp only
    | split
    | intro _

theorem egress_frame {a0 a1 s2} : Frame [.tbs, .mac, .red, .swc, .vfm, .evr, .out] s2 (egress a0 a1 s2) := by
  unfold egress
  repeat' first
    | with_reducible exact Frame.refl _ _
    | exact rfl
    | with_reducible apply Frame.ite
    | with_reducible apply Frame.app (k := modSwcPort_frame)
    | with_reducible apply Frame.app (k := ptpLeave_frame)
    | with_reducible apply Frame.app (k := macTx_frame)
    | with_reducible apply Frame.app (k := pairSend_frame)
    | with_reducible apply Frame.app (k := emit_frame)
    | with_reducible apply Frame.app (k := frameToVfs_frame)
    | dsimp only
    | split
    | with_reducible refine Frame.app ?_ (Frame.snd (by assumption) (ptpLeave_frame ..)) ?_
    | intro _

theorem swcSend_frame {a0 a1 s2} : Frame [.tbs, .mac, .red, .swc, .vfm, .evr, .out] s2 (swcSend a0 a1 s2) := by
  unfold swcSend
  repeat' first
    | with_reducible exact Frame.refl _ _
    | exact rfl
    | with_reducible apply Frame.app (k := egress_frame)
    | with_reducible apply Frame.app (k := modSwc_frame)
    | dsimp only
    | split
    | intro _

theorem swcHold_frame {a0 a1 a2 s3} : Frame [.tbs, .mac, .red, .swc, .vfm, .evr, .out] s3 (swcHold a0 a1 a2 s3) := by
  unfold swcHold
  repeat' first
    | with_reducible exact Frame.refl _ _
    | exact rfl
    | with_reducible apply Frame.app (k := modSwc_frame)
    | with_reducible apply Frame.app (k := pauseChecks_frame)
    | with_reducible apply Frame.app (k := swcSend_frame)
    | with_reducible apply Frame.app (k := modSwcPort_frame)
    | with_reducible apply Frame.trans (k := Frame.foldOver ?_ _ _)
    | with_reducible apply Frame.trans (k := Frame.foldOver_snd ?_ _ _)
    | dsimp only
    | split
    | intro _

theorem swcIn_frame {a0 a1 a2 a3 a4 s5} : Frame [.tbs, .mac, .red, .swc, .vfm, .evr, .out] s5 (swcIn a0 a1 a2 a3 a4 s5) := by
  unfold swcIn
  repeat' first
    | with_reducible exact Frame.refl _ _
    | exact rfl
    | with_reducible apply Frame.ite
    | with_reducible apply Frame.app (k := swcSettle_frame)
    | with_reducible apply Frame.app (k := swcInDrop_frame)
    | with_reducible apply Frame.app (k := modSwc_frame)
    | with_reducible apply Frame.app (k := fdbLearn_frame)
    | with_reducible apply Frame.app (k := swcStomp_frame)
    | with_reducible apply Frame.app (k := mirrorAdd_frame)
    | with_reducible apply Frame.app (k := swcHold_frame)
    | with_reducible apply Frame.trans (k := Frame.foldOver ?_ _ _)
    | with_reducible apply Frame.trans (k := Frame.foldOver_snd ?_ _ _)
    | dsimp only
    | split
    | with_reducible refine Frame.app ?_ (Frame.snd (by assumption) (mirrorAdd_frame ..)) ?_
    | intro _

theorem svcFrame_frame {a0 a1 a2 a3 a4 s5} : Frame [.tbs, .mac, .red, .swc, .vfm, .evr, .out] s5 (svcFrame a0 a1 a2 a3 a4 s5) := by
  unfold svcFrame
  repeat' first
    | with_reducible exact Frame.refl _ _
    | exact rfl
    | with_reducible apply Frame.app (k := swcIn_frame)
    | dsimp only
    | split
    | intro _

theorem swcOwn_frame {a0 a1 a2 s3} : Frame [.tbs, .mac, .red, .swc, .vfm, .evr, .out] s3 (swcOwn a0 a1 a2 s3) := by
  unfold swcOwn
  repeat' first
    | with_reducible exact Frame.refl _ _
    | exact rfl
    | with_reducible apply Frame.ite
    | with_reducible apply Frame.app (k := swcSettle_frame)
    | with_reducible apply Frame.app (k := swcInDrop_frame)
    | with_reducible apply Frame.app (k := mirrorAdd_frame)
    | with_reducible apply Frame.app (k := swcHold_frame)
    | dsimp only
    | split
    | with_reducible refine Frame.app ?_ (Frame.snd (by assumption) (mirrorAdd_frame ..)) ?_
    | intro _

theorem schedule_frame {s o c i u} (h : schedule s o = some (c, i, u)) : Frame [.swc] s u := by
  unfold schedule at h
  dsimp only at h
  split at h
  · simp only [Option.map_eq_some_iff, Prod.mk.injEq] at h
    obtain ⟨_, _, _, _, rfl⟩ := h
    exact .refl _ _
  · split at h
    · cases h
    · split at h
      · simp only [Option.map_eq_some_iff, Prod.mk.injEq] at h
        obtain ⟨_, _, _, _, rfl⟩ := h
        exact modSwcPort_frame
      · cases h

theorem swcTransmit_frame {o s} : Frame [.tbs, .mac, .red, .swc, .vfm, .evr, .out] s (swcTransmit o s) := by
  have h0 : Frame [.tbs, .mac, .red, .swc, .vfm, .evr, .out] s (swcSettle s) := swcSettle_frame.mono rfl
  unfold swcTransmit
  dsimp only
  split
  · exact h0
  · split
    · exact h0
    · rename_i h
      have hs := h0.app (schedule_frame h) rfl
      split
      · exact hs
      · exact ((hs.app modSwc_frame rfl).app modSwcPort_frame rfl).app swcSend_frame rfl

theorem swcStart_frame {s0} : Frame [.swc] s0 (swcStart s0) := by
  unfold swcStart
  repeat' first
    | with_reducible exact Frame.refl _ _
    | exact rfl
    | with_reducible apply Frame.app (k := modSwc_frame)
    | dsimp only
    | split
    | intro _

theorem udpOut_frame {s0} : Frame [.tbs, .mac, .red, .swc, .vfm, .cmd, .evr, .out] s0 (udpOut s0) := by
  unfold udpOut
  repeat' first
    | with_reducible exact Frame.refl _ _
    | exact rfl
    | with_reducible apply Frame.app (k := svcFrame_frame)
    | with_reducible apply Frame.trans (k := Frame.foldOver ?_ _ _)
    | with_reducible apply Frame.trans (k := Frame.foldOver_snd ?_ _ _)
    | simp (disch := decide) only [↓Frame.of_set_cmd]
    | split
    | intro _

theorem swcFlush_frame {a0 s1} : Frame [.mac, .swc, .evr, .out] s1 (swcFlush a0 s1) := by
  unfold swcFlush
  repeat' first
    | with_reducible exact Frame.refl _ _
    | exact rfl
    | with_reducible apply Frame.ite
    | with_reducible apply Frame.app (k := pauseChecks_frame)
    | with_reducible apply Frame.app (k := modSwc_frame)
    | with_reducible apply Frame.app (k := ev_frame)
    | with_reducible apply Frame.app (k := modSwcPort_frame)
    | dsimp only
    | split
    | intro _

end Sys2Proof.Machine
end

