-- ==== Sys2Proof/Laws/Frames/Publish.lean ====
section
/-! SUPPORT. What each operation of Machine/Publish.lean may change. -/

namespace Sys2Proof.Machine

theorem modSve_frame {a0 s1} : Frame [.sve] s1 (modSve a0 s1) := by
  unfold modSve
  repeat' first
    | with_reducible exact Frame.refl _ _
    | exact rfl
    | simp (disch := decide) only [↓Frame.of_set_sve]
    | split
    | intro _

theorem gooseSend_frame {a0 s1} : Frame [.sve, .tbs, .mac, .red, .swc, .vfm, .evr, .out] s1 (gooseSend a0 s1) := by
  unfold gooseSend
  repeat' first
    | with_reducible exact Frame.refl _ _
    | exact rfl
    | with_reducible apply Frame.app (k := modSve_frame)
    | with_reducible apply Frame.app (k := swcIn_frame)
    | dsimp only
    | split
    | intro _

theorem gooseChange_frame {a0 s1} : Frame [.sve, .tbs, .mac, .red, .swc, .vfm, .evr, .out] s1 (gooseChange a0 s1) := by
  unfold gooseChange
  repeat' first
    | with_reducible exact Frame.refl _ _
    | exact rfl
    | with_reducible apply Frame.app (k := gooseSend_frame)
    | with_reducible apply Frame.app (k := modSve_frame)
    | dsimp only
    | split
    | intro _

theorem gooseCheck_frame {s0} : Frame [.sve, .tbs, .mac, .red, .swc, .vfm, .evr, .out] s0 (gooseCheck s0) := by
  unfold gooseCheck
  repeat' first
    | with_reducible exact Frame.refl _ _
    | exact rfl
    | with_reducible apply Frame.ite
    | with_reducible apply Frame.app (k := modSve_frame)
    | with_reducible apply Frame.app (k := gooseChange_frame)
    | with_reducible apply Frame.trans (k := Frame.foldOver ?_ _ _)
    | with_reducible apply Frame.trans (k := Frame.foldOver_snd ?_ _ _)
    | dsimp only
    | split
    | intro _

theorem svSend_frame {a0 s1} : Frame [.sve, .tbs, .mac, .red, .swc, .vfm, .evr, .out] s1 (svSend a0 s1) := by
  unfold svSend
  repeat' first
    | with_reducible exact Frame.refl _ _
    | exact rfl
    | with_reducible apply Frame.app (k := modSve_frame)
    | with_reducible apply Frame.app (k := swcIn_frame)
    | dsimp only
    | split
    | intro _

end Sys2Proof.Machine
end

