-- ==== Sys2Proof/Laws/Frames/Store.lean ====
section
/-! SUPPORT. What each operation of Machine/Store.lean may change. -/

namespace Sys2Proof.Machine

theorem countMiss_frame {a0 s1} : Frame [.sve] s1 (countMiss a0 s1) := by
  unfold countMiss
  repeat' first
    | with_reducible exact Frame.refl _ _
    | exact rfl
    | with_reducible apply Frame.app (k := modSve_frame)
    | dsimp only
    | split
    | intro _

theorem modCh_frame {a0 a1 s2} : Frame [.sve] s2 (modCh a0 a1 s2) := by
  unfold modCh
  repeat' first
    | with_reducible exact Frame.refl _ _
    | exact rfl
    | with_reducible apply Frame.app (k := modSve_frame)
    | dsimp only
    | split
    | intro _

theorem pubAdvance_frame {a0 a1 s2} : Frame [.sve, .tbs, .mac, .red, .swc, .vfm, .evr, .out] s2 (pubAdvance a0 a1 s2) := by
  unfold pubAdvance
  repeat' first
    | with_reducible exact Frame.refl _ _
    | exact rfl
    | with_reducible apply Frame.ite
    | with_reducible apply Frame.app (k := modSve_frame)
    | with_reducible apply Frame.app (k := svSend_frame)
    | with_reducible apply Frame.trans (k := Frame.foldOver ?_ _ _)
    | with_reducible apply Frame.trans (k := Frame.foldOver_snd ?_ _ _)
    | dsimp only
    | split
    | intro _

theorem blockForm_frame {a0 a1 a2 a3 s4} : Frame [.vfm, .evr] s4 (blockForm a0 a1 a2 a3 s4) := by
  unfold blockForm
  repeat' first
    | with_reducible exact Frame.refl _ _
    | exact rfl
    | with_reducible apply Frame.ite
    | with_reducible apply Frame.app (k := modVf_frame)
    | with_reducible apply Frame.app (k := admitBulk_frame)
    | dsimp only
    | split
    | intro _

theorem blocksForm_frame {a0 a1 s2} : Frame [.vfm, .evr] s2 (blocksForm a0 a1 s2) := by
  unfold blocksForm
  repeat' first
    | with_reducible exact Frame.refl _ _
    | exact rfl
    | with_reducible apply Frame.app (k := blockForm_frame)
    | with_reducible apply Frame.trans (k := Frame.foldOver ?_ _ _)
    | with_reducible apply Frame.trans (k := Frame.foldOver_snd ?_ _ _)
    | dsimp only
    | split
    | intro _

theorem finalise_frame {a0 a1 s2} : Frame [.trg, .sve, .tbs, .mac, .red, .swc, .vfm, .evr, .out] s2 (finalise a0 a1 s2) := by
  unfold finalise
  repeat' first
    | with_reducible exact Frame.refl _ _
    | exact rfl
    | with_reducible apply Frame.ite
    | with_reducible apply Frame.app (k := modCh_frame)
    | with_reducible apply Frame.app (k := ringPush_frame)
    | with_reducible apply Frame.app (k := pubAdvance_frame)
    | with_reducible apply Frame.app (k := blocksForm_frame)
    | dsimp only
    | split
    | intro _

theorem substitute_frame {a0 a1 s2} : Frame [.trg, .sve, .tbs, .mac, .red, .swc, .vfm, .evr, .out] s2 (substitute a0 a1 s2) := by
  unfold substitute
  repeat' first
    | with_reducible exact Frame.refl _ _
    | exact rfl
    | with_reducible apply Frame.ite
    | with_reducible apply Frame.app (k := countMiss_frame)
    | with_reducible apply Frame.app (k := ev_frame)
    | with_reducible apply Frame.app (k := finalise_frame)
    | dsimp only
    | split
    | intro _

theorem rebase_frame {a0 a1 a2 s3} : Frame [.sve] s3 (rebase a0 a1 a2 s3) := by
  unfold rebase
  repeat' first
    | with_reducible exact Frame.refl _ _
    | exact rfl
    | with_reducible apply Frame.app (k := modSve_frame)
    | with_reducible apply Frame.trans (k := Frame.foldOver ?_ _ _)
    | with_reducible apply Frame.trans (k := Frame.foldOver_snd ?_ _ _)
    | dsimp only
    | split
    | intro _

theorem writeSlot_frame {a0 a1 a2 a3 s4} : Frame [.trg, .sve, .tbs, .mac, .red, .swc, .vfm, .evr, .out] s4 (writeSlot a0 a1 a2 a3 s4) := by
  unfold writeSlot
  repeat' first
    | with_reducible exact Frame.refl _ _
    | exact rfl
    | with_reducible apply Frame.app (k := finalise_frame)
    | dsimp only
    | split
    | intro _

theorem storeEmpty_frame {s0} : Frame [.sve] s0 (storeEmpty s0) := by
  unfold storeEmpty
  repeat' first
    | with_reducible exact Frame.refl _ _
    | exact rfl
    | with_reducible apply Frame.app (k := modSve_frame)
    | dsimp only
    | split
    | intro _

theorem emptyCh_frame {a0 a1 a2 s3} : Frame [.trg, .sve] s3 (emptyCh a0 a1 a2 s3) := by
  unfold emptyCh
  repeat' first
    | with_reducible exact Frame.refl _ _
    | exact rfl
    | with_reducible apply Frame.app (k := ringDrop_frame)
    | with_reducible apply Frame.app (k := modSve_frame)
    | dsimp only
    | split
    | intro _

theorem execSlotDeadline_frame {a0 a1 a2 s3} : Frames [.trg, .sve, .tbs, .mac, .red, .swc, .vfm, .evr, .now, .out] s3 (execSlotDeadline a0 a1 a2 s3) := by
  unfold execSlotDeadline
  repeat' first
    | with_reducible exact Frame.refl _ _
    | exact rfl
    | with_reducible apply Frames.ite
    | with_reducible apply Frame.app (k := atTime_frame)
    | with_reducible apply Frame.app (k := substitute_frame)
    | with_reducible apply Frames.next
    | dsimp only
    | split
    | intro _

theorem keepDeadlines_frame {a0 a1 s2} : Frame [.sve] s2 (keepDeadlines a0 a1 s2) := by
  unfold keepDeadlines
  repeat' first
    | with_reducible exact Frame.refl _ _
    | exact rfl
    | with_reducible apply Frame.ite
    | with_reducible apply Frame.app (k := modCh_frame)
    | with_reducible apply Frame.trans (k := Frame.foldOver ?_ _ _)
    | with_reducible apply Frame.trans (k := Frame.foldOver_snd ?_ _ _)
    | dsimp only
    | split
    | intro _

theorem svLate_frame {s0} : Frame [.sve, .evr] s0 (svLate s0) := by
  unfold svLate
  repeat' first
    | with_reducible exact Frame.refl _ _
    | exact rfl
    | with_reducible apply Frame.app (k := modSve_frame)
    | with_reducible apply Frame.app (k := ev_frame)
    | dsimp only
    | split
    | intro _

end Sys2Proof.Machine
end

