-- ==== Sys2Proof/Laws/Frames/Filter.lean ====
section
/-! SUPPORT. What each operation of Machine/Filter.lean may change. -/

namespace Sys2Proof.Machine

theorem cfgErrEvent_frame {a0 s1} : Frame [.evr] s1 (cfgErrEvent a0 s1) := by
  unfold cfgErrEvent
  repeat' first
    | with_reducible exact Frame.refl _ _
    | exact rfl
    | with_reducible apply Frame.ite
    | with_reducible apply Frame.app (k := ev_frame)
    | dsimp only
    | split
    | intro _

theorem modFlt_frame {a0 a1 s2} : Frame [.flt] s2 (modFlt a0 a1 s2) := by
  unfold modFlt
  repeat' first
    | with_reducible exact Frame.refl _ _
    | exact rfl
    | simp (disch := decide) only [↓Frame.of_set_flt]
    | split
    | intro _

theorem claimProgram_frame {a0 s1} : Frame [.flt, .evr] s1 (claimProgram a0 s1) := by
  unfold claimProgram
  repeat' first
    | with_reducible exact Frame.refl _ _
    | exact rfl
    | with_reducible apply Frame.ite
    | with_reducible apply Frame.app (k := cfgErrEvent_frame)
    | with_reducible apply Frame.app (k := modFlt_frame)
    | dsimp only
    | split
    | intro _

theorem modAcqCh_frame {a0 a1 s2} : Frame [.acq] s2 (modAcqCh a0 a1 s2) := by
  unfold modAcqCh
  repeat' first
    | with_reducible exact Frame.refl _ _
    | exact rfl
    | simp (disch := decide) only [↓Frame.of_set_acq]
    | split
    | intro _

theorem resync_frame {a0 a1 s2} : Frame [.acq, .evr] s2 (resync a0 a1 s2) := by
  unfold resync
  repeat' first
    | with_reducible exact Frame.refl _ _
    | exact rfl
    | with_reducible apply Frame.ite
    | with_reducible apply Frame.app (k := ev_frame)
    | with_reducible apply Frame.app (k := modAcqCh_frame)
    | with_reducible apply Frame.trans (k := Frame.foldOver ?_ _ _)
    | with_reducible apply Frame.trans (k := Frame.foldOver_snd ?_ _ _)
    | dsimp only
    | split
    | intro _

theorem applyChain_frame {a0 s1} : Frame [.acq, .flt, .evr] s1 (applyChain a0 s1) := by
  unfold applyChain
  repeat' first
    | with_reducible exact Frame.refl _ _
    | exact rfl
    | with_reducible apply Frame.ite
    | with_reducible apply Frame.app (k := claimProgram_frame)
    | with_reducible apply Frame.app (k := modFlt_frame)
    | with_reducible apply Frame.app (k := ev_frame)
    | with_reducible apply Frame.app (k := resync_frame)
    | with_reducible apply Frame.app (k := modAcqCh_frame)
    | dsimp only
    | split
    | intro _

theorem setScale_frame {a0 a1 a2 s3} : Frame [.flt] s3 (setScale a0 a1 a2 s3) := by
  unfold setScale
  repeat' first
    | with_reducible exact Frame.refl _ _
    | exact rfl
    | with_reducible apply Frame.ite
    | with_reducible apply Frame.app (k := modFlt_frame)
    | dsimp only
    | split
    | intro _

theorem flashEvent_frame {a0 a1 a2 a3 s4} : Frame [.flt, .evr] s4 (flashEvent a0 a1 a2 a3 s4) := by
  unfold flashEvent
  repeat' first
    | with_reducible exact Frame.refl _ _
    | exact rfl
    | with_reducible apply Frame.ite
    | with_reducible apply Frame.app (k := modFlt_frame)
    | with_reducible apply Frame.app (k := ev_frame)
    | dsimp only
    | split
    | intro _

theorem flashAct_frame {a0 a1 a2 a3 s4} : Frame [.flt, .trg, .evr] s4 (flashAct a0 a1 a2 a3 s4) := by
  unfold flashAct
  repeat' first
    | with_reducible exact Frame.refl _ _
    | exact rfl
    | with_reducible apply Frame.app (k := modFlt_frame)
    | with_reducible apply Frame.app (k := srcEdge_frame)
    | with_reducible apply Frame.app (k := flashEvent_frame)
    | dsimp only
    | split
    | intro _

theorem flashDrop_frame {a0 a1 s2} : Frame [.flt, .trg, .evr] s2 (flashDrop a0 a1 s2).2 := by
  unfold flashDrop
  repeat' first
    | with_reducible exact Frame.refl _ _
    | exact rfl
    | with_reducible apply Frame.ite_snd
    | with_reducible apply Frame.app (k := flashAct_frame)
    | with_reducible apply Frame.app (k := modFlt_frame)
    | with_reducible apply Frame.ite
    | dsimp only
    | split
    | intro _

theorem flashStep_frame {a0 a1 s2} : Frame [.flt, .trg, .evr] s2 (flashStep a0 a1 s2).2 := by
  unfold flashStep
  repeat' first
    | with_reducible exact Frame.refl _ _
    | exact rfl
    | with_reducible apply Frame.app (k := flashAct_frame)
    | with_reducible apply Frame.app (k := modFlt_frame)
    | dsimp only
    | split
    | intro _

theorem execFlashSuppressSummary_frame {a0 a1 a2 s3} : Frames [.flt, .evr, .now, .out] s3 (execFlashSuppressSummary a0 a1 a2 s3) := by
  unfold execFlashSuppressSummary
  repeat' first
    | with_reducible exact Frame.refl _ _
    | exact rfl
    | with_reducible apply Frames.ite
    | with_reducible apply Frame.app (k := atTime_frame)
    | with_reducible apply Frame.app (k := ev_frame)
    | with_reducible apply Frame.app (k := modFlt_frame)
    | with_reducible apply Frames.next
    | dsimp only
    | split
    | intro _

theorem setFltCtl_frame {a0 a1 s2} : Frame [.flt, .evr] s2 (setFltCtl a0 a1 s2) := by
  unfold setFltCtl
  repeat' first
    | with_reducible exact Frame.refl _ _
    | exact rfl
    | with_reducible apply Frame.ite
    | with_reducible apply Frame.app (k := modFlt_frame)
    | with_reducible apply Frame.app (k := ev_frame)
    | with_reducible apply Frame.app (k := cfgErrEvent_frame)
    | dsimp only
    | split
    | intro _

theorem fltApply_frame {a0 s1} : Frame [.flt, .evr] s1 (fltApply a0 s1) := by
  unfold fltApply
  repeat' first
    | with_reducible exact Frame.refl _ _
    | exact rfl
    | with_reducible apply Frame.ite
    | with_reducible apply Frame.app (k := modFlt_frame)
    | with_reducible apply Frame.app (k := setFltCtl_frame)
    | with_reducible apply Frame.app (k := cfgErrEvent_frame)
    | with_reducible apply Frame.app (k := claimProgram_frame)
    | dsimp only
    | split
    | intro _

theorem claimEnd_frame {a0 s1} : Frame [.flt] s1 (claimEnd a0 s1) := by
  unfold claimEnd
  repeat' first
    | with_reducible exact Frame.refl _ _
    | exact rfl
    | with_reducible apply Frame.ite
    | with_reducible apply Frame.app (k := modFlt_frame)
    | dsimp only
    | split
    | intro _

theorem fltCtlWrite_frame {a0 a1 a2 s3} : Frame [.sys, .flt, .cmd, .evr] s3 (fltCtlWrite a0 a1 a2 s3) := by
  unfold fltCtlWrite
  repeat' first
    | with_reducible exact Frame.refl _ _
    | exact rfl
    | with_reducible apply Frame.ite
    | with_reducible apply Frame.app (k := setDirty_frame)
    | with_reducible apply Frame.app (k := setFltCtl_frame)
    | with_reducible apply Frame.app (k := busViolate_frame)
    | dsimp only
    | split
    | intro _

theorem execFltDcbFreezeWrite_frame {a0 a1 a2 a3 s4} : Frames [.sys, .flt, .cmd, .evr, .now, .out] s4 (execFltDcbFreezeWrite a0 a1 a2 a3 s4) := by
  unfold execFltDcbFreezeWrite
  repeat' first
    | with_reducible exact Frame.refl _ _
    | exact rfl
    | with_reducible apply Frames.ite
    | with_reducible apply Frame.app (k := atTime_frame)
    | with_reducible apply Frame.app (k := fltCtlWrite_frame)
    | with_reducible apply Frames.next
    | dsimp only
    | split
    | intro _

theorem chainsRestart_frame {s0} : Frame [.flt] s0 (chainsRestart s0) := by
  unfold chainsRestart
  repeat' first
    | with_reducible exact Frame.refl _ _
    | exact rfl
    | simp (disch := decide) only [↓Frame.of_set_flt]
    | split
    | intro _

theorem execFltGetDelay_frame {a0 a1 a2 s3} : Frames [.mbx, .cmd, .evr, .now, .out] s3 (execFltGetDelay a0 a1 a2 s3) := by
  unfold execFltGetDelay
  repeat' first
    | with_reducible exact Frame.refl _ _
    | exact rfl
    | with_reducible apply Frame.app (k := atTime_frame)
    | with_reducible apply Frame.trans (k := runCmd_frame ?_ ?_)
    | with_reducible apply Frame.trans (k := checked_frame ?_ ?_)
    | with_reducible apply Frame.app (k := reply_frame)
    | with_reducible apply Frames.next
    | dsimp only
    | split
    | intro _

theorem chainToStore_frame {a0 a1 s2} : Frame [.trg, .sve, .tbs, .mac, .red, .swc, .vfm, .evr, .out] s2 (chainToStore a0 a1 s2) := by
  unfold chainToStore
  repeat' first
    | with_reducible exact Frame.refl _ _
    | exact rfl
    | with_reducible apply Frame.ite
    | with_reducible apply Frame.app (k := emptyCh_frame)
    | with_reducible apply Frame.app (k := svLate_frame)
    | with_reducible apply Frame.app (k := writeSlot_frame)
    | dsimp only
    | split
    | intro _

theorem chainStrobe_frame {a0 a1 a2 a3 s4} : Frame [.acq, .flt, .trg, .sve, .tbs, .mac, .red, .swc, .vfm, .evr, .out] s4 (chainStrobe a0 a1 a2 a3 s4).2 := by
  unfold chainStrobe
  repeat' first
    | with_reducible exact Frame.refl _ _
    | exact rfl
    | with_reducible apply Frame.ite_snd
    | with_reducible apply Frame.app (k := applyChain_frame)
    | with_reducible apply Frame.app (k := flashDrop_frame)
    | with_reducible apply Frame.app (k := modFlt_frame)
    | with_reducible apply Frame.app (k := flashStep_frame)
    | with_reducible apply Frame.app (k := chainToStore_frame)
    | with_reducible apply Frame.ite
    | dsimp only
    | split
    | with_reducible refine Frame.app ?_ (Frame.snd (by assumption) (flashDrop_frame ..)) ?_
    | with_reducible refine Frame.app ?_ (Frame.snd (by assumption) (flashStep_frame ..)) ?_
    | intro _

theorem claimsOfZone_frame {a0 s1} : Frame [.flt, .evr] s1 (claimsOfZone a0 s1) := by
  unfold claimsOfZone
  repeat' first
    | with_reducible exact Frame.refl _ _
    | exact rfl
    | with_reducible apply Frame.ite
    | with_reducible apply Frame.app (k := claimProgram_frame)
    | with_reducible apply Frame.trans (k := Frame.foldOver ?_ _ _)
    | with_reducible apply Frame.trans (k := Frame.foldOver_snd ?_ _ _)
    | dsimp only
    | split
    | intro _

theorem claimsAll_frame {s0} : Frame [.flt, .evr] s0 (claimsAll s0) := by
  unfold claimsAll
  repeat' first
    | with_reducible exact Frame.refl _ _
    | exact rfl
    | with_reducible apply Frame.ite
    | with_reducible apply Frame.app (k := claimProgram_frame)
    | with_reducible apply Frame.trans (k := Frame.foldOver ?_ _ _)
    | with_reducible apply Frame.trans (k := Frame.foldOver_snd ?_ _ _)
    | dsimp only
    | split
    | intro _

theorem execFltDetClr_frame {a0 a1 a2 a3 s4} : Frames [.sys, .flt, .evr, .now, .out] s4 (execFltDetClr a0 a1 a2 a3 s4) := by
  unfold execFltDetClr
  repeat' first
    | with_reducible exact Frame.refl _ _
    | exact rfl
    | with_reducible apply Frames.ite
    | with_reducible apply Frame.app (k := atTime_frame)
    | with_reducible apply Frame.trans (k := regWrite_frame ?_ ?_)
    | with_reducible apply Frame.app (k := modFlt_frame)
    | with_reducible apply Frames.next
    | dsimp only
    | split
    | intro _

theorem execFltScaleEofsWrite_frame {a0 a1 a2 a3 a4 s5} : Frames [.sys, .flt, .cmd, .evr, .now, .out] s5 (execFltScaleEofsWrite a0 a1 a2 a3 a4 s5) := by
  unfold execFltScaleEofsWrite
  repeat' first
    | with_reducible exact Frame.refl _ _
    | exact rfl
    | with_reducible apply Frames.ite
    | with_reducible apply Frame.app (k := atTime_frame)
    | with_reducible apply Frame.trans (k := cfgWrite_frame ?_ ?_)
    | with_reducible apply Frame.app (k := setScale_frame)
    | with_reducible apply Frames.next
    | dsimp only
    | split
    | intro _

end Sys2Proof.Machine
end

