-- ==== Sys2Proof/Laws/Frames/Trip.lean ====
section
/-! SUPPORT. What each operation of Machine/Trip.lean may change. -/

namespace Sys2Proof.Machine

theorem modTrp_frame {a0 s1} : Frame [.trp] s1 (modTrp a0 s1) := by
  unfold modTrp
  repeat' first
    | with_reducible exact Frame.refl _ _
    | exact rfl
    | simp (disch := decide) only [↓Frame.of_set_trp]
    | split
    | intro _

theorem latchEdges_frame {s0} : Frame [.cyc] s0 (latchEdges s0) := by
  unfold latchEdges
  repeat' first
    | with_reducible exact Frame.refl _ _
    | exact rfl
    | with_reducible apply Frame.ite
    | with_reducible apply Frame.trans (k := Frame.foldl ?_ _ _)
    | simp (disch := decide) only [↓Frame.of_set_cyc]
    | split
    | intro _

theorem modRow_frame {a0 a1 s2} : Frame [.trp] s2 (modRow a0 a1 s2) := by
  unfold modRow
  repeat' first
    | with_reducible exact Frame.refl _ _
    | exact rfl
    | with_reducible apply Frame.app (k := modTrp_frame)
    | dsimp only
    | split
    | intro _

theorem takeInput_frame {a0 a1 s2} : Frame [.trp] s2 (takeInput a0 a1 s2) := by
  unfold takeInput
  repeat' first
    | with_reducible exact Frame.refl _ _
    | exact rfl
    | with_reducible apply Frame.ite
    | with_reducible apply Frame.app (k := modRow_frame)
    | dsimp only
    | split
    | intro _

theorem setPin_frame {a0 a1 s2} : Frame [.trg, .trp] s2 (setPin a0 a1 s2) := by
  unfold setPin
  repeat' first
    | with_reducible exact Frame.refl _ _
    | exact rfl
    | with_reducible apply Frame.ite
    | with_reducible apply Frame.app (k := modTrp_frame)
    | with_reducible apply Frame.app (k := srcEdge_frame)
    | dsimp only
    | split
    | intro _

theorem acceptRow_frame {a0 a1 s2} : Frame [.trg, .trp, .evr] s2 (acceptRow a0 a1 s2) := by
  unfold acceptRow
  repeat' first
    | with_reducible exact Frame.refl _ _
    | exact rfl
    | with_reducible apply Frame.app (k := modRow_frame)
    | with_reducible apply Frame.app (k := setPin_frame)
    | with_reducible apply Frame.app (k := ev_frame)
    | dsimp only
    | split
    | intro _

theorem evalRow_frame {a0 a1 s2} : Frame [.trg, .trp, .evr] s2 (evalRow a0 a1 s2) := by
  unfold evalRow
  repeat' first
    | with_reducible exact Frame.refl _ _
    | exact rfl
    | with_reducible apply Frame.ite
    | with_reducible apply Frame.app (k := takeInput_frame)
    | with_reducible apply Frame.app (k := acceptRow_frame)
    | dsimp only
    | split
    | intro _

theorem releaseRow_frame {a0 s1} : Frame [.trg, .trp, .evr] s1 (releaseRow a0 s1) := by
  unfold releaseRow
  repeat' first
    | with_reducible exact Frame.refl _ _
    | exact rfl
    | with_reducible apply Frame.app (k := setPin_frame)
    | with_reducible apply Frame.app (k := ev_frame)
    | with_reducible apply Frame.app (k := modRow_frame)
    | dsimp only
    | split
    | intro _

theorem fenceRow_frame {a0 s1} : Frame [.trg, .trp, .evr] s1 (fenceRow a0 s1) := by
  unfold fenceRow
  repeat' first
    | with_reducible exact Frame.refl _ _
    | exact rfl
    | with_reducible apply Frame.ite
    | with_reducible apply Frame.app (k := releaseRow_frame)
    | with_reducible apply Frame.app (k := ev_frame)
    | with_reducible apply Frame.app (k := modTrp_frame)
    | dsimp only
    | split
    | intro _

theorem sampleRow_frame {a0 s1} : Frame [.trp] s1 (sampleRow a0 s1) := by
  unfold sampleRow
  repeat' first
    | with_reducible exact Frame.refl _ _
    | exact rfl
    | with_reducible apply Frame.app (k := takeInput_frame)
    | dsimp only
    | split
    | intro _

theorem matrixDecide_frame {a0 s1} : Frame [.trg, .trp, .evr] s1 (matrixDecide a0 s1) := by
  unfold matrixDecide
  repeat' first
    | with_reducible exact Frame.refl _ _
    | exact rfl
    | with_reducible apply Frame.app (k := evalRow_frame)
    | with_reducible apply Frame.app (k := fenceRow_frame)
    | with_reducible apply Frame.app (k := sampleRow_frame)
    | with_reducible apply Frame.trans (k := Frame.foldOver ?_ _ _)
    | with_reducible apply Frame.trans (k := Frame.foldOver_snd ?_ _ _)
    | dsimp only
    | split
    | intro _

theorem settleWith_frame {a0 s1} : Frame [.trg, .sve, .trp, .cyc, .tbs, .mac, .red, .swc, .vfm, .evr, .out] s1 (settleWith a0 s1) := by
  unfold settleWith
  repeat' first
    | with_reducible exact Frame.refl _ _
    | exact rfl
    | with_reducible apply Frame.app (k := gooseCheck_frame)
    | with_reducible apply Frame.app (k := latchEdges_frame)
    | with_reducible apply Frame.app (k := matrixDecide_frame)
    | dsimp only
    | split
    | intro _

theorem settle_frame {s0} : Frame [.trg, .sve, .trp, .cyc, .tbs, .mac, .red, .swc, .vfm, .evr, .out] s0 (settle s0) := by
  unfold settle
  repeat' first
    | with_reducible exact Frame.refl _ _
    | exact rfl
    | with_reducible apply Frame.app (k := settleWith_frame)
    | dsimp only
    | split
    | intro _

theorem execToMismatchClear_frame {a0 a1 s2} : Frames [.trg, .sve, .trp, .cyc, .tbs, .mac, .red, .swc, .vfm, .evr, .now, .out] s2 (execToMismatchClear a0 a1 s2) := by
  unfold execToMismatchClear
  repeat' first
    | with_reducible exact Frame.refl _ _
    | exact rfl
    | with_reducible apply Frames.ite
    | with_reducible apply Frame.app (k := atTime_frame)
    | with_reducible apply Frame.app (k := settle_frame)
    | with_reducible apply Frame.app (k := modTrp_frame)
    | with_reducible apply Frames.next
    | dsimp only
    | split
    | intro _

theorem execToFeedbackMismatch_frame {a0 a1 s2} : Frames [.trg, .sve, .trp, .cyc, .tbs, .mac, .red, .swc, .vfm, .evr, .now, .out] s2 (execToFeedbackMismatch a0 a1 s2) := by
  unfold execToFeedbackMismatch
  repeat' first
    | with_reducible exact Frame.refl _ _
    | exact rfl
    | with_reducible apply Frames.ite
    | with_reducible apply Frame.app (k := atTime_frame)
    | with_reducible apply Frame.app (k := modTrp_frame)
    | with_reducible apply Frame.app (k := settle_frame)
    | with_reducible apply Frame.app (k := ev_frame)
    | with_reducible apply Frames.next
    | dsimp only
    | split
    | intro _

theorem cancelCloses_frame {s0} : Frame [.trg, .trp, .evr] s0 (cancelCloses s0) := by
  unfold cancelCloses
  repeat' first
    | with_reducible exact Frame.refl _ _
    | exact rfl
    | with_reducible apply Frame.ite
    | with_reducible apply Frame.app (k := releaseRow_frame)
    | with_reducible apply Frame.trans (k := Frame.foldOver ?_ _ _)
    | with_reducible apply Frame.trans (k := Frame.foldOver_snd ?_ _ _)
    | dsimp only
    | split
    | intro _

theorem modBi_frame {a0 a1 s2} : Frame [.trp] s2 (modBi a0 a1 s2) := by
  unfold modBi
  repeat' first
    | with_reducible exact Frame.refl _ _
    | exact rfl
    | with_reducible apply Frame.app (k := modTrp_frame)
    | dsimp only
    | split
    | intro _

theorem biChange_frame {a0 a1 a2 s3} : Frame [.trg, .sve, .trp, .cyc, .tbs, .mac, .red, .swc, .vfm, .evr, .out] s3 (biChange a0 a1 a2 s3) := by
  unfold biChange
  repeat' first
    | with_reducible exact Frame.refl _ _
    | exact rfl
    | with_reducible apply Frame.ite
    | with_reducible apply Frame.app (k := modBi_frame)
    | with_reducible apply Frame.app (k := ev_frame)
    | with_reducible apply Frame.app (k := settle_frame)
    | with_reducible apply Frame.app (k := srcEdge_frame)
    | dsimp only
    | split
    | intro _

theorem execBiDebouncedChange_frame {a0 a1 a2 s3} : Frames [.trg, .sve, .trp, .cyc, .tbs, .mac, .red, .swc, .vfm, .evr, .now, .out] s3 (execBiDebouncedChange a0 a1 a2 s3) := by
  unfold execBiDebouncedChange
  repeat' first
    | with_reducible exact Frame.refl _ _
    | exact rfl
    | with_reducible apply Frames.ite
    | with_reducible apply Frame.app (k := atTime_frame)
    | with_reducible apply Frame.app (k := modBi_frame)
    | with_reducible apply Frame.app (k := biChange_frame)
    | with_reducible apply Frames.next
    | dsimp only
    | split
    | intro _

theorem execBiChatterRecover_frame {a0 a1 s2} : Frames [.trg, .sve, .trp, .cyc, .tbs, .mac, .red, .swc, .vfm, .evr, .now, .out] s2 (execBiChatterRecover a0 a1 s2) := by
  unfold execBiChatterRecover
  repeat' first
    | with_reducible exact Frame.refl _ _
    | exact rfl
    | with_reducible apply Frames.ite
    | with_reducible apply Frame.app (k := atTime_frame)
    | with_reducible apply Frame.app (k := ev_frame)
    | with_reducible apply Frame.app (k := modBi_frame)
    | with_reducible apply Frame.app (k := biChange_frame)
    | with_reducible apply Frames.next
    | dsimp only
    | split
    | intro _

end Sys2Proof.Machine
end

