-- ==== Sys2Proof/Laws/Frames/Acq.lean ====
section
/-! SUPPORT. What each operation of Machine/Acq.lean may change. -/

namespace Sys2Proof.Machine

theorem modAcq_frame {a0 s1} : Frame [.acq] s1 (modAcq a0 s1) := by
  unfold modAcq
  repeat' first
    | with_reducible exact Frame.refl _ _
    | exact rfl
    | simp (disch := decide) only [↓Frame.of_set_acq]
    | split
    | intro _

theorem modCk_frame {a0 a1 s2} : Frame [.acq] s2 (modCk a0 a1 s2) := by
  unfold modCk
  repeat' first
    | with_reducible exact Frame.refl _ _
    | exact rfl
    | with_reducible apply Frame.app (k := modAcq_frame)
    | dsimp only
    | split
    | intro _

theorem ckAvgRestart_frame {a0 s1} : Frame [.acq] s1 (ckAvgRestart a0 s1) := by
  unfold ckAvgRestart
  repeat' first
    | with_reducible exact Frame.refl _ _
    | exact rfl
    | with_reducible apply Frame.app (k := modCk_frame)
    | with_reducible apply Frame.app (k := modAcqCh_frame)
    | with_reducible apply Frame.trans (k := Frame.foldOver ?_ _ _)
    | with_reducible apply Frame.trans (k := Frame.foldOver_snd ?_ _ _)
    | dsimp only
    | split
    | intro _

theorem noteDie_frame {a0 s1} : Frame [.spd, .evr] s1 (noteDie a0 s1) := by
  unfold noteDie
  repeat' first
    | with_reducible exact Frame.refl _ _
    | exact rfl
    | with_reducible apply Frame.ite
    | with_reducible apply Frame.app (k := ev_frame)
    | simp (disch := decide) only [↓Frame.of_set_spd]
    | split
    | intro _

theorem modHk_frame {a0 s1} : Frame [.acq] s1 (modHk a0 s1) := by
  unfold modHk
  repeat' first
    | with_reducible exact Frame.refl _ _
    | exact rfl
    | with_reducible apply Frame.app (k := modAcq_frame)
    | dsimp only
    | split
    | intro _

theorem setCal_frame {a0 a1 s2} : Frame [.acq] s2 (setCal a0 a1 s2) := by
  unfold setCal
  repeat' first
    | with_reducible exact Frame.refl _ _
    | exact rfl
    | with_reducible apply Frame.ite
    | with_reducible apply Frame.app (k := modAcqCh_frame)
    | with_reducible apply Frame.app (k := modCk_frame)
    | with_reducible apply Frame.app (k := modHk_frame)
    | dsimp only
    | split
    | intro _

theorem setCoef_frame {a0 a1 a2 s3} : Frame [.acq] s3 (setCoef a0 a1 a2 s3) := by
  unfold setCoef
  repeat' first
    | with_reducible exact Frame.refl _ _
    | exact rfl
    | with_reducible apply Frame.ite
    | with_reducible apply Frame.app (k := modAcqCh_frame)
    | with_reducible apply Frame.app (k := modCk_frame)
    | with_reducible apply Frame.app (k := modHk_frame)
    | with_reducible apply Frame.app (k := modAcq_frame)
    | dsimp only
    | split
    | intro _

theorem calTarget_frame {a0 a1 s2} : Frame [.acq] s2 (calTarget a0 a1 s2) := by
  unfold calTarget
  repeat' first
    | with_reducible exact Frame.refl _ _
    | exact rfl
    | with_reducible apply Frame.ite
    | with_reducible apply Frame.app (k := setCal_frame)
    | with_reducible apply Frame.app (k := modAcq_frame)
    | with_reducible apply Frame.app (k := setCoef_frame)
    | with_reducible apply Frame.app (k := modAcqCh_frame)
    | dsimp only
    | split
    | intro _

theorem setHkCtl_frame {a0 s1} : Frame [.acq] s1 (setHkCtl a0 s1) := by
  unfold setHkCtl
  repeat' first
    | with_reducible exact Frame.refl _ _
    | exact rfl
    | with_reducible apply Frame.ite
    | with_reducible apply Frame.app (k := modHk_frame)
    | dsimp only
    | split
    | intro _

theorem strobeAlign_frame {s0} : Frame [.acq] s0 (strobeAlign s0) := by
  unfold strobeAlign
  repeat' first
    | with_reducible exact Frame.refl _ _
    | exact rfl
    | with_reducible apply Frame.app (k := modAcq_frame)
    | dsimp only
    | split
    | intro _

theorem execCd5LockAcquired_frame {a0 s1} : Frames [.acq, .flt, .evr, .now, .out] s1 (execCd5LockAcquired a0 s1) := by
  unfold execCd5LockAcquired
  repeat' first
    | with_reducible exact Frame.refl _ _
    | exact rfl
    | with_reducible apply Frames.ite
    | with_reducible apply Frame.app (k := atTime_frame)
    | with_reducible apply Frame.app (k := strobeAlign_frame)
    | with_reducible apply Frame.app (k := modAcq_frame)
    | with_reducible apply Frame.app (k := chainsRestart_frame)
    | with_reducible apply Frames.next
    | dsimp only
    | split
    | intro _

theorem seqWritten_frame {a0 s1} : Frame [.acq] s1 (seqWritten a0 s1) := by
  unfold seqWritten
  repeat' first
    | with_reducible exact Frame.refl _ _
    | exact rfl
    | with_reducible apply Frame.app (k := modCk_frame)
    | dsimp only
    | split
    | intro _

theorem execAcqUrgentConvert_frame {a0 a1 a2 a3 s4} : Frames [.acq, .mbx, .cmd, .evr, .now, .out] s4 (execAcqUrgentConvert a0 a1 a2 a3 s4) := by
  unfold execAcqUrgentConvert
  repeat' first
    | with_reducible exact Frame.refl _ _
    | exact rfl
    | with_reducible apply Frames.ite
    | with_reducible apply Frame.app (k := atTime_frame)
    | with_reducible apply Frame.trans (k := runCmd_frame ?_ ?_)
    | with_reducible apply Frame.trans (k := checked_frame ?_ ?_)
    | with_reducible apply Frame.app (k := urgentRequest_frame)
    | with_reducible apply Frame.app (k := holdReply_frame)
    | with_reducible apply Frame.app (k := refuse_frame)
    | with_reducible apply Frame.app (k := urgRefusedEvent_frame)
    | with_reducible apply Frames.next
    | dsimp only
    | split
    | with_reducible refine Frame.app ?_ (Frame.snd (by assumption) (urgentRequest_frame ..)) ?_
    | intro _

theorem boardTemp_frame {s0} : Frame [.tbs] s0 (boardTemp s0) := by
  unfold boardTemp
  repeat' first
    | with_reducible exact Frame.refl _ _
    | exact rfl
    | with_reducible apply Frame.ite
    | simp (disch := decide) only [↓Frame.of_set_tbs]
    | split
    | intro _

theorem implClear_frame {a0 a1 s2} : Frame [.acq, .evr] s2 (implClear a0 a1 s2) := by
  unfold implClear
  repeat' first
    | with_reducible exact Frame.refl _ _
    | exact rfl
    | with_reducible apply Frame.ite
    | with_reducible apply Frame.app (k := ev_frame)
    | with_reducible apply Frame.app (k := modAcq_frame)
    | dsimp only
    | split
    | intro _

theorem implDue_frame {a0 s1} : Frame [.acq, .evr] s1 (implDue a0 s1) := by
  unfold implDue
  repeat' first
    | with_reducible exact Frame.refl _ _
    | exact rfl
    | with_reducible apply Frame.ite
    | with_reducible apply Frame.app (k := ev_frame)
    | with_reducible apply Frame.app (k := modAcqCh_frame)
    | with_reducible apply Frame.app (k := modAcq_frame)
    | with_reducible apply Frame.app (k := implClear_frame)
    | dsimp only
    | split
    | intro _

theorem implMask_frame {s0} : Frame [.acq, .evr] s0 (implMask s0) := by
  unfold implMask
  repeat' first
    | with_reducible exact Frame.refl _ _
    | exact rfl
    | with_reducible apply Frame.ite
    | with_reducible apply Frame.app (k := modAcqCh_frame)
    | with_reducible apply Frame.app (k := implClear_frame)
    | with_reducible apply Frame.trans (k := Frame.foldOver ?_ _ _)
    | with_reducible apply Frame.trans (k := Frame.foldOver_snd ?_ _ _)
    | dsimp only
    | split
    | intro _

theorem setSkew_frame {a0 a1 s2} : Frame [.acq, .evr] s2 (setSkew a0 a1 s2) := by
  unfold setSkew
  repeat' first
    | with_reducible exact Frame.refl _ _
    | exact rfl
    | with_reducible apply Frame.ite
    | with_reducible apply Frame.app (k := modAcq_frame)
    | with_reducible apply Frame.app (k := resync_frame)
    | with_reducible apply Frame.app (k := modAcqCh_frame)
    | dsimp only
    | split
    | intro _

theorem acqSetChannelApply_frame {a0 s1} : Frame [.acq, .evr] s1 (acqSetChannelApply a0 s1) := by
  unfold acqSetChannelApply
  repeat' first
    | with_reducible exact Frame.refl _ _
    | exact rfl
    | with_reducible apply Frame.ite
    | with_reducible apply Frame.app (k := implMask_frame)
    | with_reducible apply Frame.app (k := modAcq_frame)
    | with_reducible apply Frame.app (k := setSkew_frame)
    | with_reducible apply Frame.app (k := setCoef_frame)
    | dsimp only
    | split
    | intro _

theorem selfFail_frame {a0 a1 a2 s3} : Frame [.acq, .evr] s3 (selfFail a0 a1 a2 s3) := by
  unfold selfFail
  repeat' first
    | with_reducible exact Frame.refl _ _
    | exact rfl
    | with_reducible apply Frame.app (k := implMask_frame)
    | with_reducible apply Frame.app (k := ev_frame)
    | with_reducible apply Frame.app (k := modAcq_frame)
    | dsimp only
    | split
    | intro _

theorem selfRecover_frame {a0 s1} : Frame [.acq, .evr] s1 (selfRecover a0 s1) := by
  unfold selfRecover
  repeat' first
    | with_reducible exact Frame.refl _ _
    | exact rfl
    | with_reducible apply Frame.app (k := ev_frame)
    | with_reducible apply Frame.app (k := modAcq_frame)
    | dsimp only
    | split
    | intro _

theorem selfAct_frame {a0 a1 a2 a3 s4} : Frame [.acq, .evr] s4 (selfAct a0 a1 a2 a3 s4) := by
  unfold selfAct
  repeat' first
    | with_reducible exact Frame.refl _ _
    | exact rfl
    | with_reducible apply Frame.ite
    | with_reducible apply Frame.app (k := selfFail_frame)
    | with_reducible apply Frame.app (k := selfRecover_frame)
    | dsimp only
    | split
    | intro _

theorem ckSelf_frame {a0 a1 a2 s3} : Frame [.acq, .evr] s3 (ckSelf a0 a1 a2 s3) := by
  unfold ckSelf
  repeat' first
    | with_reducible exact Frame.refl _ _
    | exact rfl
    | with_reducible apply Frame.ite
    | with_reducible apply Frame.app (k := modCk_frame)
    | with_reducible apply Frame.app (k := selfAct_frame)
    | dsimp only
    | split
    | intro _

theorem strobeChain_frame {idx n r} : Frame [.acq, .flt, .trg, .sve, .tbs, .mac, .red, .swc, .vfm, .evr, .out] r.2 (strobeChain idx n r).2 := by
  unfold strobeChain
  exact (rawPush_frame.mono rfl).app chainStrobe_frame rfl

theorem flashSecond_frame {s0} : Frame [.flt] s0 (flashSecond s0) := by
  unfold flashSecond
  repeat' first
    | with_reducible exact Frame.refl _ _
    | exact rfl
    | with_reducible apply Frame.ite
    | simp (disch := decide) only [↓Frame.of_set_flt]
    | split
    | intro _

theorem ovrEvent_frame {s0} : Frame [.acq, .evr] s0 (ovrEvent s0) := by
  unfold ovrEvent
  repeat' first
    | with_reducible exact Frame.refl _ _
    | exact rfl
    | with_reducible apply Frame.ite
    | with_reducible apply Frame.app (k := ev_frame)
    | with_reducible apply Frame.app (k := modAcq_frame)
    | dsimp only
    | split
    | intro _

theorem takeSample_frame {a0 a1 s2} : Frame [.acq, .evr] s2 (takeSample a0 a1 s2) := by
  unfold takeSample
  repeat' first
    | with_reducible exact Frame.refl _ _
    | exact rfl
    | with_reducible apply Frame.ite
    | with_reducible apply Frame.app (k := implDue_frame)
    | with_reducible apply Frame.app (k := modAcq_frame)
    | with_reducible apply Frame.app (k := ev_frame)
    | with_reducible apply Frame.app (k := modAcqCh_frame)
    | dsimp only
    | split
    | intro _

theorem strobeSamples_frame {a0 s1} : Frame [.acq, .flt, .evr] s1 (strobeSamples a0 s1) := by
  unfold strobeSamples
  repeat' first
    | with_reducible exact Frame.refl _ _
    | exact rfl
    | with_reducible apply Frame.ite
    | with_reducible apply Frame.app (k := flashSecond_frame)
    | with_reducible apply Frame.app (k := modAcq_frame)
    | with_reducible apply Frame.app (k := ovrEvent_frame)
    | with_reducible apply Frame.app (k := takeSample_frame)
    | with_reducible apply Frame.trans (k := Frame.foldOver ?_ _ _)
    | with_reducible apply Frame.trans (k := Frame.foldOver_snd ?_ _ _)
    | dsimp only
    | split
    | intro _

theorem commitReplies_frame {s0} : Frame [.mbx, .cmd, .out] s0 (commitReplies s0) := by
  unfold commitReplies
  repeat' first
    | with_reducible exact Frame.refl _ _
    | exact rfl
    | with_reducible apply Frame.ite
    | with_reducible apply Frame.app (k := finish_frame)
    | with_reducible apply Frame.trans (k := Frame.foldOver ?_ _ _)
    | with_reducible apply Frame.trans (k := Frame.foldOver_snd ?_ _ _)
    | simp (disch := decide) only [↓Frame.of_set_cmd]
    | split
    | intro _

theorem execAdcStrobe_frame {a0 a1 s2} : Frames [.acq, .flt, .trg, .sve, .trp, .cyc, .tbs, .mac, .red, .swc, .vfm, .mbx, .cmd, .evr, .now, .out] s2 (execAdcStrobe a0 a1 s2) := by
  unfold execAdcStrobe
  repeat' first
    | with_reducible exact Frame.refl _ _
    | exact rfl
    | with_reducible apply Frames.ite
    | with_reducible apply Frame.app (k := atTime_frame)
    | with_reducible apply Frame.app (k := strobeSamples_frame)
    | with_reducible apply Frame.app (k := strobeChain_frame)
    | with_reducible apply Frame.app (k := commitReplies_frame)
    | with_reducible apply Frame.app (k := settle_frame)
    | with_reducible apply Frames.next
    | with_reducible apply Frame.trans (k := Frame.foldOver ?_ _ _)
    | with_reducible apply Frame.trans (k := Frame.foldOver_snd ?_ _ _)
    | dsimp only
    | split
    | with_reducible refine Frame.app ?_ (Frame.snd (by assumption) (strobeChain_frame ..)) ?_
    | intro _

theorem execAcqUrgWrite_frame {a0 a1 a2 s3} : Frames [.sys, .acq, .evr, .now, .out] s3 (execAcqUrgWrite a0 a1 a2 s3) := by
  unfold execAcqUrgWrite
  repeat' first
    | with_reducible exact Frame.refl _ _
    | exact rfl
    | with_reducible apply Frames.ite
    | with_reducible apply Frame.app (k := atTime_frame)
    | with_reducible apply Frame.trans (k := regWrite_frame ?_ ?_)
    | with_reducible apply Frame.app (k := urgentRequest_frame)
    | with_reducible apply Frame.app (k := urgRefusedEvent_frame)
    | with_reducible apply Frames.next
    | dsimp only
    | split
    | with_reducible refine Frame.app ?_ (Frame.snd (by assumption) (urgentRequest_frame ..)) ?_
    | intro _

theorem ckPlace_frame {a0 a1 s2} : Frame [.acq] s2 (ckPlace a0 a1 s2) := by
  unfold ckPlace
  repeat' first
    | with_reducible exact Frame.refl _ _
    | exact rfl
    | with_reducible apply Frame.app (k := modCk_frame)
    | dsimp only
    | split
    | intro _

theorem setCkCtl_frame {a0 a1 s2} : Frame [.acq] s2 (setCkCtl a0 a1 s2) := by
  unfold setCkCtl
  repeat' first
    | with_reducible exact Frame.refl _ _
    | exact rfl
    | with_reducible apply Frame.ite
    | with_reducible apply Frame.app (k := modCk_frame)
    | with_reducible apply Frame.app (k := ckAvgRestart_frame)
    | dsimp only
    | split
    | intro _

theorem strobeMove_frame {a0 s1} : Frame [.acq, .flt, .evr] s1 (strobeMove a0 s1) := by
  unfold strobeMove
  repeat' first
    | with_reducible exact Frame.refl _ _
    | exact rfl
    | with_reducible apply Frame.app (k := chainsRestart_frame)
    | with_reducible apply Frame.app (k := resync_frame)
    | with_reducible apply Frame.app (k := strobeAlign_frame)
    | dsimp only
    | split
    | intro _

theorem loadCoefs_frame {s0} : Frame [.acq] s0 (loadCoefs s0) := by
  unfold loadCoefs
  repeat' first
    | with_reducible exact Frame.refl _ _
    | exact rfl
    | with_reducible apply Frame.app (k := modAcq_frame)
    | dsimp only
    | split
    | intro _

theorem execUrgentConversionComplete_frame {a0 a1 a2 s3} : Frames [.acq, .trg, .mbx, .cmd, .evr, .now, .out, .freeCtr] s3 (execUrgentConversionComplete a0 a1 a2 s3) := by
  unfold execUrgentConversionComplete
  repeat' first
    | with_reducible exact Frame.refl _ _
    | exact rfl
    | with_reducible apply Frames.ite
    | with_reducible apply Frame.app (k := atTime_frame)
    | with_reducible apply Frame.app (k := drawFree_frame)
    | with_reducible apply Frame.app (k := modAcq_frame)
    | with_reducible apply Frame.app (k := modHk_frame)
    | with_reducible apply Frame.app (k := modCk_frame)
    | with_reducible apply Frame.app (k := ckPlace_frame)
    | with_reducible apply Frame.app (k := modRec_frame)
    | with_reducible apply Frame.app (k := finish_frame)
    | with_reducible apply Frames.next
    | dsimp only
    | split
    | with_reducible refine Frame.app ?_ (Frame.snd (by assumption) (drawFree_frame ..)) ?_
    | intro _

theorem acqSetSequenceApply_frame {a0 s1} : Frame [.acq, .evr] s1 (acqSetSequenceApply a0 s1) := by
  unfold acqSetSequenceApply
  repeat' first
    | with_reducible exact Frame.refl _ _
    | exact rfl
    | with_reducible apply Frame.ite
    | with_reducible apply Frame.app (k := setHkCtl_frame)
    | with_reducible apply Frame.app (k := implMask_frame)
    | with_reducible apply Frame.app (k := seqWritten_frame)
    | with_reducible apply Frame.app (k := modCk_frame)
    | with_reducible apply Frame.app (k := setCkCtl_frame)
    | dsimp only
    | split
    | intro _

theorem checkDone_frame {a0 a1 s2} : Frame [.acq] s2 (checkDone a0 a1 s2) := by
  unfold checkDone
  repeat' first
    | with_reducible exact Frame.refl _ _
    | exact rfl
    | with_reducible apply Frame.ite
    | with_reducible apply Frame.app (k := modAcqCh_frame)
    | dsimp only
    | split
    | intro _

theorem plausD_frame {a0 a1 a2 s3} : Frame [.acq] s3 (plausD a0 a1 a2 s3) := by
  unfold plausD
  repeat' first
    | with_reducible exact Frame.refl _ _
    | exact rfl
    | with_reducible apply Frame.ite
    | with_reducible apply Frame.app (k := checkDone_frame)
    | with_reducible apply Frame.app (k := modAcqCh_frame)
    | dsimp only
    | split
    | intro _

theorem takeAfe_frame {a0 s1} : Frame [.acq] s1 (takeAfe a0 s1) := by
  unfold takeAfe
  repeat' first
    | with_reducible exact Frame.refl _ _
    | exact rfl
    | with_reducible apply Frame.ite
    | with_reducible apply Frame.app (k := modHk_frame)
    | dsimp only
    | split
    | intro _

theorem execCalibrationComplete_frame {a0 a1 s2} : Frames [.acq, .mbx, .cmd, .evr, .now, .out] s2 (execCalibrationComplete a0 a1 s2) := by
  unfold execCalibrationComplete
  repeat' first
    | with_reducible exact Frame.refl _ _
    | exact rfl
    | with_reducible apply Frames.ite
    | with_reducible apply Frame.app (k := takeAfe_frame)
    | with_reducible apply Frame.app (k := atTime_frame)
    | with_reducible apply Frame.app (k := implMask_frame)
    | with_reducible apply Frame.app (k := calTarget_frame)
    | with_reducible apply Frame.app (k := modAcq_frame)
    | with_reducible apply Frame.app (k := ev_frame)
    | with_reducible apply Frame.app (k := finish_frame)
    | with_reducible apply Frames.next
    | with_reducible apply Frame.trans (k := Frame.foldOver ?_ _ _)
    | with_reducible apply Frame.trans (k := Frame.foldOver_snd ?_ _ _)
    | dsimp only
    | split
    | intro _

theorem calStart_frame {a0 a1 s2} : Frame [.acq, .evr] s2 (calStart a0 a1 s2) := by
  unfold calStart
  repeat' first
    | with_reducible exact Frame.refl _ _
    | exact rfl
    | with_reducible apply Frame.app (k := modAcq_frame)
    | with_reducible apply Frame.app (k := implMask_frame)
    | with_reducible apply Frame.app (k := setCal_frame)
    | with_reducible apply Frame.trans (k := Frame.foldOver ?_ _ _)
    | with_reducible apply Frame.trans (k := Frame.foldOver_snd ?_ _ _)
    | dsimp only
    | split
    | intro _

theorem execAcqCalibrate_frame {a0 a1 a2 s3} : Frames [.acq, .mbx, .cmd, .evr, .now, .out] s3 (execAcqCalibrate a0 a1 a2 s3) := by
  unfold execAcqCalibrate
  repeat' first
    | with_reducible exact Frame.refl _ _
    | exact rfl
    | with_reducible apply Frame.app (k := atTime_frame)
    | with_reducible apply Frame.trans (k := runCmd_frame ?_ ?_)
    | with_reducible apply Frame.trans (k := checked8_frame ?_ ?_)
    | with_reducible apply Frame.app (k := calStart_frame)
    | with_reducible apply Frame.app (k := holdReply_frame)
    | with_reducible apply Frames.next
    | dsimp only
    | split
    | intro _

theorem hkSelf_frame {a0 a1 s2} : Frame [.acq, .evr] s2 (hkSelf a0 a1 s2) := by
  unfold hkSelf
  repeat' first
    | with_reducible exact Frame.refl _ _
    | exact rfl
    | with_reducible apply Frame.ite
    | with_reducible apply Frame.app (k := modHk_frame)
    | with_reducible apply Frame.app (k := selfAct_frame)
    | dsimp only
    | split
    | intro _

theorem execAcqCkSeqWrite_frame {a0 a1 a2 a3 a4 s5} : Frames [.sys, .acq, .cmd, .evr, .now, .out] s5 (execAcqCkSeqWrite a0 a1 a2 a3 a4 s5) := by
  unfold execAcqCkSeqWrite
  repeat' first
    | with_reducible exact Frame.refl _ _
    | exact rfl
    | with_reducible apply Frames.ite
    | with_reducible apply Frame.app (k := atTime_frame)
    | with_reducible apply Frame.trans (k := cfgWrite_frame ?_ ?_)
    | with_reducible apply Frame.app (k := implMask_frame)
    | with_reducible apply Frame.app (k := seqWritten_frame)
    | with_reducible apply Frame.app (k := modCk_frame)
    | with_reducible apply Frames.next
    | dsimp only
    | split
    | intro _

theorem seqRestart_frame {a0 s1} : Frame [.acq, .evr] s1 (seqRestart a0 s1) := by
  unfold seqRestart
  repeat' first
    | with_reducible exact Frame.refl _ _
    | exact rfl
    | with_reducible apply Frame.app (k := modCk_frame)
    | with_reducible apply Frame.app (k := implMask_frame)
    | with_reducible apply Frame.app (k := modAcqCh_frame)
    | with_reducible apply Frame.trans (k := Frame.foldOver ?_ _ _)
    | with_reducible apply Frame.trans (k := Frame.foldOver_snd ?_ _ _)
    | dsimp only
    | split
    | intro _

theorem execCkSlotConvert_frame {a0 a1 a2 s3} : Frames [.acq, .evr, .now, .out] s3 (execCkSlotConvert a0 a1 a2 s3) := by
  unfold execCkSlotConvert
  repeat' first
    | with_reducible exact Frame.refl _ _
    | exact rfl
    | with_reducible apply Frames.ite
    | with_reducible apply Frame.app (k := atTime_frame)
    | with_reducible apply Frame.app (k := ckPlace_frame)
    | with_reducible apply Frame.app (k := modCk_frame)
    | with_reducible apply Frame.app (k := plausD_frame)
    | with_reducible apply Frame.app (k := ckSelf_frame)
    | with_reducible apply Frame.app (k := seqRestart_frame)
    | with_reducible apply Frames.next
    | dsimp only
    | split
    | intro _

theorem execAcqImplClear_frame {a0 a1 a2 s3} : Frames [.sys, .acq, .evr, .now, .out] s3 (execAcqImplClear a0 a1 a2 s3) := by
  unfold execAcqImplClear
  repeat' first
    | with_reducible exact Frame.refl _ _
    | exact rfl
    | with_reducible apply Frame.app (k := atTime_frame)
    | with_reducible apply Frame.trans (k := regWrite_frame ?_ ?_)
    | with_reducible apply Frame.app (k := implClear_frame)
    | with_reducible apply Frame.app (k := modAcqCh_frame)
    | with_reducible apply Frames.next
    | with_reducible apply Frame.trans (k := Frame.foldOver ?_ _ _)
    | with_reducible apply Frame.trans (k := Frame.foldOver_snd ?_ _ _)
    | dsimp only
    | split
    | intro _

theorem execCd5LockLost_frame {a0 s1} : Frames [.acq, .evr, .now, .out] s1 (execCd5LockLost a0 s1) := by
  unfold execCd5LockLost
  repeat' first
    | with_reducible exact Frame.refl _ _
    | exact rfl
    | with_reducible apply Frames.ite
    | with_reducible apply Frame.app (k := atTime_frame)
    | with_reducible apply Frame.app (k := resync_frame)
    | with_reducible apply Frame.app (k := modAcq_frame)
    | with_reducible apply Frames.next
    | dsimp only
    | split
    | intro _

theorem execHkConvert_frame {a0 a1 s2} : Frames [.acq, .spd, .tbs, .evr, .now, .out] s2 (execHkConvert a0 a1 s2) := by
  unfold execHkConvert
  repeat' first
    | with_reducible exact Frame.refl _ _
    | exact rfl
    | with_reducible apply Frames.ite
    | with_reducible apply Frame.app (k := atTime_frame)
    | with_reducible apply Frame.app (k := modHk_frame)
    | with_reducible apply Frame.app (k := noteDie_frame)
    | with_reducible apply Frame.app (k := boardTemp_frame)
    | with_reducible apply Frame.app (k := hkSelf_frame)
    | with_reducible apply Frames.next
    | simp only [id_eq]
    | dsimp only
    | split
    | intro _

end Sys2Proof.Machine
end

