-- ==== Sys2Proof/Laws/Frames/Admission.lean ====
section
/-! SUPPORT. What each operation of Machine/Admission.lean may change. -/

namespace Sys2Proof.Machine

theorem vcoreOvrEvent_frame {a0 a1 s2} : Frame [.evr] s2 (vcoreOvrEvent a0 a1 s2) := by
  unfold vcoreOvrEvent
  repeat' first
    | with_reducible exact Frame.refl _ _
    | exact rfl
    | with_reducible apply Frame.app (k := ev_frame)
    | dsimp only
    | split
    | intro _

theorem admitRefused_frame {a0 a1 a2 s3} : Frame [.evr] s3 (admitRefused a0 a1 a2 s3) := by
  unfold admitRefused
  repeat' first
    | with_reducible exact Frame.refl _ _
    | exact rfl
    | with_reducible apply Frame.app (k := evBy_frame)
    | dsimp only
    | split
    | intro _

theorem planned_frame {s0} : Frame [.cyc] s0 (planned s0) := by
  unfold planned
  repeat' first
    | with_reducible exact Frame.refl _ _
    | exact rfl
    | simp (disch := decide) only [↓Frame.of_set_cyc]
    | split
    | intro _

theorem modSpd_frame {a0 s1} : Frame [.spd] s1 (modSpd a0 s1) := by
  unfold modSpd
  repeat' first
    | with_reducible exact Frame.refl _ _
    | exact rfl
    | simp (disch := decide) only [↓Frame.of_set_spd]
    | split
    | intro _

theorem admitStore_frame {s0} : Frame [.cyc, .spd] s0 (admitStore s0) := by
  unfold admitStore
  repeat' first
    | with_reducible exact Frame.refl _ _
    | exact rfl
    | with_reducible apply Frame.app (k := planned_frame)
    | with_reducible apply Frame.app (k := modSpd_frame)
    | dsimp only
    | split
    | intro _

end Sys2Proof.Machine
end

