-- ==== Sys2Proof/Laws/Frames/Capture.lean ====
section
/-! SUPPORT. What each operation of Machine/Capture.lean may change. -/

namespace Sys2Proof.Machine

theorem execTrgEraseRecords_frame {a0 a1 s2} : Frames [.trg, .mbx, .cmd, .evr, .now, .out] s2 (execTrgEraseRecords a0 a1 s2) := by
  unfold execTrgEraseRecords
  repeat' first
    | with_reducible exact Frame.refl _ _
    | exact rfl
    | with_reducible apply Frame.app (k := atTime_frame)
    | with_reducible apply Frame.trans (k := runCmd_frame ?_ ?_)
    | with_reducible apply Frame.app (k := reply_frame)
    | with_reducible apply Frame.app (k := evCmd_frame)
    | with_reducible apply Frame.app (k := modTrg_frame)
    | with_reducible apply Frames.next
    | dsimp only
    | split
    | intro _

theorem setSource_frame {a0 a1 a2 s3} : Frame [.trg] s3 (setSource a0 a1 a2 s3) := by
  unfold setSource
  repeat' first
    | with_reducible exact Frame.refl _ _
    | exact rfl
    | with_reducible apply Frame.app (k := modTrg_frame)
    | dsimp only
    | split
    | intro _

theorem execXlinePulseEnd_frame {a0 a1 s2} : Frames [.trg, .evr, .now, .out] s2 (execXlinePulseEnd a0 a1 s2) := by
  unfold execXlinePulseEnd
  repeat' first
    | with_reducible exact Frame.refl _ _
    | exact rfl
    | with_reducible apply Frames.ite
    | with_reducible apply Frame.app (k := atTime_frame)
    | with_reducible apply Frame.app (k := modTrg_frame)
    | with_reducible apply Frames.next
    | dsimp only
    | split
    | intro _

theorem setArmed_frame {a0 s1} : Frame [.trg] s1 (setArmed a0 s1) := by
  unfold setArmed
  repeat' first
    | with_reducible exact Frame.refl _ _
    | exact rfl
    | with_reducible apply Frame.app (k := modTrg_frame)
    | dsimp only
    | split
    | intro _

theorem execTrgDisarm_frame {a0 a1 s2} : Frames [.trg, .mbx, .cmd, .evr, .now, .out] s2 (execTrgDisarm a0 a1 s2) := by
  unfold execTrgDisarm
  repeat' first
    | with_reducible exact Frame.refl _ _
    | exact rfl
    | with_reducible apply Frame.app (k := atTime_frame)
    | with_reducible apply Frame.trans (k := runCmd_frame ?_ ?_)
    | with_reducible apply Frame.app (k := reply_frame)
    | with_reducible apply Frame.app (k := setArmed_frame)
    | with_reducible apply Frames.next
    | dsimp only
    | split
    | intro _

theorem execTrigEdgeQualify_frame {a0 a1 a2 a3 s4} : Frames [.trg, .sve, .trp, .cyc, .tbs, .mac, .red, .swc, .vfm, .evr, .now, .out] s4 (execTrigEdgeQualify a0 a1 a2 a3 s4) := by
  unfold execTrigEdgeQualify
  repeat' first
    | with_reducible exact Frame.refl _ _
    | exact rfl
    | with_reducible apply Frames.ite
    | with_reducible apply Frame.app (k := atTime_frame)
    | with_reducible apply Frame.app (k := settle_frame)
    | with_reducible apply Frame.app (k := pinEdge_frame)
    | with_reducible apply Frames.next
    | dsimp only
    | split
    | intro _

theorem headerMoves_frame {a0 s1} : Frame [.trg, .evr] s1 (headerMoves a0 s1) := by
  unfold headerMoves
  repeat' first
    | with_reducible exact Frame.refl _ _
    | exact rfl
    | with_reducible apply Frame.app (k := storeFault_frame)
    | with_reducible apply Frame.app (k := takeBlock_frame)
    | with_reducible apply Frame.app (k := modRec_frame)
    | dsimp only
    | split
    | with_reducible refine Frame.app ?_ (Frame.snd (by assumption) (takeBlock_frame ..)) ?_
    | intro _

theorem execShutterCommitComplete_frame {a0 s1} : Frames [.trg, .evr, .now, .out] s1 (execShutterCommitComplete a0 s1) := by
  unfold execShutterCommitComplete
  repeat' first
    | with_reducible exact Frame.refl _ _
    | exact rfl
    | with_reducible apply Frames.ite
    | with_reducible apply Frame.app (k := atTime_frame)
    | with_reducible apply Frame.app (k := committedEvent_frame)
    | with_reducible apply Frame.app (k := modRec_frame)
    | with_reducible apply Frame.app (k := headerMoves_frame)
    | with_reducible apply Frames.next
    | dsimp only
    | split
    | intro _

theorem setTrgCtl_frame {a0 s1} : Frame [.trg] s1 (setTrgCtl a0 s1) := by
  unfold setTrgCtl
  repeat' first
    | with_reducible exact Frame.refl _ _
    | exact rfl
    | with_reducible apply Frame.ite
    | with_reducible apply Frame.app (k := modTrg_frame)
    | with_reducible apply Frame.app (k := ringsRestart_frame)
    | dsimp only
    | split
    | intro _

theorem execTrgArmedWrite_frame {a0 a1 a2 s3} : Frames [.sys, .trg, .cmd, .evr, .now, .out] s3 (execTrgArmedWrite a0 a1 a2 s3) := by
  unfold execTrgArmedWrite
  repeat' first
    | with_reducible exact Frame.refl _ _
    | exact rfl
    | with_reducible apply Frames.ite
    | with_reducible apply Frame.app (k := atTime_frame)
    | with_reducible apply Frame.trans (k := cfgWrite_frame ?_ ?_)
    | with_reducible apply Frame.app (k := setTrgCtl_frame)
    | with_reducible apply Frame.trans (k := regWrite_frame ?_ ?_)
    | with_reducible apply Frames.next
    | dsimp only
    | split
    | intro _

theorem execTrgArm_frame {a0 a1 s2} : Frames [.trg, .mbx, .cmd, .evr, .now, .out] s2 (execTrgArm a0 a1 s2) := by
  unfold execTrgArm
  repeat' first
    | with_reducible exact Frame.refl _ _
    | exact rfl
    | with_reducible apply Frame.app (k := atTime_frame)
    | with_reducible apply Frame.trans (k := runCmd_frame ?_ ?_)
    | with_reducible apply Frame.app (k := refuse_frame)
    | with_reducible apply Frame.app (k := reply_frame)
    | with_reducible apply Frame.app (k := setArmed_frame)
    | with_reducible apply Frames.next
    | dsimp only
    | split
    | intro _

theorem closeEnded_frame {a0 a1 s2} : Frame [.trg, .evr] s2 (closeEnded a0 a1 s2) := by
  unfold closeEnded
  repeat' first
    | with_reducible exact Frame.refl _ _
    | exact rfl
    | with_reducible apply Frame.ite
    | with_reducible apply Frame.app (k := closeRec_frame)
    | with_reducible apply Frame.app (k := openChain_frame)
    | dsimp only
    | split
    | intro _

theorem execShutterDecisionInterval_frame {a0 s1} : Frames [.acq, .trg, .mbx, .cmd, .evr, .now, .out] s1 (execShutterDecisionInterval a0 s1) := by
  unfold execShutterDecisionInterval
  repeat' first
    | with_reducible exact Frame.refl _ _
    | exact rfl
    | with_reducible apply Frame.app (k := atTime_frame)
    | with_reducible apply Frame.app (k := takeTrigger_frame)
    | with_reducible apply Frame.app (k := modTrg_frame)
    | with_reducible apply Frames.next
    | with_reducible apply Frame.trans (k := Frame.foldOver ?_ _ _)
    | with_reducible apply Frame.trans (k := Frame.foldOver_snd ?_ _ _)
    | dsimp only
    | split
    | intro _

theorem execTrgForce_frame {a0 a1 a2 s3} : Frames [.trg, .mbx, .cmd, .evr, .now, .out] s3 (execTrgForce a0 a1 a2 s3) := by
  unfold execTrgForce
  repeat' first
    | with_reducible exact Frame.refl _ _
    | exact rfl
    | with_reducible apply Frames.ite
    | with_reducible apply Frame.app (k := atTime_frame)
    | with_reducible apply Frame.trans (k := runCmd_frame ?_ ?_)
    | with_reducible apply Frame.trans (k := checked8_frame ?_ ?_)
    | with_reducible apply Frame.app (k := refuse_frame)
    | with_reducible apply Frame.app (k := loseTrigger_frame)
    | with_reducible apply Frame.app (k := holdReply_frame)
    | with_reducible apply Frame.app (k := modTrg_frame)
    | with_reducible apply Frames.next
    | dsimp only
    | split
    | intro _

theorem writeBlock_frame {a0 a1 s2} : Frame [.trg, .evr] s2 (writeBlock a0 a1 s2) := by
  unfold writeBlock
  repeat' first
    | with_reducible exact Frame.refl _ _
    | exact rfl
    | with_reducible apply Frame.ite
    | with_reducible apply Frame.app (k := takeBlock_frame)
    | with_reducible apply Frame.app (k := modRec_frame)
    | with_reducible apply Frame.app (k := storeFault_frame)
    | dsimp only
    | split
    | with_reducible refine Frame.app ?_ (Frame.snd (by assumption) (takeBlock_frame ..)) ?_
    | intro _

theorem execShutterRecordClose_frame {a0 s1} : Frames [.trg, .evr, .now, .out] s1 (execShutterRecordClose a0 s1) := by
  unfold execShutterRecordClose
  repeat' first
    | with_reducible exact Frame.refl _ _
    | exact rfl
    | with_reducible apply Frame.app (k := atTime_frame)
    | with_reducible apply Frame.app (k := closeEnded_frame)
    | with_reducible apply Frames.next
    | with_reducible apply Frame.trans (k := Frame.foldOver ?_ _ _)
    | with_reducible apply Frame.trans (k := Frame.foldOver_snd ?_ _ _)
    | dsimp only
    | split
    | intro _

theorem trgSetSourcesApply_frame {a0 s1} : Frame [.trg] s1 (trgSetSourcesApply a0 s1) := by
  unfold trgSetSourcesApply
  repeat' first
    | with_reducible exact Frame.refl _ _
    | exact rfl
    | with_reducible apply Frame.app (k := setSource_frame)
    | with_reducible apply Frame.trans (k := Frame.foldOver ?_ _ _)
    | with_reducible apply Frame.trans (k := Frame.foldOver_snd ?_ _ _)
    | dsimp only
    | split
    | intro _

theorem execShutterDataBlockWrite_frame {a0 a1 s2} : Frames [.trg, .evr, .now, .out] s2 (execShutterDataBlockWrite a0 a1 s2) := by
  unfold execShutterDataBlockWrite
  repeat' first
    | with_reducible exact Frame.refl _ _
    | exact rfl
    | with_reducible apply Frames.ite
    | with_reducible apply Frame.app (k := atTime_frame)
    | with_reducible apply Frame.app (k := writeBlock_frame)
    | with_reducible apply Frames.next
    | dsimp only
    | split
    | intro _

theorem execTrgForceWrite_frame {a0 a1 a2 s3} : Frames [.sys, .trg, .evr, .now, .out] s3 (execTrgForceWrite a0 a1 a2 s3) := by
  unfold execTrgForceWrite
  repeat' first
    | with_reducible exact Frame.refl _ _
    | exact rfl
    | with_reducible apply Frames.ite
    | with_reducible apply Frame.app (k := atTime_frame)
    | with_reducible apply Frame.trans (k := regWrite_frame ?_ ?_)
    | with_reducible apply Frame.app (k := modTrg_frame)
    | with_reducible apply Frames.next
    | dsimp only
    | split
    | intro _

theorem trgProfileApply_frame {a0 s1} : Frame [.trg] s1 (trgProfileApply a0 s1) := by
  unfold trgProfileApply
  repeat' first
    | with_reducible exact Frame.refl _ _
    | exact rfl
    | with_reducible apply Frame.app (k := setTrgCtl_frame)
    | with_reducible apply Frame.app (k := modTrg_frame)
    | dsimp only
    | split
    | intro _

theorem execTrgExportRecord_frame {a0 a1 a2 s3} : Frames [.mbx, .cmd, .evr, .now, .out] s3 (execTrgExportRecord a0 a1 a2 s3) := by
  unfold execTrgExportRecord
  repeat' first
    | with_reducible exact Frame.refl _ _
    | exact rfl
    | with_reducible apply Frame.app (k := atTime_frame)
    | with_reducible apply Frame.trans (k := runCmd_frame ?_ ?_)
    | with_reducible apply Frame.trans (k := checked_frame ?_ ?_)
    | with_reducible apply Frame.app (k := refuse_frame)
    | with_reducible apply Frame.app (k := replyWithOutput_frame)
    | with_reducible apply Frames.next
    | dsimp only
    | split
    | intro _

end Sys2Proof.Machine
end

