-- ==== Sys2Proof/Laws/Frames/TaskOps.lean ====
section
/-! SUPPORT. What each operation of Machine/TaskOps.lean may change. -/

namespace Sys2Proof.Machine

theorem modTask_frame {a0 a1 s2} : Frame [.cyc] s2 (modTask a0 a1 s2) := by
  unfold modTask
  repeat' first
    | with_reducible exact Frame.refl _ _
    | exact rfl
    | simp (disch := decide) only [↓Frame.of_set_cyc]
    | split
    | intro _

theorem taskSkip_frame {a0 a1 s2} : Frame [.cyc, .evr] s2 (taskSkip a0 a1 s2) := by
  unfold taskSkip
  repeat' first
    | with_reducible exact Frame.refl _ _
    | exact rfl
    | with_reducible apply Frame.ite
    | with_reducible apply Frame.app (k := modTask_frame)
    | with_reducible apply Frame.app (k := evBy_frame)
    | simp (disch := decide) only [↓Frame.of_set_cyc]
    | split
    | intro _

theorem taskDue_frame {a0 a1 a2 s3} : Frame [.cyc, .evr] s3 (taskDue a0 a1 a2 s3) := by
  unfold taskDue
  repeat' first
    | with_reducible exact Frame.refl _ _
    | exact rfl
    | with_reducible apply Frame.ite
    | with_reducible apply Frame.app (k := taskSkip_frame)
    | with_reducible apply Frame.app (k := modTask_frame)
    | dsimp only
    | split
    | intro _

theorem lTaskDue_frame {a0 s1} : Frame [.cyc, .evr] s1 (lTaskDue a0 s1) := by
  unfold lTaskDue
  repeat' first
    | with_reducible exact Frame.refl _ _
    | exact rfl
    | with_reducible apply Frame.ite
    | with_reducible apply Frame.app (k := modTask_frame)
    | with_reducible apply Frame.app (k := taskSkip_frame)
    | dsimp only
    | split
    | intro _

theorem lTasksDue_frame {s0} : Frame [.cyc, .evr] s0 (lTasksDue s0) := by
  unfold lTasksDue
  repeat' first
    | with_reducible exact Frame.refl _ _
    | exact rfl
    | with_reducible apply Frame.app (k := lTaskDue_frame)
    | with_reducible apply Frame.trans (k := Frame.foldOver ?_ _ _)
    | with_reducible apply Frame.trans (k := Frame.foldOver_snd ?_ _ _)
    | dsimp only
    | split
    | intro _

theorem zoneTasksDue_frame {a0 a1 a2 s3} : Frame [.cyc, .evr] s3 (zoneTasksDue a0 a1 a2 s3) := by
  unfold zoneTasksDue
  repeat' first
    | with_reducible exact Frame.refl _ _
    | exact rfl
    | with_reducible apply Frame.ite
    | with_reducible apply Frame.app (k := taskDue_frame)
    | with_reducible apply Frame.trans (k := Frame.foldOver ?_ _ _)
    | with_reducible apply Frame.trans (k := Frame.foldOver_snd ?_ _ _)
    | dsimp only
    | split
    | intro _

end Sys2Proof.Machine
end

