-- ==== Sys2Proof/Laws/Frames/Timebase.lean ====
section
/-! SUPPORT. What each operation of Machine/Timebase.lean may change. -/

namespace Sys2Proof.Machine

theorem modTeg_frame {a0 a1 s2} : Frame [.tbs] s2 (modTeg a0 a1 s2) := by
  unfold modTeg
  repeat' first
    | with_reducible exact Frame.refl _ _
    | exact rfl
    | with_reducible apply Frame.app (k := modTbs_frame)
    | dsimp only
    | split
    | intro _

theorem tegFire_frame {a0 a1 s2} : Frame [.trg, .tbs, .evr, .out] s2 (tegFire a0 a1 s2) := by
  unfold tegFire
  repeat' first
    | with_reducible exact Frame.refl _ _
    | exact rfl
    | with_reducible apply Frame.ite
    | with_reducible apply Frame.app (k := tegTrigger_frame)
    | with_reducible apply Frame.app (k := ev_frame)
    | with_reducible apply Frame.app (k := emit_frame)
    | with_reducible apply Frame.app (k := modTeg_frame)
    | dsimp only
    | split
    | intro _

theorem noteTrace_frame {a0 s1} : Frame [.tbs] s1 (noteTrace a0 s1) := by
  unfold noteTrace
  repeat' first
    | with_reducible exact Frame.refl _ _
    | exact rfl
    | with_reducible apply Frame.ite
    | with_reducible apply Frame.app (k := modBase_frame)
    | dsimp only
    | split
    | intro _

theorem timState_frame {a0 a1 a2 a3 a4 s5} : Frame [.tbs, .evr] s5 (timState a0 a1 a2 a3 a4 s5) := by
  unfold timState
  repeat' first
    | with_reducible exact Frame.refl _ _
    | exact rfl
    | with_reducible apply Frame.app (k := noteTrace_frame)
    | with_reducible apply Frame.app (k := ev_frame)
    | dsimp only
    | split
    | intro _

theorem enterFree_frame {a0 a1 s2} : Frame [.tbs, .evr] s2 (enterFree a0 a1 s2) := by
  unfold enterFree
  repeat' first
    | with_reducible exact Frame.refl _ _
    | exact rfl
    | with_reducible apply Frame.ite
    | with_reducible apply Frame.app (k := modBase_frame)
    | with_reducible apply Frame.app (k := timState_frame)
    | dsimp only
    | split
    | intro _

theorem sourceGone_frame {a0 s1} : Frame [.tbs] s1 (sourceGone a0 s1) := by
  unfold sourceGone
  repeat' first
    | with_reducible exact Frame.refl _ _
    | exact rfl
    | with_reducible apply Frame.ite
    | with_reducible apply Frame.app (k := modBase_frame)
    | dsimp only
    | split
    | intro _

theorem execHoldoverLimitExpire_frame {a0 a1 s2} : Frames [.tbs, .evr, .now, .out] s2 (execHoldoverLimitExpire a0 a1 s2) := by
  unfold execHoldoverLimitExpire
  repeat' first
    | with_reducible exact Frame.refl _ _
    | exact rfl
    | with_reducible apply Frames.ite
    | with_reducible apply Frame.app (k := atTime_frame)
    | with_reducible apply Frame.app (k := enterFree_frame)
    | with_reducible apply Frames.next
    | dsimp only
    | split
    | intro _

theorem setRate_frame {a0 a1 s2} : Frame [.tbs] s2 (setRate a0 a1 s2) := by
  unfold setRate
  repeat' first
    | with_reducible exact Frame.refl _ _
    | exact rfl
    | with_reducible apply Frame.app (k := modBase_frame)
    | dsimp only
    | split
    | intro _

theorem servo_frame {a0 a1 s2} : Frame [.tbs] s2 (servo a0 a1 s2) := by
  unfold servo
  repeat' first
    | with_reducible exact Frame.refl _ _
    | exact rfl
    | with_reducible apply Frame.app (k := setRate_frame)
    | with_reducible apply Frame.app (k := modBase_frame)
    | dsimp only
    | split
    | intro _

theorem seedBase_frame {a0 a1 s2} : Frame [.tbs] s2 (seedBase a0 a1 s2) := by
  unfold seedBase
  repeat' first
    | with_reducible exact Frame.refl _ _
    | exact rfl
    | with_reducible apply Frame.ite
    | with_reducible apply Frame.app (k := modBase_frame)
    | dsimp only
    | split
    | intro _

theorem seedBegin_frame {s0} : Frame [.tbs] s0 (seedBegin s0) := by
  unfold seedBegin
  repeat' first
    | with_reducible exact Frame.refl _ _
    | exact rfl
    | with_reducible apply Frame.app (k := modTbs_frame)
    | with_reducible apply Frame.app (k := seedBase_frame)
    | with_reducible apply Frame.trans (k := Frame.foldOver ?_ _ _)
    | with_reducible apply Frame.trans (k := Frame.foldOver_snd ?_ _ _)
    | dsimp only
    | split
    | intro _

theorem tegArm_frame {a0 s1} : Frame [.tbs] s1 (tegArm a0 s1) := by
  unfold tegArm
  repeat' first
    | with_reducible exact Frame.refl _ _
    | exact rfl
    | with_reducible apply Frame.ite
    | with_reducible apply Frame.app (k := modTeg_frame)
    | dsimp only
    | split
    | intro _

theorem enterLocked_frame {a0 s1} : Frame [.tbs, .evr] s1 (enterLocked a0 s1) := by
  unfold enterLocked
  repeat' first
    | with_reducible exact Frame.refl _ _
    | exact rfl
    | with_reducible apply Frame.app (k := modBase_frame)
    | with_reducible apply Frame.app (k := timState_frame)
    | dsimp only
    | split
    | intro _

theorem zoneTasksStep_frame {a0 a1 s2} : Frame [.cyc] s2 (zoneTasksStep a0 a1 s2) := by
  unfold zoneTasksStep
  repeat' first
    | with_reducible exact Frame.refl _ _
    | exact rfl
    | with_reducible apply Frame.ite
    | simp (disch := decide) only [↓Frame.of_set_cyc]
    | split
    | intro _

theorem tasksStep_frame {a0 a1 s2} : Frame [.cyc] s2 (tasksStep a0 a1 s2) := by
  unfold tasksStep
  repeat' first
    | with_reducible exact Frame.refl _ _
    | exact rfl
    | with_reducible apply Frame.ite
    | simp (disch := decide) only [↓Frame.of_set_cyc]
    | split
    | intro _

theorem baseMoved_frame {a0 a1 s2} : Frame [.acq, .flt, .trg, .evr] s2 (baseMoved a0 a1 s2) := by
  unfold baseMoved
  repeat' first
    | with_reducible exact Frame.refl _ _
    | exact rfl
    | with_reducible apply Frame.ite
    | with_reducible apply Frame.app (k := shutterStep_frame)
    | with_reducible apply Frame.app (k := strobeMove_frame)
    | dsimp only
    | split
    | intro _

theorem tegStep_frame {a0 a1 a2 s3} : Frame [.trg, .tbs, .evr, .out] s3 (tegStep a0 a1 a2 s3) := by
  unfold tegStep
  repeat' first
    | with_reducible exact Frame.refl _ _
    | exact rfl
    | with_reducible apply Frame.ite
    | with_reducible apply Frame.app (k := tegFire_frame)
    | with_reducible apply Frame.app (k := modTeg_frame)
    | with_reducible apply Frame.trans (k := Frame.foldOver ?_ _ _)
    | with_reducible apply Frame.trans (k := Frame.foldOver_snd ?_ _ _)
    | dsimp only
    | split
    | intro _

theorem stepBase_frame {a0 a1 a2 a3 s4} : Frame [.acq, .flt, .trg, .sve, .cyc, .tbs, .evr, .out] s4 (stepBase a0 a1 a2 a3 s4) := by
  unfold stepBase
  repeat' first
    | with_reducible exact Frame.refl _ _
    | exact rfl
    | with_reducible apply Frame.ite
    | with_reducible apply Frame.app (k := keepDeadlines_frame)
    | with_reducible apply Frame.app (k := lTasksDue_frame)
    | with_reducible apply Frame.app (k := modBase_frame)
    | with_reducible apply Frame.app (k := rebase_frame)
    | with_reducible apply Frame.app (k := evBy_frame)
    | with_reducible apply Frame.app (k := zoneTasksStep_frame)
    | with_reducible apply Frame.app (k := tasksStep_frame)
    | with_reducible apply Frame.app (k := baseMoved_frame)
    | with_reducible apply Frame.app (k := tegStep_frame)
    | with_reducible apply Frame.trans (k := Frame.foldOver ?_ _ _)
    | with_reducible apply Frame.trans (k := Frame.foldOver_snd ?_ _ _)
    | dsimp only
    | split
    | intro _

theorem enterHoldover_frame {a0 a1 s2} : Frame [.tbs, .evr] s2 (enterHoldover a0 a1 s2) := by
  unfold enterHoldover
  repeat' first
    | with_reducible exact Frame.refl _ _
    | exact rfl
    | with_reducible apply Frame.app (k := setRate_frame)
    | with_reducible apply Frame.app (k := modBase_frame)
    | with_reducible apply Frame.app (k := timState_frame)
    | with_reducible apply Frame.trans (k := Frame.foldl ?_ _ _)
    | dsimp only
    | split
    | intro _

theorem measure_frame {a0 a1 a2 s3} : Frame [.acq, .flt, .trg, .sve, .cyc, .tbs, .evr, .out] s3 (measure a0 a1 a2 s3) := by
  unfold measure
  repeat' first
    | with_reducible exact Frame.refl _ _
    | exact rfl
    | with_reducible apply Frame.ite
    | with_reducible apply Frame.app (k := modBase_frame)
    | with_reducible apply Frame.app (k := servo_frame)
    | with_reducible apply Frame.app (k := enterLocked_frame)
    | with_reducible apply Frame.app (k := stepBase_frame)
    | with_reducible apply Frame.app (k := ev_frame)
    | with_reducible apply Frame.app (k := enterHoldover_frame)
    | with_reducible apply Frame.trans (k := Frame.foldl ?_ _ _)
    | dsimp only
    | split
    | intro _

theorem execTegCtlWrite_frame {a0 a1 a2 a3 s4} : Frames [.sys, .tbs, .evr, .now, .out] s4 (execTegCtlWrite a0 a1 a2 a3 s4) := by
  unfold execTegCtlWrite
  repeat' first
    | with_reducible exact Frame.refl _ _
    | exact rfl
    | with_reducible apply Frames.ite
    | with_reducible apply Frame.app (k := atTime_frame)
    | with_reducible apply Frame.app (k := busViolate_frame)
    | with_reducible apply Frame.trans (k := regWrite_frame ?_ ?_)
    | with_reducible apply Frame.app (k := tegArm_frame)
    | with_reducible apply Frame.app (k := modTeg_frame)
    | with_reducible apply Frames.next
    | dsimp only
    | split
    | intro _

theorem execHoldoverErrorUpdate_frame {a0 a1 s2} : Frames [.tbs, .evr, .now, .out] s2 (execHoldoverErrorUpdate a0 a1 s2) := by
  unfold execHoldoverErrorUpdate
  repeat' first
    | with_reducible exact Frame.refl _ _
    | exact rfl
    | with_reducible apply Frames.ite
    | with_reducible apply Frame.app (k := atTime_frame)
    | with_reducible apply Frame.app (k := modBase_frame)
    | with_reducible apply Frame.app (k := setRate_frame)
    | with_reducible apply Frame.app (k := enterFree_frame)
    | with_reducible apply Frames.next
    | dsimp only
    | split
    | intro _

theorem seedMove_frame {a0 a1 s2} : Frame [.acq, .flt, .trg, .sve, .cyc, .tbs, .evr] s2 (seedMove a0 a1 s2) := by
  unfold seedMove
  repeat' first
    | with_reducible exact Frame.refl _ _
    | exact rfl
    | with_reducible apply Frame.app (k := seedBase_frame)
    | with_reducible apply Frame.app (k := rebase_frame)
    | with_reducible apply Frame.app (k := zoneTasksStep_frame)
    | with_reducible apply Frame.app (k := tasksStep_frame)
    | with_reducible apply Frame.app (k := baseMoved_frame)
    | dsimp only
    | split
    | intro _

theorem seedBases_frame {a0 s1} : Frame [.acq, .flt, .trg, .sve, .cyc, .tbs, .evr] s1 (seedBases a0 s1) := by
  unfold seedBases
  repeat' first
    | with_reducible exact Frame.refl _ _
    | exact rfl
    | with_reducible apply Frame.ite
    | with_reducible apply Frame.app (k := seedBase_frame)
    | with_reducible apply Frame.app (k := seedMove_frame)
    | with_reducible apply Frame.app (k := strobeAlign_frame)
    | with_reducible apply Frame.app (k := tegArm_frame)
    | with_reducible apply Frame.app (k := modTbs_frame)
    | with_reducible apply Frame.trans (k := Frame.foldOver ?_ _ _)
    | with_reducible apply Frame.trans (k := Frame.foldOver_snd ?_ _ _)
    | dsimp only
    | split
    | intro _

theorem execSourceLossTimeout_frame {a0 a1 s2} : Frames [.tbs, .evr, .now, .out] s2 (execSourceLossTimeout a0 a1 s2) := by
  unfold execSourceLossTimeout
  repeat' first
    | with_reducible exact Frame.refl _ _
    | exact rfl
    | with_reducible apply Frames.ite
    | with_reducible apply Frame.app (k := atTime_frame)
    | with_reducible apply Frame.app (k := enterHoldover_frame)
    | with_reducible apply Frame.app (k := sourceGone_frame)
    | with_reducible apply Frames.next
    | dsimp only
    | split
    | intro _

theorem execTbsCapture_frame {a0 a1 s2} : Frames [.sys, .tbs, .evr, .now, .out] s2 (execTbsCapture a0 a1 s2) := by
  unfold execTbsCapture
  repeat' first
    | with_reducible exact Frame.refl _ _
    | exact rfl
    | with_reducible apply Frame.app (k := atTime_frame)
    | with_reducible apply Frame.trans (k := regWrite_frame ?_ ?_)
    | with_reducible apply Frame.app (k := modTbs_frame)
    | with_reducible apply Frames.next
    | dsimp only
    | split
    | intro _

theorem execTimStepApply_frame {a0 a1 s2} : Frames [.acq, .flt, .trg, .sve, .cyc, .tbs, .mbx, .cmd, .evr, .now, .out] s2 (execTimStepApply a0 a1 s2) := by
  unfold execTimStepApply
  repeat' first
    | with_reducible exact Frame.refl _ _
    | exact rfl
    | with_reducible apply Frames.ite
    | with_reducible apply Frame.app (k := atTime_frame)
    | with_reducible apply Frame.app (k := stepBase_frame)
    | with_reducible apply Frame.app (k := modBase_frame)
    | with_reducible apply Frame.app (k := finish_frame)
    | with_reducible apply Frames.next
    | dsimp only
    | split
    | intro _

theorem execTegFire_frame {a0 a1 s2} : Frames [.trg, .tbs, .evr, .now, .out] s2 (execTegFire a0 a1 s2) := by
  unfold execTegFire
  repeat' first
    | with_reducible exact Frame.refl _ _
    | exact rfl
    | with_reducible apply Frames.ite
    | with_reducible apply Frame.app (k := atTime_frame)
    | with_reducible apply Frame.app (k := tegFire_frame)
    | with_reducible apply Frames.next
    | dsimp only
    | split
    | intro _

theorem execLeapSecondApply_frame {a0 a1 s2} : Frames [.tbs, .evr, .now, .out] s2 (execLeapSecondApply a0 a1 s2) := by
  unfold execLeapSecondApply
  repeat' first
    | with_reducible exact Frame.refl _ _
    | exact rfl
    | with_reducible apply Frames.ite
    | with_reducible apply Frame.app (k := atTime_frame)
    | with_reducible apply Frame.app (k := ev_frame)
    | with_reducible apply Frame.app (k := modBase_frame)
    | with_reducible apply Frames.next
    | dsimp only
    | split
    | intro _

end Sys2Proof.Machine
end

