-- ==== Sys2Proof/Laws/Frames/Clock.lean ====
section
/-! SUPPORT. What each operation of Machine/Clock.lean may change. -/

namespace Sys2Proof.Machine

theorem modRtc_frame {a0 s1} : Frame [.rtc] s1 (modRtc a0 s1) := by
  unfold modRtc
  repeat' first
    | with_reducible exact Frame.refl _ _
    | exact rfl
    | simp (disch := decide) only [↓Frame.of_set_rtc]
    | split
    | intro _

theorem takeCopy_frame {s0} : Frame [.rtc] s0 (takeCopy s0) := by
  unfold takeCopy
  repeat' first
    | with_reducible exact Frame.refl _ _
    | exact rfl
    | with_reducible apply Frame.app (k := modRtc_frame)
    | dsimp only
    | split
    | intro _

theorem execRtcCaptureComplete_frame {a0 s1} : Frames [.rtc, .evr, .now, .out] s1 (execRtcCaptureComplete a0 s1) := by
  unfold execRtcCaptureComplete
  repeat' first
    | with_reducible exact Frame.refl _ _
    | exact rfl
    | with_reducible apply Frames.ite
    | with_reducible apply Frame.app (k := atTime_frame)
    | with_reducible apply Frame.app (k := modRtc_frame)
    | with_reducible apply Frame.app (k := takeCopy_frame)
    | with_reducible apply Frames.next
    | dsimp only
    | split
    | intro _

theorem execRtcCapture_frame {a0 a1 s2} : Frames [.sys, .rtc, .evr, .now, .out] s2 (execRtcCapture a0 a1 s2) := by
  unfold execRtcCapture
  repeat' first
    | with_reducible exact Frame.refl _ _
    | exact rfl
    | with_reducible apply Frame.app (k := atTime_frame)
    | with_reducible apply Frame.trans (k := regWrite_frame ?_ ?_)
    | with_reducible apply Frame.app (k := modRtc_frame)
    | with_reducible apply Frames.next
    | dsimp only
    | split
    | intro _

theorem rtcLoad_frame {a0 s1} : Frame [.rtc, .mbx, .cmd, .evr, .out] s1 (rtcLoad a0 s1) := by
  unfold rtcLoad
  repeat' first
    | with_reducible exact Frame.refl _ _
    | exact rfl
    | with_reducible apply Frame.ite
    | with_reducible apply Frame.app (k := modRtc_frame)
    | with_reducible apply Frame.app (k := ev_frame)
    | with_reducible apply Frame.app (k := finish_frame)
    | dsimp only
    | split
    | intro _

theorem execRtcStgSecWrite_frame {a0 a1 a2 s3} : Frames [.sys, .rtc, .evr, .now, .out] s3 (execRtcStgSecWrite a0 a1 a2 s3) := by
  unfold execRtcStgSecWrite
  repeat' first
    | with_reducible exact Frame.refl _ _
    | exact rfl
    | with_reducible apply Frames.ite
    | with_reducible apply Frame.app (k := atTime_frame)
    | with_reducible apply Frame.trans (k := regWrite_frame ?_ ?_)
    | with_reducible apply Frame.app (k := modRtc_frame)
    | with_reducible apply Frame.app (k := ev_frame)
    | with_reducible apply Frames.next
    | dsimp only
    | split
    | intro _

theorem execRtcSet_frame {a0 a1 a2 s3} : Frames [.rtc, .mbx, .cmd, .evr, .now, .out] s3 (execRtcSet a0 a1 a2 s3) := by
  unfold execRtcSet
  repeat' first
    | with_reducible exact Frame.refl _ _
    | exact rfl
    | with_reducible apply Frames.ite
    | with_reducible apply Frame.app (k := atTime_frame)
    | with_reducible apply Frame.trans (k := runCmd_frame ?_ ?_)
    | with_reducible apply Frame.trans (k := checked8_frame ?_ ?_)
    | with_reducible apply Frame.app (k := holdReply_frame)
    | with_reducible apply Frame.app (k := modRtc_frame)
    | with_reducible apply Frames.next
    | dsimp only
    | split
    | intro _

theorem commitLoad_frame {a0 s1} : Frame [.rtc, .mbx, .cmd, .evr, .out] s1 (commitLoad a0 s1) := by
  unfold commitLoad
  repeat' first
    | with_reducible exact Frame.refl _ _
    | exact rfl
    | with_reducible apply Frame.ite
    | with_reducible apply Frame.app (k := rtcLoad_frame)
    | with_reducible apply Frame.app (k := modRtc_frame)
    | dsimp only
    | split
    | intro _

theorem execRtcDisciplineStep_frame {a0 s1} : Frames [.rtc, .mbx, .cmd, .evr, .now, .out] s1 (execRtcDisciplineStep a0 s1) := by
  unfold execRtcDisciplineStep
  repeat' first
    | with_reducible exact Frame.refl _ _
    | exact rfl
    | with_reducible apply Frames.ite
    | with_reducible apply Frame.app (k := atTime_frame)
    | with_reducible apply Frame.app (k := commitLoad_frame)
    | with_reducible apply Frame.app (k := modRtc_frame)
    | with_reducible apply Frames.next
    | dsimp only
    | split
    | intro _

theorem rtcLost_frame {s0} : Frame [.rtc] s0 (rtcLost s0) := by
  unfold rtcLost
  repeat' first
    | with_reducible exact Frame.refl _ _
    | exact rfl
    | with_reducible apply Frame.app (k := modRtc_frame)
    | dsimp only
    | split
    | intro _

theorem execBackupSupplySwitch_frame {a0 a1 s2} : Frames [.rtc, .evr, .now, .out] s2 (execBackupSupplySwitch a0 a1 s2) := by
  unfold execBackupSupplySwitch
  repeat' first
    | with_reducible exact Frame.refl _ _
    | exact rfl
    | with_reducible apply Frames.ite
    | with_reducible apply Frame.app (k := atTime_frame)
    | with_reducible apply Frame.app (k := modRtc_frame)
    | with_reducible apply Frames.next
    | dsimp only
    | split
    | intro _

theorem execRtcCommitLoad_frame {a0 s1} : Frames [.rtc, .mbx, .cmd, .evr, .now, .out] s1 (execRtcCommitLoad a0 s1) := by
  unfold execRtcCommitLoad
  repeat' first
    | with_reducible exact Frame.refl _ _
    | exact rfl
    | with_reducible apply Frame.app (k := atTime_frame)
    | with_reducible apply Frame.app (k := commitLoad_frame)
    | with_reducible apply Frames.next
    | dsimp only
    | split
    | intro _

theorem rtcMeasure_frame {s0} : Frame [.rtc] s0 (rtcMeasure s0) := by
  unfold rtcMeasure
  repeat' first
    | with_reducible exact Frame.refl _ _
    | exact rfl
    | with_reducible apply Frame.ite
    | with_reducible apply Frame.app (k := modRtc_frame)
    | dsimp only
    | split
    | intro _

theorem execRtcSecondRollover_frame {a0 s1} : Frames [.acq, .flt, .trg, .sve, .cyc, .tbs, .rtc, .evr, .now, .out] s1 (execRtcSecondRollover a0 s1) := by
  unfold execRtcSecondRollover
  repeat' first
    | with_reducible exact Frame.refl _ _
    | exact rfl
    | with_reducible apply Frames.ite
    | with_reducible apply Frame.app (k := atTime_frame)
    | with_reducible apply Frame.app (k := modRtc_frame)
    | with_reducible apply Frame.app (k := seedBases_frame)
    | with_reducible apply Frame.app (k := rtcMeasure_frame)
    | with_reducible apply Frames.next
    | dsimp only
    | split
    | intro _

theorem execVbatSample_frame {a0 a1 s2} : Frames [.rtc, .evr, .now, .out] s2 (execVbatSample a0 a1 s2) := by
  unfold execVbatSample
  repeat' first
    | with_reducible exact Frame.refl _ _
    | exact rfl
    | with_reducible apply Frames.ite
    | with_reducible apply Frame.app (k := atTime_frame)
    | with_reducible apply Frame.app (k := modRtc_frame)
    | with_reducible apply Frame.app (k := ev_frame)
    | with_reducible apply Frames.next
    | dsimp only
    | split
    | intro _

theorem execRtcGet_frame {a0 a1 s2} : Frames [.rtc, .mbx, .cmd, .evr, .now, .out] s2 (execRtcGet a0 a1 s2) := by
  unfold execRtcGet
  repeat' first
    | with_reducible exact Frame.refl _ _
    | exact rfl
    | with_reducible apply Frame.app (k := atTime_frame)
    | with_reducible apply Frame.trans (k := runCmd_frame ?_ ?_)
    | with_reducible apply Frame.trans (k := checked_frame ?_ ?_)
    | with_reducible apply Frame.app (k := takeCopy_frame)
    | with_reducible apply Frame.app (k := reply_frame)
    | with_reducible apply Frames.next
    | dsimp only
    | split
    | intro _

end Sys2Proof.Machine
end

