-- ==== Sys2Proof/Laws/Frames/Wake.lean ====
section
/-! SUPPORT. What each operation of Machine/Wake.lean may change. -/

namespace Sys2Proof.Machine

theorem wakeStart_frame {a0 s1} : Frame [.evr, .pwr] s1 (wakeStart a0 s1) := by
  unfold wakeStart
  repeat' first
    | with_reducible exact Frame.refl _ _
    | exact rfl
    | with_reducible apply Frame.ite
    | with_reducible apply Frame.app (k := ev_frame)
    | simp (disch := decide) only [↓Frame.of_set_pwr]
    | split
    | intro _

end Sys2Proof.Machine
end

