-- ==== Sys2Proof/Laws/Frames/Network.lean ====
section
/-! SUPPORT. What each operation of Machine/Network.lean may change. -/

namespace Sys2Proof.Machine

theorem wrongLan_frame {a0 a1 s2} : Frame [.red, .evr] s2 (wrongLan a0 a1 s2) := by
  unfold wrongLan
  repeat' first
    | with_reducible exact Frame.refl _ _
    | exact rfl
    | with_reducible apply Frame.ite
    | with_reducible apply Frame.app (k := modPair_frame)
    | with_reducible apply Frame.app (k := ev_frame)
    | dsimp only
    | split
    | intro _

theorem nodesFull_frame {a0 s1} : Frame [.red, .evr] s1 (nodesFull a0 s1) := by
  unfold nodesFull
  repeat' first
    | with_reducible exact Frame.refl _ _
    | exact rfl
    | with_reducible apply Frame.ite
    | with_reducible apply Frame.app (k := modPair_frame)
    | with_reducible apply Frame.app (k := ev_frame)
    | dsimp only
    | split
    | intro _

theorem prpReceive_frame {a0 a1 a2 a3 a4 s5} : Frame [.red, .evr] s5 (prpReceive a0 a1 a2 a3 a4 s5).2 := by
  unfold prpReceive
  repeat' first
    | with_reducible exact Frame.refl _ _
    | exact rfl
    | with_reducible apply Frame.ite_snd
    | with_reducible apply Frame.app (k := modPair_frame)
    | with_reducible apply Frame.app (k := wrongLan_frame)
    | with_reducible apply Frame.app (k := nodesFull_frame)
    | with_reducible apply Frame.ite
    | dsimp only
    | split
    | intro _

theorem stage567_frame {a0 a1 a2 a3 s4} : Frame [.tbs, .mac, .red, .swc, .vfm, .evr, .out] s4 (stage567 a0 a1 a2 a3 s4) := by
  unfold stage567
  repeat' first
    | with_reducible exact Frame.refl _ _
    | exact rfl
    | with_reducible apply Frame.ite
    | with_reducible apply Frame.app (k := swcIn_frame)
    | with_reducible apply Frame.app (k := prpReceive_frame)
    | with_reducible apply Frame.app (k := modPair_frame)
    | dsimp only
    | split
    | with_reducible refine Frame.app ?_ (Frame.snd (by assumption) (prpReceive_frame ..)) ?_
    | intro _

theorem linkWake_frame {a0 s1} : Frame [.mac, .evr, .pwr] s1 (linkWake a0 s1) := by
  unfold linkWake
  repeat' first
    | with_reducible exact Frame.refl _ _
    | exact rfl
    | with_reducible apply Frame.ite
    | with_reducible apply Frame.app (k := wakeStart_frame)
    | with_reducible apply Frame.app (k := modMac_frame)
    | dsimp only
    | split
    | intro _

theorem pauseAccrue_frame {a0 s1} : Frame [.mac] s1 (pauseAccrue a0 s1) := by
  unfold pauseAccrue
  repeat' first
    | with_reducible exact Frame.refl _ _
    | exact rfl
    | with_reducible apply Frame.app (k := modMac_frame)
    | with_reducible apply Frame.app (k := macCount_frame)
    | dsimp only
    | split
    | intro _

theorem pauseEnds_frame {a0 s1} : Frame [.mac] s1 (pauseEnds a0 s1) := by
  unfold pauseEnds
  repeat' first
    | with_reducible exact Frame.refl _ _
    | exact rfl
    | with_reducible apply Frame.app (k := modMac_frame)
    | with_reducible apply Frame.app (k := pauseAccrue_frame)
    | dsimp only
    | split
    | intro _

theorem holdUpdate_frame {a0 a1 s2} : Frame [.red] s2 (holdUpdate a0 a1 s2) := by
  unfold holdUpdate
  repeat' first
    | with_reducible exact Frame.refl _ _
    | exact rfl
    | with_reducible apply Frame.ite
    | with_reducible apply Frame.app (k := modPair_frame)
    | dsimp only
    | split
    | intro _

theorem failover_frame {a0 a1 a2 a3 s4} : Frame [.red, .evr, .freeCtr] s4 (failover a0 a1 a2 a3 s4) := by
  unfold failover
  repeat' first
    | with_reducible exact Frame.refl _ _
    | exact rfl
    | with_reducible apply Frame.app (k := modPair_frame)
    | with_reducible apply Frame.app (k := drawFree_frame)
    | with_reducible apply Frame.app (k := holdUpdate_frame)
    | with_reducible apply Frame.app (k := ev_frame)
    | dsimp only
    | split
    | with_reducible refine Frame.app ?_ (Frame.snd (by assumption) (drawFree_frame ..)) ?_
    | intro _

theorem revertAbort_frame {a0 s1} : Frame [.red, .evr] s1 (revertAbort a0 s1) := by
  unfold revertAbort
  repeat' first
    | with_reducible exact Frame.refl _ _
    | exact rfl
    | with_reducible apply Frame.app (k := modPair_frame)
    | with_reducible apply Frame.app (k := holdUpdate_frame)
    | with_reducible apply Frame.app (k := ev_frame)
    | dsimp only
    | split
    | intro _

theorem revertDone_frame {a0 a1 s2} : Frame [.red, .evr] s2 (revertDone a0 a1 s2) := by
  unfold revertDone
  repeat' first
    | with_reducible exact Frame.refl _ _
    | exact rfl
    | with_reducible apply Frame.ite
    | with_reducible apply Frame.app (k := modPair_frame)
    | with_reducible apply Frame.app (k := holdUpdate_frame)
    | with_reducible apply Frame.app (k := ev_frame)
    | dsimp only
    | split
    | intro _

theorem bracketLink_frame {a0 a1 s2} : Frame [.red, .evr, .freeCtr] s2 (bracketLink a0 a1 s2) := by
  unfold bracketLink
  repeat' first
    | with_reducible exact Frame.refl _ _
    | exact rfl
    | with_reducible apply Frame.ite
    | with_reducible apply Frame.app (k := modPair_frame)
    | with_reducible apply Frame.app (k := failover_frame)
    | with_reducible apply Frame.app (k := revertAbort_frame)
    | with_reducible apply Frame.app (k := revertDone_frame)
    | with_reducible apply Frame.app (k := holdUpdate_frame)
    | dsimp only
    | split
    | intro _

theorem pair0Changed_frame {s0} : Frame [.red] s0 (pair0Changed s0) := by
  unfold pair0Changed
  repeat' first
    | with_reducible exact Frame.refl _ _
    | exact rfl
    | with_reducible apply Frame.ite
    | simp (disch := decide) only [↓Frame.of_set_red]
    | split
    | intro _

theorem linkChange_frame {a0 a1 s2} : Frame [.mac, .red, .swc, .evr, .out, .freeCtr] s2 (linkChange a0 a1 s2) := by
  unfold linkChange
  repeat' first
    | with_reducible exact Frame.refl _ _
    | exact rfl
    | with_reducible apply Frame.ite
    | with_reducible apply Frame.app (k := pauseEnds_frame)
    | with_reducible apply Frame.app (k := modMac_frame)
    | with_reducible apply Frame.app (k := ev_frame)
    | with_reducible apply Frame.app (k := swcFlush_frame)
    | with_reducible apply Frame.app (k := bracketLink_frame)
    | with_reducible apply Frame.app (k := pair0Changed_frame)
    | dsimp only
    | split
    | intro _

theorem setLink_frame {a0 a1 s2} : Frame [.mac, .red, .swc, .evr, .pwr, .out, .freeCtr] s2 (setLink a0 a1 s2) := by
  unfold setLink
  repeat' first
    | with_reducible exact Frame.refl _ _
    | exact rfl
    | with_reducible apply Frame.app (k := linkWake_frame)
    | with_reducible apply Frame.app (k := linkChange_frame)
    | dsimp only
    | split
    | intro _

theorem setMacCtl_frame {a0 a1 s2} : Frame [.mac, .red, .swc, .evr, .pwr, .out, .freeCtr] s2 (setMacCtl a0 a1 s2) := by
  unfold setMacCtl
  repeat' first
    | with_reducible exact Frame.refl _ _
    | exact rfl
    | with_reducible apply Frame.ite
    | with_reducible apply Frame.app (k := setLink_frame)
    | with_reducible apply Frame.app (k := modMac_frame)
    | dsimp only
    | split
    | intro _

theorem netPortApply_frame {a0 s1} : Frame [.mac, .red, .swc, .evr, .pwr, .out, .freeCtr] s1 (netPortApply a0 s1) := by
  unfold netPortApply
  repeat' first
    | with_reducible exact Frame.refl _ _
    | exact rfl
    | with_reducible apply Frame.app (k := modMac_frame)
    | with_reducible apply Frame.app (k := setMacCtl_frame)
    | dsimp only
    | split
    | intro _

theorem linkCond_frame {a0 a1 s2} : Frame [.mac] s2 (linkCond a0 a1 s2) := by
  unfold linkCond
  repeat' first
    | with_reducible exact Frame.refl _ _
    | exact rfl
    | with_reducible apply Frame.ite
    | with_reducible apply Frame.app (k := modMac_frame)
    | dsimp only
    | split
    | intro _

theorem countGood_frame {a0 a1 s2} : Frame [.mac] s2 (countGood a0 a1 s2) := by
  unfold countGood
  repeat' first
    | with_reducible exact Frame.refl _ _
    | exact rfl
    | with_reducible apply Frame.ite
    | with_reducible apply Frame.app (k := macCount_frame)
    | dsimp only
    | split
    | intro _

theorem execLinkDown_frame {a0 a1 a2 s3} : Frames [.mac, .red, .swc, .evr, .pwr, .now, .out, .freeCtr] s3 (execLinkDown a0 a1 a2 s3) := by
  unfold execLinkDown
  repeat' first
    | with_reducible exact Frame.refl _ _
    | exact rfl
    | with_reducible apply Frames.ite
    | with_reducible apply Frame.app (k := atTime_frame)
    | with_reducible apply Frame.app (k := linkCond_frame)
    | with_reducible apply Frame.app (k := setLink_frame)
    | with_reducible apply Frames.next
    | dsimp only
    | split
    | intro _

theorem pairNote_frame {a0 a1 a2 a3 s4} : Frame [.red] s4 (pairNote a0 a1 a2 a3 s4).2 := by
  unfold pairNote
  repeat' first
    | with_reducible exact Frame.refl _ _
    | exact rfl
    | with_reducible apply Frame.ite_snd
    | with_reducible apply Frame.app (k := modPair_frame)
    | with_reducible apply Frame.ite
    | dsimp only
    | split
    | intro _

theorem pauseReceive_frame {a0 a1 s2} : Frame [.mac, .evr] s2 (pauseReceive a0 a1 s2) := by
  unfold pauseReceive
  repeat' first
    | with_reducible exact Frame.refl _ _
    | exact rfl
    | with_reducible apply Frame.ite
    | with_reducible apply Frame.app (k := macCount_frame)
    | with_reducible apply Frame.app (k := pauseAccrue_frame)
    | with_reducible apply Frame.app (k := modMac_frame)
    | with_reducible apply Frame.app (k := ev_frame)
    | dsimp only
    | split
    | intro _

theorem execPauseRefresh_frame {a0 a1 s2} : Frames [.mac, .swc, .evr, .now, .out] s2 (execPauseRefresh a0 a1 s2) := by
  unfold execPauseRefresh
  repeat' first
    | with_reducible exact Frame.refl _ _
    | exact rfl
    | with_reducible apply Frames.ite
    | with_reducible apply Frame.app (k := swcSettle_frame)
    | with_reducible apply Frame.app (k := atTime_frame)
    | with_reducible apply Frame.app (k := sendPause_frame)
    | with_reducible apply Frame.app (k := modMac_frame)
    | with_reducible apply Frame.app (k := pauseCheck_frame)
    | with_reducible apply Frames.next
    | dsimp only
    | split
    | intro _

theorem execPauseExpire_frame {a0 a1 s2} : Frames [.mac, .evr, .now, .out] s2 (execPauseExpire a0 a1 s2) := by
  unfold execPauseExpire
  repeat' first
    | with_reducible exact Frame.refl _ _
    | exact rfl
    | with_reducible apply Frames.ite
    | with_reducible apply Frame.app (k := atTime_frame)
    | with_reducible apply Frame.app (k := pauseEnds_frame)
    | with_reducible apply Frames.next
    | dsimp only
    | split
    | intro _

theorem execPauseReceive_frame {a0 a1 a2 s3} : Frames [.mac, .evr, .now, .out] s3 (execPauseReceive a0 a1 a2 s3) := by
  unfold execPauseReceive
  repeat' first
    | with_reducible exact Frame.refl _ _
    | exact rfl
    | with_reducible apply Frames.ite
    | with_reducible apply Frame.app (k := atTime_frame)
    | with_reducible apply Frame.app (k := pauseReceive_frame)
    | with_reducible apply Frames.next
    | dsimp only
    | split
    | intro _

theorem netFilterApply_frame {a0 s1} : Frame [.mac] s1 (netFilterApply a0 s1) := by
  unfold netFilterApply
  repeat' first
    | with_reducible exact Frame.refl _ _
    | exact rfl
    | with_reducible apply Frame.app (k := modMac_frame)
    | dsimp only
    | split
    | intro _

theorem netWakeApply_frame {a0 s1} : Frame [.mac] s1 (netWakeApply a0 s1) := by
  unfold netWakeApply
  repeat' first
    | with_reducible exact Frame.refl _ _
    | exact rfl
    | with_reducible apply Frame.app (k := modMac_frame)
    | dsimp only
    | split
    | intro _

theorem execPrpSupervisionTransmit_frame {a0 a1 s2} : Frames [.tbs, .mac, .red, .swc, .vfm, .evr, .now, .out] s2 (execPrpSupervisionTransmit a0 a1 s2) := by
  unfold execPrpSupervisionTransmit
  repeat' first
    | with_reducible exact Frame.refl _ _
    | exact rfl
    | with_reducible apply Frames.ite
    | with_reducible apply Frame.app (k := atTime_frame)
    | with_reducible apply Frame.app (k := modPair_frame)
    | with_reducible apply Frame.app (k := swcOwn_frame)
    | with_reducible apply Frames.next
    | dsimp only
    | split
    | intro _

theorem pairRestart_frame {a0 s1} : Frame [.red] s1 (pairRestart a0 s1) := by
  unfold pairRestart
  repeat' first
    | with_reducible exact Frame.refl _ _
    | exact rfl
    | with_reducible apply Frame.app (k := modPair_frame)
    | dsimp only
    | split
    | intro _

theorem stage4_frame {a0 a1 a2 a3 s4} : Frame [.tbs, .mac, .red, .swc, .vfm, .evr, .out] s4 (stage4 a0 a1 a2 a3 s4) := by
  unfold stage4
  repeat' first
    | with_reducible exact Frame.refl _ _
    | exact rfl
    | with_reducible apply Frame.ite
    | with_reducible apply Frame.app (k := stage567_frame)
    | with_reducible apply Frame.app (k := macCount_frame)
    | dsimp only
    | split
    | intro _

theorem execNetCounters_frame {a0 a1 a2 s3} : Frames [.mac, .red, .mbx, .cmd, .evr, .now, .out] s3 (execNetCounters a0 a1 a2 s3) := by
  unfold execNetCounters
  repeat' first
    | with_reducible exact Frame.refl _ _
    | exact rfl
    | with_reducible apply Frames.ite
    | with_reducible apply Frame.app (k := atTime_frame)
    | with_reducible apply Frame.trans (k := runCmd_frame ?_ ?_)
    | with_reducible apply Frame.trans (k := checked_frame ?_ ?_)
    | with_reducible apply Frame.app (k := pauseAccrue_frame)
    | with_reducible apply Frame.app (k := reply_frame)
    | with_reducible apply Frame.app (k := modMac_frame)
    | with_reducible apply Frame.app (k := modPair_frame)
    | with_reducible apply Frames.next
    | dsimp only
    | split
    | intro _

theorem execRevertHoldExpire_frame {a0 a1 s2} : Frames [.red, .evr, .now, .out] s2 (execRevertHoldExpire a0 a1 s2) := by
  unfold execRevertHoldExpire
  repeat' first
    | with_reducible exact Frame.refl _ _
    | exact rfl
    | with_reducible apply Frames.ite
    | with_reducible apply Frame.app (k := atTime_frame)
    | with_reducible apply Frame.app (k := modPair_frame)
    | with_reducible apply Frame.app (k := revertDone_frame)
    | with_reducible apply Frames.next
    | dsimp only
    | split
    | intro _

theorem frameMissed_frame {a0 a1 a2 a3 s4} : Frame [.red, .evr, .freeCtr] s4 (frameMissed a0 a1 a2 a3 s4) := by
  unfold frameMissed
  repeat' first
    | with_reducible exact Frame.refl _ _
    | exact rfl
    | with_reducible apply Frame.ite
    | with_reducible apply Frame.app (k := modPair_frame)
    | with_reducible apply Frame.app (k := revertAbort_frame)
    | with_reducible apply Frame.app (k := failover_frame)
    | with_reducible apply Frame.app (k := ev_frame)
    | with_reducible apply Frame.app (k := holdUpdate_frame)
    | dsimp only
    | split
    | intro _

theorem execBracketMissDecide_frame {a0 a1 a2 a3 s4} : Frames [.red, .evr, .now, .out, .freeCtr] s4 (execBracketMissDecide a0 a1 a2 a3 s4) := by
  unfold execBracketMissDecide
  repeat' first
    | with_reducible exact Frame.refl _ _
    | exact rfl
    | with_reducible apply Frames.ite
    | with_reducible apply Frame.app (k := atTime_frame)
    | with_reducible apply Frame.app (k := frameMissed_frame)
    | with_reducible apply Frame.app (k := modPair_frame)
    | with_reducible apply Frames.next
    | dsimp only
    | split
    | intro _

theorem streamSwitch_frame {a0 a1 s2} : Frame [.red, .evr] s2 (streamSwitch a0 a1 s2) := by
  unfold streamSwitch
  repeat' first
    | with_reducible exact Frame.refl _ _
    | exact rfl
    | with_reducible apply Frame.ite
    | with_reducible apply Frame.app (k := modPair_frame)
    | with_reducible apply Frame.app (k := revertDone_frame)
    | dsimp only
    | split
    | intro _

theorem execLinkUp_frame {a0 a1 a2 s3} : Frames [.mac, .red, .swc, .evr, .pwr, .now, .out, .freeCtr] s3 (execLinkUp a0 a1 a2 s3) := by
  unfold execLinkUp
  repeat' first
    | with_reducible exact Frame.refl _ _
    | exact rfl
    | with_reducible apply Frames.ite
    | with_reducible apply Frame.app (k := atTime_frame)
    | with_reducible apply Frame.app (k := linkCond_frame)
    | with_reducible apply Frame.app (k := setLink_frame)
    | with_reducible apply Frame.app (k := modMac_frame)
    | with_reducible apply Frames.next
    | dsimp only
    | split
    | intro _

theorem wakePatterns_frame {a0 a1 s2} : Frame [.mac, .evr, .pwr] s2 (wakePatterns a0 a1 s2) := by
  unfold wakePatterns
  repeat' first
    | with_reducible exact Frame.refl _ _
    | exact rfl
    | with_reducible apply Frame.ite
    | with_reducible apply Frame.app (k := modMac_frame)
    | with_reducible apply Frame.app (k := wakeStart_frame)
    | with_reducible apply Frame.trans (k := Frame.foldOver ?_ _ _)
    | with_reducible apply Frame.trans (k := Frame.foldOver_snd ?_ _ _)
    | dsimp only
    | split
    | intro _

theorem execPrpNodeForget_frame {a0 a1 a2 s3} : Frames [.red, .evr, .now, .out] s3 (execPrpNodeForget a0 a1 a2 s3) := by
  unfold execPrpNodeForget
  repeat' first
    | with_reducible exact Frame.refl _ _
    | exact rfl
    | with_reducible apply Frame.app (k := atTime_frame)
    | with_reducible apply Frame.app (k := modPair_frame)
    | with_reducible apply Frames.next
    | dsimp only
    | split
    | intro _

theorem execStandbyFaultClear_frame {a0 a1 s2} : Frames [.red, .evr, .now, .out] s2 (execStandbyFaultClear a0 a1 s2) := by
  unfold execStandbyFaultClear
  repeat' first
    | with_reducible exact Frame.refl _ _
    | exact rfl
    | with_reducible apply Frames.ite
    | with_reducible apply Frame.app (k := atTime_frame)
    | with_reducible apply Frame.app (k := ev_frame)
    | with_reducible apply Frame.app (k := modPair_frame)
    | with_reducible apply Frames.next
    | dsimp only
    | split
    | intro _

theorem execFrameReceive_frame {a0 a1 s2} : Frames [.tbs, .mac, .red, .swc, .vfm, .evr, .pwr, .now, .out] s2 (execFrameReceive a0 a1 s2) := by
  unfold execFrameReceive
  repeat' first
    | with_reducible exact Frame.refl _ _
    | exact rfl
    | with_reducible apply Frames.ite
    | with_reducible apply Frame.app (k := atTime_frame)
    | with_reducible apply Frame.app (k := macCount_frame)
    | with_reducible apply Frame.app (k := stage4_frame)
    | with_reducible apply Frame.app (k := countGood_frame)
    | with_reducible apply Frame.app (k := pauseReceive_frame)
    | with_reducible apply Frame.app (k := wakePatterns_frame)
    | with_reducible apply Frames.next
    | dsimp only
    | split
    | intro _

end Sys2Proof.Machine
end

