-- ==== Sys2Proof/Laws/Frames/Goose.lean ====
section
/-! SUPPORT. What each operation of Machine/Goose.lean may change. -/

namespace Sys2Proof.Machine

theorem modGsub_frame {a0 a1 s2} : Frame [.sve] s2 (modGsub a0 a1 s2) := by
  unfold modGsub
  repeat' first
    | with_reducible exact Frame.refl _ _
    | exact rfl
    | with_reducible apply Frame.app (k := modSve_frame)
    | dsimp only
    | split
    | intro _

theorem setGBit_frame {a0 a1 a2 a3 s4} : Frame [.trg, .sve] s4 (setGBit a0 a1 a2 a3 s4) := by
  unfold setGBit
  repeat' first
    | with_reducible exact Frame.refl _ _
    | exact rfl
    | with_reducible apply Frame.ite
    | with_reducible apply Frame.app (k := modSve_frame)
    | with_reducible apply Frame.app (k := srcEdge_frame)
    | dsimp only
    | split
    | intro _

theorem gooseDeliver_frame {s0 a1 s2} : Frame [.vfm, .evr, .out] s2 (gooseDeliver s0 a1 s2) := by
  unfold gooseDeliver
  repeat' first
    | with_reducible exact Frame.refl _ _
    | exact rfl
    | with_reducible apply Frame.ite
    | with_reducible apply Frame.app (k := deliverBound_frame)
    | dsimp only
    | split
    | intro _

theorem setGBits_frame {a0 a1 s2} : Frame [.trg, .sve, .trp, .cyc, .tbs, .mac, .red, .swc, .vfm, .evr, .out] s2 (setGBits a0 a1 s2) := by
  unfold setGBits
  repeat' first
    | with_reducible exact Frame.refl _ _
    | exact rfl
    | with_reducible apply Frame.app (k := setGBit_frame)
    | with_reducible apply Frame.app (k := settle_frame)
    | with_reducible apply Frame.app (k := gooseDeliver_frame)
    | with_reducible apply Frame.trans (k := Frame.foldOver ?_ _ _)
    | with_reducible apply Frame.trans (k := Frame.foldOver_snd ?_ _ _)
    | dsimp only
    | split
    | intro _

theorem execGooseTalExpire_frame {a0 a1 s2} : Frames [.trg, .sve, .trp, .cyc, .tbs, .mac, .red, .swc, .vfm, .evr, .now, .out] s2 (execGooseTalExpire a0 a1 s2) := by
  unfold execGooseTalExpire
  repeat' first
    | with_reducible exact Frame.refl _ _
    | exact rfl
    | with_reducible apply Frames.ite
    | with_reducible apply Frame.app (k := atTime_frame)
    | with_reducible apply Frame.app (k := modGsub_frame)
    | with_reducible apply Frame.app (k := ev_frame)
    | with_reducible apply Frame.app (k := setGBits_frame)
    | with_reducible apply Frames.next
    | dsimp only
    | split
    | intro _

theorem gooseStage_frame {s0 a1} : Frame [.red, .evr] s0 (gooseStage s0 a1).2 := by
  unfold gooseStage
  repeat' first
    | with_reducible exact Frame.refl _ _
    | exact rfl
    | with_reducible apply Frame.ite_snd
    | with_reducible apply Frame.app (k := prpReceive_frame)
    | with_reducible apply Frame.ite
    | dsimp only
    | split
    | with_reducible refine Frame.app ?_ (Frame.snd (by assumption) (prpReceive_frame ..)) ?_
    | intro _

theorem gooseTake_frame {a0 a1 a2 s3} : Frame [.trg, .sve, .trp, .cyc, .tbs, .mac, .red, .swc, .vfm, .evr, .out] s3 (gooseTake a0 a1 a2 s3) := by
  unfold gooseTake
  repeat' first
    | with_reducible exact Frame.refl _ _
    | exact rfl
    | with_reducible apply Frame.ite
    | with_reducible apply Frame.app (k := modGsub_frame)
    | with_reducible apply Frame.app (k := ev_frame)
    | with_reducible apply Frame.app (k := setGBits_frame)
    | dsimp only
    | split
    | intro _

theorem execGooseFrameReceive_frame {a0 a1 s2} : Frames [.trg, .sve, .trp, .cyc, .tbs, .mac, .red, .swc, .vfm, .evr, .now, .out] s2 (execGooseFrameReceive a0 a1 s2) := by
  unfold execGooseFrameReceive
  repeat' first
    | with_reducible exact Frame.refl _ _
    | exact rfl
    | with_reducible apply Frames.ite
    | with_reducible apply Frame.app (k := atTime_frame)
    | with_reducible apply Frame.app (k := gooseStage_frame)
    | with_reducible apply Frame.app (k := gooseTake_frame)
    | with_reducible apply Frame.app (k := modGsub_frame)
    | with_reducible apply Frames.next
    | dsimp only
    | split
    | with_reducible refine Frame.app ?_ (Frame.snd (by assumption) (gooseStage_frame ..)) ?_
    | intro _

theorem gpubApply_frame {a0 s1} : Frame [.sve, .tbs, .mac, .red, .swc, .vfm, .evr, .out] s1 (gpubApply a0 s1) := by
  unfold gpubApply
  repeat' first
    | with_reducible exact Frame.refl _ _
    | exact rfl
    | with_reducible apply Frame.ite
    | with_reducible apply Frame.app (k := modSve_frame)
    | with_reducible apply Frame.app (k := gooseCheck_frame)
    | dsimp only
    | split
    | intro _

theorem gsubDrop_frame {a0 s1} : Frame [.trg, .sve, .trp, .cyc, .tbs, .mac, .red, .swc, .vfm, .evr, .out] s1 (gsubDrop a0 s1) := by
  unfold gsubDrop
  repeat' first
    | with_reducible exact Frame.refl _ _
    | exact rfl
    | with_reducible apply Frame.app (k := modSwc_frame)
    | with_reducible apply Frame.app (k := modSve_frame)
    | with_reducible apply Frame.app (k := setGBits_frame)
    | dsimp only
    | split
    | intro _

theorem gsubApply_frame {a0 s1} : Frame [.trg, .sve, .trp, .cyc, .tbs, .mac, .red, .swc, .vfm, .evr, .out] s1 (gsubApply a0 s1) := by
  unfold gsubApply
  repeat' first
    | with_reducible exact Frame.refl _ _
    | exact rfl
    | with_reducible apply Frame.ite
    | with_reducible apply Frame.app (k := gsubDrop_frame)
    | with_reducible apply Frame.app (k := modSwc_frame)
    | with_reducible apply Frame.app (k := modSve_frame)
    | dsimp only
    | split
    | intro _

theorem execGooseRetransmit_frame {a0 a1 s2} : Frames [.sve, .tbs, .mac, .red, .swc, .vfm, .evr, .now, .out] s2 (execGooseRetransmit a0 a1 s2) := by
  unfold execGooseRetransmit
  repeat' first
    | with_reducible exact Frame.refl _ _
    | exact rfl
    | with_reducible apply Frames.ite
    | with_reducible apply Frame.app (k := atTime_frame)
    | with_reducible apply Frame.app (k := modSve_frame)
    | with_reducible apply Frame.app (k := gooseChange_frame)
    | with_reducible apply Frame.app (k := gooseSend_frame)
    | with_reducible apply Frames.next
    | dsimp only
    | split
    | intro _

end Sys2Proof.Machine
end

