-- ==== Sys2Proof/Laws/Frames/Logic.lean ====
section
/-! SUPPORT. What each operation of Machine/Logic.lean may change. -/

namespace Sys2Proof.Machine

theorem takeTurn_frame {a0 s1} : Frame [.cyc] s1 (takeTurn a0 s1) := by
  unfold takeTurn
  repeat' first
    | with_reducible exact Frame.refl _ _
    | exact rfl
    | with_reducible apply Frame.ite
    | with_reducible apply Frame.app (k := modTask_frame)
    | with_reducible apply Frame.trans (k := Frame.foldOver ?_ _ _)
    | with_reducible apply Frame.trans (k := Frame.foldOver_snd ?_ _ _)
    | dsimp only
    | split
    | intro _

theorem tasksStop.modCyc_frame {a0 s1} : Frame [.cyc] s1 (tasksStop.modCyc a0 s1) := by
  unfold tasksStop.modCyc
  repeat' first
    | with_reducible exact Frame.refl _ _
    | exact rfl
    | simp (disch := decide) only [↓Frame.of_set_cyc]
    | split
    | intro _

theorem setQM_frame {a0 a1 a2 a3 s4} : Frame [.trg, .cyc] s4 (setQM a0 a1 a2 a3 s4) := by
  unfold setQM
  repeat' first
    | with_reducible exact Frame.refl _ _
    | exact rfl
    | with_reducible apply Frame.ite
    | with_reducible apply Frame.app (k := srcEdge_frame)
    | with_reducible apply Frame.app (k := modTrg_frame)
    | simp (disch := decide) only [↓Frame.of_set_cyc]
    | split
    | intro _

theorem changeApply_frame {a0 a1 a2 s3} : Frame [.trg, .cyc, .cmd, .evr] s3 (changeApply a0 a1 a2 s3) := by
  unfold changeApply
  repeat' first
    | with_reducible exact Frame.refl _ _
    | exact rfl
    | with_reducible apply Frame.ite
    | with_reducible apply Frame.app (k := modTask_frame)
    | with_reducible apply Frame.app (k := setQM_frame)
    | with_reducible apply Frame.app (k := evBy_frame)
    | with_reducible apply Frame.trans (k := Frame.foldOver ?_ _ _)
    | with_reducible apply Frame.trans (k := Frame.foldOver_snd ?_ _ _)
    | with_reducible apply Frame.trans (k := Frame.foldl ?_ _ _)
    | simp (disch := decide) only [↓Frame.of_set_cmd]
    | split
    | intro _

theorem changeDue_frame {a0 s1} : Frame [.trg, .cyc, .mbx, .cmd, .evr, .out] s1 (changeDue a0 s1) := by
  unfold changeDue
  repeat' first
    | with_reducible exact Frame.refl _ _
    | exact rfl
    | with_reducible apply Frame.app (k := changeApply_frame)
    | with_reducible apply Frame.app (k := finish_frame)
    | dsimp only
    | split
    | intro _

theorem tasksStop_frame {s0} : Frame [.trg, .cyc, .mbx, .cmd, .evr, .out] s0 (tasksStop s0) := by
  unfold tasksStop
  repeat' first
    | with_reducible exact Frame.refl _ _
    | exact rfl
    | with_reducible apply Frame.app (k := tasksStop.modCyc_frame)
    | with_reducible apply Frame.app (k := changeDue_frame)
    | with_reducible apply Frame.app (k := setQM_frame)
    | with_reducible apply Frame.trans (k := Frame.foldOver ?_ _ _)
    | with_reducible apply Frame.trans (k := Frame.foldOver_snd ?_ _ _)
    | dsimp only
    | split
    | intro _

theorem logShedEvent_frame {s0} : Frame [.evr] s0 (logShedEvent s0) := by
  unfold logShedEvent
  repeat' first
    | with_reducible exact Frame.refl _ _
    | exact rfl
    | with_reducible apply Frame.ite
    | with_reducible apply Frame.app (k := evBy_frame)
    | dsimp only
    | split
    | intro _

theorem suspendTask_frame {a0 s1} : Frame [.trg, .cyc] s1 (suspendTask a0 s1) := by
  unfold suspendTask
  repeat' first
    | with_reducible exact Frame.refl _ _
    | exact rfl
    | with_reducible apply Frame.ite
    | with_reducible apply Frame.app (k := modTask_frame)
    | with_reducible apply Frame.app (k := setQM_frame)
    | with_reducible apply Frame.trans (k := Frame.foldOver ?_ _ _)
    | with_reducible apply Frame.trans (k := Frame.foldOver_snd ?_ _ _)
    | dsimp only
    | split
    | intro _

theorem tasksShed_frame {s0} : Frame [.trg, .sve, .trp, .cyc, .tbs, .mac, .red, .swc, .vfm, .mbx, .cmd, .evr, .out] s0 (tasksShed s0) := by
  unfold tasksShed
  repeat' first
    | with_reducible exact Frame.refl _ _
    | exact rfl
    | with_reducible apply Frame.ite
    | with_reducible apply Frame.app (k := logShedEvent_frame)
    | with_reducible apply Frame.app (k := suspendTask_frame)
    | with_reducible apply Frame.app (k := settle_frame)
    | with_reducible apply Frame.app (k := changeDue_frame)
    | with_reducible apply Frame.app (k := modTask_frame)
    | with_reducible apply Frame.trans (k := Frame.foldOver ?_ _ _)
    | with_reducible apply Frame.trans (k := Frame.foldOver_snd ?_ _ _)
    | dsimp only
    | split
    | intro _

theorem forcesDue_frame {a0 a1 a2 a3 s4} : Frame [.trg, .cyc] s4 (forcesDue a0 a1 a2 a3 s4) := by
  unfold forcesDue
  repeat' first
    | with_reducible exact Frame.refl _ _
    | exact rfl
    | with_reducible apply Frame.ite
    | with_reducible apply Frame.app (k := setQM_frame)
    | with_reducible apply Frame.trans (k := Frame.foldOver ?_ _ _)
    | with_reducible apply Frame.trans (k := Frame.foldOver_snd ?_ _ _)
    | simp (disch := decide) only [↓Frame.of_set_cyc]
    | split
    | intro _

theorem commitCycle_frame {a0 a1 s2} : Frame [.trg, .cyc, .evr] s2 (commitCycle a0 a1 s2) := by
  unfold commitCycle
  repeat' first
    | with_reducible exact Frame.refl _ _
    | exact rfl
    | with_reducible apply Frame.ite
    | with_reducible apply Frame.app (k := forcesDue_frame)
    | with_reducible apply Frame.app (k := setQM_frame)
    | with_reducible apply Frame.app (k := modTask_frame)
    | with_reducible apply Frame.app (k := evBy_frame)
    | with_reducible apply Frame.trans (k := Frame.foldOver ?_ _ _)
    | with_reducible apply Frame.trans (k := Frame.foldOver_snd ?_ _ _)
    | simp (disch := decide) only [↓Frame.of_set_cyc]
    | split
    | intro _

theorem commitEnded_frame {a0 s1} : Frame [.trg, .cyc, .evr] s1 (commitEnded a0 s1) := by
  unfold commitEnded
  repeat' first
    | with_reducible exact Frame.refl _ _
    | exact rfl
    | with_reducible apply Frame.ite
    | with_reducible apply Frame.app (k := commitCycle_frame)
    | dsimp only
    | split
    | intro _

theorem taskRun_frame {a0 a1 s2} : Frame [.cyc] s2 (taskRun a0 a1 s2) := by
  unfold taskRun
  repeat' first
    | with_reducible exact Frame.refl _ _
    | exact rfl
    | with_reducible apply Frame.app (k := modTask_frame)
    | dsimp only
    | split
    | intro _

theorem taskReturn_frame {a0 a1 s2} : Frame [.cyc] s2 (taskReturn a0 a1 s2) := by
  unfold taskReturn
  repeat' first
    | with_reducible exact Frame.refl _ _
    | exact rfl
    | with_reducible apply Frame.app (k := taskRun_frame)
    | with_reducible apply Frame.app (k := modTask_frame)
    | dsimp only
    | split
    | intro _

theorem taskStart_frame {a0 a1 a2 a3 a4 s5} : Frame [.cyc] s5 (taskStart a0 a1 a2 a3 a4 s5) := by
  unfold taskStart
  repeat' first
    | with_reducible exact Frame.refl _ _
    | exact rfl
    | with_reducible apply Frame.app (k := taskRun_frame)
    | with_reducible apply Frame.app (k := modTask_frame)
    | with_reducible apply Frame.trans (k := Frame.foldl ?_ _ _)
    | dsimp only
    | split
    | intro _

theorem execTaskCycleStart_frame {a0 a1 a2 s3} : Frames [.cyc, .evr, .now, .out] s3 (execTaskCycleStart a0 a1 a2 s3) := by
  unfold execTaskCycleStart
  repeat' first
    | with_reducible exact Frame.refl _ _
    | exact rfl
    | with_reducible apply Frames.ite
    | with_reducible apply Frame.app (k := atTime_frame)
    | with_reducible apply Frame.app (k := lTasksDue_frame)
    | with_reducible apply Frame.app (k := taskReturn_frame)
    | with_reducible apply Frame.app (k := taskStart_frame)
    | with_reducible apply Frame.app (k := takeTurn_frame)
    | with_reducible apply Frames.next
    | dsimp only
    | split
    | intro _

theorem changeWaits_frame {a0 s1} : Frame [.cyc, .mbx, .cmd, .out] s1 (changeWaits a0 s1) := by
  unfold changeWaits
  repeat' first
    | with_reducible exact Frame.refl _ _
    | exact rfl
    | with_reducible apply Frame.app (k := finish_frame)
    | with_reducible apply Frame.app (k := modTask_frame)
    | dsimp only
    | split
    | intro _

theorem tasksFinish_frame {s0} : Frame [.trg, .cyc, .evr] s0 (tasksFinish s0) := by
  unfold tasksFinish
  repeat' first
    | with_reducible exact Frame.refl _ _
    | exact rfl
    | with_reducible apply Frame.app (k := commitEnded_frame)
    | with_reducible apply Frame.trans (k := Frame.foldOver ?_ _ _)
    | with_reducible apply Frame.trans (k := Frame.foldOver_snd ?_ _ _)
    | simp (disch := decide) only [↓Frame.of_set_cyc]
    | split
    | intro _

theorem forceNow_frame {a0 a1 s2} : Frame [.trg, .cyc] s2 (forceNow a0 a1 s2) := by
  unfold forceNow
  repeat' first
    | with_reducible exact Frame.refl _ _
    | exact rfl
    | with_reducible apply Frame.ite
    | with_reducible apply Frame.app (k := setQM_frame)
    | simp (disch := decide) only [↓Frame.of_set_cyc]
    | split
    | intro _

theorem tasksStart_frame {s0} : Frame [.trg, .cyc, .evr] s0 (tasksStart s0) := by
  unfold tasksStart
  repeat' first
    | with_reducible exact Frame.refl _ _
    | exact rfl
    | with_reducible apply Frame.ite
    | with_reducible apply Frame.app (k := forceNow_frame)
    | with_reducible apply Frame.app (k := logShedEvent_frame)
    | with_reducible apply Frame.app (k := suspendTask_frame)
    | with_reducible apply Frame.trans (k := Frame.foldOver ?_ _ _)
    | with_reducible apply Frame.trans (k := Frame.foldOver_snd ?_ _ _)
    | simp (disch := decide) only [↓Frame.of_set_cyc]
    | split
    | intro _

theorem cycleBoundary_frame {a0 s1} : Frame [.trg, .cyc, .mbx, .cmd, .evr, .out] s1 (cycleBoundary a0 s1) := by
  unfold cycleBoundary
  repeat' first
    | with_reducible exact Frame.refl _ _
    | exact rfl
    | with_reducible apply Frame.ite
    | with_reducible apply Frame.app (k := changeWaits_frame)
    | with_reducible apply Frame.app (k := logShedEvent_frame)
    | with_reducible apply Frame.app (k := suspendTask_frame)
    | with_reducible apply Frame.app (k := changeDue_frame)
    | dsimp only
    | split
    | intro _

end Sys2Proof.Machine
end

