-- ==== Sys2Proof/Laws/Frames/LogicCommands.lean ====
section
/-! SUPPORT. What each operation of Machine/LogicCommands.lean may change. -/

namespace Sys2Proof.Machine

theorem forceEvent_frame {a0 a1 a2 a3 s4} : Frame [.evr] s4 (forceEvent a0 a1 a2 a3 s4) := by
  unfold forceEvent
  repeat' first
    | with_reducible exact Frame.refl _ _
    | exact rfl
    | with_reducible apply Frame.app (k := evCmd_frame)
    | dsimp only
    | split
    | intro _

theorem execLogForceClear_frame {a0 a1 a2 a3 a4 s5} : Frames [.trg, .sve, .trp, .cyc, .tbs, .mac, .red, .swc, .vfm, .mbx, .cmd, .evr, .now, .out] s5 (execLogForceClear a0 a1 a2 a3 a4 s5) := by
  unfold execLogForceClear
  repeat' first
    | with_reducible exact Frame.refl _ _
    | exact rfl
    | with_reducible apply Frames.ite
    | with_reducible apply Frame.app (k := atTime_frame)
    | with_reducible apply Frame.trans (k := runCmd_frame ?_ ?_)
    | with_reducible apply Frame.trans (k := checked_frame ?_ ?_)
    | with_reducible apply Frame.app (k := forceEvent_frame)
    | with_reducible apply Frame.app (k := reply_frame)
    | with_reducible apply Frame.app (k := settle_frame)
    | with_reducible apply Frames.next
    | simp (disch := decide) only [↓Frame.of_set_cyc]
    | split
    | intro _

theorem logApply_frame {a0 a1 s2} : Frame [.cyc, .evr] s2 (logApply a0 a1 s2) := by
  unfold logApply
  repeat' first
    | with_reducible exact Frame.refl _ _
    | exact rfl
    | with_reducible apply Frame.ite
    | with_reducible apply Frame.app (k := evCfg_frame)
    | simp (disch := decide) only [↓Frame.of_set_cyc]
    | split
    | intro _

theorem execLogLoad_frame {a0 a1 a2 s3} : Frames [.cyc, .mbx, .cmd, .evr, .now, .out] s3 (execLogLoad a0 a1 a2 s3) := by
  unfold execLogLoad
  repeat' first
    | with_reducible exact Frame.refl _ _
    | exact rfl
    | with_reducible apply Frames.ite
    | with_reducible apply Frame.app (k := atTime_frame)
    | with_reducible apply Frame.trans (k := runCmd_frame ?_ ?_)
    | with_reducible apply Frame.trans (k := checked8_frame ?_ ?_)
    | with_reducible apply Frame.app (k := reply_frame)
    | with_reducible apply Frames.next
    | simp (disch := decide) only [↓Frame.of_set_cyc, ↓Frame.of_set_cmd, ↓Frame.of_set_cyc_cmd]
    | split
    | intro _

theorem changedState_frame {a0 a1 s2} : Frame [.cyc] s2 (changedState a0 a1 s2) := by
  unfold changedState
  repeat' first
    | with_reducible exact Frame.refl _ _
    | exact rfl
    | with_reducible apply Frame.app (k := modTask_frame)
    | dsimp only
    | split
    | intro _

theorem changeAccept_frame {a0 a1 a2 s3} : Frame [.trg, .sve, .trp, .cyc, .tbs, .mac, .red, .swc, .vfm, .mbx, .cmd, .evr, .out] s3 (changeAccept a0 a1 a2 s3) := by
  unfold changeAccept
  repeat' first
    | with_reducible exact Frame.refl _ _
    | exact rfl
    | with_reducible apply Frame.ite
    | with_reducible apply Frame.app (k := reply_frame)
    | with_reducible apply Frame.app (k := settle_frame)
    | with_reducible apply Frame.app (k := changeApply_frame)
    | with_reducible apply Frame.app (k := modTask_frame)
    | with_reducible apply Frame.app (k := holdReply_frame)
    | dsimp only
    | split
    | intro _

theorem execLogOnlineChange_frame {a0 a1 a2 a3 s4} : Frames [.trg, .sve, .trp, .cyc, .spd, .tbs, .mac, .red, .swc, .vfm, .mbx, .cmd, .evr, .now, .out] s4 (execLogOnlineChange a0 a1 a2 a3 s4) := by
  unfold execLogOnlineChange
  repeat' first
    | with_reducible exact Frame.refl _ _
    | exact rfl
    | with_reducible apply Frame.app (k := atTime_frame)
    | with_reducible apply Frame.trans (k := runCmd_frame ?_ ?_)
    | with_reducible apply Frame.trans (k := checked8_frame ?_ ?_)
    | with_reducible apply Frame.app (k := changedState_frame)
    | with_reducible apply Frame.app (k := refuse_frame)
    | with_reducible apply Frame.app (k := admitRefused_frame)
    | with_reducible apply Frame.app (k := changeAccept_frame)
    | with_reducible apply Frame.app (k := admitStore_frame)
    | with_reducible apply Frames.next
    | simp (disch := decide) only [↓Frame.of_set_spd]
    | split
    | intro _

theorem execLogForceSet_frame {a0 a1 a2 a3 a4 s5} : Frames [.trg, .sve, .trp, .cyc, .tbs, .mac, .red, .swc, .vfm, .mbx, .cmd, .evr, .now, .out] s5 (execLogForceSet a0 a1 a2 a3 a4 s5) := by
  unfold execLogForceSet
  repeat' first
    | with_reducible exact Frame.refl _ _
    | exact rfl
    | with_reducible apply Frames.ite
    | with_reducible apply Frame.app (k := atTime_frame)
    | with_reducible apply Frame.trans (k := runCmd_frame ?_ ?_)
    | with_reducible apply Frame.trans (k := checked_frame ?_ ?_)
    | with_reducible apply Frame.app (k := settle_frame)
    | with_reducible apply Frame.app (k := forceNow_frame)
    | with_reducible apply Frame.app (k := forceEvent_frame)
    | with_reducible apply Frame.app (k := reply_frame)
    | with_reducible apply Frames.next
    | simp (disch := decide) only [↓Frame.of_set_cyc]
    | split
    | intro _

theorem execLogGetStatus_frame {a0 a1 a2 s3} : Frames [.mbx, .cmd, .evr, .now, .out] s3 (execLogGetStatus a0 a1 a2 s3) := by
  unfold execLogGetStatus
  repeat' first
    | with_reducible exact Frame.refl _ _
    | exact rfl
    | with_reducible apply Frame.app (k := atTime_frame)
    | with_reducible apply Frame.trans (k := runCmd_frame ?_ ?_)
    | with_reducible apply Frame.trans (k := checked_frame ?_ ?_)
    | with_reducible apply Frame.app (k := reply_frame)
    | with_reducible apply Frames.next
    | dsimp only
    | split
    | intro _

end Sys2Proof.Machine
end

