-- ==== Sys2Proof/Laws/Frames/Ownership.lean ====
section
/-! SUPPORT. What each operation of Machine/Ownership.lean may change. -/

namespace Sys2Proof.Machine

theorem modZoneOwn_frame {a0 a1 s2} : Frame [.red] s2 (modZoneOwn a0 a1 s2) := by
  unfold modZoneOwn
  repeat' first
    | with_reducible exact Frame.refl _ _
    | exact rfl
    | simp (disch := decide) only [↓Frame.of_set_red]
    | split
    | intro _

theorem sendBeacon_frame {a0 s1} : Frame [.tbs, .mac, .red, .swc, .vfm, .evr, .out] s1 (sendBeacon a0 s1) := by
  unfold sendBeacon
  repeat' first
    | with_reducible exact Frame.refl _ _
    | exact rfl
    | with_reducible apply Frame.ite
    | with_reducible apply Frame.app (k := modZoneOwn_frame)
    | with_reducible apply Frame.app (k := swcIn_frame)
    | dsimp only
    | split
    | intro _

theorem execOwnClaimComplete_frame {a0 a1 s2} : Frames [.trg, .sve, .trp, .cyc, .tbs, .mac, .red, .swc, .vfm, .mbx, .cmd, .evr, .now, .out] s2 (execOwnClaimComplete a0 a1 s2) := by
  unfold execOwnClaimComplete
  repeat' first
    | with_reducible exact Frame.refl _ _
    | exact rfl
    | with_reducible apply Frames.ite
    | with_reducible apply Frame.app (k := atTime_frame)
    | with_reducible apply Frame.app (k := modZoneOwn_frame)
    | with_reducible apply Frame.app (k := finish_frame)
    | with_reducible apply Frame.app (k := settle_frame)
    | with_reducible apply Frame.app (k := sendBeacon_frame)
    | with_reducible apply Frame.app (k := evBy_frame)
    | with_reducible apply Frames.next
    | dsimp only
    | split
    | intro _

theorem execPrtOwnershipRelease_frame {a0 a1 a2 s3} : Frames [.trg, .sve, .trp, .cyc, .tbs, .mac, .red, .swc, .vfm, .mbx, .cmd, .evr, .now, .out] s3 (execPrtOwnershipRelease a0 a1 a2 s3) := by
  unfold execPrtOwnershipRelease
  repeat' first
    | with_reducible exact Frame.refl _ _
    | exact rfl
    | with_reducible apply Frames.ite
    | with_reducible apply Frame.app (k := atTime_frame)
    | with_reducible apply Frame.trans (k := runCmd_frame ?_ ?_)
    | with_reducible apply Frame.trans (k := checked8_frame ?_ ?_)
    | with_reducible apply Frame.app (k := evCmd_frame)
    | with_reducible apply Frame.app (k := modZoneOwn_frame)
    | with_reducible apply Frame.app (k := settle_frame)
    | with_reducible apply Frame.app (k := reply_frame)
    | with_reducible apply Frames.next
    | dsimp only
    | split
    | intro _

theorem ownListen_frame {a0 a1 s2} : Frame [.red, .evr] s2 (ownListen a0 a1 s2) := by
  unfold ownListen
  repeat' first
    | with_reducible exact Frame.refl _ _
    | exact rfl
    | with_reducible apply Frame.ite
    | with_reducible apply Frame.app (k := modZoneOwn_frame)
    | with_reducible apply Frame.app (k := ev_frame)
    | dsimp only
    | split
    | intro _

theorem ownFence_frame {a0 a1 a2 s3} : Frame [.red, .evr] s3 (ownFence a0 a1 a2 s3) := by
  unfold ownFence
  repeat' first
    | with_reducible exact Frame.refl _ _
    | exact rfl
    | with_reducible apply Frame.app (k := ev_frame)
    | with_reducible apply Frame.app (k := modZoneOwn_frame)
    | dsimp only
    | split
    | intro _

theorem execPrtOwnershipRead_frame {a0 a1 a2 s3} : Frames [.mbx, .cmd, .evr, .now, .out] s3 (execPrtOwnershipRead a0 a1 a2 s3) := by
  unfold execPrtOwnershipRead
  repeat' first
    | with_reducible exact Frame.refl _ _
    | exact rfl
    | with_reducible apply Frame.app (k := atTime_frame)
    | with_reducible apply Frame.trans (k := runCmd_frame ?_ ?_)
    | with_reducible apply Frame.trans (k := checked_frame ?_ ?_)
    | with_reducible apply Frame.app (k := reply_frame)
    | with_reducible apply Frames.next
    | dsimp only
    | split
    | intro _

theorem execOwnBeaconTransmit_frame {a0 a1 s2} : Frames [.tbs, .mac, .red, .swc, .vfm, .evr, .now, .out] s2 (execOwnBeaconTransmit a0 a1 s2) := by
  unfold execOwnBeaconTransmit
  repeat' first
    | with_reducible exact Frame.refl _ _
    | exact rfl
    | with_reducible apply Frames.ite
    | with_reducible apply Frame.app (k := atTime_frame)
    | with_reducible apply Frame.app (k := sendBeacon_frame)
    | with_reducible apply Frames.next
    | dsimp only
    | split
    | intro _

theorem netRedundancyApply_frame {a0 s1} : Frame [.trg, .sve, .trp, .cyc, .tbs, .mac, .red, .swc, .vfm, .mbx, .cmd, .evr, .out, .freeCtr] s1 (netRedundancyApply a0 s1) := by
  unfold netRedundancyApply
  repeat' first
    | with_reducible exact Frame.refl _ _
    | exact rfl
    | with_reducible apply Frame.ite
    | with_reducible apply Frame.app (k := modPair_frame)
    | with_reducible apply Frame.app (k := bracketLink_frame)
    | with_reducible apply Frame.app (k := pairRestart_frame)
    | with_reducible apply Frame.app (k := revertAbort_frame)
    | with_reducible apply Frame.app (k := holdUpdate_frame)
    | with_reducible apply Frame.app (k := ownListen_frame)
    | with_reducible apply Frame.app (k := finish_frame)
    | with_reducible apply Frame.app (k := modZoneOwn_frame)
    | with_reducible apply Frame.app (k := settle_frame)
    | with_reducible apply Frame.trans (k := Frame.foldOver ?_ _ _)
    | with_reducible apply Frame.trans (k := Frame.foldOver_snd ?_ _ _)
    | simp (disch := decide) only [↓Frame.of_set_red]
    | split
    | intro _

theorem execPrtOwnershipClaim_frame {a0 a1 a2 s3} : Frames [.trg, .sve, .trp, .cyc, .tbs, .mac, .red, .swc, .vfm, .mbx, .cmd, .evr, .now, .out] s3 (execPrtOwnershipClaim a0 a1 a2 s3) := by
  unfold execPrtOwnershipClaim
  repeat' first
    | with_reducible exact Frame.refl _ _
    | exact rfl
    | with_reducible apply Frames.ite
    | with_reducible apply Frame.app (k := atTime_frame)
    | with_reducible apply Frame.trans (k := runCmd_frame ?_ ?_)
    | with_reducible apply Frame.trans (k := checked8_frame ?_ ?_)
    | with_reducible apply Frame.app (k := modZoneOwn_frame)
    | with_reducible apply Frame.app (k := sendBeacon_frame)
    | with_reducible apply Frame.app (k := evCmd_frame)
    | with_reducible apply Frame.app (k := reply_frame)
    | with_reducible apply Frame.app (k := holdReply_frame)
    | with_reducible apply Frame.app (k := settle_frame)
    | with_reducible apply Frame.app (k := ownListen_frame)
    | with_reducible apply Frames.next
    | dsimp only
    | split
    | intro _

theorem ownConflict_frame {a0 a1 s2} : Frame [.red, .evr] s2 (ownConflict a0 a1 s2) := by
  unfold ownConflict
  repeat' first
    | with_reducible exact Frame.refl _ _
    | exact rfl
    | with_reducible apply Frame.app (k := ev_frame)
    | with_reducible apply Frame.app (k := modZoneOwn_frame)
    | dsimp only
    | split
    | intro _

theorem execOwnSilenceDetect_frame {a0 s1} : Frames [.trg, .sve, .trp, .cyc, .tbs, .mac, .red, .swc, .vfm, .evr, .now, .out] s1 (execOwnSilenceDetect a0 s1) := by
  unfold execOwnSilenceDetect
  repeat' first
    | with_reducible exact Frame.refl _ _
    | exact rfl
    | with_reducible apply Frames.ite
    | with_reducible apply Frame.app (k := atTime_frame)
    | with_reducible apply Frame.app (k := ownListen_frame)
    | with_reducible apply Frame.app (k := settle_frame)
    | with_reducible apply Frames.next
    | with_reducible apply Frame.trans (k := Frame.foldOver ?_ _ _)
    | with_reducible apply Frame.trans (k := Frame.foldOver_snd ?_ _ _)
    | dsimp only
    | split
    | intro _

theorem execOwnListenExpire_frame {a0 a1 s2} : Frames [.trg, .sve, .trp, .cyc, .tbs, .mac, .red, .swc, .vfm, .evr, .now, .out] s2 (execOwnListenExpire a0 a1 s2) := by
  unfold execOwnListenExpire
  repeat' first
    | with_reducible exact Frame.refl _ _
    | exact rfl
    | with_reducible apply Frames.ite
    | with_reducible apply Frame.app (k := atTime_frame)
    | with_reducible apply Frame.app (k := settle_frame)
    | with_reducible apply Frame.app (k := modZoneOwn_frame)
    | with_reducible apply Frame.app (k := ownFence_frame)
    | with_reducible apply Frame.app (k := ownConflict_frame)
    | with_reducible apply Frames.next
    | dsimp only
    | split
    | intro _

theorem execOwnBeaconReceive_frame {a0 a1 s2} : Frames [.trg, .sve, .trp, .cyc, .tbs, .mac, .red, .swc, .vfm, .evr, .now, .out] s2 (execOwnBeaconReceive a0 a1 s2) := by
  unfold execOwnBeaconReceive
  repeat' first
    | with_reducible exact Frame.refl _ _
    | exact rfl
    | with_reducible apply Frames.ite
    | with_reducible apply Frame.app (k := atTime_frame)
    | with_reducible apply Frame.app (k := prpReceive_frame)
    | with_reducible apply Frame.app (k := modZoneOwn_frame)
    | with_reducible apply Frame.app (k := settle_frame)
    | with_reducible apply Frame.app (k := ownFence_frame)
    | with_reducible apply Frame.app (k := ownConflict_frame)
    | with_reducible apply Frames.next
    | simp (disch := decide) only [↓Frame.of_set_red]
    | split
    | with_reducible refine Frame.app ?_ (Frame.snd (by assumption) (prpReceive_frame ..)) ?_
    | intro _

end Sys2Proof.Machine
end

