-- ==== Sys2Proof/Laws/Frames/Zones.lean ====
section
/-! SUPPORT. What each operation of Machine/Zones.lean may change. -/

namespace Sys2Proof.Machine

theorem modPrt_frame {a0 s1} : Frame [.prt] s1 (modPrt a0 s1) := by
  unfold modPrt
  repeat' first
    | with_reducible exact Frame.refl _ _
    | exact rfl
    | simp (disch := decide) only [↓Frame.of_set_prt]
    | split
    | intro _

theorem modZone_frame {a0 a1 s2} : Frame [.prt] s2 (modZone a0 a1 s2) := by
  unfold modZone
  repeat' first
    | with_reducible exact Frame.refl _ _
    | exact rfl
    | with_reducible apply Frame.app (k := modPrt_frame)
    | dsimp only
    | split
    | intro _

theorem endTestMode_frame {a0 s1} : Frame [.prt, .evr] s1 (endTestMode a0 s1) := by
  unfold endTestMode
  repeat' first
    | with_reducible exact Frame.refl _ _
    | exact rfl
    | with_reducible apply Frame.ite
    | with_reducible apply Frame.app (k := modZone_frame)
    | with_reducible apply Frame.app (k := evBy_frame)
    | dsimp only
    | split
    | intro _

theorem execTestModeExpire_frame {a0 a1 s2} : Frames [.trg, .sve, .prt, .trp, .cyc, .tbs, .mac, .red, .swc, .vfm, .evr, .now, .out] s2 (execTestModeExpire a0 a1 s2) := by
  unfold execTestModeExpire
  repeat' first
    | with_reducible exact Frame.refl _ _
    | exact rfl
    | with_reducible apply Frames.ite
    | with_reducible apply Frame.app (k := atTime_frame)
    | with_reducible apply Frame.app (k := settle_frame)
    | with_reducible apply Frame.app (k := endTestMode_frame)
    | with_reducible apply Frames.next
    | dsimp only
    | split
    | intro _

theorem modInst_frame {a0 a1 s2} : Frame [.prt] s2 (modInst a0 a1 s2) := by
  unfold modInst
  repeat' first
    | with_reducible exact Frame.refl _ _
    | exact rfl
    | with_reducible apply Frame.app (k := modPrt_frame)
    | dsimp only
    | split
    | intro _

theorem rrecEventBy_frame {a0 a1 a2 s3} : Frame [.evr] s3 (rrecEventBy a0 a1 a2 s3) := by
  unfold rrecEventBy
  repeat' first
    | with_reducible exact Frame.refl _ _
    | exact rfl
    | with_reducible apply Frame.ite
    | with_reducible apply Frame.app (k := evBy_frame)
    | dsimp only
    | split
    | intro _

theorem rrecEvent_frame {a0 a1 a2 s3} : Frame [.evr] s3 (rrecEvent a0 a1 a2 s3) := by
  unfold rrecEvent
  repeat' first
    | with_reducible exact Frame.refl _ _
    | exact rfl
    | with_reducible apply Frame.app (k := rrecEventBy_frame)
    | dsimp only
    | split
    | intro _

theorem zoneEv_frame {a0 a1 a2 a3 a4 s5} : Frame [.evr] s5 (zoneEv a0 a1 a2 a3 a4 s5) := by
  unfold zoneEv
  repeat' first
    | with_reducible exact Frame.refl _ _
    | exact rfl
    | with_reducible apply Frame.app (k := evFull_frame)
    | dsimp only
    | split
    | intro _

theorem signalDeliver_frame {a0 a1 a2 a3 a4 a5 s6} : Frame [.vfm, .evr, .out] s6 (signalDeliver a0 a1 a2 a3 a4 a5 s6) := by
  unfold signalDeliver
  repeat' first
    | with_reducible exact Frame.refl _ _
    | exact rfl
    | with_reducible apply Frame.app (k := deliverBound_frame)
    | dsimp only
    | split
    | intro _

theorem outputChange_frame {a0 a1 a2 a3 a4 a5 a6 s7} : Frame [.trg, .prt, .vfm, .evr, .out] s7 (outputChange a0 a1 a2 a3 a4 a5 a6 s7) := by
  unfold outputChange
  repeat' first
    | with_reducible exact Frame.refl _ _
    | exact rfl
    | with_reducible apply Frame.ite
    | with_reducible apply Frame.app (k := modInst_frame)
    | with_reducible apply Frame.app (k := zoneEv_frame)
    | with_reducible apply Frame.app (k := signalDeliver_frame)
    | with_reducible apply Frame.app (k := srcEdge_frame)
    | dsimp only
    | split
    | intro _

theorem blockedChange_frame {a0 a1 a2 a3 a4 s5} : Frame [.prt, .vfm, .evr, .out] s5 (blockedChange a0 a1 a2 a3 a4 s5) := by
  unfold blockedChange
  repeat' first
    | with_reducible exact Frame.refl _ _
    | exact rfl
    | with_reducible apply Frame.ite
    | with_reducible apply Frame.app (k := signalDeliver_frame)
    | with_reducible apply Frame.app (k := modInst_frame)
    | dsimp only
    | split
    | intro _

theorem deliverInst_frame {a0 a1 a2 a3 a4 a5 s6} : Frame [.trg, .prt, .vfm, .evr, .out] s6 (deliverInst a0 a1 a2 a3 a4 a5 s6) := by
  unfold deliverInst
  repeat' first
    | with_reducible exact Frame.refl _ _
    | exact rfl
    | with_reducible apply Frame.ite
    | with_reducible apply Frame.app (k := outputChange_frame)
    | with_reducible apply Frame.app (k := blockedChange_frame)
    | dsimp only
    | split
    | intro _

theorem deliverZone_frame {a0 a1 a2 a3 a4 s5} : Frame [.trg, .prt, .vfm, .evr, .out] s5 (deliverZone a0 a1 a2 a3 a4 s5) := by
  unfold deliverZone
  repeat' first
    | with_reducible exact Frame.refl _ _
    | exact rfl
    | with_reducible apply Frame.app (k := deliverInst_frame)
    | with_reducible apply Frame.trans (k := Frame.foldOver ?_ _ _)
    | with_reducible apply Frame.trans (k := Frame.foldOver_snd ?_ _ _)
    | dsimp only
    | split
    | intro _

theorem zoneStop_frame {a0 s1} : Frame [.trg, .prt, .vfm, .evr, .out] s1 (zoneStop a0 s1) := by
  unfold zoneStop
  repeat' first
    | with_reducible exact Frame.refl _ _
    | exact rfl
    | with_reducible apply Frame.ite
    | with_reducible apply Frame.app (k := modInst_frame)
    | with_reducible apply Frame.app (k := rrecEvent_frame)
    | with_reducible apply Frame.app (k := deliverZone_frame)
    | with_reducible apply Frame.trans (k := Frame.foldOver ?_ _ _)
    | with_reducible apply Frame.trans (k := Frame.foldOver_snd ?_ _ _)
    | dsimp only
    | split
    | intro _

theorem zoneBoundary_frame {a0 a1 s2} : Frame [.flt, .trg, .prt, .evr] s2 (zoneBoundary a0 a1 s2) := by
  unfold zoneBoundary
  repeat' first
    | with_reducible exact Frame.refl _ _
    | exact rfl
    | with_reducible apply Frame.ite
    | with_reducible apply Frame.app (k := modZone_frame)
    | with_reducible apply Frame.app (k := modInst_frame)
    | with_reducible apply Frame.app (k := rrecEvent_frame)
    | with_reducible apply Frame.app (k := evBy_frame)
    | with_reducible apply Frame.app (k := shutterTest_frame)
    | with_reducible apply Frame.app (k := claimsOfZone_frame)
    | with_reducible apply Frame.trans (k := Frame.foldOver ?_ _ _)
    | with_reducible apply Frame.trans (k := Frame.foldOver_snd ?_ _ _)
    | dsimp only
    | split
    | intro _

theorem zoneSamples_frame {a0 a1 a2 s3} : Frame [.prt, .evr] s3 (zoneSamples a0 a1 a2 s3).2 := by
  unfold zoneSamples
  repeat' first
    | with_reducible exact Frame.refl _ _
    | exact rfl
    | with_reducible apply Frame.ite_snd
    | with_reducible apply Frame.app (k := modZone_frame)
    | with_reducible apply Frame.app (k := evBy_frame)
    | with_reducible apply Frame.ite
    | dsimp only
    | split
    | intro _

theorem thermalEvent_frame {a0 a1 a2 a3 s4} : Frame [.evr] s4 (thermalEvent a0 a1 a2 a3 s4) := by
  unfold thermalEvent
  repeat' first
    | with_reducible exact Frame.refl _ _
    | exact rfl
    | with_reducible apply Frame.app (k := evBy_frame)
    | dsimp only
    | split
    | intro _

theorem wordOrFree_frame {a0 s1} : Frame [.freeCtr] s1 (wordOrFree a0 s1).2 := by
  unfold wordOrFree
  repeat' first
    | with_reducible exact Frame.refl _ _
    | exact rfl
    | with_reducible apply Frame.app (k := drawFree_frame)
    | dsimp only
    | split
    | with_reducible refine Frame.app ?_ (Frame.snd (by assumption) (drawFree_frame ..)) ?_
    | intro _

theorem classEvents_frame {a0 a1 a2 a3 a4 a5 a6 s7} : Frame [.prt, .evr, .freeCtr] s7 (classEvents a0 a1 a2 a3 a4 a5 a6 s7) := by
  unfold classEvents
  repeat' first
    | with_reducible exact Frame.refl _ _
    | exact rfl
    | with_reducible apply Frame.ite
    | with_reducible apply Frame.app (k := thermalEvent_frame)
    | with_reducible apply Frame.app (k := wordOrFree_frame)
    | with_reducible apply Frame.app (k := zoneEv_frame)
    | with_reducible apply Frame.app (k := modInst_frame)
    | with_reducible apply Frame.app (k := rrecEvent_frame)
    | dsimp only
    | split
    | with_reducible refine Frame.app ?_ (Frame.snd (by assumption) (wordOrFree_frame ..)) ?_
    | intro _

theorem evalInst_frame {a0 a1 a2 a3 a4 a5 s6} : Frame [.prt, .evr, .freeCtr] s6 (evalInst a0 a1 a2 a3 a4 a5 s6) := by
  unfold evalInst
  repeat' first
    | with_reducible exact Frame.refl _ _
    | exact rfl
    | with_reducible apply Frame.ite
    | with_reducible apply Frame.app (k := modInst_frame)
    | with_reducible apply Frame.app (k := classEvents_frame)
    | dsimp only
    | split
    | intro _

theorem zoneEval_frame {a0 a1 s2} : Frame [.flt, .trg, .sve, .prt, .trp, .cyc, .tbs, .mac, .red, .swc, .vfm, .evr, .out, .freeCtr] s2 (zoneEval a0 a1 s2) := by
  unfold zoneEval
  repeat' first
    | with_reducible exact Frame.refl _ _
    | exact rfl
    | with_reducible apply Frame.ite
    | with_reducible apply Frame.app (k := zoneBoundary_frame)
    | with_reducible apply Frame.app (k := zoneSamples_frame)
    | with_reducible apply Frame.app (k := evalInst_frame)
    | with_reducible apply Frame.app (k := modZone_frame)
    | with_reducible apply Frame.app (k := settle_frame)
    | with_reducible apply Frame.app (k := deliverZone_frame)
    | with_reducible apply Frame.app (k := zoneTasksDue_frame)
    | with_reducible apply Frame.trans (k := Frame.foldOver ?_ _ _)
    | with_reducible apply Frame.trans (k := Frame.foldOver_snd ?_ _ _)
    | dsimp only
    | split
    | with_reducible refine Frame.app ?_ (Frame.snd (by assumption) (zoneSamples_frame ..)) ?_
    | intro _

theorem execZoneEvaluate_frame {a0 a1 a2 s3} : Frames [.flt, .trg, .sve, .prt, .trp, .cyc, .tbs, .mac, .red, .swc, .vfm, .evr, .now, .out, .freeCtr] s3 (execZoneEvaluate a0 a1 a2 s3) := by
  unfold execZoneEvaluate
  repeat' first
    | with_reducible exact Frame.refl _ _
    | exact rfl
    | with_reducible apply Frames.ite
    | with_reducible apply Frame.app (k := atTime_frame)
    | with_reducible apply Frame.app (k := zoneEval_frame)
    | with_reducible apply Frames.next
    | dsimp only
    | split
    | intro _

theorem zonesStop_frame {s0} : Frame [.trg, .prt, .vfm, .evr, .out] s0 (zonesStop s0) := by
  unfold zonesStop
  repeat' first
    | with_reducible exact Frame.refl _ _
    | exact rfl
    | with_reducible apply Frame.app (k := zoneStop_frame)
    | with_reducible apply Frame.trans (k := Frame.foldOver ?_ _ _)
    | with_reducible apply Frame.trans (k := Frame.foldOver_snd ?_ _ _)
    | dsimp only
    | split
    | intro _

theorem zonesStart_frame {s0} : Frame [.prt] s0 (zonesStart s0) := by
  unfold zonesStart
  repeat' first
    | with_reducible exact Frame.refl _ _
    | exact rfl
    | with_reducible apply Frame.app (k := modPrt_frame)
    | dsimp only
    | split
    | intro _

theorem execBlockedQHoldExpire_frame {a0 a1 s2} : Frames [.prt, .evr, .now, .out] s2 (execBlockedQHoldExpire a0 a1 s2) := by
  unfold execBlockedQHoldExpire
  repeat' first
    | with_reducible exact Frame.refl _ _
    | exact rfl
    | with_reducible apply Frames.ite
    | with_reducible apply Frame.app (k := atTime_frame)
    | with_reducible apply Frame.app (k := evBy_frame)
    | with_reducible apply Frame.app (k := modInst_frame)
    | with_reducible apply Frames.next
    | dsimp only
    | split
    | intro _

end Sys2Proof.Machine
end

