-- ==== Sys2Proof/Laws/Frames/PrtCommands.lean ====
section
/-! SUPPORT. What each operation of Machine/PrtCommands.lean may change. -/

namespace Sys2Proof.Machine

theorem thetaStart_frame {a0 a1 a2 s3} : Frame [.prt, .evr] s3 (thetaStart a0 a1 a2 s3) := by
  unfold thetaStart
  repeat' first
    | with_reducible exact Frame.refl _ _
    | exact rfl
    | with_reducible apply Frame.ite
    | with_reducible apply Frame.app (k := thermalEvent_frame)
    | with_reducible apply Frame.app (k := modInst_frame)
    | dsimp only
    | split
    | intro _

theorem setGroupNow_frame {a0 a1 a2 s3} : Frame [.flt, .prt, .evr] s3 (setGroupNow a0 a1 a2 s3) := by
  unfold setGroupNow
  repeat' first
    | with_reducible exact Frame.refl _ _
    | exact rfl
    | with_reducible apply Frame.ite
    | with_reducible apply Frame.app (k := evBy_frame)
    | with_reducible apply Frame.app (k := modZone_frame)
    | with_reducible apply Frame.app (k := modInst_frame)
    | with_reducible apply Frame.app (k := rrecEvent_frame)
    | with_reducible apply Frame.app (k := claimsOfZone_frame)
    | with_reducible apply Frame.trans (k := Frame.foldOver ?_ _ _)
    | with_reducible apply Frame.trans (k := Frame.foldOver_snd ?_ _ _)
    | dsimp only
    | split
    | intro _

theorem execPrtSetGroup_frame {a0 a1 a2 a3 s4} : Frames [.flt, .prt, .mbx, .cmd, .evr, .now, .out] s4 (execPrtSetGroup a0 a1 a2 a3 s4) := by
  unfold execPrtSetGroup
  repeat' first
    | with_reducible exact Frame.refl _ _
    | exact rfl
    | with_reducible apply Frames.ite
    | with_reducible apply Frame.app (k := atTime_frame)
    | with_reducible apply Frame.trans (k := runCmd_frame ?_ ?_)
    | with_reducible apply Frame.trans (k := checked8_frame ?_ ?_)
    | with_reducible apply Frame.app (k := modZone_frame)
    | with_reducible apply Frame.app (k := setGroupNow_frame)
    | with_reducible apply Frame.app (k := reply_frame)
    | with_reducible apply Frames.next
    | dsimp only
    | split
    | intro _

theorem matrixApply_frame {a0 s1} : Frame [.trg, .sve, .trp, .cyc, .tbs, .mac, .red, .swc, .vfm, .evr, .out] s1 (matrixApply a0 s1) := by
  unfold matrixApply
  repeat' first
    | with_reducible exact Frame.refl _ _
    | exact rfl
    | with_reducible apply Frame.app (k := settle_frame)
    | with_reducible apply Frame.app (k := modRow_frame)
    | dsimp only
    | split
    | intro _

theorem unbindZone_frame {a0 s1} : Frame [.vfm, .evr] s1 (unbindZone a0 s1) := by
  unfold unbindZone
  repeat' first
    | with_reducible exact Frame.refl _ _
    | exact rfl
    | with_reducible apply Frame.ite
    | with_reducible apply Frame.app (k := ev_frame)
    | with_reducible apply Frame.app (k := modVf_frame)
    | with_reducible apply Frame.trans (k := Frame.foldOver ?_ _ _)
    | with_reducible apply Frame.trans (k := Frame.foldOver_snd ?_ _ _)
    | dsimp only
    | split
    | intro _

theorem execPrtTestInject_frame {a0 a1 a2 s3} : Frames [.prt, .mbx, .cmd, .evr, .now, .out] s3 (execPrtTestInject a0 a1 a2 s3) := by
  unfold execPrtTestInject
  repeat' first
    | with_reducible exact Frame.refl _ _
    | exact rfl
    | with_reducible apply Frames.ite
    | with_reducible apply Frame.app (k := atTime_frame)
    | with_reducible apply Frame.trans (k := runCmd_frame ?_ ?_)
    | with_reducible apply Frame.trans (k := checked_frame ?_ ?_)
    | with_reducible apply Frame.app (k := endTestMode_frame)
    | with_reducible apply Frame.app (k := modZone_frame)
    | with_reducible apply Frame.app (k := reply_frame)
    | with_reducible apply Frames.next
    | dsimp only
    | split
    | intro _

theorem elemApply_frame {a0 a1 s2} : Frame [.flt, .prt, .evr] s2 (elemApply a0 a1 s2) := by
  unfold elemApply
  repeat' first
    | with_reducible exact Frame.refl _ _
    | exact rfl
    | with_reducible apply Frame.ite
    | with_reducible apply Frame.app (k := claimEnd_frame)
    | with_reducible apply Frame.app (k := modPrt_frame)
    | with_reducible apply Frame.app (k := claimProgram_frame)
    | with_reducible apply Frame.app (k := rrecEventBy_frame)
    | with_reducible apply Frame.app (k := thetaStart_frame)
    | dsimp only
    | split
    | intro _

theorem execPrtGetElement_frame {a0 a1 a2 s3} : Frames [.mbx, .cmd, .evr, .now, .out] s3 (execPrtGetElement a0 a1 a2 s3) := by
  unfold execPrtGetElement
  repeat' first
    | with_reducible exact Frame.refl _ _
    | exact rfl
    | with_reducible apply Frame.app (k := atTime_frame)
    | with_reducible apply Frame.trans (k := runCmd_frame ?_ ?_)
    | with_reducible apply Frame.trans (k := checked_frame ?_ ?_)
    | with_reducible apply Frame.app (k := reply_frame)
    | with_reducible apply Frames.next
    | dsimp only
    | split
    | intro _

theorem zoneApply_frame {a0 s1} : Frame [.prt, .vfm, .evr] s1 (zoneApply a0 s1) := by
  unfold zoneApply
  repeat' first
    | with_reducible exact Frame.refl _ _
    | exact rfl
    | with_reducible apply Frame.ite
    | with_reducible apply Frame.app (k := unbindZone_frame)
    | with_reducible apply Frame.app (k := modPrt_frame)
    | dsimp only
    | split
    | intro _

end Sys2Proof.Machine
end

