-- ==== Sys2Proof/Laws/Frames/Ptp.lean ====
section
/-! SUPPORT. What each operation of Machine/Ptp.lean may change. -/

namespace Sys2Proof.Machine

theorem setMaster_frame {a0 a1 a2 a3 a4 s5} : Frame [.tbs, .evr] s5 (setMaster a0 a1 a2 a3 a4 s5) := by
  unfold setMaster
  repeat' first
    | with_reducible exact Frame.refl _ _
    | exact rfl
    | with_reducible apply Frame.ite
    | with_reducible apply Frame.app (k := modBase_frame)
    | with_reducible apply Frame.app (k := ev_frame)
    | dsimp only
    | split
    | intro _

theorem takeSource_frame {a0 a1 s2} : Frame [.tbs] s2 (takeSource a0 a1 s2) := by
  unfold takeSource
  repeat' first
    | with_reducible exact Frame.refl _ _
    | exact rfl
    | with_reducible apply Frame.ite
    | with_reducible apply Frame.app (k := noteTrace_frame)
    | with_reducible apply Frame.app (k := modBase_frame)
    | dsimp only
    | split
    | intro _

theorem bmca_frame {a0 s1} : Frame [.tbs, .evr] s1 (bmca a0 s1) := by
  unfold bmca
  repeat' first
    | with_reducible exact Frame.refl _ _
    | exact rfl
    | with_reducible apply Frame.ite
    | with_reducible apply Frame.app (k := modInstPort_frame)
    | with_reducible apply Frame.app (k := setMaster_frame)
    | with_reducible apply Frame.app (k := sourceGone_frame)
    | with_reducible apply Frame.app (k := takeSource_frame)
    | with_reducible apply Frame.trans (k := Frame.foldOver ?_ _ _)
    | with_reducible apply Frame.trans (k := Frame.foldOver_snd ?_ _ _)
    | dsimp only
    | split
    | intro _

theorem ppsTo_frame {a0 a1 s2} : Frame [.acq, .flt, .trg, .sve, .cyc, .tbs, .evr, .out] s2 (ppsTo a0 a1 s2) := by
  unfold ppsTo
  repeat' first
    | with_reducible exact Frame.refl _ _
    | exact rfl
    | with_reducible apply Frame.ite
    | with_reducible apply Frame.app (k := measure_frame)
    | dsimp only
    | split
    | intro _

theorem execPpsInEdge_frame {a0 a1 s2} : Frames [.acq, .flt, .trg, .sve, .cyc, .tbs, .evr, .now, .out] s2 (execPpsInEdge a0 a1 s2) := by
  unfold execPpsInEdge
  repeat' first
    | with_reducible exact Frame.refl _ _
    | exact rfl
    | with_reducible apply Frame.app (k := atTime_frame)
    | with_reducible apply Frame.app (k := ppsTo_frame)
    | with_reducible apply Frame.app (k := modTbs_frame)
    | with_reducible apply Frames.next
    | with_reducible apply Frame.trans (k := Frame.foldOver ?_ _ _)
    | with_reducible apply Frame.trans (k := Frame.foldOver_snd ?_ _ _)
    | dsimp only
    | split
    | intro _

theorem execTimStep_frame {a0 a1 a2 s3} : Frames [.tbs, .mbx, .cmd, .evr, .now, .out] s3 (execTimStep a0 a1 a2 s3) := by
  unfold execTimStep
  repeat' first
    | with_reducible exact Frame.refl _ _
    | exact rfl
    | with_reducible apply Frames.ite
    | with_reducible apply Frame.app (k := atTime_frame)
    | with_reducible apply Frame.trans (k := runCmd_frame ?_ ?_)
    | with_reducible apply Frame.trans (k := checked8_frame ?_ ?_)
    | with_reducible apply Frame.app (k := holdReply_frame)
    | with_reducible apply Frame.app (k := modBase_frame)
    | with_reducible apply Frames.next
    | dsimp only
    | split
    | intro _

theorem execTimGetStatus_frame {a0 a1 a2 s3} : Frames [.mbx, .cmd, .evr, .now, .out] s3 (execTimGetStatus a0 a1 a2 s3) := by
  unfold execTimGetStatus
  repeat' first
    | with_reducible exact Frame.refl _ _
    | exact rfl
    | with_reducible apply Frame.app (k := atTime_frame)
    | with_reducible apply Frame.trans (k := runCmd_frame ?_ ?_)
    | with_reducible apply Frame.trans (k := checked_frame ?_ ?_)
    | with_reducible apply Frame.app (k := reply_frame)
    | with_reducible apply Frames.next
    | dsimp only
    | split
    | intro _

theorem irigTo_frame {a0 a1 s2} : Frame [.acq, .flt, .trg, .sve, .cyc, .tbs, .evr, .out] s2 (irigTo a0 a1 s2) := by
  unfold irigTo
  repeat' first
    | with_reducible exact Frame.refl _ _
    | exact rfl
    | with_reducible apply Frame.ite
    | with_reducible apply Frame.app (k := noteTrace_frame)
    | with_reducible apply Frame.app (k := modBase_frame)
    | with_reducible apply Frame.app (k := measure_frame)
    | dsimp only
    | split
    | intro _

theorem ptpSend_frame {a0 a1 a2 a3 s4} : Frame [.tbs, .mac, .red, .swc, .vfm, .evr, .out] s4 (ptpSend a0 a1 a2 a3 s4) := by
  unfold ptpSend
  repeat' first
    | with_reducible exact Frame.refl _ _
    | exact rfl
    | with_reducible apply Frame.ite
    | with_reducible apply Frame.app (k := swcOwn_frame)
    | dsimp only
    | split
    | intro _

theorem annBody_frame {a0 s1} : Frame [.freeCtr] s1 (annBody a0 s1).2 := by
  unfold annBody
  repeat' first
    | with_reducible exact Frame.refl _ _
    | exact rfl
    | with_reducible apply Frame.ite_snd
    | with_reducible apply Frame.app (k := drawFree_frame)
    | with_reducible apply Frame.ite
    | dsimp only
    | split
    | with_reducible refine Frame.app ?_ (Frame.snd (by assumption) (drawFree_frame ..)) ?_
    | intro _

theorem execPtpMessageTransmit_frame {a0 a1 a2 s3} : Frames [.tbs, .mac, .red, .swc, .vfm, .evr, .now, .out, .freeCtr] s3 (execPtpMessageTransmit a0 a1 a2 s3) := by
  unfold execPtpMessageTransmit
  repeat' first
    | with_reducible exact Frame.refl _ _
    | exact rfl
    | with_reducible apply Frames.ite
    | with_reducible apply Frame.app (k := atTime_frame)
    | with_reducible apply Frame.app (k := modPtp_frame)
    | with_reducible apply Frame.app (k := ptpSend_frame)
    | with_reducible apply Frame.app (k := annBody_frame)
    | with_reducible apply Frame.app (k := modInstPort_frame)
    | with_reducible apply Frames.next
    | dsimp only
    | split
    | with_reducible refine Frame.app ?_ (Frame.snd (by assumption) (annBody_frame ..)) ?_
    | intro _

theorem syncDone_frame {a0 a1 a2 a3 a4 s5} : Frame [.acq, .flt, .trg, .sve, .cyc, .tbs, .evr, .out] s5 (syncDone a0 a1 a2 a3 a4 s5) := by
  unfold syncDone
  repeat' first
    | with_reducible exact Frame.refl _ _
    | exact rfl
    | with_reducible apply Frame.ite
    | with_reducible apply Frame.app (k := measure_frame)
    | with_reducible apply Frame.app (k := modInstPort_frame)
    | with_reducible apply Frame.app (k := setMaster_frame)
    | with_reducible apply Frame.app (k := enterHoldover_frame)
    | dsimp only
    | split
    | intro _

theorem execPtpAnnounceReceive_frame {a0 a1 s2} : Frames [.tbs, .evr, .now, .out] s2 (execPtpAnnounceReceive a0 a1 s2) := by
  unfold execPtpAnnounceReceive
  repeat' first
    | with_reducible exact Frame.refl _ _
    | exact rfl
    | with_reducible apply Frames.ite
    | with_reducible apply Frame.app (k := atTime_frame)
    | with_reducible apply Frame.app (k := bmca_frame)
    | with_reducible apply Frame.app (k := modPtp_frame)
    | with_reducible apply Frames.next
    | dsimp only
    | split
    | intro _

theorem timCfgApply_frame {a0 s1} : Frame [.tbs, .evr] s1 (timCfgApply a0 s1) := by
  unfold timCfgApply
  repeat' first
    | with_reducible exact Frame.refl _ _
    | exact rfl
    | with_reducible apply Frame.ite
    | with_reducible apply Frame.app (k := setMaster_frame)
    | with_reducible apply Frame.app (k := modBase_frame)
    | with_reducible apply Frame.app (k := enterFree_frame)
    | with_reducible apply Frame.app (k := enterHoldover_frame)
    | with_reducible apply Frame.app (k := bmca_frame)
    | with_reducible apply Frame.app (k := noteTrace_frame)
    | dsimp only
    | split
    | intro _

theorem execPtpSyncReceive_frame {a0 a1 s2} : Frames [.acq, .flt, .trg, .sve, .cyc, .tbs, .evr, .now, .out] s2 (execPtpSyncReceive a0 a1 s2) := by
  unfold execPtpSyncReceive
  repeat' first
    | with_reducible exact Frame.refl _ _
    | exact rfl
    | with_reducible apply Frames.ite
    | with_reducible apply Frame.app (k := atTime_frame)
    | with_reducible apply Frame.app (k := modPtp_frame)
    | with_reducible apply Frame.app (k := syncDone_frame)
    | with_reducible apply Frames.next
    | dsimp only
    | split
    | intro _

theorem execPtpFollowUpReceive_frame {a0 a1 s2} : Frames [.acq, .flt, .trg, .sve, .cyc, .tbs, .evr, .now, .out] s2 (execPtpFollowUpReceive a0 a1 s2) := by
  unfold execPtpFollowUpReceive
  repeat' first
    | with_reducible exact Frame.refl _ _
    | exact rfl
    | with_reducible apply Frame.app (k := atTime_frame)
    | with_reducible apply Frame.app (k := syncDone_frame)
    | with_reducible apply Frame.app (k := modPtp_frame)
    | with_reducible apply Frames.next
    | dsimp only
    | split
    | intro _

theorem execFollowUpTimeout_frame {a0 a1 s2} : Frames [.tbs, .evr, .now, .out] s2 (execFollowUpTimeout a0 a1 s2) := by
  unfold execFollowUpTimeout
  repeat' first
    | with_reducible exact Frame.refl _ _
    | exact rfl
    | with_reducible apply Frame.app (k := atTime_frame)
    | with_reducible apply Frame.app (k := modPtp_frame)
    | with_reducible apply Frames.next
    | dsimp only
    | split
    | intro _

theorem execPdelayMessageReceive_frame {a0 a1 s2} : Frames [.tbs, .mac, .red, .swc, .vfm, .evr, .now, .out] s2 (execPdelayMessageReceive a0 a1 s2) := by
  unfold execPdelayMessageReceive
  repeat' first
    | with_reducible exact Frame.refl _ _
    | exact rfl
    | with_reducible apply Frames.ite
    | with_reducible apply Frame.app (k := atTime_frame)
    | with_reducible apply Frame.app (k := modPtp_frame)
    | with_reducible apply Frame.app (k := ptpSend_frame)
    | with_reducible apply Frames.next
    | dsimp only
    | split
    | intro _

theorem irigError_frame {s0} : Frame [.tbs, .evr] s0 (irigError s0) := by
  unfold irigError
  repeat' first
    | with_reducible exact Frame.refl _ _
    | exact rfl
    | with_reducible apply Frame.ite
    | with_reducible apply Frame.app (k := modTbs_frame)
    | with_reducible apply Frame.app (k := ev_frame)
    | dsimp only
    | split
    | intro _

theorem execIrigFrameReceive_frame {a0 a1 s2} : Frames [.acq, .flt, .trg, .sve, .cyc, .tbs, .evr, .now, .out] s2 (execIrigFrameReceive a0 a1 s2) := by
  unfold execIrigFrameReceive
  repeat' first
    | with_reducible exact Frame.refl _ _
    | exact rfl
    | with_reducible apply Frames.ite
    | with_reducible apply Frame.app (k := atTime_frame)
    | with_reducible apply Frame.app (k := irigError_frame)
    | with_reducible apply Frame.app (k := modTbs_frame)
    | with_reducible apply Frame.app (k := irigTo_frame)
    | with_reducible apply Frames.next
    | with_reducible apply Frame.trans (k := Frame.foldOver ?_ _ _)
    | with_reducible apply Frame.trans (k := Frame.foldOver_snd ?_ _ _)
    | dsimp only
    | split
    | intro _

theorem execAnnounceReceiptTimeout_frame {a0 a1 s2} : Frames [.tbs, .evr, .now, .out] s2 (execAnnounceReceiptTimeout a0 a1 s2) := by
  unfold execAnnounceReceiptTimeout
  repeat' first
    | with_reducible exact Frame.refl _ _
    | exact rfl
    | with_reducible apply Frames.ite
    | with_reducible apply Frame.app (k := atTime_frame)
    | with_reducible apply Frame.app (k := bmca_frame)
    | with_reducible apply Frame.app (k := enterHoldover_frame)
    | with_reducible apply Frames.next
    | dsimp only
    | split
    | intro _

end Sys2Proof.Machine
end

