-- ==== Sys2Proof/Laws/Frames/SvReceive.lean ====
section
/-! SUPPORT. What each operation of Machine/SvReceive.lean may change. -/

namespace Sys2Proof.Machine

theorem zonesResume_frame {a0 s1} : Frame [.prt] s1 (zonesResume a0 s1) := by
  unfold zonesResume
  repeat' first
    | with_reducible exact Frame.refl _ _
    | exact rfl
    | with_reducible apply Frame.ite
    | simp (disch := decide) only [↓Frame.of_set_prt]
    | split
    | intro _

theorem unbindCh_frame {a0 s1} : Frame [.trg, .sve] s1 (unbindCh a0 s1) := by
  unfold unbindCh
  repeat' first
    | with_reducible exact Frame.refl _ _
    | exact rfl
    | with_reducible apply Frame.app (k := ringDrop_frame)
    | with_reducible apply Frame.app (k := modSve_frame)
    | dsimp only
    | split
    | intro _

theorem modSub_frame {a0 a1 s2} : Frame [.sve] s2 (modSub a0 a1 s2) := by
  unfold modSub
  repeat' first
    | with_reducible exact Frame.refl _ _
    | exact rfl
    | with_reducible apply Frame.app (k := modSve_frame)
    | dsimp only
    | split
    | intro _

theorem execSvStreamLostTimeout_frame {a0 a1 s2} : Frames [.sve, .evr, .now, .out] s2 (execSvStreamLostTimeout a0 a1 s2) := by
  unfold execSvStreamLostTimeout
  repeat' first
    | with_reducible exact Frame.refl _ _
    | exact rfl
    | with_reducible apply Frames.ite
    | with_reducible apply Frame.app (k := atTime_frame)
    | with_reducible apply Frame.app (k := ev_frame)
    | with_reducible apply Frame.app (k := modSub_frame)
    | with_reducible apply Frames.next
    | dsimp only
    | split
    | intro _

theorem svAccepted_frame {a0 a1 a2 a3 s4} : Frame [.sve, .evr] s4 (svAccepted a0 a1 a2 a3 s4) := by
  unfold svAccepted
  repeat' first
    | with_reducible exact Frame.refl _ _
    | exact rfl
    | with_reducible apply Frame.ite
    | with_reducible apply Frame.app (k := modSub_frame)
    | with_reducible apply Frame.app (k := ev_frame)
    | dsimp only
    | split
    | intro _

theorem svBracket_frame {a0 a1 a2 s3} : Frame [.red, .evr] s3 (svBracket a0 a1 a2 s3).2 := by
  unfold svBracket
  repeat' first
    | with_reducible exact Frame.refl _ _
    | exact rfl
    | with_reducible apply Frame.ite_snd
    | with_reducible apply Frame.app (k := pairNote_frame)
    | with_reducible apply Frame.app (k := streamSwitch_frame)
    | with_reducible apply Frame.app (k := modPair_frame)
    | with_reducible apply Frame.ite
    | dsimp only
    | split
    | with_reducible refine Frame.app ?_ (Frame.snd (by assumption) (pairNote_frame ..)) ?_
    | intro _

theorem svMacFail_frame {a0 s1} : Frame [.sve, .evr] s1 (svMacFail a0 s1) := by
  unfold svMacFail
  repeat' first
    | with_reducible exact Frame.refl _ _
    | exact rfl
    | with_reducible apply Frame.app (k := modSub_frame)
    | with_reducible apply Frame.app (k := modSve_frame)
    | with_reducible apply Frame.app (k := ev_frame)
    | dsimp only
    | split
    | intro _

theorem svDecodeErr_frame {a0 a1 s2} : Frame [.sve, .evr] s2 (svDecodeErr a0 a1 s2) := by
  unfold svDecodeErr
  repeat' first
    | with_reducible exact Frame.refl _ _
    | exact rfl
    | with_reducible apply Frame.app (k := modSub_frame)
    | with_reducible apply Frame.app (k := modSve_frame)
    | with_reducible apply Frame.app (k := ev_frame)
    | dsimp only
    | split
    | intro _

theorem setSimulated_frame {a0 a1 s2} : Frame [.trg, .sve, .prt, .evr] s2 (setSimulated a0 a1 s2) := by
  unfold setSimulated
  repeat' first
    | with_reducible exact Frame.refl _ _
    | exact rfl
    | with_reducible apply Frame.ite
    | with_reducible apply Frame.app (k := modSub_frame)
    | with_reducible apply Frame.app (k := emptyCh_frame)
    | with_reducible apply Frame.app (k := ev_frame)
    | with_reducible apply Frame.app (k := zonesResume_frame)
    | with_reducible apply Frame.trans (k := Frame.foldOver ?_ _ _)
    | with_reducible apply Frame.trans (k := Frame.foldOver_snd ?_ _ _)
    | dsimp only
    | split
    | intro _

theorem svAsdu_frame {a0 a1 a2 a3 s4} : Frame [.trg, .sve, .tbs, .mac, .red, .swc, .vfm, .evr, .out] s4 (svAsdu a0 a1 a2 a3 s4).2 := by
  unfold svAsdu
  repeat' first
    | with_reducible exact Frame.refl _ _
    | exact rfl
    | with_reducible apply Frame.ite_snd
    | with_reducible apply Frame.app (k := ev_frame)
    | with_reducible apply Frame.app (k := modSub_frame)
    | with_reducible apply Frame.app (k := modSve_frame)
    | with_reducible apply Frame.app (k := svLate_frame)
    | with_reducible apply Frame.app (k := writeSlot_frame)
    | with_reducible apply Frame.ite
    | with_reducible apply Frame.trans (k := Frame.foldOver ?_ _ _)
    | with_reducible apply Frame.trans (k := Frame.foldOver_snd ?_ _ _)
    | dsimp only
    | split
    | intro _

theorem svIntake_frame {a0 s1} : Frame [.trg, .sve, .prt, .tbs, .mac, .red, .swc, .vfm, .evr, .out] s1 (svIntake a0 s1) := by
  unfold svIntake
  repeat' first
    | with_reducible exact Frame.refl _ _
    | exact rfl
    | with_reducible apply Frame.ite
    | with_reducible apply Frame.app (k := modSve_frame)
    | with_reducible apply Frame.app (k := svMacFail_frame)
    | with_reducible apply Frame.app (k := svDecodeErr_frame)
    | with_reducible apply Frame.app (k := setSimulated_frame)
    | with_reducible apply Frame.app (k := svAsdu_frame)
    | with_reducible apply Frame.app (k := modSub_frame)
    | with_reducible apply Frame.app (k := svAccepted_frame)
    | with_reducible apply Frame.trans (k := Frame.foldOver ?_ _ _)
    | with_reducible apply Frame.trans (k := Frame.foldOver_snd ?_ _ _)
    | dsimp only
    | split
    | with_reducible refine Frame.app ?_ (Frame.snd (by assumption) (svAsdu_frame ..)) ?_
    | intro _

theorem svPubApply_frame {a0 s1} : Frame [.sve] s1 (svPubApply a0 s1) := by
  unfold svPubApply
  repeat' first
    | with_reducible exact Frame.refl _ _
    | exact rfl
    | with_reducible apply Frame.ite
    | with_reducible apply Frame.app (k := modSve_frame)
    | dsimp only
    | split
    | intro _

theorem execSvFrameReceive_frame {a0 a1 s2} : Frames [.trg, .sve, .prt, .tbs, .mac, .red, .swc, .vfm, .evr, .now, .out] s2 (execSvFrameReceive a0 a1 s2) := by
  unfold execSvFrameReceive
  repeat' first
    | with_reducible exact Frame.refl _ _
    | exact rfl
    | with_reducible apply Frames.ite
    | with_reducible apply Frame.app (k := atTime_frame)
    | with_reducible apply Frame.app (k := prpReceive_frame)
    | with_reducible apply Frame.app (k := svBracket_frame)
    | with_reducible apply Frame.app (k := svIntake_frame)
    | with_reducible apply Frames.next
    | with_reducible apply Frame.trans (k := Frame.foldOver ?_ _ _)
    | with_reducible apply Frame.trans (k := Frame.foldOver_snd ?_ _ _)
    | dsimp only
    | split
    | with_reducible refine Frame.app ?_ (Frame.snd (by assumption) (prpReceive_frame ..)) ?_
    | with_reducible refine Frame.app ?_ (Frame.snd (by assumption) (svBracket_frame ..)) ?_
    | intro _

theorem execSveCsSelWrite_frame {a0 a1 a2 s3} : Frames [.sys, .sve, .evr, .now, .out] s3 (execSveCsSelWrite a0 a1 a2 s3) := by
  unfold execSveCsSelWrite
  repeat' first
    | with_reducible exact Frame.refl _ _
    | exact rfl
    | with_reducible apply Frames.ite
    | with_reducible apply Frame.app (k := atTime_frame)
    | with_reducible apply Frame.trans (k := regWrite_frame ?_ ?_)
    | with_reducible apply Frame.app (k := modSve_frame)
    | with_reducible apply Frames.next
    | dsimp only
    | split
    | intro _

theorem execSveSimWrite_frame {a0 a1 a2 s3} : Frames [.sys, .trg, .sve, .prt, .evr, .now, .out] s3 (execSveSimWrite a0 a1 a2 s3) := by
  unfold execSveSimWrite
  repeat' first
    | with_reducible exact Frame.refl _ _
    | exact rfl
    | with_reducible apply Frames.ite
    | with_reducible apply Frame.app (k := atTime_frame)
    | with_reducible apply Frame.app (k := busViolate_frame)
    | with_reducible apply Frame.trans (k := regWrite_frame ?_ ?_)
    | with_reducible apply Frame.app (k := modSve_frame)
    | with_reducible apply Frame.app (k := setSimulated_frame)
    | with_reducible apply Frames.next
    | with_reducible apply Frame.trans (k := Frame.foldOver ?_ _ _)
    | with_reducible apply Frame.trans (k := Frame.foldOver_snd ?_ _ _)
    | dsimp only
    | split
    | intro _

theorem svUnsubApply_frame {a0 s1} : Frame [.trg, .sve, .swc] s1 (svUnsubApply a0 s1) := by
  unfold svUnsubApply
  repeat' first
    | with_reducible exact Frame.refl _ _
    | exact rfl
    | with_reducible apply Frame.app (k := modSwc_frame)
    | with_reducible apply Frame.app (k := unbindCh_frame)
    | with_reducible apply Frame.app (k := modSve_frame)
    | with_reducible apply Frame.trans (k := Frame.foldOver ?_ _ _)
    | with_reducible apply Frame.trans (k := Frame.foldOver_snd ?_ _ _)
    | dsimp only
    | split
    | intro _

theorem svSubApply_frame {a0 s1} : Frame [.trg, .sve, .swc] s1 (svSubApply a0 s1) := by
  unfold svSubApply
  repeat' first
    | with_reducible exact Frame.refl _ _
    | exact rfl
    | with_reducible apply Frame.ite
    | with_reducible apply Frame.app (k := svUnsubApply_frame)
    | with_reducible apply Frame.app (k := modSwc_frame)
    | with_reducible apply Frame.app (k := modSve_frame)
    | with_reducible apply Frame.app (k := modTrg_frame)
    | with_reducible apply Frame.app (k := emptyCh_frame)
    | with_reducible apply Frame.trans (k := Frame.foldOver ?_ _ _)
    | with_reducible apply Frame.trans (k := Frame.foldOver_snd ?_ _ _)
    | dsimp only
    | split
    | intro _

end Sys2Proof.Machine
end

