-- ==== Sys2Proof/Laws/Frames/SwitchTables.lean ====
section
/-! SUPPORT. What each operation of Machine/SwitchTables.lean may change. -/

namespace Sys2Proof.Machine

theorem swcPolicyApply_frame {a0 a1 s2} : Frame [.swc, .evr] s2 (swcPolicyApply a0 a1 s2) := by
  unfold swcPolicyApply
  repeat' first
    | with_reducible exact Frame.refl _ _
    | exact rfl
    | with_reducible apply Frame.app (k := modSwc_frame)
    | with_reducible apply Frame.app (k := evCfg_frame)
    | dsimp only
    | split
    | intro _

theorem execSwcTableFlush_frame {a0 a1 a2 s3} : Frames [.swc, .mbx, .cmd, .evr, .now, .out] s3 (execSwcTableFlush a0 a1 a2 s3) := by
  unfold execSwcTableFlush
  repeat' first
    | with_reducible exact Frame.refl _ _
    | exact rfl
    | with_reducible apply Frame.app (k := atTime_frame)
    | with_reducible apply Frame.trans (k := runCmd_frame ?_ ?_)
    | with_reducible apply Frame.trans (k := checked_frame ?_ ?_)
    | with_reducible apply Frame.app (k := reply_frame)
    | with_reducible apply Frame.app (k := evCmd_frame)
    | with_reducible apply Frame.app (k := modSwc_frame)
    | with_reducible apply Frames.next
    | dsimp only
    | split
    | intro _

theorem swcTableDelete_frame {a0 a1 s2} : Frame [.swc, .evr] s2 (swcTableDelete a0 a1 s2) := by
  unfold swcTableDelete
  repeat' first
    | with_reducible exact Frame.refl _ _
    | exact rfl
    | with_reducible apply Frame.app (k := evCfg_frame)
    | with_reducible apply Frame.app (k := modSwc_frame)
    | dsimp only
    | split
    | intro _

theorem execSwcVoqSelWrite_frame {a0 a1 a2 s3} : Frames [.sys, .mac, .swc, .evr, .now, .out] s3 (execSwcVoqSelWrite a0 a1 a2 s3) := by
  unfold execSwcVoqSelWrite
  repeat' first
    | with_reducible exact Frame.refl _ _
    | exact rfl
    | with_reducible apply Frame.app (k := atTime_frame)
    | with_reducible apply Frame.trans (k := regWrite_frame ?_ ?_)
    | with_reducible apply Frame.app (k := swcSettle_frame)
    | with_reducible apply Frame.app (k := modSwc_frame)
    | with_reducible apply Frames.next
    | dsimp only
    | split
    | intro _

theorem execFdbAgeOut_frame {a0 a1 a2 s3} : Frames [.swc, .evr, .now, .out] s3 (execFdbAgeOut a0 a1 a2 s3) := by
  unfold execFdbAgeOut
  repeat' first
    | with_reducible exact Frame.refl _ _
    | exact rfl
    | with_reducible apply Frames.ite
    | with_reducible apply Frame.app (k := atTime_frame)
    | with_reducible apply Frame.app (k := modSwc_frame)
    | with_reducible apply Frames.next
    | dsimp only
    | split
    | intro _

theorem execSwcTableRead_frame {a0 a1 a2 s3} : Frames [.mbx, .cmd, .evr, .now, .out] s3 (execSwcTableRead a0 a1 a2 s3) := by
  unfold execSwcTableRead
  repeat' first
    | with_reducible exact Frame.refl _ _
    | exact rfl
    | with_reducible apply Frames.ite
    | with_reducible apply Frame.app (k := atTime_frame)
    | with_reducible apply Frame.trans (k := runCmd_frame ?_ ?_)
    | with_reducible apply Frame.trans (k := checked_frame ?_ ?_)
    | with_reducible apply Frame.app (k := reply_frame)
    | with_reducible apply Frames.next
    | dsimp only
    | split
    | intro _

theorem execSwcFrameTransmit_frame {a0 a1 s2} : Frames [.tbs, .mac, .red, .swc, .vfm, .cmd, .evr, .now, .out] s2 (execSwcFrameTransmit a0 a1 s2) := by
  unfold execSwcFrameTransmit
  repeat' first
    | with_reducible exact Frame.refl _ _
    | exact rfl
    | with_reducible apply Frames.ite
    | with_reducible apply Frame.app (k := atTime_frame)
    | with_reducible apply Frame.app (k := swcTransmit_frame)
    | with_reducible apply Frame.app (k := udpOut_frame)
    | with_reducible apply Frames.next
    | dsimp only
    | split
    | intro _

theorem swcTableWrite_frame {a0 a1 s2} : Frame [.swc, .evr] s2 (swcTableWrite a0 a1 s2) := by
  unfold swcTableWrite
  repeat' first
    | with_reducible exact Frame.refl _ _
    | exact rfl
    | with_reducible apply Frame.ite
    | with_reducible apply Frame.app (k := learnFailed_frame)
    | with_reducible apply Frame.app (k := evCfg_frame)
    | simp (disch := decide) only [↓Frame.of_set_swc]
    | split
    | intro _

end Sys2Proof.Machine
end

