-- ==== Sys2Proof/Laws/Frames/Thresholds.lean ====
section
/-! SUPPORT. What each operation of Machine/Thresholds.lean may change. -/

namespace Sys2Proof.Machine

theorem modPwr_frame {a0 s1} : Frame [.pwr] s1 (modPwr a0 s1) := by
  unfold modPwr
  repeat' first
    | with_reducible exact Frame.refl _ _
    | exact rfl
    | simp (disch := decide) only [↓Frame.of_set_pwr]
    | split
    | intro _

theorem capLowCheck_frame {s0} : Frame [.evr, .pwr] s0 (capLowCheck s0) := by
  unfold capLowCheck
  repeat' first
    | with_reducible exact Frame.refl _ _
    | exact rfl
    | with_reducible apply Frame.ite
    | with_reducible apply Frame.app (k := ev_frame)
    | with_reducible apply Frame.app (k := modPwr_frame)
    | dsimp only
    | split
    | intro _

theorem ratedChanged_frame {s0} : Frame [.evr, .pwr] s0 (ratedChanged s0) := by
  unfold ratedChanged
  repeat' first
    | with_reducible exact Frame.refl _ _
    | exact rfl
    | with_reducible apply Frame.ite
    | with_reducible apply Frame.app (k := capLowCheck_frame)
    | with_reducible apply Frame.app (k := modPwr_frame)
    | dsimp only
    | split
    | intro _

theorem pwrApply_frame {a0 a1 s2} : Frame [.evr, .pwr] s2 (pwrApply a0 a1 s2) := by
  unfold pwrApply
  repeat' first
    | with_reducible exact Frame.refl _ _
    | exact rfl
    | with_reducible apply Frame.app (k := modPwr_frame)
    | with_reducible apply Frame.app (k := ratedChanged_frame)
    | with_reducible apply Frame.app (k := evCfg_frame)
    | dsimp only
    | split
    | intro _

end Sys2Proof.Machine
end

