-- ==== Sys2Proof/Laws/Frames/Virtual.lean ====
section
/-! SUPPORT. What each operation of Machine/Virtual.lean may change. -/

namespace Sys2Proof.Machine

theorem modVfm_frame {a0 s1} : Frame [.vfm] s1 (modVfm a0 s1) := by
  unfold modVfm
  repeat' first
    | with_reducible exact Frame.refl _ _
    | exact rfl
    | simp (disch := decide) only [↓Frame.of_set_vfm]
    | split
    | intro _

theorem modRing_frame {a0 a1 s2} : Frame [.vfm] s2 (modRing a0 a1 s2) := by
  unfold modRing
  repeat' first
    | with_reducible exact Frame.refl _ _
    | exact rfl
    | with_reducible apply Frame.app (k := modVf_frame)
    | with_reducible apply Frame.app (k := modVfm_frame)
    | dsimp only
    | split
    | intro _

theorem execQCtlWrite_frame {a0 a1 a2 s3} : Frames [.vfm, .evr, .now, .out] s3 (execQCtlWrite a0 a1 a2 s3) := by
  unfold execQCtlWrite
  repeat' first
    | with_reducible exact Frame.refl _ _
    | exact rfl
    | with_reducible apply Frames.ite
    | with_reducible apply Frame.app (k := atTime_frame)
    | with_reducible apply Frame.app (k := modRing_frame)
    | with_reducible apply Frames.next
    | dsimp only
    | split
    | intro _

theorem setVreq_frame {a0 a1 s2} : Frame [.trg, .sve, .trp, .cyc, .tbs, .mac, .red, .swc, .vfm, .evr, .out] s2 (setVreq a0 a1 s2) := by
  unfold setVreq
  repeat' first
    | with_reducible exact Frame.refl _ _
    | exact rfl
    | with_reducible apply Frame.app (k := settle_frame)
    | with_reducible apply Frame.trans (k := Frame.foldl ?_ _ _)
    | simp (disch := decide) only [↓Frame.of_set_cyc]
    | split
    | intro _

theorem stopStart_frame {a0 a1 a2 a3 a4 s5} : Frame [.trg, .sve, .trp, .cyc, .tbs, .mac, .red, .swc, .vfm, .mbx, .evr, .out] s5 (stopStart a0 a1 a2 a3 a4 s5) := by
  unfold stopStart
  repeat' first
    | with_reducible exact Frame.refl _ _
    | exact rfl
    | with_reducible apply Frame.app (k := modVf_frame)
    | with_reducible apply Frame.app (k := setVreq_frame)
    | with_reducible apply Frame.trans (k := vfChange_frame ?_ ?_)
    | simp (disch := decide) only [↓Frame.of_set_mbx]
    | split
    | intro _

theorem stopAll_frame {a0 a1 s2} : Frame [.trg, .sve, .trp, .cyc, .tbs, .mac, .red, .swc, .vfm, .mbx, .evr, .out] s2 (stopAll a0 a1 s2) := by
  unfold stopAll
  repeat' first
    | with_reducible exact Frame.refl _ _
    | exact rfl
    | with_reducible apply Frame.app (k := stopStart_frame)
    | with_reducible apply Frame.trans (k := Frame.foldOver ?_ _ _)
    | with_reducible apply Frame.trans (k := Frame.foldOver_snd ?_ _ _)
    | dsimp only
    | split
    | intro _

theorem execVfEnableWrite_frame {a0 a1 a2 a3 s4} : Frames [.trg, .sve, .trp, .cyc, .tbs, .mac, .red, .swc, .vfm, .mbx, .evr, .now, .out] s4 (execVfEnableWrite a0 a1 a2 a3 s4) := by
  unfold execVfEnableWrite
  repeat' first
    | with_reducible exact Frame.refl _ _
    | exact rfl
    | with_reducible apply Frames.ite
    | with_reducible apply Frame.app (k := atTime_frame)
    | with_reducible apply Frame.app (k := modVfm_frame)
    | with_reducible apply Frame.app (k := stopAll_frame)
    | with_reducible apply Frame.app (k := ev_frame)
    | with_reducible apply Frames.next
    | dsimp only
    | split
    | intro _

theorem doorbell_frame {a0 a1 a2 s3} : Frame [.vfm] s3 (doorbell a0 a1 a2 s3) := by
  unfold doorbell
  repeat' first
    | with_reducible exact Frame.refl _ _
    | exact rfl
    | with_reducible apply Frame.ite
    | with_reducible apply Frame.app (k := modRing_frame)
    | dsimp only
    | split
    | intro _

theorem execDoorbellTx_frame {a0 a1 a2 s3} : Frames [.vfm, .evr, .now, .out] s3 (execDoorbellTx a0 a1 a2 s3) := by
  unfold execDoorbellTx
  repeat' first
    | with_reducible exact Frame.refl _ _
    | exact rfl
    | with_reducible apply Frame.app (k := doorbell_frame)
    | with_reducible apply Frame.app (k := atTime_frame)
    | with_reducible apply Frames.next
    | dsimp only
    | split
    | intro _

theorem ringSignal_frame {a0 s1} : Frame [.vfm, .out] s1 (ringSignal a0 s1) := by
  unfold ringSignal
  repeat' first
    | with_reducible exact Frame.refl _ _
    | exact rfl
    | with_reducible apply Frame.app (k := emit_frame)
    | with_reducible apply Frame.app (k := modRing_frame)
    | dsimp only
    | split
    | intro _

theorem ringAdvance_frame {a0 a1 s2} : Frame [.vfm, .out] s2 (ringAdvance a0 a1 s2) := by
  unfold ringAdvance
  repeat' first
    | with_reducible exact Frame.refl _ _
    | exact rfl
    | with_reducible apply Frame.ite
    | with_reducible apply Frame.app (k := modRing_frame)
    | with_reducible apply Frame.app (k := emit_frame)
    | with_reducible apply Frame.app (k := ringSignal_frame)
    | dsimp only
    | split
    | intro _

theorem txSkip_frame {a0 a1 s2} : Frame [.vfm, .out] s2 (txSkip a0 a1 s2) := by
  unfold txSkip
  repeat' first
    | with_reducible exact Frame.refl _ _
    | exact rfl
    | with_reducible apply Frame.app (k := ringAdvance_frame)
    | with_reducible apply Frame.app (k := modRing_frame)
    | dsimp only
    | split
    | intro _

theorem txDrain_frame {v n s} : Frame [.tbs, .mac, .red, .swc, .vfm, .evr, .out] s (txDrain v n s) := by
  induction n generalizing s with
  | zero => exact .refl _ _
  | succ n ih =>
    unfold txDrain
    split
    · exact .refl _ _
    · dsimp only
      split
      · exact ((modVf_frame.mono rfl).app swcIn_frame rfl).trans ih
      · exact .refl _ _

theorem tripDecide_frame {a0 a1 a2 a3 a4 s5} : Frame [.trg, .sve, .trp, .cyc, .tbs, .mac, .red, .swc, .vfm, .evr, .out] s5 (tripDecide a0 a1 a2 a3 a4 s5) := by
  unfold tripDecide
  repeat' first
    | with_reducible exact Frame.refl _ _
    | exact rfl
    | with_reducible apply Frame.ite
    | with_reducible apply Frame.app (k := modTrp_frame)
    | with_reducible apply Frame.app (k := ev_frame)
    | with_reducible apply Frame.app (k := admitAck_frame)
    | with_reducible apply Frame.app (k := settleWith_frame)
    | dsimp only
    | split
    | intro _

theorem txHandle_frame {a0 a1 s2} : Frame [.trg, .sve, .trp, .cyc, .tbs, .mac, .red, .swc, .vfm, .evr, .out] s2 (txHandle a0 a1 s2) := by
  unfold txHandle
  repeat' first
    | with_reducible exact Frame.refl _ _
    | exact rfl
    | with_reducible apply Frame.ite
    | with_reducible apply Frame.app (k := ringAdvance_frame)
    | with_reducible apply Frame.app (k := txSkip_frame)
    | with_reducible apply Frame.app (k := modVf_frame)
    | with_reducible apply Frame.app (k := txDrain_frame)
    | with_reducible apply Frame.app (k := tripDecide_frame)
    | dsimp only
    | split
    | intro _

theorem vfmApply_frame {a0 a1 a2 s3} {m : List Block} (hm : subs [.vfm] m = true) (ha2 : ∀ x0, Frame m x0 (a2 x0)) : Frame m s3 (vfmApply a0 a1 a2 s3) := by
  unfold vfmApply
  repeat' first
    | with_reducible exact Frame.refl _ _
    | exact rfl
    | with_reducible apply Frame.ite
    | with_reducible apply Frame.trans (k := ha2 ..)
    | exact subs_trans rfl hm
    | with_reducible apply Frame.app (k := modVf_frame)
    | dsimp only
    | split
    | intro _

theorem execVfFlr_frame {a0 a1 s2} : Frames [.trg, .sve, .trp, .cyc, .tbs, .mac, .red, .swc, .vfm, .mbx, .evr, .now, .out] s2 (execVfFlr a0 a1 s2) := by
  unfold execVfFlr
  repeat' first
    | with_reducible exact Frame.refl _ _
    | exact rfl
    | with_reducible apply Frames.ite
    | with_reducible apply Frame.app (k := atTime_frame)
    | with_reducible apply Frame.app (k := stopStart_frame)
    | with_reducible apply Frames.next
    | dsimp only
    | split
    | intro _

theorem execCompletionTimeout_frame {a0 a1 s2} : Frames [.vfm, .evr, .now, .out] s2 (execCompletionTimeout a0 a1 s2) := by
  unfold execCompletionTimeout
  repeat' first
    | with_reducible exact Frame.refl _ _
    | exact rfl
    | with_reducible apply Frames.ite
    | with_reducible apply Frame.app (k := emit_frame)
    | with_reducible apply Frame.app (k := modVfm_frame)
    | with_reducible apply Frame.app (k := atTime_frame)
    | with_reducible apply Frames.next
    | dsimp only
    | split
    | intro _

theorem execHostLinkChange_frame {a0 a1 a2 a3 a4 s5} : Frames [.trg, .sve, .trp, .cyc, .tbs, .mac, .red, .swc, .vfm, .evr, .now, .out] s5 (execHostLinkChange a0 a1 a2 a3 a4 s5) := by
  unfold execHostLinkChange
  repeat' first
    | with_reducible exact Frame.refl _ _
    | exact rfl
    | with_reducible apply Frames.ite
    | with_reducible apply Frame.app (k := atTime_frame)
    | with_reducible apply Frame.app (k := modVfm_frame)
    | with_reducible apply Frame.app (k := settle_frame)
    | with_reducible apply Frame.app (k := ev_frame)
    | with_reducible apply Frames.next
    | dsimp only
    | split
    | intro _

theorem execVfVreqSet_frame {a0 a1 a2 s3} : Frames [.trg, .sve, .trp, .cyc, .tbs, .mac, .red, .swc, .vfm, .evr, .now, .out] s3 (execVfVreqSet a0 a1 a2 s3) := by
  unfold execVfVreqSet
  repeat' first
    | with_reducible exact Frame.refl _ _
    | exact rfl
    | with_reducible apply Frames.ite
    | with_reducible apply Frame.app (k := atTime_frame)
    | with_reducible apply Frame.app (k := setVreq_frame)
    | with_reducible apply Frames.next
    | dsimp only
    | split
    | intro _

theorem vfmShareNow_frame {a0 a1 a2 s3} : Frame [.vfm, .evr, .out] s3 (vfmShareNow a0 a1 a2 s3) := by
  unfold vfmShareNow
  repeat' first
    | with_reducible exact Frame.refl _ _
    | exact rfl
    | with_reducible apply Frame.ite
    | with_reducible apply Frame.app (k := modVf_frame)
    | with_reducible apply Frame.app (k := evCfg_frame)
    | with_reducible apply Frame.app (k := ev_frame)
    | with_reducible apply Frame.trans (k := vfChange_frame ?_ ?_)
    | with_reducible apply Frame.app (k := oversharePass_frame)
    | dsimp only
    | split
    | intro _

theorem vfmBindNow_frame {a0 a1 a2 s3} : Frame [.vfm, .evr] s3 (vfmBindNow a0 a1 a2 s3) := by
  unfold vfmBindNow
  repeat' first
    | with_reducible exact Frame.refl _ _
    | exact rfl
    | with_reducible apply Frame.ite
    | with_reducible apply Frame.app (k := evCfg_frame)
    | with_reducible apply Frame.app (k := modVf_frame)
    | dsimp only
    | split
    | intro _

theorem resetAllNote_frame {a0 a1 a2 a3 s4} : Frame [.vfm, .mbx, .cmd, .out] s4 (resetAllNote a0 a1 a2 a3 s4) := by
  unfold resetAllNote
  repeat' first
    | with_reducible exact Frame.refl _ _
    | exact rfl
    | with_reducible apply Frame.ite
    | with_reducible apply Frame.app (k := finish_frame)
    | with_reducible apply Frame.app (k := modVfm_frame)
    | with_reducible apply Frame.trans (k := Frame.foldOver ?_ _ _)
    | with_reducible apply Frame.trans (k := Frame.foldOver_snd ?_ _ _)
    | dsimp only
    | split
    | intro _

theorem vfmGrantNow_frame {a0 a1 a2 s3} : Frame [.trp, .evr] s3 (vfmGrantNow a0 a1 a2 s3) := by
  unfold vfmGrantNow
  repeat' first
    | with_reducible exact Frame.refl _ _
    | exact rfl
    | with_reducible apply Frame.ite
    | with_reducible apply Frame.app (k := evCfg_frame)
    | with_reducible apply Frame.app (k := modTrp_frame)
    | dsimp only
    | split
    | intro _

theorem vfmPending_frame {a0 a1 s2} : Frame [.trp, .vfm, .evr, .out] s2 (vfmPending a0 a1 s2) := by
  unfold vfmPending
  repeat' first
    | with_reducible exact Frame.refl _ _
    | exact rfl
    | with_reducible apply Frame.app (k := vfmShareNow_frame)
    | with_reducible apply Frame.app (k := vfmBindNow_frame)
    | with_reducible apply Frame.app (k := vfmGrantNow_frame)
    | dsimp only
    | split
    | intro _

theorem stopEnd_frame {a0 s1} : Frame [.trp, .tbs, .mac, .red, .swc, .vfm, .mbx, .cmd, .evr, .out] s1 (stopEnd a0 s1) := by
  unfold stopEnd
  repeat' first
    | with_reducible exact Frame.refl _ _
    | exact rfl
    | with_reducible apply Frame.ite
    | with_reducible apply Frame.app (k := txDrain_frame)
    | with_reducible apply Frame.trans (k := vfChange_frame ?_ ?_)
    | with_reducible apply Frame.app (k := modVf_frame)
    | with_reducible apply Frame.app (k := ev_frame)
    | with_reducible apply Frame.app (k := modVfm_frame)
    | with_reducible apply Frame.app (k := finish_frame)
    | with_reducible apply Frame.app (k := resetAllNote_frame)
    | with_reducible apply Frame.app (k := vfmPending_frame)
    | with_reducible apply Frame.trans (k := Frame.foldOver ?_ _ _)
    | with_reducible apply Frame.trans (k := Frame.foldOver_snd ?_ _ _)
    | dsimp only
    | split
    | intro _

theorem execStopBathComplete_frame {a0 a1 s2} : Frames [.trp, .tbs, .mac, .red, .swc, .vfm, .mbx, .cmd, .evr, .now, .out] s2 (execStopBathComplete a0 a1 s2) := by
  unfold execStopBathComplete
  repeat' first
    | with_reducible exact Frame.refl _ _
    | exact rfl
    | with_reducible apply Frame.app (k := stopEnd_frame)
    | with_reducible apply Frame.app (k := atTime_frame)
    | with_reducible apply Frames.next
    | dsimp only
    | split
    | intro _

theorem execVfVreqClr_frame {a0 a1 a2 s3} : Frames [.trg, .sve, .trp, .cyc, .tbs, .mac, .red, .swc, .vfm, .evr, .now, .out] s3 (execVfVreqClr a0 a1 a2 s3) := by
  unfold execVfVreqClr
  repeat' first
    | with_reducible exact Frame.refl _ _
    | exact rfl
    | with_reducible apply Frames.ite
    | with_reducible apply Frame.app (k := atTime_frame)
    | with_reducible apply Frame.app (k := setVreq_frame)
    | with_reducible apply Frames.next
    | dsimp only
    | split
    | intro _

theorem execTxEntryFetch_frame {a0 a1 a2 s3} : Frames [.trg, .sve, .trp, .cyc, .tbs, .mac, .red, .swc, .vfm, .evr, .now, .out] s3 (execTxEntryFetch a0 a1 a2 s3) := by
  unfold execTxEntryFetch
  repeat' first
    | with_reducible exact Frame.refl _ _
    | exact rfl
    | with_reducible apply Frames.ite
    | with_reducible apply Frame.app (k := atTime_frame)
    | with_reducible apply Frame.app (k := modVf_frame)
    | with_reducible apply Frame.app (k := tripDecide_frame)
    | with_reducible apply Frame.app (k := txDrain_frame)
    | with_reducible apply Frame.app (k := txHandle_frame)
    | with_reducible apply Frames.next
    | dsimp only
    | split
    | intro _

theorem execMsixCoalesceExpire_frame {a0 a1 s2} : Frames [.vfm, .evr, .now, .out] s2 (execMsixCoalesceExpire a0 a1 s2) := by
  unfold execMsixCoalesceExpire
  repeat' first
    | with_reducible exact Frame.refl _ _
    | exact rfl
    | with_reducible apply Frames.ite
    | with_reducible apply Frame.app (k := atTime_frame)
    | with_reducible apply Frame.app (k := ringSignal_frame)
    | with_reducible apply Frames.next
    | dsimp only
    | split
    | intro _

theorem rxWrite_frame {a0 a1 a2 s3} : Frame [.vfm, .out] s3 (rxWrite a0 a1 a2 s3) := by
  unfold rxWrite
  repeat' first
    | with_reducible exact Frame.refl _ _
    | exact rfl
    | with_reducible apply Frame.ite
    | with_reducible apply Frame.app (k := ringAdvance_frame)
    | with_reducible apply Frame.app (k := emit_frame)
    | with_reducible apply Frame.app (k := modRing_frame)
    | dsimp only
    | split
    | intro _

theorem execRxDeliveryWrite_frame {a0 a1 a2 s3} : Frames [.vfm, .evr, .now, .out] s3 (execRxDeliveryWrite a0 a1 a2 s3) := by
  unfold execRxDeliveryWrite
  repeat' first
    | with_reducible exact Frame.refl _ _
    | exact rfl
    | with_reducible apply Frames.ite
    | with_reducible apply Frame.app (k := atTime_frame)
    | with_reducible apply Frame.app (k := rxWrite_frame)
    | with_reducible apply Frame.app (k := modVfm_frame)
    | with_reducible apply Frame.app (k := losslessState_frame)
    | with_reducible apply Frame.app (k := modVf_frame)
    | with_reducible apply Frame.app (k := oversharePass_frame)
    | with_reducible apply Frames.next
    | dsimp only
    | split
    | intro _

theorem execDoorbellRx_frame {a0 a1 a2 s3} : Frames [.vfm, .evr, .now, .out] s3 (execDoorbellRx a0 a1 a2 s3) := by
  unfold execDoorbellRx
  repeat' first
    | with_reducible exact Frame.refl _ _
    | exact rfl
    | with_reducible apply Frame.app (k := doorbell_frame)
    | with_reducible apply Frame.app (k := atTime_frame)
    | with_reducible apply Frames.next
    | dsimp only
    | split
    | intro _

theorem execPfPowerStateChange_frame {a0 a1 s2} : Frames [.vfm, .evr, .now, .out] s2 (execPfPowerStateChange a0 a1 s2) := by
  unfold execPfPowerStateChange
  repeat' first
    | with_reducible exact Frame.refl _ _
    | exact rfl
    | with_reducible apply Frames.ite
    | with_reducible apply Frame.app (k := atTime_frame)
    | with_reducible apply Frame.app (k := modVfm_frame)
    | with_reducible apply Frames.next
    | dsimp only
    | split
    | intro _

theorem execVfmReset_frame {a0 a1 s2} : Frames [.trg, .sve, .trp, .cyc, .tbs, .mac, .red, .swc, .vfm, .mbx, .cmd, .evr, .now, .out] s2 (execVfmReset a0 a1 s2) := by
  unfold execVfmReset
  repeat' first
    | with_reducible exact Frame.refl _ _
    | exact rfl
    | with_reducible apply Frames.ite
    | with_reducible apply Frame.app (k := atTime_frame)
    | with_reducible apply Frame.trans (k := runCmd_frame ?_ ?_)
    | with_reducible apply Frame.trans (k := checked_frame ?_ ?_)
    | with_reducible apply Frame.app (k := holdReply_frame)
    | with_reducible apply Frame.app (k := modVfm_frame)
    | with_reducible apply Frame.app (k := stopStart_frame)
    | with_reducible apply Frame.app (k := stopEnd_frame)
    | with_reducible apply Frames.next
    | with_reducible apply Frame.trans (k := Frame.foldOver ?_ _ _)
    | with_reducible apply Frame.trans (k := Frame.foldOver_snd ?_ _ _)
    | dsimp only
    | split
    | intro _

theorem execPerstDeassert_frame {a0 s1} : Frames [.vfm, .evr, .now, .out] s1 (execPerstDeassert a0 s1) := by
  unfold execPerstDeassert
  repeat' first
    | with_reducible exact Frame.refl _ _
    | exact rfl
    | with_reducible apply Frames.ite
    | with_reducible apply Frame.app (k := atTime_frame)
    | with_reducible apply Frame.app (k := modVfm_frame)
    | with_reducible apply Frames.next
    | dsimp only
    | split
    | intro _

end Sys2Proof.Machine
end

