-- ==== Sys2Proof/Laws/Frames/Configure.lean ====
section
/-! SUPPORT. What each operation of Machine/Configure.lean may change. -/

namespace Sys2Proof.Machine

theorem imageLoad_frame {a0 s1} : Frame [.cyc] s1 (imageLoad a0 s1) := by
  unfold imageLoad
  repeat' first
    | with_reducible exact Frame.refl _ _
    | exact rfl
    | simp (disch := decide) only [↓Frame.of_set_cyc]
    | split
    | intro _

theorem cfgApply_frame {a0 a1 a2 s3} : Frame [.acq, .flt, .trg, .sve, .prt, .trp, .cyc, .tbs, .mac, .red, .swc, .vfm, .mbx, .cmd, .evr, .pwr, .out, .freeCtr] s3 (cfgApply a0 a1 a2 s3) := by
  unfold cfgApply
  repeat' first
    | with_reducible exact Frame.refl _ _
    | exact rfl
    | with_reducible apply Frame.ite
    | with_reducible apply Frame.trans (k := vfmApply_frame ?_ ?_)
    | with_reducible apply Frame.app (k := acqSetChannelApply_frame)
    | with_reducible apply Frame.app (k := acqSetSequenceApply_frame)
    | with_reducible apply Frame.app (k := fltApply_frame)
    | with_reducible apply Frame.app (k := trgProfileApply_frame)
    | with_reducible apply Frame.app (k := trgSetSourcesApply_frame)
    | with_reducible apply Frame.app (k := svSubApply_frame)
    | with_reducible apply Frame.app (k := svUnsubApply_frame)
    | with_reducible apply Frame.app (k := svPubApply_frame)
    | with_reducible apply Frame.app (k := gsubApply_frame)
    | with_reducible apply Frame.app (k := gpubApply_frame)
    | with_reducible apply Frame.app (k := zoneApply_frame)
    | with_reducible apply Frame.app (k := elemApply_frame)
    | with_reducible apply Frame.app (k := matrixApply_frame)
    | with_reducible apply Frame.app (k := imageLoad_frame)
    | with_reducible apply Frame.app (k := logApply_frame)
    | with_reducible apply Frame.app (k := timCfgApply_frame)
    | with_reducible apply Frame.app (k := netPortApply_frame)
    | with_reducible apply Frame.app (k := netRedundancyApply_frame)
    | with_reducible apply Frame.app (k := netFilterApply_frame)
    | with_reducible apply Frame.app (k := netWakeApply_frame)
    | with_reducible apply Frame.app (k := swcTableWrite_frame)
    | with_reducible apply Frame.app (k := swcTableDelete_frame)
    | with_reducible apply Frame.app (k := swcPolicyApply_frame)
    | with_reducible apply Frame.app (k := vfmShareNow_frame)
    | with_reducible apply Frame.app (k := vfmBindNow_frame)
    | with_reducible apply Frame.app (k := vfmGrantNow_frame)
    | with_reducible apply Frame.app (k := pwrApply_frame)
    | dsimp only
    | split
    | intro _

theorem cfgTry_frame {a0 s1} : Frame [.acq, .flt, .trg, .sve, .prt, .trp, .cyc, .tbs, .mac, .red, .swc, .vfm, .mbx, .cmd, .evr, .pwr, .out, .freeCtr] s1 (cfgTry a0 s1) := by
  unfold cfgTry
  repeat' first
    | with_reducible exact Frame.refl _ _
    | exact rfl
    | with_reducible apply Frame.app (k := cfgApply_frame)
    | with_reducible apply Frame.trans (k := Frame.foldOver ?_ _ _)
    | with_reducible apply Frame.trans (k := Frame.foldOver_snd ?_ _ _)
    | dsimp only
    | split
    | intro _

theorem modCmd_frame {a0 s1} : Frame [.cmd] s1 (modCmd a0 s1) := by
  unfold modCmd
  repeat' first
    | with_reducible exact Frame.refl _ _
    | exact rfl
    | simp (disch := decide) only [↓Frame.of_set_cmd]
    | split
    | intro _

theorem stageCmd_frame {a0 a1 a2 a3 s4} : Frame [.mbx, .cmd, .out] s4 (stageCmd a0 a1 a2 a3 s4) := by
  unfold stageCmd
  repeat' first
    | with_reducible exact Frame.refl _ _
    | exact rfl
    | with_reducible apply Frame.ite
    | with_reducible apply Frame.app (k := refuse_frame)
    | with_reducible apply Frame.app (k := reply_frame)
    | with_reducible apply Frame.app (k := modCmd_frame)
    | dsimp only
    | split
    | intro _

theorem refuseBudget_frame {a0 a1 s2} : Frame [.mbx, .cmd, .evr, .out] s2 (refuseBudget a0 a1 s2) := by
  unfold refuseBudget
  repeat' first
    | with_reducible exact Frame.refl _ _
    | exact rfl
    | with_reducible apply Frame.app (k := refuse_frame)
    | with_reducible apply Frame.app (k := admitRefused_frame)
    | dsimp only
    | split
    | intro _

theorem withWaiting_frame {s0} : Frame [.trp, .vfm, .evr, .out] s0 (withWaiting s0) := by
  unfold withWaiting
  repeat' first
    | with_reducible exact Frame.refl _ _
    | exact rfl
    | with_reducible apply Frame.app (k := vfmPending_frame)
    | with_reducible apply Frame.trans (k := Frame.foldOver ?_ _ _)
    | with_reducible apply Frame.trans (k := Frame.foldOver_snd ?_ _ _)
    | dsimp only
    | split
    | intro _

theorem cfgStore_frame {s0} : Frame [.trp, .vfm, .cmd, .evr, .out] s0 (cfgStore s0) := by
  unfold cfgStore
  repeat' first
    | with_reducible exact Frame.refl _ _
    | exact rfl
    | with_reducible apply Frame.app (k := modCmd_frame)
    | with_reducible apply Frame.app (k := withWaiting_frame)
    | dsimp only
    | split
    | intro _

theorem applyAlone_frame {a0 a1 s2} : Frame [.acq, .flt, .trg, .sve, .prt, .trp, .cyc, .spd, .tbs, .mac, .red, .swc, .vfm, .mbx, .cmd, .evr, .pwr, .out, .freeCtr] s2 (applyAlone a0 a1 s2) := by
  unfold applyAlone
  repeat' first
    | with_reducible exact Frame.refl _ _
    | exact rfl
    | with_reducible apply Frame.ite
    | with_reducible apply Frame.app (k := cfgTry_frame)
    | with_reducible apply Frame.app (k := refuseBudget_frame)
    | with_reducible apply Frame.app (k := refuse_frame)
    | with_reducible apply Frame.app (k := cfgApply_frame)
    | with_reducible apply Frame.app (k := reply_frame)
    | with_reducible apply Frame.app (k := cfgStore_frame)
    | with_reducible apply Frame.app (k := claimsAll_frame)
    | with_reducible apply Frame.app (k := admitStore_frame)
    | dsimp only
    | split
    | intro _

theorem runCfg_frame {a0 a1 s2} : Frame [.acq, .flt, .trg, .sve, .prt, .trp, .cyc, .spd, .tbs, .mac, .red, .swc, .vfm, .mbx, .cmd, .evr, .pwr, .out, .freeCtr] s2 (runCfg a0 a1 s2) := by
  unfold runCfg
  repeat' first
    | with_reducible exact Frame.refl _ _
    | exact rfl
    | with_reducible apply Frame.ite
    | with_reducible apply Frame.trans (k := runCmd_frame ?_ ?_)
    | with_reducible apply Frame.app (k := refuse_frame)
    | with_reducible apply Frame.app (k := cfgTry_frame)
    | with_reducible apply Frame.trans (k := checked8_frame ?_ ?_)
    | with_reducible apply Frame.app (k := stageCmd_frame)
    | with_reducible apply Frame.app (k := applyAlone_frame)
    | dsimp only
    | split
    | intro _

theorem execVfmGrantTrip_frame {a0 a1 a2 s3} : Frames [.acq, .flt, .trg, .sve, .prt, .trp, .cyc, .spd, .tbs, .mac, .red, .swc, .vfm, .mbx, .cmd, .evr, .pwr, .now, .out, .freeCtr] s3 (execVfmGrantTrip a0 a1 a2 s3) := by
  unfold execVfmGrantTrip
  repeat' first
    | with_reducible exact Frame.refl _ _
    | exact rfl
    | with_reducible apply Frame.app (k := runCfg_frame)
    | with_reducible apply Frame.app (k := atTime_frame)
    | with_reducible apply Frames.next
    | dsimp only
    | split
    | intro _

theorem execSwcBufferPolicy_frame {a0 a1 a2 s3} : Frames [.acq, .flt, .trg, .sve, .prt, .trp, .cyc, .spd, .tbs, .mac, .red, .swc, .vfm, .mbx, .cmd, .evr, .pwr, .now, .out, .freeCtr] s3 (execSwcBufferPolicy a0 a1 a2 s3) := by
  unfold execSwcBufferPolicy
  repeat' first
    | with_reducible exact Frame.refl _ _
    | exact rfl
    | with_reducible apply Frame.app (k := runCfg_frame)
    | with_reducible apply Frame.app (k := atTime_frame)
    | with_reducible apply Frames.next
    | dsimp only
    | split
    | intro _

theorem execSveGoosePublish_frame {a0 a1 a2 s3} : Frames [.acq, .flt, .trg, .sve, .prt, .trp, .cyc, .spd, .tbs, .mac, .red, .swc, .vfm, .mbx, .cmd, .evr, .pwr, .now, .out, .freeCtr] s3 (execSveGoosePublish a0 a1 a2 s3) := by
  unfold execSveGoosePublish
  repeat' first
    | with_reducible exact Frame.refl _ _
    | exact rfl
    | with_reducible apply Frame.app (k := runCfg_frame)
    | with_reducible apply Frame.app (k := atTime_frame)
    | with_reducible apply Frames.next
    | dsimp only
    | split
    | intro _

theorem execNetRedundancy_frame {a0 a1 a2 s3} : Frames [.acq, .flt, .trg, .sve, .prt, .trp, .cyc, .spd, .tbs, .mac, .red, .swc, .vfm, .mbx, .cmd, .evr, .pwr, .now, .out, .freeCtr] s3 (execNetRedundancy a0 a1 a2 s3) := by
  unfold execNetRedundancy
  repeat' first
    | with_reducible exact Frame.refl _ _
    | exact rfl
    | with_reducible apply Frame.app (k := runCfg_frame)
    | with_reducible apply Frame.app (k := atTime_frame)
    | with_reducible apply Frames.next
    | dsimp only
    | split
    | intro _

theorem txnAbort_frame {a0 s1} : Frame [.cmd] s1 (txnAbort a0 s1) := by
  unfold txnAbort
  repeat' first
    | with_reducible exact Frame.refl _ _
    | exact rfl
    | with_reducible apply Frame.ite
    | with_reducible apply Frame.app (k := modCmd_frame)
    | dsimp only
    | split
    | intro _

theorem execSveUnsubscribe_frame {a0 a1 a2 s3} : Frames [.acq, .flt, .trg, .sve, .prt, .trp, .cyc, .spd, .tbs, .mac, .red, .swc, .vfm, .mbx, .cmd, .evr, .pwr, .now, .out, .freeCtr] s3 (execSveUnsubscribe a0 a1 a2 s3) := by
  unfold execSveUnsubscribe
  repeat' first
    | with_reducible exact Frame.refl _ _
    | exact rfl
    | with_reducible apply Frame.app (k := runCfg_frame)
    | with_reducible apply Frame.app (k := atTime_frame)
    | with_reducible apply Frames.next
    | dsimp only
    | split
    | intro _

theorem execSveGooseSubscribe_frame {a0 a1 a2 s3} : Frames [.acq, .flt, .trg, .sve, .prt, .trp, .cyc, .spd, .tbs, .mac, .red, .swc, .vfm, .mbx, .cmd, .evr, .pwr, .now, .out, .freeCtr] s3 (execSveGooseSubscribe a0 a1 a2 s3) := by
  unfold execSveGooseSubscribe
  repeat' first
    | with_reducible exact Frame.refl _ _
    | exact rfl
    | with_reducible apply Frame.app (k := runCfg_frame)
    | with_reducible apply Frame.app (k := atTime_frame)
    | with_reducible apply Frames.next
    | dsimp only
    | split
    | intro _

theorem execSwcTableDelete_frame {a0 a1 a2 s3} : Frames [.acq, .flt, .trg, .sve, .prt, .trp, .cyc, .spd, .tbs, .mac, .red, .swc, .vfm, .mbx, .cmd, .evr, .pwr, .now, .out, .freeCtr] s3 (execSwcTableDelete a0 a1 a2 s3) := by
  unfold execSwcTableDelete
  repeat' first
    | with_reducible exact Frame.refl _ _
    | exact rfl
    | with_reducible apply Frame.app (k := runCfg_frame)
    | with_reducible apply Frame.app (k := atTime_frame)
    | with_reducible apply Frames.next
    | dsimp only
    | split
    | intro _

theorem execPrtSetElement_frame {a0 a1 a2 s3} : Frames [.acq, .flt, .trg, .sve, .prt, .trp, .cyc, .spd, .tbs, .mac, .red, .swc, .vfm, .mbx, .cmd, .evr, .pwr, .now, .out, .freeCtr] s3 (execPrtSetElement a0 a1 a2 s3) := by
  unfold execPrtSetElement
  repeat' first
    | with_reducible exact Frame.refl _ _
    | exact rfl
    | with_reducible apply Frame.app (k := runCfg_frame)
    | with_reducible apply Frame.app (k := atTime_frame)
    | with_reducible apply Frames.next
    | dsimp only
    | split
    | intro _

theorem execVfmBindZone_frame {a0 a1 a2 s3} : Frames [.acq, .flt, .trg, .sve, .prt, .trp, .cyc, .spd, .tbs, .mac, .red, .swc, .vfm, .mbx, .cmd, .evr, .pwr, .now, .out, .freeCtr] s3 (execVfmBindZone a0 a1 a2 s3) := by
  unfold execVfmBindZone
  repeat' first
    | with_reducible exact Frame.refl _ _
    | exact rfl
    | with_reducible apply Frame.app (k := runCfg_frame)
    | with_reducible apply Frame.app (k := atTime_frame)
    | with_reducible apply Frames.next
    | dsimp only
    | split
    | intro _

theorem execNetWakePattern_frame {a0 a1 a2 s3} : Frames [.acq, .flt, .trg, .sve, .prt, .trp, .cyc, .spd, .tbs, .mac, .red, .swc, .vfm, .mbx, .cmd, .evr, .pwr, .now, .out, .freeCtr] s3 (execNetWakePattern a0 a1 a2 s3) := by
  unfold execNetWakePattern
  repeat' first
    | with_reducible exact Frame.refl _ _
    | exact rfl
    | with_reducible apply Frame.app (k := runCfg_frame)
    | with_reducible apply Frame.app (k := atTime_frame)
    | with_reducible apply Frames.next
    | dsimp only
    | split
    | intro _

theorem execTrgArmLoadProfile_frame {a0 a1 a2 s3} : Frames [.acq, .flt, .trg, .sve, .prt, .trp, .cyc, .spd, .tbs, .mac, .red, .swc, .vfm, .mbx, .cmd, .evr, .pwr, .now, .out, .freeCtr] s3 (execTrgArmLoadProfile a0 a1 a2 s3) := by
  unfold execTrgArmLoadProfile
  repeat' first
    | with_reducible exact Frame.refl _ _
    | exact rfl
    | with_reducible apply Frame.app (k := runCfg_frame)
    | with_reducible apply Frame.app (k := atTime_frame)
    | with_reducible apply Frames.next
    | dsimp only
    | split
    | intro _

theorem execVfmSetShare_frame {a0 a1 a2 s3} : Frames [.acq, .flt, .trg, .sve, .prt, .trp, .cyc, .spd, .tbs, .mac, .red, .swc, .vfm, .mbx, .cmd, .evr, .pwr, .now, .out, .freeCtr] s3 (execVfmSetShare a0 a1 a2 s3) := by
  unfold execVfmSetShare
  repeat' first
    | with_reducible exact Frame.refl _ _
    | exact rfl
    | with_reducible apply Frame.app (k := runCfg_frame)
    | with_reducible apply Frame.app (k := atTime_frame)
    | with_reducible apply Frames.next
    | dsimp only
    | split
    | intro _

theorem execNetFilter_frame {a0 a1 a2 s3} : Frames [.acq, .flt, .trg, .sve, .prt, .trp, .cyc, .spd, .tbs, .mac, .red, .swc, .vfm, .mbx, .cmd, .evr, .pwr, .now, .out, .freeCtr] s3 (execNetFilter a0 a1 a2 s3) := by
  unfold execNetFilter
  repeat' first
    | with_reducible exact Frame.refl _ _
    | exact rfl
    | with_reducible apply Frame.app (k := runCfg_frame)
    | with_reducible apply Frame.app (k := atTime_frame)
    | with_reducible apply Frames.next
    | dsimp only
    | split
    | intro _

theorem execPwrSetThresholds_frame {a0 a1 a2 s3} : Frames [.acq, .flt, .trg, .sve, .prt, .trp, .cyc, .spd, .tbs, .mac, .red, .swc, .vfm, .mbx, .cmd, .evr, .pwr, .now, .out, .freeCtr] s3 (execPwrSetThresholds a0 a1 a2 s3) := by
  unfold execPwrSetThresholds
  repeat' first
    | with_reducible exact Frame.refl _ _
    | exact rfl
    | with_reducible apply Frame.app (k := runCfg_frame)
    | with_reducible apply Frame.app (k := atTime_frame)
    | with_reducible apply Frames.next
    | dsimp only
    | split
    | intro _

theorem execCfgRead_frame {a0 a1 a2 a3 a4 s5} : Frames [.acq, .flt, .trg, .sve, .prt, .trp, .cyc, .tbs, .mac, .red, .swc, .vfm, .mbx, .cmd, .evr, .pwr, .now, .out, .freeCtr] s5 (execCfgRead a0 a1 a2 a3 a4 s5) := by
  unfold execCfgRead
  repeat' first
    | with_reducible exact Frame.refl _ _
    | exact rfl
    | with_reducible apply Frames.ite
    | with_reducible apply Frame.app (k := atTime_frame)
    | with_reducible apply Frame.trans (k := runCmd_frame ?_ ?_)
    | with_reducible apply Frame.app (k := withWaiting_frame)
    | with_reducible apply Frame.app (k := cfgTry_frame)
    | with_reducible apply Frame.trans (k := checked8_frame ?_ ?_)
    | with_reducible apply Frame.app (k := replyWithOutput_frame)
    | with_reducible apply Frames.next
    | dsimp only
    | split
    | intro _

theorem execPrtDefineZone_frame {a0 a1 a2 s3} : Frames [.acq, .flt, .trg, .sve, .prt, .trp, .cyc, .spd, .tbs, .mac, .red, .swc, .vfm, .mbx, .cmd, .evr, .pwr, .now, .out, .freeCtr] s3 (execPrtDefineZone a0 a1 a2 s3) := by
  unfold execPrtDefineZone
  repeat' first
    | with_reducible exact Frame.refl _ _
    | exact rfl
    | with_reducible apply Frame.app (k := runCfg_frame)
    | with_reducible apply Frame.app (k := atTime_frame)
    | with_reducible apply Frames.next
    | dsimp only
    | split
    | intro _

theorem execAcqSetChannel_frame {a0 a1 a2 s3} : Frames [.acq, .flt, .trg, .sve, .prt, .trp, .cyc, .spd, .tbs, .mac, .red, .swc, .vfm, .mbx, .cmd, .evr, .pwr, .now, .out, .freeCtr] s3 (execAcqSetChannel a0 a1 a2 s3) := by
  unfold execAcqSetChannel
  repeat' first
    | with_reducible exact Frame.refl _ _
    | exact rfl
    | with_reducible apply Frame.app (k := runCfg_frame)
    | with_reducible apply Frame.app (k := atTime_frame)
    | with_reducible apply Frames.next
    | dsimp only
    | split
    | intro _

theorem execSvePublish_frame {a0 a1 a2 s3} : Frames [.acq, .flt, .trg, .sve, .prt, .trp, .cyc, .spd, .tbs, .mac, .red, .swc, .vfm, .mbx, .cmd, .evr, .pwr, .now, .out, .freeCtr] s3 (execSvePublish a0 a1 a2 s3) := by
  unfold execSvePublish
  repeat' first
    | with_reducible exact Frame.refl _ _
    | exact rfl
    | with_reducible apply Frame.app (k := runCfg_frame)
    | with_reducible apply Frame.app (k := atTime_frame)
    | with_reducible apply Frames.next
    | dsimp only
    | split
    | intro _

theorem execTimConfigBase_frame {a0 a1 a2 s3} : Frames [.acq, .flt, .trg, .sve, .prt, .trp, .cyc, .spd, .tbs, .mac, .red, .swc, .vfm, .mbx, .cmd, .evr, .pwr, .now, .out, .freeCtr] s3 (execTimConfigBase a0 a1 a2 s3) := by
  unfold execTimConfigBase
  repeat' first
    | with_reducible exact Frame.refl _ _
    | exact rfl
    | with_reducible apply Frame.app (k := runCfg_frame)
    | with_reducible apply Frame.app (k := atTime_frame)
    | with_reducible apply Frames.next
    | dsimp only
    | split
    | intro _

theorem execSveSubscribe_frame {a0 a1 a2 s3} : Frames [.acq, .flt, .trg, .sve, .prt, .trp, .cyc, .spd, .tbs, .mac, .red, .swc, .vfm, .mbx, .cmd, .evr, .pwr, .now, .out, .freeCtr] s3 (execSveSubscribe a0 a1 a2 s3) := by
  unfold execSveSubscribe
  repeat' first
    | with_reducible exact Frame.refl _ _
    | exact rfl
    | with_reducible apply Frame.app (k := runCfg_frame)
    | with_reducible apply Frame.app (k := atTime_frame)
    | with_reducible apply Frames.next
    | dsimp only
    | split
    | intro _

theorem execAcqSetSequence_frame {a0 a1 a2 s3} : Frames [.acq, .flt, .trg, .sve, .prt, .trp, .cyc, .spd, .tbs, .mac, .red, .swc, .vfm, .mbx, .cmd, .evr, .pwr, .now, .out, .freeCtr] s3 (execAcqSetSequence a0 a1 a2 s3) := by
  unfold execAcqSetSequence
  repeat' first
    | with_reducible exact Frame.refl _ _
    | exact rfl
    | with_reducible apply Frame.app (k := runCfg_frame)
    | with_reducible apply Frame.app (k := atTime_frame)
    | with_reducible apply Frames.next
    | dsimp only
    | split
    | intro _

theorem refuseCommit_frame {a0 a1 a2 a3 s4} : Frame [.mbx, .cmd, .out] s4 (refuseCommit a0 a1 a2 a3 s4) := by
  unfold refuseCommit
  repeat' first
    | with_reducible exact Frame.refl _ _
    | exact rfl
    | with_reducible apply Frame.app (k := refuse_frame)
    | with_reducible apply Frame.app (k := modCmd_frame)
    | dsimp only
    | split
    | intro _

theorem commitReply_frame {a0 a1 a2 s3} : Frame [.mbx, .cmd, .out] s3 (commitReply a0 a1 a2 s3) := by
  unfold commitReply
  repeat' first
    | with_reducible exact Frame.refl _ _
    | exact rfl
    | with_reducible apply Frame.ite
    | with_reducible apply Frame.app (k := reply_frame)
    | with_reducible apply Frame.app (k := holdReply_frame)
    | with_reducible apply Frame.app (k := modCmd_frame)
    | dsimp only
    | split
    | intro _

theorem commit_frame {a0 a1 a2 s3} : Frame [.acq, .flt, .trg, .sve, .prt, .trp, .cyc, .spd, .tbs, .rtc, .mac, .red, .swc, .vfm, .mbx, .cmd, .evr, .pwr, .out, .freeCtr] s3 (commit a0 a1 a2 s3) := by
  unfold commit
  repeat' first
    | with_reducible exact Frame.refl _ _
    | exact rfl
    | with_reducible apply Frame.ite
    | with_reducible apply Frame.app (k := refuseCommit_frame)
    | with_reducible apply Frame.app (k := cfgTry_frame)
    | with_reducible apply Frame.app (k := refuseBudget_frame)
    | with_reducible apply Frame.app (k := modCmd_frame)
    | with_reducible apply Frame.app (k := cfgApply_frame)
    | with_reducible apply Frame.app (k := claimsAll_frame)
    | with_reducible apply Frame.app (k := cfgStore_frame)
    | with_reducible apply Frame.app (k := admitStore_frame)
    | with_reducible apply Frame.app (k := setBkp_frame)
    | with_reducible apply Frame.app (k := commitReply_frame)
    | with_reducible apply Frame.trans (k := Frame.foldOver ?_ _ _)
    | with_reducible apply Frame.trans (k := Frame.foldOver_snd ?_ _ _)
    | dsimp only
    | split
    | intro _

theorem execCfgAbort_frame {a0 a1 s2} : Frames [.mbx, .cmd, .evr, .now, .out] s2 (execCfgAbort a0 a1 s2) := by
  unfold execCfgAbort
  repeat' first
    | with_reducible exact Frame.refl _ _
    | exact rfl
    | with_reducible apply Frame.app (k := atTime_frame)
    | with_reducible apply Frame.trans (k := runCmd_frame ?_ ?_)
    | with_reducible apply Frame.trans (k := checked8_frame ?_ ?_)
    | with_reducible apply Frame.app (k := reply_frame)
    | with_reducible apply Frame.app (k := txnAbort_frame)
    | with_reducible apply Frames.next
    | dsimp only
    | split
    | intro _

theorem execFltSetChain_frame {a0 a1 a2 s3} : Frames [.acq, .flt, .trg, .sve, .prt, .trp, .cyc, .spd, .tbs, .mac, .red, .swc, .vfm, .mbx, .cmd, .evr, .pwr, .now, .out, .freeCtr] s3 (execFltSetChain a0 a1 a2 s3) := by
  unfold execFltSetChain
  repeat' first
    | with_reducible exact Frame.refl _ _
    | exact rfl
    | with_reducible apply Frame.app (k := runCfg_frame)
    | with_reducible apply Frame.app (k := atTime_frame)
    | with_reducible apply Frames.next
    | dsimp only
    | split
    | intro _

theorem execLogActivate_frame {a0 a1 a2 s3} : Frames [.acq, .flt, .trg, .sve, .prt, .trp, .cyc, .spd, .tbs, .mac, .red, .swc, .vfm, .mbx, .cmd, .evr, .pwr, .now, .out, .freeCtr] s3 (execLogActivate a0 a1 a2 s3) := by
  unfold execLogActivate
  repeat' first
    | with_reducible exact Frame.refl _ _
    | exact rfl
    | with_reducible apply Frame.app (k := runCfg_frame)
    | with_reducible apply Frame.app (k := atTime_frame)
    | with_reducible apply Frames.next
    | dsimp only
    | split
    | intro _

theorem execCfgCommit_frame {a0 a1 a2 a3 s4} : Frames [.acq, .flt, .trg, .sve, .prt, .trp, .cyc, .spd, .tbs, .rtc, .mac, .red, .swc, .vfm, .mbx, .cmd, .evr, .pwr, .now, .out, .freeCtr] s4 (execCfgCommit a0 a1 a2 a3 s4) := by
  unfold execCfgCommit
  repeat' first
    | with_reducible exact Frame.refl _ _
    | exact rfl
    | with_reducible apply Frame.app (k := atTime_frame)
    | with_reducible apply Frame.trans (k := runCmd_frame ?_ ?_)
    | with_reducible apply Frame.trans (k := checked8_frame ?_ ?_)
    | with_reducible apply Frame.app (k := commit_frame)
    | with_reducible apply Frames.next
    | dsimp only
    | split
    | intro _

theorem execSwcTableWrite_frame {a0 a1 a2 s3} : Frames [.acq, .flt, .trg, .sve, .prt, .trp, .cyc, .spd, .tbs, .mac, .red, .swc, .vfm, .mbx, .cmd, .evr, .pwr, .now, .out, .freeCtr] s3 (execSwcTableWrite a0 a1 a2 s3) := by
  unfold execSwcTableWrite
  repeat' first
    | with_reducible exact Frame.refl _ _
    | exact rfl
    | with_reducible apply Frame.app (k := runCfg_frame)
    | with_reducible apply Frame.app (k := atTime_frame)
    | with_reducible apply Frames.next
    | dsimp only
    | split
    | intro _

theorem execPrtTripMatrix_frame {a0 a1 a2 s3} : Frames [.acq, .flt, .trg, .sve, .prt, .trp, .cyc, .spd, .tbs, .mac, .red, .swc, .vfm, .mbx, .cmd, .evr, .pwr, .now, .out, .freeCtr] s3 (execPrtTripMatrix a0 a1 a2 s3) := by
  unfold execPrtTripMatrix
  repeat' first
    | with_reducible exact Frame.refl _ _
    | exact rfl
    | with_reducible apply Frame.app (k := runCfg_frame)
    | with_reducible apply Frame.app (k := atTime_frame)
    | with_reducible apply Frames.next
    | dsimp only
    | split
    | intro _

theorem execNetPortConfig_frame {a0 a1 a2 s3} : Frames [.acq, .flt, .trg, .sve, .prt, .trp, .cyc, .spd, .tbs, .mac, .red, .swc, .vfm, .mbx, .cmd, .evr, .pwr, .now, .out, .freeCtr] s3 (execNetPortConfig a0 a1 a2 s3) := by
  unfold execNetPortConfig
  repeat' first
    | with_reducible exact Frame.refl _ _
    | exact rfl
    | with_reducible apply Frame.app (k := runCfg_frame)
    | with_reducible apply Frame.app (k := atTime_frame)
    | with_reducible apply Frames.next
    | dsimp only
    | split
    | intro _

theorem execTrgSetSources_frame {a0 a1 a2 s3} : Frames [.acq, .flt, .trg, .sve, .prt, .trp, .cyc, .spd, .tbs, .mac, .red, .swc, .vfm, .mbx, .cmd, .evr, .pwr, .now, .out, .freeCtr] s3 (execTrgSetSources a0 a1 a2 s3) := by
  unfold execTrgSetSources
  repeat' first
    | with_reducible exact Frame.refl _ _
    | exact rfl
    | with_reducible apply Frame.app (k := runCfg_frame)
    | with_reducible apply Frame.app (k := atTime_frame)
    | with_reducible apply Frames.next
    | dsimp only
    | split
    | intro _

theorem execCfgTransactionTimeout_frame {a0 s1} : Frames [.cmd, .evr, .now, .out] s1 (execCfgTransactionTimeout a0 s1) := by
  unfold execCfgTransactionTimeout
  repeat' first
    | with_reducible exact Frame.refl _ _
    | exact rfl
    | with_reducible apply Frames.ite
    | with_reducible apply Frame.app (k := atTime_frame)
    | with_reducible apply Frame.app (k := txnAbort_frame)
    | with_reducible apply Frames.next
    | dsimp only
    | split
    | intro _

theorem execCfgBegin_frame {a0 a1 a2 s3} : Frames [.mbx, .cmd, .evr, .now, .out] s3 (execCfgBegin a0 a1 a2 s3) := by
  unfold execCfgBegin
  repeat' first
    | with_reducible exact Frame.refl _ _
    | exact rfl
    | with_reducible apply Frames.ite
    | with_reducible apply Frame.app (k := atTime_frame)
    | with_reducible apply Frame.trans (k := runCmd_frame ?_ ?_)
    | with_reducible apply Frame.trans (k := checked8_frame ?_ ?_)
    | with_reducible apply Frame.app (k := reply_frame)
    | with_reducible apply Frame.app (k := modCmd_frame)
    | with_reducible apply Frames.next
    | dsimp only
    | split
    | intro _

end Sys2Proof.Machine
end

