-- ==== Sys2Proof/Laws/Frames/Datagrams.lean ====
section
/-! SUPPORT. What each operation of Machine/Datagrams.lean may change. -/

namespace Sys2Proof.Machine

theorem execArpRequestReceive_frame {a0 a1 a2 a3 s4} : Frames [.tbs, .mac, .red, .swc, .vfm, .evr, .now, .out] s4 (execArpRequestReceive a0 a1 a2 a3 s4) := by
  unfold execArpRequestReceive
  repeat' first
    | with_reducible exact Frame.refl _ _
    | exact rfl
    | with_reducible apply Frames.ite
    | with_reducible apply Frame.app (k := atTime_frame)
    | with_reducible apply Frame.app (k := svcFrame_frame)
    | with_reducible apply Frames.next
    | dsimp only
    | split
    | intro _

theorem execUdpOutputExpire_frame {a0 a1 a2 a3 s4} : Frames [.cmd, .evr, .now, .out] s4 (execUdpOutputExpire a0 a1 a2 a3 s4) := by
  unfold execUdpOutputExpire
  repeat' first
    | with_reducible exact Frame.refl _ _
    | exact rfl
    | with_reducible apply Frame.app (k := atTime_frame)
    | with_reducible apply Frame.app (k := modCmd_frame)
    | with_reducible apply Frames.next
    | dsimp only
    | split
    | intro _

theorem enqueue_frame {a0 s1} : Frame [.mbx, .cmd, .out] s1 (enqueue a0 s1) := by
  unfold enqueue
  repeat' first
    | with_reducible exact Frame.refl _ _
    | exact rfl
    | with_reducible apply Frame.app (k := flushUnknown_frame)
    | with_reducible apply Frame.app (k := modCmd_frame)
    | dsimp only
    | split
    | intro _

theorem udpDropped_frame {s0} : Frame [.cmd] s0 (udpDropped s0) := by
  unfold udpDropped
  repeat' first
    | with_reducible exact Frame.refl _ _
    | exact rfl
    | with_reducible apply Frame.app (k := modCmd_frame)
    | dsimp only
    | split
    | intro _

theorem setSeqs_frame {a0 s1} : Frame [.cmd] s1 (setSeqs a0 s1) := by
  unfold setSeqs
  repeat' first
    | with_reducible exact Frame.refl _ _
    | exact rfl
    | with_reducible apply Frame.app (k := modCmd_frame)
    | dsimp only
    | split
    | intro _

theorem execIcmpEchoReceive_frame {a0 a1 a2 a3 a4 s5} : Frames [.tbs, .mac, .red, .swc, .vfm, .evr, .now, .out] s5 (execIcmpEchoReceive a0 a1 a2 a3 a4 s5) := by
  unfold execIcmpEchoReceive
  repeat' first
    | with_reducible exact Frame.refl _ _
    | exact rfl
    | with_reducible apply Frames.ite
    | with_reducible apply Frame.app (k := atTime_frame)
    | with_reducible apply Frame.app (k := svcFrame_frame)
    | with_reducible apply Frames.next
    | dsimp only
    | split
    | intro _

theorem dataReplies_frame {rt d n off s} : Frame [.mbx, .cmd, .out] s (dataReplies rt d n off s) := by
  induction n generalizing s off with
  | zero => exact .refl _ _
  | succ n ih =>
    unfold dataReplies
    split
    · exact .refl _ _
    · exact (sendReply_frame.mono rfl).trans ih

theorem execUdpDataRequest_frame {a0 a1 s2} : Frames [.mbx, .cmd, .evr, .now, .out] s2 (execUdpDataRequest a0 a1 s2) := by
  unfold execUdpDataRequest
  repeat' first
    | with_reducible exact Frame.refl _ _
    | exact rfl
    | with_reducible apply Frames.ite
    | with_reducible apply Frame.app (k := atTime_frame)
    | with_reducible apply Frame.app (k := udpDropped_frame)
    | with_reducible apply Frame.app (k := packetChecks_frame)
    | with_reducible apply Frame.app (k := refuse_frame)
    | with_reducible apply Frame.app (k := dataReplies_frame)
    | with_reducible apply Frame.app (k := modCmd_frame)
    | with_reducible apply Frames.next
    | dsimp only
    | split
    | with_reducible refine Frame.app ?_ (Frame.snd (by assumption) (packetChecks_frame ..)) ?_
    | intro _

theorem execUdpSequenceIdleExpire_frame {a0 a1 a2 a3 s4} : Frames [.cmd, .evr, .now, .out] s4 (execUdpSequenceIdleExpire a0 a1 a2 a3 s4) := by
  unfold execUdpSequenceIdleExpire
  repeat' first
    | with_reducible exact Frame.refl _ _
    | exact rfl
    | with_reducible apply Frame.app (k := atTime_frame)
    | with_reducible apply Frame.app (k := setSeqs_frame)
    | with_reducible apply Frames.next
    | dsimp only
    | split
    | intro _

theorem takePiece_frame {a0 a1 s2} : Frame [.mbx, .cmd, .out] s2 (takePiece a0 a1 s2) := by
  unfold takePiece
  repeat' first
    | with_reducible exact Frame.refl _ _
    | exact rfl
    | with_reducible apply Frame.ite
    | with_reducible apply Frame.app (k := refuse_frame)
    | with_reducible apply Frame.app (k := setSeqs_frame)
    | with_reducible apply Frame.app (k := reply_frame)
    | with_reducible apply Frame.app (k := enqueue_frame)
    | dsimp only
    | split
    | intro _

theorem execConsoleLineReceive_frame {a0 a1 s2} : Frames [.mbx, .cmd, .evr, .now, .out] s2 (execConsoleLineReceive a0 a1 s2) := by
  unfold execConsoleLineReceive
  repeat' first
    | with_reducible exact Frame.refl _ _
    | exact rfl
    | with_reducible apply Frames.ite
    | with_reducible apply Frame.app (k := atTime_frame)
    | with_reducible apply Frame.app (k := emit_frame)
    | with_reducible apply Frame.app (k := arrive_frame)
    | with_reducible apply Frame.app (k := enqueue_frame)
    | with_reducible apply Frames.next
    | dsimp only
    | split
    | with_reducible refine Frame.app ?_ (Frame.snd (by assumption) (arrive_frame ..)) ?_
    | intro _

theorem execUdpCommandReceive_frame {t d s} : Frames [.mbx, .cmd, .evr, .now, .out] s (execUdpCommandReceive t d s) := by
  have ht : Frame [.mbx, .cmd, .evr, .now, .out] s (atTime t s) := atTime_frame.mono rfl
  have hp : Frame [.mbx, .cmd, .evr, .now, .out] s (if d.env.hdr.cont then packetChecks d.env false (atTime t s) else arrive d.env false (atTime t s)).2 :=
    .ite_snd (ht.app packetChecks_frame rfl) (ht.app arrive_frame rfl)
  unfold execUdpCommandReceive
  dsimp only
  split
  · exact .next ht
  · split
    · exact .next (ht.app udpDropped_frame rfl)
    · split
      · exact .next ((ht.app setSeqs_frame rfl).app reply_frame rfl)
      · split <;> rename_i h
        · exact .next (.snd h hp)
        · exact .next ((Frame.snd h hp).app takePiece_frame rfl)

end Sys2Proof.Machine
end

