-- ==== Sys2Proof/Laws/Frames/Elements.lean ====
section
/-! SUPPORT. What each operation of Machine/Elements.lean may change. -/

namespace Sys2Proof.Machine


end Sys2Proof.Machine
end

