-- ==== Sys2Proof/Laws/Frames/Evr.lean ====
section
/-! SUPPORT. What each operation of Machine/Evr.lean may change. -/

namespace Sys2Proof.Machine

theorem modEvr_frame {a0 s1} : Frame [.evr] s1 (modEvr a0 s1) := by
  unfold modEvr
  repeat' first
    | with_reducible exact Frame.refl _ _
    | exact rfl
    | simp (disch := decide) only [↓Frame.of_set_evr]
    | split
    | intro _

theorem execOptimeStore_frame {a0 s1} : Frames [.evr, .now, .out] s1 (execOptimeStore a0 s1) := by
  unfold execOptimeStore
  repeat' first
    | with_reducible exact Frame.refl _ _
    | exact rfl
    | with_reducible apply Frame.app (k := modEvr_frame)
    | with_reducible apply Frame.app (k := atTime_frame)
    | with_reducible apply Frames.next
    | dsimp only
    | split
    | intro _

theorem clearWake_frame {s0} : Frame [.evr] s0 (clearWake s0) := by
  unfold clearWake
  repeat' first
    | with_reducible exact Frame.refl _ _
    | exact rfl
    | with_reducible apply Frame.ite
    | with_reducible apply Frame.app (k := modEvr_frame)
    | dsimp only
    | split
    | intro _

theorem sheetsClose_frame {a0 s1} : Frame [.evr] s1 (sheetsClose a0 s1) := by
  unfold sheetsClose
  repeat' first
    | with_reducible exact Frame.refl _ _
    | exact rfl
    | with_reducible apply Frame.ite
    | with_reducible apply Frame.app (k := clearWake_frame)
    | with_reducible apply Frame.app (k := modEvr_frame)
    | dsimp only
    | split
    | intro _

theorem takeBlk_frame {a0 s1} : Frame [.evr] s1 (takeBlk a0 s1) := by
  unfold takeBlk
  repeat' first
    | with_reducible exact Frame.refl _ _
    | exact rfl
    | with_reducible apply Frame.app (k := modEvr_frame)
    | with_reducible apply Frame.app (k := ev_frame)
    | dsimp only
    | split
    | intro _

theorem openBlk_frame {a0 s1} : Frame [.evr] s1 (openBlk a0 s1).2 := by
  unfold openBlk
  repeat' first
    | with_reducible exact Frame.refl _ _
    | exact rfl
    | with_reducible apply Frame.ite_snd
    | with_reducible apply Frame.app (k := takeBlk_frame)
    | with_reducible apply Frame.ite
    | dsimp only
    | split
    | intro _

theorem stageRelief_frame {s0} : Frame [.evr] s0 (stageRelief s0) := by
  unfold stageRelief
  repeat' first
    | with_reducible exact Frame.refl _ _
    | exact rfl
    | with_reducible apply Frame.ite
    | with_reducible apply Frame.app (k := ev_frame)
    | with_reducible apply Frame.app (k := modEvr_frame)
    | dsimp only
    | split
    | intro _

theorem deliverRecord_frame {a0 s1} : Frame [.vfm] s1 (deliverRecord a0 s1) := by
  unfold deliverRecord
  repeat' first
    | with_reducible exact Frame.refl _ _
    | exact rfl
    | with_reducible apply Frame.ite
    | with_reducible apply Frame.app (k := modVfm_frame)
    | dsimp only
    | split
    | intro _

theorem appendRec_frame {a0 s1} : Frame [.rtc, .vfm, .evr] s1 (appendRec a0 s1) := by
  unfold appendRec
  repeat' first
    | with_reducible exact Frame.refl _ _
    | exact rfl
    | with_reducible apply Frame.ite
    | with_reducible apply Frame.app (k := modEvr_frame)
    | with_reducible apply Frame.app (k := deliverRecord_frame)
    | with_reducible apply Frame.app (k := setBkp_frame)
    | dsimp only
    | split
    | intro _

theorem writeOldest_frame {a0 s1} : Frame [.rtc, .vfm, .evr] s1 (writeOldest a0 s1) := by
  unfold writeOldest
  repeat' first
    | with_reducible exact Frame.refl _ _
    | exact rfl
    | with_reducible apply Frame.ite
    | with_reducible apply Frame.app (k := openBlk_frame)
    | with_reducible apply Frame.app (k := stageRelief_frame)
    | with_reducible apply Frame.app (k := appendRec_frame)
    | with_reducible apply Frame.app (k := modEvr_frame)
    | with_reducible apply Frame.app (k := ev_frame)
    | dsimp only
    | split
    | with_reducible refine Frame.app ?_ (Frame.snd (by assumption) (openBlk_frame ..)) ?_
    | intro _

theorem flushQueue_frame {n s} : Frame [.rtc, .vfm, .evr] s (flushQueue n s) := by
  induction n generalizing s with
  | zero => exact .refl _ _
  | succ n ih =>
    unfold flushQueue
    split
    · exact .refl _ _
    · exact writeOldest_frame.trans ih

theorem clearNow_frame {a0 s1} : Frame [.rtc, .vfm, .mbx, .cmd, .evr, .out] s1 (clearNow a0 s1) := by
  unfold clearNow
  repeat' first
    | with_reducible exact Frame.refl _ _
    | exact rfl
    | with_reducible apply Frame.ite
    | with_reducible apply Frame.app (k := modEvr_frame)
    | with_reducible apply Frame.app (k := openBlk_frame)
    | with_reducible apply Frame.app (k := appendRec_frame)
    | with_reducible apply Frame.app (k := finish_frame)
    | dsimp only
    | split
    | with_reducible refine Frame.app ?_ (Frame.snd (by assumption) (openBlk_frame ..)) ?_
    | intro _

theorem rdCopy_frame {a0 s1} : Frame [.evr] s1 (rdCopy a0 s1) := by
  unfold rdCopy
  repeat' first
    | with_reducible exact Frame.refl _ _
    | exact rfl
    | with_reducible apply Frame.ite
    | with_reducible apply Frame.app (k := modEvr_frame)
    | dsimp only
    | split
    | intro _

theorem setSheet_frame {a0 a1 s2} : Frame [.evr] s2 (setSheet a0 a1 s2) := by
  unfold setSheet
  repeat' first
    | with_reducible exact Frame.refl _ _
    | exact rfl
    | with_reducible apply Frame.app (k := modEvr_frame)
    | dsimp only
    | split
    | intro _

theorem execEvrSnapshotRead_frame {a0 a1 a2 s3} : Frames [.mbx, .cmd, .evr, .now, .out] s3 (execEvrSnapshotRead a0 a1 a2 s3) := by
  unfold execEvrSnapshotRead
  repeat' first
    | with_reducible exact Frame.refl _ _
    | exact rfl
    | with_reducible apply Frame.app (k := atTime_frame)
    | with_reducible apply Frame.trans (k := runCmd_frame ?_ ?_)
    | with_reducible apply Frame.trans (k := checked8_frame ?_ ?_)
    | with_reducible apply Frame.app (k := setSheet_frame)
    | with_reducible apply Frame.app (k := replyWithOutput_frame)
    | with_reducible apply Frames.next
    | dsimp only
    | split
    | intro _

theorem execEvrStatus_frame {a0 a1 s2} : Frames [.mbx, .cmd, .evr, .now, .out] s2 (execEvrStatus a0 a1 s2) := by
  unfold execEvrStatus
  repeat' first
    | with_reducible exact Frame.refl _ _
    | exact rfl
    | with_reducible apply Frame.app (k := atTime_frame)
    | with_reducible apply Frame.trans (k := runCmd_frame ?_ ?_)
    | with_reducible apply Frame.trans (k := checked_frame ?_ ?_)
    | with_reducible apply Frame.app (k := reply_frame)
    | with_reducible apply Frames.next
    | dsimp only
    | split
    | intro _

theorem execEvrRecordWrite_frame {a0 a1 s2} : Frames [.rtc, .vfm, .evr, .now, .out] s2 (execEvrRecordWrite a0 a1 s2) := by
  unfold execEvrRecordWrite
  repeat' first
    | with_reducible exact Frame.refl _ _
    | exact rfl
    | with_reducible apply Frames.ite
    | with_reducible apply Frame.app (k := atTime_frame)
    | with_reducible apply Frame.app (k := writeOldest_frame)
    | with_reducible apply Frames.next
    | dsimp only
    | split
    | intro _

theorem execEvrClearComplete_frame {a0 s1} : Frames [.rtc, .vfm, .mbx, .cmd, .evr, .now, .out] s1 (execEvrClearComplete a0 s1) := by
  unfold execEvrClearComplete
  repeat' first
    | with_reducible exact Frame.refl _ _
    | exact rfl
    | with_reducible apply Frames.ite
    | with_reducible apply Frame.app (k := atTime_frame)
    | with_reducible apply Frame.app (k := clearNow_frame)
    | with_reducible apply Frames.next
    | dsimp only
    | split
    | intro _

theorem execEvrRdSelect_frame {a0 a1 a2 s3} : Frames [.sys, .evr, .now, .out] s3 (execEvrRdSelect a0 a1 a2 s3) := by
  unfold execEvrRdSelect
  repeat' first
    | with_reducible exact Frame.refl _ _
    | exact rfl
    | with_reducible apply Frame.app (k := atTime_frame)
    | with_reducible apply Frame.trans (k := regWrite_frame ?_ ?_)
    | with_reducible apply Frame.app (k := modEvr_frame)
    | with_reducible apply Frame.app (k := rdCopy_frame)
    | with_reducible apply Frames.next
    | dsimp only
    | split
    | intro _

theorem execEvrSnapshotClose_frame {a0 a1 a2 s3} : Frames [.mbx, .cmd, .evr, .now, .out] s3 (execEvrSnapshotClose a0 a1 a2 s3) := by
  unfold execEvrSnapshotClose
  repeat' first
    | with_reducible exact Frame.refl _ _
    | exact rfl
    | with_reducible apply Frame.app (k := atTime_frame)
    | with_reducible apply Frame.trans (k := runCmd_frame ?_ ?_)
    | with_reducible apply Frame.trans (k := checked8_frame ?_ ?_)
    | with_reducible apply Frame.app (k := reply_frame)
    | with_reducible apply Frame.app (k := setSheet_frame)
    | with_reducible apply Frames.next
    | dsimp only
    | split
    | intro _

theorem execEvrClear_frame {a0 a1 a2 s3} : Frames [.mbx, .cmd, .evr, .now, .out] s3 (execEvrClear a0 a1 a2 s3) := by
  unfold execEvrClear
  repeat' first
    | with_reducible exact Frame.refl _ _
    | exact rfl
    | with_reducible apply Frame.app (k := atTime_frame)
    | with_reducible apply Frame.trans (k := runCmd_frame ?_ ?_)
    | with_reducible apply Frame.trans (k := checked8_frame ?_ ?_)
    | with_reducible apply Frame.app (k := holdReply_frame)
    | with_reducible apply Frame.app (k := modEvr_frame)
    | with_reducible apply Frames.next
    | dsimp only
    | split
    | intro _

theorem orderlyStore_frame {s0} : Frame [.rtc, .vfm, .evr] s0 (orderlyStore s0) := by
  unfold orderlyStore
  repeat' first
    | with_reducible exact Frame.refl _ _
    | exact rfl
    | with_reducible apply Frame.ite
    | with_reducible apply Frame.app (k := flushQueue_frame)
    | with_reducible apply Frame.app (k := setBkp_frame)
    | with_reducible apply Frame.app (k := modEvr_frame)
    | dsimp only
    | split
    | intro _

theorem execEvrRdNext_frame {a0 a1 a2 s3} : Frames [.sys, .evr, .now, .out] s3 (execEvrRdNext a0 a1 a2 s3) := by
  unfold execEvrRdNext
  repeat' first
    | with_reducible exact Frame.refl _ _
    | exact rfl
    | with_reducible apply Frames.ite
    | with_reducible apply Frame.app (k := atTime_frame)
    | with_reducible apply Frame.trans (k := regWrite_frame ?_ ?_)
    | with_reducible apply Frame.app (k := rdCopy_frame)
    | with_reducible apply Frame.app (k := modEvr_frame)
    | with_reducible apply Frames.next
    | dsimp only
    | split
    | intro _

theorem execSnapshotTimeout_frame {a0 a1 s2} : Frames [.evr, .now, .out] s2 (execSnapshotTimeout a0 a1 s2) := by
  unfold execSnapshotTimeout
  repeat' first
    | with_reducible exact Frame.refl _ _
    | exact rfl
    | with_reducible apply Frames.ite
    | with_reducible apply Frame.app (k := atTime_frame)
    | with_reducible apply Frame.app (k := setSheet_frame)
    | with_reducible apply Frames.next
    | dsimp only
    | split
    | intro _

theorem execSnapshotCopyComplete_frame {a0 a1 s2} : Frames [.mbx, .cmd, .evr, .now, .out] s2 (execSnapshotCopyComplete a0 a1 s2) := by
  unfold execSnapshotCopyComplete
  repeat' first
    | with_reducible exact Frame.refl _ _
    | exact rfl
    | with_reducible apply Frame.app (k := atTime_frame)
    | with_reducible apply Frame.app (k := clearWake_frame)
    | with_reducible apply Frame.app (k := setSheet_frame)
    | with_reducible apply Frame.app (k := finish_frame)
    | with_reducible apply Frames.next
    | dsimp only
    | split
    | intro _

theorem execEvrSnapshotOpen_frame {a0 a1 a2 s3} : Frames [.mbx, .cmd, .evr, .now, .out] s3 (execEvrSnapshotOpen a0 a1 a2 s3) := by
  unfold execEvrSnapshotOpen
  repeat' first
    | with_reducible exact Frame.refl _ _
    | exact rfl
    | with_reducible apply Frames.ite
    | with_reducible apply Frame.app (k := atTime_frame)
    | with_reducible apply Frame.trans (k := runCmd_frame ?_ ?_)
    | with_reducible apply Frame.trans (k := checked_frame ?_ ?_)
    | with_reducible apply Frame.app (k := holdReply_frame)
    | with_reducible apply Frame.app (k := setSheet_frame)
    | with_reducible apply Frames.next
    | dsimp only
    | split
    | intro _

end Sys2Proof.Machine
end

