-- ==== Sys2Proof/Laws/Frames/Keys.lean ====
section
/-! SUPPORT. What each operation of Machine/Keys.lean may change. -/

namespace Sys2Proof.Machine

theorem evKsc_frame {a0 a1 s2} : Frame [.evr] s2 (evKsc a0 a1 s2) := by
  unfold evKsc
  repeat' first
    | with_reducible exact Frame.refl _ _
    | exact rfl
    | with_reducible apply Frame.app (k := evBy_frame)
    | dsimp only
    | split
    | intro _

theorem modKey_frame {a0 s1} : Frame [.key] s1 (modKey a0 s1) := by
  unfold modKey
  repeat' first
    | with_reducible exact Frame.refl _ _
    | exact rfl
    | simp (disch := decide) only [↓Frame.of_set_key]
    | split
    | intro _

theorem execAttestSignComplete_frame {a0 s1} : Frames [.mbx, .cmd, .key, .evr, .now, .out] s1 (execAttestSignComplete a0 s1) := by
  unfold execAttestSignComplete
  repeat' first
    | with_reducible exact Frame.refl _ _
    | exact rfl
    | with_reducible apply Frames.ite
    | with_reducible apply Frame.app (k := atTime_frame)
    | with_reducible apply Frame.app (k := evKsc_frame)
    | with_reducible apply Frame.app (k := modKey_frame)
    | with_reducible apply Frame.app (k := replyWithOutput_frame)
    | with_reducible apply Frame.app (k := modCmd_frame)
    | with_reducible apply Frames.next
    | dsimp only
    | split
    | intro _

theorem keyDestroyCmd_frame {a0 a1 a2 a3 a4 s5} {m : List Block} (hm : subs [.mbx, .cmd, .out] m = true) (ha4 : ∀ x0 x1, Frame m x1 (a4 x0 x1)) : Frames m s5 (keyDestroyCmd a0 a1 a2 a3 a4 s5) := by
  unfold keyDestroyCmd
  repeat' first
    | with_reducible exact Frame.refl _ _
    | exact rfl
    | with_reducible apply Frames.ite
    | with_reducible apply Frame.trans (k := ha4 ..)
    | exact subs_trans rfl hm
    | with_reducible apply Frame.trans (k := runCmd_frame ?_ ?_)
    | with_reducible apply Frame.app (k := refuse_frame)
    | with_reducible apply Frame.trans (k := checked8_frame ?_ ?_)
    | with_reducible apply Frame.app (k := reply_frame)
    | with_reducible apply Frames.next
    | dsimp only
    | split
    | intro _

theorem putSlot_frame {a0 a1 s2} : Frame [.cmd, .key] s2 (putSlot a0 a1 s2) := by
  unfold putSlot
  repeat' first
    | with_reducible exact Frame.refl _ _
    | exact rfl
    | with_reducible apply Frame.ite
    | with_reducible apply Frame.app (k := modKey_frame)
    | with_reducible apply Frame.app (k := modCmd_frame)
    | dsimp only
    | split
    | intro _

theorem execKeyDestroySlot_frame {a0 a1 a2 s3} : Frames [.mbx, .cmd, .key, .evr, .now, .out] s3 (execKeyDestroySlot a0 a1 a2 s3) := by
  unfold execKeyDestroySlot
  repeat' first
    | with_reducible exact Frame.refl _ _
    | exact rfl
    | with_reducible apply Frames.trans (k := keyDestroyCmd_frame ?_ ?_)
    | with_reducible apply Frame.app (k := evCmd_frame)
    | with_reducible apply Frame.app (k := putSlot_frame)
    | with_reducible apply Frame.app (k := atTime_frame)
    | with_reducible apply Frames.next
    | dsimp only
    | split
    | intro _

theorem execBackupDomainRestart_frame {a0 s1} : Frames [.rtc, .key, .evr, .now, .out] s1 (execBackupDomainRestart a0 s1) := by
  unfold execBackupDomainRestart
  repeat' first
    | with_reducible exact Frame.refl _ _
    | exact rfl
    | with_reducible apply Frame.app (k := rtcLost_frame)
    | with_reducible apply Frame.app (k := atTime_frame)
    | with_reducible apply Frame.app (k := modKey_frame)
    | with_reducible apply Frames.next
    | dsimp only
    | split
    | intro _

theorem execKeyAttestQuote_frame {a0 a1 a2 s3} : Frames [.mbx, .cmd, .key, .evr, .now, .out] s3 (execKeyAttestQuote a0 a1 a2 s3) := by
  unfold execKeyAttestQuote
  repeat' first
    | with_reducible exact Frame.refl _ _
    | exact rfl
    | with_reducible apply Frames.ite
    | with_reducible apply Frame.app (k := atTime_frame)
    | with_reducible apply Frame.trans (k := runCmd_frame ?_ ?_)
    | with_reducible apply Frame.trans (k := checked8_frame ?_ ?_)
    | with_reducible apply Frame.app (k := holdReply_frame)
    | with_reducible apply Frame.app (k := modKey_frame)
    | with_reducible apply Frames.next
    | dsimp only
    | split
    | intro _

theorem execKeyDerive_frame {a0 a1 a2 s3} : Frames [.mbx, .cmd, .key, .evr, .now, .out] s3 (execKeyDerive a0 a1 a2 s3) := by
  unfold execKeyDerive
  repeat' first
    | with_reducible exact Frame.refl _ _
    | exact rfl
    | with_reducible apply Frames.ite
    | with_reducible apply Frame.app (k := atTime_frame)
    | with_reducible apply Frame.trans (k := runCmd_frame ?_ ?_)
    | with_reducible apply Frame.trans (k := checked8_frame ?_ ?_)
    | with_reducible apply Frame.app (k := putSlot_frame)
    | with_reducible apply Frame.app (k := reply_frame)
    | with_reducible apply Frame.app (k := evCmd_frame)
    | with_reducible apply Frame.app (k := refuse_frame)
    | with_reducible apply Frames.next
    | dsimp only
    | split
    | intro _

theorem attestAbort_frame {s0} : Frame [.mbx, .cmd, .key, .out] s0 (attestAbort s0) := by
  unfold attestAbort
  repeat' first
    | with_reducible exact Frame.refl _ _
    | exact rfl
    | with_reducible apply Frame.app (k := finish_frame)
    | with_reducible apply Frame.app (k := modKey_frame)
    | dsimp only
    | split
    | intro _

theorem fogging_frame {a0 a1 s2} : Frame [.mbx, .cmd, .key, .evr, .out] s2 (fogging a0 a1 s2) := by
  unfold fogging
  repeat' first
    | with_reducible exact Frame.refl _ _
    | exact rfl
    | with_reducible apply Frame.ite
    | with_reducible apply Frame.app (k := modKey_frame)
    | with_reducible apply Frame.app (k := attestAbort_frame)
    | with_reducible apply Frame.app (k := evKsc_frame)
    | dsimp only
    | split
    | intro _

theorem execKeyFogNow_frame {a0 a1 a2 s3} : Frames [.mbx, .cmd, .key, .evr, .now, .out] s3 (execKeyFogNow a0 a1 a2 s3) := by
  unfold execKeyFogNow
  repeat' first
    | with_reducible exact Frame.refl _ _
    | exact rfl
    | with_reducible apply Frames.trans (k := keyDestroyCmd_frame ?_ ?_)
    | with_reducible apply Frame.app (k := fogging_frame)
    | with_reducible apply Frame.app (k := atTime_frame)
    | with_reducible apply Frames.next
    | dsimp only
    | split
    | intro _

theorem execKeyChallenge_frame {a0 a1 a2 s3} : Frames [.mbx, .cmd, .key, .evr, .now, .out] s3 (execKeyChallenge a0 a1 a2 s3) := by
  unfold execKeyChallenge
  repeat' first
    | with_reducible exact Frame.refl _ _
    | exact rfl
    | with_reducible apply Frames.ite
    | with_reducible apply Frame.app (k := atTime_frame)
    | with_reducible apply Frame.trans (k := runCmd_frame ?_ ?_)
    | with_reducible apply Frame.trans (k := checked8_frame ?_ ?_)
    | with_reducible apply Frame.app (k := refuse_frame)
    | with_reducible apply Frame.app (k := reply_frame)
    | with_reducible apply Frame.app (k := modKey_frame)
    | with_reducible apply Frames.next
    | dsimp only
    | split
    | intro _

theorem execKeyLoad_frame {a0 a1 a2 s3} : Frames [.mbx, .cmd, .key, .evr, .now, .out] s3 (execKeyLoad a0 a1 a2 s3) := by
  unfold execKeyLoad
  repeat' first
    | with_reducible exact Frame.refl _ _
    | exact rfl
    | with_reducible apply Frames.ite
    | with_reducible apply Frame.app (k := atTime_frame)
    | with_reducible apply Frame.trans (k := runCmd_frame ?_ ?_)
    | with_reducible apply Frame.app (k := refuse_frame)
    | with_reducible apply Frame.trans (k := checked8_frame ?_ ?_)
    | with_reducible apply Frame.app (k := putSlot_frame)
    | with_reducible apply Frame.app (k := reply_frame)
    | with_reducible apply Frame.app (k := evCmd_frame)
    | with_reducible apply Frames.next
    | dsimp only
    | split
    | intro _

theorem replayStart_frame {s0} : Frame [.cmd] s0 (replayStart s0) := by
  unfold replayStart
  repeat' first
    | with_reducible exact Frame.refl _ _
    | exact rfl
    | with_reducible apply Frame.app (k := modCmd_frame)
    | dsimp only
    | split
    | intro _

theorem slotsRestore_frame {s0} : Frame [.key, .evr] s0 (slotsRestore s0) := by
  unfold slotsRestore
  repeat' first
    | with_reducible exact Frame.refl _ _
    | exact rfl
    | with_reducible apply Frame.app (k := modKey_frame)
    | with_reducible apply Frame.app (k := evKsc_frame)
    | with_reducible apply Frame.trans (k := Frame.foldOver ?_ _ _)
    | with_reducible apply Frame.trans (k := Frame.foldOver_snd ?_ _ _)
    | dsimp only
    | split
    | intro _

theorem rkStart_frame {s0} : Frame [.key, .evr] s0 (rkStart s0) := by
  unfold rkStart
  repeat' first
    | with_reducible exact Frame.refl _ _
    | exact rfl
    | with_reducible apply Frame.ite
    | with_reducible apply Frame.app (k := modKey_frame)
    | with_reducible apply Frame.app (k := evKsc_frame)
    | dsimp only
    | split
    | intro _

theorem keysStart_frame {s0} : Frame [.cmd, .key, .evr] s0 (keysStart s0) := by
  unfold keysStart
  repeat' first
    | with_reducible exact Frame.refl _ _
    | exact rfl
    | with_reducible apply Frame.ite
    | with_reducible apply Frame.app (k := evKsc_frame)
    | with_reducible apply Frame.app (k := modKey_frame)
    | with_reducible apply Frame.app (k := replayStart_frame)
    | with_reducible apply Frame.app (k := slotsRestore_frame)
    | with_reducible apply Frame.app (k := rkStart_frame)
    | dsimp only
    | split
    | intro _

theorem execTamperDetect_frame {a0 a1 a2 a3 s4} : Frames [.mbx, .cmd, .key, .evr, .now, .out] s4 (execTamperDetect a0 a1 a2 a3 s4) := by
  unfold execTamperDetect
  repeat' first
    | with_reducible exact Frame.refl _ _
    | exact rfl
    | with_reducible apply Frames.ite
    | with_reducible apply Frame.app (k := atTime_frame)
    | with_reducible apply Frame.app (k := modKey_frame)
    | with_reducible apply Frame.app (k := fogging_frame)
    | with_reducible apply Frames.next
    | dsimp only
    | split
    | intro _

theorem execKeySetTampEn_frame {a0 a1 a2 s3} : Frames [.mbx, .cmd, .key, .evr, .now, .out] s3 (execKeySetTampEn a0 a1 a2 s3) := by
  unfold execKeySetTampEn
  repeat' first
    | with_reducible exact Frame.refl _ _
    | exact rfl
    | with_reducible apply Frames.trans (k := keyDestroyCmd_frame ?_ ?_)
    | with_reducible apply Frame.app (k := evCmd_frame)
    | with_reducible apply Frame.app (k := modKey_frame)
    | with_reducible apply Frame.app (k := atTime_frame)
    | with_reducible apply Frames.next
    | dsimp only
    | split
    | intro _

theorem execKeyTamperClear_frame {a0 a1 a2 s3} : Frames [.mbx, .cmd, .key, .evr, .now, .out] s3 (execKeyTamperClear a0 a1 a2 s3) := by
  unfold execKeyTamperClear
  repeat' first
    | with_reducible exact Frame.refl _ _
    | exact rfl
    | with_reducible apply Frames.ite
    | with_reducible apply Frames.trans (k := keyDestroyCmd_frame ?_ ?_)
    | with_reducible apply Frame.app (k := modKey_frame)
    | with_reducible apply Frame.app (k := evCmd_frame)
    | with_reducible apply Frame.app (k := atTime_frame)
    | with_reducible apply Frames.next
    | dsimp only
    | split
    | intro _

theorem execKeyAttestPubkey_frame {a0 a1 a2 s3} : Frames [.mbx, .cmd, .evr, .now, .out] s3 (execKeyAttestPubkey a0 a1 a2 s3) := by
  unfold execKeyAttestPubkey
  repeat' first
    | with_reducible exact Frame.refl _ _
    | exact rfl
    | with_reducible apply Frame.app (k := atTime_frame)
    | with_reducible apply Frame.trans (k := runCmd_frame ?_ ?_)
    | with_reducible apply Frame.trans (k := checked_frame ?_ ?_)
    | with_reducible apply Frame.app (k := reply_frame)
    | with_reducible apply Frames.next
    | dsimp only
    | split
    | intro _

end Sys2Proof.Machine
end

