-- ==== Sys2Proof/Laws/Frames/Firmware.lean ====
section
/-! SUPPORT. What each operation of Machine/Firmware.lean may change. -/

namespace Sys2Proof.Machine

theorem trialFailed_frame {s0} : Frame [.key, .evr] s0 (trialFailed s0) := by
  unfold trialFailed
  repeat' first
    | with_reducible exact Frame.refl _ _
    | exact rfl
    | with_reducible apply Frame.ite
    | with_reducible apply Frame.app (k := evKsc_frame)
    | with_reducible apply Frame.app (k := modKey_frame)
    | dsimp only
    | split
    | intro _

theorem execFwUpdateActivate_frame {a0 a1 a2 s3} : Frames [.mbx, .cmd, .key, .evr, .now, .out] s3 (execFwUpdateActivate a0 a1 a2 s3) := by
  unfold execFwUpdateActivate
  repeat' first
    | with_reducible exact Frame.refl _ _
    | exact rfl
    | with_reducible apply Frames.ite
    | with_reducible apply Frame.app (k := atTime_frame)
    | with_reducible apply Frame.trans (k := runCmd_frame ?_ ?_)
    | with_reducible apply Frame.trans (k := checked8_frame ?_ ?_)
    | with_reducible apply Frame.app (k := reply_frame)
    | with_reducible apply Frame.app (k := evCmd_frame)
    | with_reducible apply Frame.app (k := modKey_frame)
    | with_reducible apply Frames.next
    | dsimp only
    | split
    | intro _

theorem bootBank_frame {a0 a1 a2 a3 s4} : Frame [.key, .evr] s4 (bootBank a0 a1 a2 a3 s4) := by
  unfold bootBank
  repeat' first
    | with_reducible exact Frame.refl _ _
    | exact rfl
    | with_reducible apply Frame.ite
    | with_reducible apply Frame.app (k := modKey_frame)
    | with_reducible apply Frame.app (k := evKsc_frame)
    | dsimp only
    | split
    | intro _

theorem bootCommitted_frame {s u} (h : bootCommitted s = some u) : Frame [.key, .evr] s u := by
  unfold bootCommitted at h
  dsimp only at h
  split at h
  · cases h; exact bootBank_frame
  · split at h
    · cases h; exact bootBank_frame
    · cases h

theorem execFwUpdateCommit_frame {a0 a1 a2 s3} : Frames [.mbx, .cmd, .key, .evr, .now, .out] s3 (execFwUpdateCommit a0 a1 a2 s3) := by
  unfold execFwUpdateCommit
  repeat' first
    | with_reducible exact Frame.refl _ _
    | exact rfl
    | with_reducible apply Frames.ite
    | with_reducible apply Frame.app (k := atTime_frame)
    | with_reducible apply Frame.trans (k := runCmd_frame ?_ ?_)
    | with_reducible apply Frame.trans (k := checked8_frame ?_ ?_)
    | with_reducible apply Frame.app (k := modKey_frame)
    | with_reducible apply Frame.app (k := reply_frame)
    | with_reducible apply Frame.app (k := evCmd_frame)
    | with_reducible apply Frames.next
    | dsimp only
    | split
    | intro _

theorem bootCold_frame {s u} (h : bootCold s = some u) : Frame [.key, .evr] s u := by
  unfold bootCold at h
  split at h
  · exact bootCommitted_frame h
  · dsimp only at h
    split at h
    · cases h; exact bootBank_frame
    · exact (modKey_frame.mono rfl).trans (bootCommitted_frame h)

theorem bootWarm_frame {s u} (h : bootWarm s = some u) : Frame [.key, .evr] s u := by
  unfold bootWarm at h
  dsimp only at h
  split at h
  · cases h; exact bootBank_frame
  · exact bootCold_frame h

theorem execFwUpdateRevert_frame {a0 a1 a2 s3} : Frames [.mbx, .cmd, .key, .evr, .now, .out] s3 (execFwUpdateRevert a0 a1 a2 s3) := by
  unfold execFwUpdateRevert
  repeat' first
    | with_reducible exact Frame.refl _ _
    | exact rfl
    | with_reducible apply Frame.app (k := atTime_frame)
    | with_reducible apply Frame.trans (k := runCmd_frame ?_ ?_)
    | with_reducible apply Frame.trans (k := checked_frame ?_ ?_)
    | with_reducible apply Frame.app (k := reply_frame)
    | with_reducible apply Frame.app (k := evCmd_frame)
    | with_reducible apply Frame.app (k := modKey_frame)
    | with_reducible apply Frames.next
    | dsimp only
    | split
    | intro _

theorem execFwUpdateWrite_frame {a0 a1 a2 s3} : Frames [.mbx, .cmd, .key, .evr, .now, .out] s3 (execFwUpdateWrite a0 a1 a2 s3) := by
  unfold execFwUpdateWrite
  repeat' first
    | with_reducible exact Frame.refl _ _
    | exact rfl
    | with_reducible apply Frames.ite
    | with_reducible apply Frame.app (k := atTime_frame)
    | with_reducible apply Frame.trans (k := runCmd_frame ?_ ?_)
    | with_reducible apply Frame.trans (k := checked8_frame ?_ ?_)
    | with_reducible apply Frame.app (k := reply_frame)
    | with_reducible apply Frame.app (k := modKey_frame)
    | with_reducible apply Frames.next
    | dsimp only
    | split
    | intro _

theorem execFwUpdateVerify_frame {a0 a1 a2 s3} : Frames [.mbx, .cmd, .key, .evr, .now, .out] s3 (execFwUpdateVerify a0 a1 a2 s3) := by
  unfold execFwUpdateVerify
  repeat' first
    | with_reducible exact Frame.refl _ _
    | exact rfl
    | with_reducible apply Frames.ite
    | with_reducible apply Frame.app (k := atTime_frame)
    | with_reducible apply Frame.trans (k := runCmd_frame ?_ ?_)
    | with_reducible apply Frame.trans (k := checked_frame ?_ ?_)
    | with_reducible apply Frame.app (k := evCmd_frame)
    | with_reducible apply Frame.app (k := modKey_frame)
    | with_reducible apply Frame.app (k := refuse_frame)
    | with_reducible apply Frame.app (k := reply_frame)
    | with_reducible apply Frames.next
    | dsimp only
    | split
    | intro _

end Sys2Proof.Machine
end

