-- ==== Sys2Proof/Laws/Frames/Mailbox.lean ====
section
/-! SUPPORT. What each operation of Machine/Mailbox.lean may change. -/

namespace Sys2Proof.Machine

theorem modMbx_frame {a0 s1} : Frame [.mbx] s1 (modMbx a0 s1) := by
  unfold modMbx
  repeat' first
    | with_reducible exact Frame.refl _ _
    | exact rfl
    | simp (disch := decide) only [↓Frame.of_set_mbx]
    | split
    | intro _

theorem nak_frame {a0 s1} : Frame [.mbx] s1 (nak a0 s1) := by
  unfold nak
  repeat' first
    | with_reducible exact Frame.refl _ _
    | exact rfl
    | with_reducible apply Frame.app (k := modMbx_frame)
    | dsimp only
    | split
    | intro _

theorem post_frame {a0 a1 a2 a3 s4} : Frame [.mbx] s4 (post a0 a1 a2 a3 s4) := by
  unfold post
  repeat' first
    | with_reducible exact Frame.refl _ _
    | exact rfl
    | with_reducible apply Frame.ite
    | with_reducible apply Frame.app (k := nak_frame)
    | with_reducible apply Frame.app (k := modMbx_frame)
    | dsimp only
    | split
    | intro _

theorem execMbTxPost_frame {a0 a1 a2 s3} : Frames [.mbx, .evr, .now, .out] s3 (execMbTxPost a0 a1 a2 s3) := by
  unfold execMbTxPost
  repeat' first
    | with_reducible exact Frame.refl _ _
    | exact rfl
    | with_reducible apply Frames.ite
    | with_reducible apply Frame.app (k := atTime_frame)
    | with_reducible apply Frame.app (k := post_frame)
    | with_reducible apply Frames.next
    | dsimp only
    | split
    | intro _

theorem execReplyNoticePost_frame {a0 a1 s2} : Frames [.mbx, .evr, .now, .out] s2 (execReplyNoticePost a0 a1 s2) := by
  unfold execReplyNoticePost
  repeat' first
    | with_reducible exact Frame.refl _ _
    | exact rfl
    | with_reducible apply Frames.ite
    | with_reducible apply Frame.app (k := atTime_frame)
    | with_reducible apply Frame.app (k := emit_frame)
    | with_reducible apply Frame.app (k := modMbx_frame)
    | with_reducible apply Frames.next
    | dsimp only
    | split
    | intro _

theorem takeMail_frame {a0 a1 s2} : Frame [.mbx, .out] s2 (takeMail a0 a1 s2) := by
  unfold takeMail
  repeat' first
    | with_reducible exact Frame.refl _ _
    | exact rfl
    | with_reducible apply Frame.ite
    | with_reducible apply Frame.app (k := emit_frame)
    | with_reducible apply Frame.app (k := modMbx_frame)
    | dsimp only
    | split
    | intro _

theorem execMbxVfTxPost_frame {a0 a1 a2 s3} : Frames [.mbx, .evr, .now, .out] s3 (execMbxVfTxPost a0 a1 a2 s3) := by
  unfold execMbxVfTxPost
  repeat' first
    | with_reducible exact Frame.refl _ _
    | exact rfl
    | with_reducible apply Frames.ite
    | with_reducible apply Frame.app (k := atTime_frame)
    | with_reducible apply Frame.app (k := post_frame)
    | with_reducible apply Frames.next
    | dsimp only
    | split
    | intro _

theorem execMbRxDataRead_frame {a0 a1 s2} : Frames [.mbx, .evr, .now, .out] s2 (execMbRxDataRead a0 a1 s2) := by
  unfold execMbRxDataRead
  repeat' first
    | with_reducible exact Frame.refl _ _
    | exact rfl
    | with_reducible apply Frames.ite
    | with_reducible apply Frame.app (k := atTime_frame)
    | with_reducible apply Frame.app (k := takeMail_frame)
    | with_reducible apply Frame.app (k := emit_frame)
    | with_reducible apply Frames.next
    | dsimp only
    | split
    | intro _

theorem execMbxCorePost_frame {a0 a1 a2 a3 a4 s5} : Frames [.sys, .mbx, .evr, .now, .out] s5 (execMbxCorePost a0 a1 a2 a3 a4 s5) := by
  unfold execMbxCorePost
  repeat' first
    | with_reducible exact Frame.refl _ _
    | exact rfl
    | with_reducible apply Frames.ite
    | with_reducible apply Frame.app (k := atTime_frame)
    | with_reducible apply Frame.trans (k := regWrite_frame ?_ ?_)
    | with_reducible apply Frame.app (k := post_frame)
    | with_reducible apply Frames.next
    | dsimp only
    | split
    | intro _

theorem execMbxCoreDataRead_frame {a0 a1 a2 a3 s4} : Frames [.sys, .mbx, .evr, .now, .out] s4 (execMbxCoreDataRead a0 a1 a2 a3 s4) := by
  unfold execMbxCoreDataRead
  repeat' first
    | with_reducible exact Frame.refl _ _
    | exact rfl
    | with_reducible apply Frames.ite
    | with_reducible apply Frame.app (k := atTime_frame)
    | with_reducible apply Frame.app (k := takeMail_frame)
    | with_reducible apply Frame.app (k := emit_frame)
    | with_reducible apply Frame.app (k := busViolate_frame)
    | with_reducible apply Frames.next
    | dsimp only
    | split
    | intro _

theorem execPmbReplyRead_frame {a0 a1 s2} : Frames [.mbx, .evr, .now, .out] s2 (execPmbReplyRead a0 a1 s2) := by
  unfold execPmbReplyRead
  repeat' first
    | with_reducible exact Frame.refl _ _
    | exact rfl
    | with_reducible apply Frames.ite
    | with_reducible apply Frame.app (k := atTime_frame)
    | with_reducible apply Frame.app (k := emit_frame)
    | with_reducible apply Frame.app (k := modMbx_frame)
    | with_reducible apply Frames.next
    | dsimp only
    | split
    | intro _

theorem execSemRelease_frame {a0 a1 a2 s3} : Frames [.sys, .mbx, .evr, .now, .out] s3 (execSemRelease a0 a1 a2 s3) := by
  unfold execSemRelease
  repeat' first
    | with_reducible exact Frame.refl _ _
    | exact rfl
    | with_reducible apply Frames.ite
    | with_reducible apply Frame.app (k := atTime_frame)
    | with_reducible apply Frame.trans (k := regWrite_frame ?_ ?_)
    | with_reducible apply Frame.app (k := modMbx_frame)
    | with_reducible apply Frames.next
    | dsimp only
    | split
    | intro _

theorem execMbxVfRxDataRead_frame {a0 a1 s2} : Frames [.mbx, .evr, .now, .out] s2 (execMbxVfRxDataRead a0 a1 s2) := by
  unfold execMbxVfRxDataRead
  repeat' first
    | with_reducible exact Frame.refl _ _
    | exact rfl
    | with_reducible apply Frames.ite
    | with_reducible apply Frame.app (k := atTime_frame)
    | with_reducible apply Frame.app (k := takeMail_frame)
    | with_reducible apply Frames.next
    | dsimp only
    | split
    | intro _

theorem execPmbPost_frame {a0 a1 a2 s3} : Frames [.mbx, .evr, .now, .out] s3 (execPmbPost a0 a1 a2 s3) := by
  unfold execPmbPost
  repeat' first
    | with_reducible exact Frame.refl _ _
    | exact rfl
    | with_reducible apply Frames.ite
    | with_reducible apply Frame.app (k := atTime_frame)
    | with_reducible apply Frame.app (k := nak_frame)
    | with_reducible apply Frame.app (k := modMbx_frame)
    | with_reducible apply Frames.next
    | dsimp only
    | split
    | intro _

theorem execCmdFetch_frame {a0 a1 a2 s3} : Frames [.mbx, .cmd, .evr, .now, .out] s3 (execCmdFetch a0 a1 a2 s3) := by
  unfold execCmdFetch
  repeat' first
    | with_reducible exact Frame.refl _ _
    | exact rfl
    | with_reducible apply Frames.ite
    | with_reducible apply Frame.app (k := atTime_frame)
    | with_reducible apply Frame.app (k := modMbx_frame)
    | with_reducible apply Frame.app (k := packetChecks_frame)
    | with_reducible apply Frame.app (k := flushUnknown_frame)
    | with_reducible apply Frames.next
    | simp (disch := decide) only [↓Frame.of_set_cmd]
    | split
    | with_reducible refine Frame.app ?_ (Frame.snd (by assumption) (packetChecks_frame ..)) ?_
    | intro _

theorem semFree_frame {a0 s1} : Frame [.mbx] s1 (semFree a0 s1) := by
  unfold semFree
  repeat' first
    | with_reducible exact Frame.refl _ _
    | exact rfl
    | with_reducible apply Frame.app (k := modMbx_frame)
    | dsimp only
    | split
    | intro _

theorem execSemRead_frame {a0 a1 a2 s3} : Frames [.sys, .mbx, .evr, .now, .out] s3 (execSemRead a0 a1 a2 s3) := by
  unfold execSemRead
  repeat' first
    | with_reducible exact Frame.refl _ _
    | exact rfl
    | with_reducible apply Frames.ite
    | with_reducible apply Frame.app (k := atTime_frame)
    | with_reducible apply Frame.app (k := emit_frame)
    | with_reducible apply Frame.app (k := busViolate_frame)
    | with_reducible apply Frame.app (k := modMbx_frame)
    | with_reducible apply Frames.next
    | dsimp only
    | split
    | intro _

end Sys2Proof.Machine
end

