-- ==== Sys2Proof/Laws/Frames/HostReset.lean ====
section
/-! SUPPORT. What each operation of Machine/HostReset.lean may change. -/

namespace Sys2Proof.Machine

theorem pfReset_frame {s0} : Frame [.vfm, .mbx, .evr] s0 (pfReset s0) := by
  unfold pfReset
  repeat' first
    | with_reducible exact Frame.refl _ _
    | exact rfl
    | with_reducible apply Frame.ite
    | with_reducible apply Frame.app (k := modVfm_frame)
    | with_reducible apply Frame.app (k := modMbx_frame)
    | with_reducible apply Frame.app (k := ev_frame)
    | dsimp only
    | split
    | intro _

theorem channelTxnAbort_frame {s0} : Frame [.cmd] s0 (channelTxnAbort s0) := by
  unfold channelTxnAbort
  repeat' first
    | with_reducible exact Frame.refl _ _
    | exact rfl
    | with_reducible apply Frame.ite
    | with_reducible apply Frame.app (k := txnAbort_frame)
    | dsimp only
    | split
    | intro _

theorem channelsReset_frame {s0} : Frame [.mbx, .cmd] s0 (channelsReset s0) := by
  unfold channelsReset
  repeat' first
    | with_reducible exact Frame.refl _ _
    | exact rfl
    | with_reducible apply Frame.app (k := modCmd_frame)
    | with_reducible apply Frame.app (k := modMbx_frame)
    | dsimp only
    | split
    | intro _

theorem hostReset_frame {a0 s1} : Frame [.trg, .sve, .trp, .cyc, .tbs, .mac, .red, .swc, .vfm, .mbx, .cmd, .evr, .out] s1 (hostReset a0 s1) := by
  unfold hostReset
  repeat' first
    | with_reducible exact Frame.refl _ _
    | exact rfl
    | with_reducible apply Frame.app (k := pfReset_frame)
    | with_reducible apply Frame.app (k := stopAll_frame)
    | with_reducible apply Frame.app (k := channelTxnAbort_frame)
    | with_reducible apply Frame.app (k := sheetsClose_frame)
    | with_reducible apply Frame.app (k := semFree_frame)
    | with_reducible apply Frame.app (k := channelsReset_frame)
    | dsimp only
    | split
    | intro _

theorem execPfFlr_frame {a0 s1} : Frames [.trg, .sve, .trp, .cyc, .tbs, .mac, .red, .swc, .vfm, .mbx, .cmd, .evr, .now, .out] s1 (execPfFlr a0 s1) := by
  unfold execPfFlr
  repeat' first
    | with_reducible exact Frame.refl _ _
    | exact rfl
    | with_reducible apply Frames.ite
    | with_reducible apply Frame.app (k := atTime_frame)
    | with_reducible apply Frame.app (k := hostReset_frame)
    | with_reducible apply Frames.next
    | dsimp only
    | split
    | intro _

theorem execPerstAssert_frame {a0 s1} : Frames [.sys, .trg, .sve, .trp, .cyc, .tbs, .mac, .red, .swc, .vfm, .mbx, .cmd, .evr, .now, .out] s1 (execPerstAssert a0 s1) := by
  unfold execPerstAssert
  repeat' first
    | with_reducible exact Frame.refl _ _
    | exact rfl
    | with_reducible apply Frames.ite
    | with_reducible apply Frame.app (k := atTime_frame)
    | with_reducible apply Frame.app (k := modVfm_frame)
    | with_reducible apply Frame.app (k := ev_frame)
    | with_reducible apply Frame.app (k := hostReset_frame)
    | with_reducible apply Frame.app (k := settle_frame)
    | with_reducible apply Frame.app (k := swcFlush_frame)
    | with_reducible apply Frames.next
    | simp (disch := decide) only [↓Frame.of_set_sys]
    | split
    | intro _

end Sys2Proof.Machine
end

