-- ==== Sys2Proof/Laws/Frames/Speed.lean ====
section
/-! SUPPORT. What each operation of Machine/Speed.lean may change. -/

namespace Sys2Proof.Machine

theorem execOcxoDailyValue_frame {a0 s1} : Frames [.spd, .tbs, .evr, .now, .out] s1 (execOcxoDailyValue a0 s1) := by
  unfold execOcxoDailyValue
  repeat' first
    | with_reducible exact Frame.refl _ _
    | exact rfl
    | with_reducible apply Frames.ite
    | with_reducible apply Frame.app (k := atTime_frame)
    | with_reducible apply Frame.app (k := modSpd_frame)
    | with_reducible apply Frame.app (k := modBase_frame)
    | with_reducible apply Frames.next
    | dsimp only
    | split
    | intro _

theorem ovrClear_frame {s0} : Frame [.spd, .evr] s0 (ovrClear s0) := by
  unfold ovrClear
  repeat' first
    | with_reducible exact Frame.refl _ _
    | exact rfl
    | with_reducible apply Frame.ite
    | with_reducible apply Frame.app (k := vcoreOvrEvent_frame)
    | with_reducible apply Frame.app (k := modSpd_frame)
    | dsimp only
    | split
    | intro _

theorem execSpdVcoreOvrWrite_frame {a0 a1 a2 s3} : Frames [.sys, .spd, .evr, .now, .out] s3 (execSpdVcoreOvrWrite a0 a1 a2 s3) := by
  unfold execSpdVcoreOvrWrite
  repeat' first
    | with_reducible exact Frame.refl _ _
    | exact rfl
    | with_reducible apply Frames.ite
    | with_reducible apply Frame.app (k := atTime_frame)
    | with_reducible apply Frame.trans (k := regWrite_frame ?_ ?_)
    | with_reducible apply Frame.app (k := modSpd_frame)
    | with_reducible apply Frame.app (k := vcoreOvrEvent_frame)
    | with_reducible apply Frame.app (k := ovrClear_frame)
    | with_reducible apply Frames.next
    | dsimp only
    | split
    | intro _

theorem belowEvent_frame {a0 a1 a2 a3 s4} : Frame [.evr] s4 (belowEvent a0 a1 a2 a3 s4) := by
  unfold belowEvent
  repeat' first
    | with_reducible exact Frame.refl _ _
    | exact rfl
    | with_reducible apply Frame.app (k := ev_frame)
    | dsimp only
    | split
    | intro _

theorem execSpeedMeasurement_frame {a0 a1 s2} : Frames [.spd, .evr, .now, .out] s2 (execSpeedMeasurement a0 a1 s2) := by
  unfold execSpeedMeasurement
  repeat' first
    | with_reducible exact Frame.refl _ _
    | exact rfl
    | with_reducible apply Frames.ite
    | with_reducible apply Frame.app (k := atTime_frame)
    | with_reducible apply Frame.app (k := modSpd_frame)
    | with_reducible apply Frame.app (k := belowEvent_frame)
    | with_reducible apply Frames.next
    | dsimp only
    | split
    | intro _

theorem holdupReply_frame {s0} : Frame [.mbx, .cmd, .pwr, .out] s0 (holdupReply s0) := by
  unfold holdupReply
  repeat' first
    | with_reducible exact Frame.refl _ _
    | exact rfl
    | with_reducible apply Frame.app (k := finish_frame)
    | with_reducible apply Frame.app (k := modPwr_frame)
    | dsimp only
    | split
    | intro _

theorem planApply_frame {a0 a1 a2 s3} : Frame [.spd, .mbx, .cmd, .evr, .pwr, .out] s3 (planApply a0 a1 a2 s3) := by
  unfold planApply
  repeat' first
    | with_reducible exact Frame.refl _ _
    | exact rfl
    | with_reducible apply Frame.ite
    | with_reducible apply Frame.app (k := modSpd_frame)
    | with_reducible apply Frame.app (k := holdupReply_frame)
    | with_reducible apply Frame.app (k := ev_frame)
    | with_reducible apply Frame.app (k := modPwr_frame)
    | dsimp only
    | split
    | intro _

theorem execSpdSiPlanWrite_frame {a0 a1 a2 s3} : Frames [.sys, .spd, .cmd, .evr, .now, .out] s3 (execSpdSiPlanWrite a0 a1 a2 s3) := by
  unfold execSpdSiPlanWrite
  repeat' first
    | with_reducible exact Frame.refl _ _
    | exact rfl
    | with_reducible apply Frame.app (k := atTime_frame)
    | with_reducible apply Frame.trans (k := cfgWrite_frame ?_ ?_)
    | with_reducible apply Frame.app (k := modSpd_frame)
    | with_reducible apply Frames.next
    | dsimp only
    | split
    | intro _

theorem execSpdGetPlan_frame {a0 a1 a2 s3} : Frames [.mbx, .cmd, .evr, .now, .out] s3 (execSpdGetPlan a0 a1 a2 s3) := by
  unfold execSpdGetPlan
  repeat' first
    | with_reducible exact Frame.refl _ _
    | exact rfl
    | with_reducible apply Frame.app (k := atTime_frame)
    | with_reducible apply Frame.trans (k := runCmd_frame ?_ ?_)
    | with_reducible apply Frame.app (k := refuse_frame)
    | with_reducible apply Frame.trans (k := checked_frame ?_ ?_)
    | with_reducible apply Frame.app (k := reply_frame)
    | with_reducible apply Frames.next
    | dsimp only
    | split
    | intro _

theorem execVcoreFastLoopStep_frame {a0 s1} : Frames [.spd, .evr, .now, .out] s1 (execVcoreFastLoopStep a0 s1) := by
  unfold execVcoreFastLoopStep
  repeat' first
    | with_reducible exact Frame.refl _ _
    | exact rfl
    | with_reducible apply Frames.ite
    | with_reducible apply Frame.app (k := atTime_frame)
    | with_reducible apply Frame.app (k := modSpd_frame)
    | with_reducible apply Frames.next
    | dsimp only
    | split
    | intro _

theorem execMarginPlan_frame {a0 a1 a2 s3} : Frames [.spd, .mbx, .cmd, .evr, .pwr, .now, .out] s3 (execMarginPlan a0 a1 a2 s3) := by
  unfold execMarginPlan
  repeat' first
    | with_reducible exact Frame.refl _ _
    | exact rfl
    | with_reducible apply Frames.ite
    | with_reducible apply Frame.app (k := atTime_frame)
    | with_reducible apply Frame.app (k := planApply_frame)
    | with_reducible apply Frames.next
    | dsimp only
    | split
    | intro _

end Sys2Proof.Machine
end

