-- ==== Sys2Proof/Laws/Frames/Modes.lean ====
section
/-! SUPPORT. What each operation of Machine/Modes.lean may change. -/

namespace Sys2Proof.Machine

theorem storesFollow_frame {a0 a1 s2} : Frame [.trg, .sve] s2 (storesFollow a0 a1 s2) := by
  unfold storesFollow
  repeat' first
    | with_reducible exact Frame.refl _ _
    | exact rfl
    | with_reducible apply Frame.ite
    | with_reducible apply Frame.app (k := ringsRestart_frame)
    | with_reducible apply Frame.app (k := storeEmpty_frame)
    | dsimp only
    | split
    | intro _

theorem changeState_frame {a0 a1 s2} : Frame [.sys, .trg, .sve, .cmd, .evr] s2 (changeState a0 a1 s2) := by
  unfold changeState
  repeat' first
    | with_reducible exact Frame.refl _ _
    | exact rfl
    | with_reducible apply Frame.ite
    | with_reducible apply Frame.app (k := storesFollow_frame)
    | with_reducible apply Frame.app (k := evBy_frame)
    | with_reducible apply Frame.app (k := txnAbort_frame)
    | simp (disch := decide) only [↓Frame.of_set_sys]
    | split
    | intro _

theorem enterService_frame {a0 s1} : Frame [.sys, .trg, .sve, .prt, .trp, .cyc, .spd, .tbs, .mac, .red, .swc, .vfm, .cmd, .evr, .pwr, .out] s1 (enterService a0 s1) := by
  unfold enterService
  repeat' first
    | with_reducible exact Frame.refl _ _
    | exact rfl
    | with_reducible apply Frame.app (k := changeState_frame)
    | with_reducible apply Frame.app (k := ovrClear_frame)
    | with_reducible apply Frame.app (k := modPwr_frame)
    | with_reducible apply Frame.app (k := settle_frame)
    | with_reducible apply Frame.app (k := tasksStart_frame)
    | with_reducible apply Frame.app (k := zonesStart_frame)
    | dsimp only
    | split
    | intro _

end Sys2Proof.Machine
end

