-- ==== Sys2Proof/Laws/Frames/Snapshot.lean ====
section
/-! SUPPORT. What each operation of Machine/Snapshot.lean may change. -/

namespace Sys2Proof.Machine

theorem modTb_frame {a0 s1} : Frame [.tbs] s1 (modTb a0 s1) := by
  unfold modTb
  repeat' first
    | with_reducible exact Frame.refl _ _
    | exact rfl
    | simp (disch := decide) only [↓Frame.of_set_tbs]
    | split
    | intro _

theorem cfgRegs_frame : ∀ r ∈ cfgRegs, ∀ v s, Frame [.acq, .trg, .sve, .trp, .cyc, .spd, .tbs, .swc, .cmd] s (r.set v s) := by
  simp only [cfgRegs, tab, List.mem_append, List.mem_cons, List.mem_map, List.mem_flatMap, List.not_mem_nil, or_false]
  intro r h v s
  rcases h with ((((((((rfl | rfl | rfl | rfl | rfl | rfl | rfl | rfl | rfl | rfl) | ⟨_, _, rfl⟩) | (rfl | rfl)) | ⟨_, _, rfl⟩) | rfl) |
    ⟨_, _, rfl⟩) | (rfl | rfl)) | ⟨_, _, (rfl | rfl)⟩) | ⟨_, _, (rfl | rfl | rfl | rfl)⟩
  all_goals dsimp only
  all_goals first
    | exact Frame.mono modSpd_frame rfl
    | exact Frame.mono modAcq_frame rfl
    | exact Frame.mono modTrg_frame rfl
    | exact Frame.mono modSve_frame rfl
    | exact Frame.mono modTrp_frame rfl
    | exact Frame.mono modPtp_frame rfl
    | exact Frame.mono modSwc_frame rfl
    | exact Frame.mono modSwcPort_frame rfl
    | (simp (disch := decide) only [↓Frame.of_set_cyc, ↓Frame.of_set_cmd]; exact .refl _ _)

theorem loadRegs_frame {t s} : Frame [.acq, .trg, .sve, .trp, .cyc, .spd, .tbs, .swc, .cmd] s (loadRegs t s) := by
  unfold loadRegs
  refine Frame.foldOver_mem (fun r hr x => ?_) _
  split
  · exact cfgRegs_frame r hr _ x
  · exact .refl _ _

end Sys2Proof.Machine
end

