-- ==== Sys2Proof/Laws/Frames/Start.lean ====
section
/-! SUPPORT. What each operation of Machine/Start.lean may change. -/

namespace Sys2Proof.Machine

theorem swcReload_frame {s0} : Frame [.swc, .evr] s0 (swcReload s0) := by
  unfold swcReload
  repeat' first
    | with_reducible exact Frame.refl _ _
    | exact rfl
    | with_reducible apply Frame.app (k := swcStart_frame)
    | with_reducible apply Frame.app (k := modSwc_frame)
    | with_reducible apply Frame.app (k := swcTableWrite_frame)
    | with_reducible apply Frame.app (k := swcTableDelete_frame)
    | with_reducible apply Frame.trans (k := Frame.foldOver ?_ _ _)
    | with_reducible apply Frame.trans (k := Frame.foldOver_snd ?_ _ _)
    | dsimp only
    | split
    | intro _

theorem cmdStart_frame {a0 s1} : Frame [.cmd] s1 (cmdStart a0 s1) := by
  unfold cmdStart
  repeat' first
    | with_reducible exact Frame.refl _ _
    | exact rfl
    | with_reducible apply Frame.ite
    | with_reducible apply Frame.app (k := modCmd_frame)
    | dsimp only
    | split
    | intro _

theorem rtcCold_frame {s0} : Frame [.rtc] s0 (rtcCold s0) := by
  unfold rtcCold
  repeat' first
    | with_reducible exact Frame.refl _ _
    | exact rfl
    | with_reducible apply Frame.app (k := modRtc_frame)
    | dsimp only
    | split
    | intro _

theorem coldState_frame {s} : Frame [.sys, .acq, .flt, .trg, .sve, .prt, .trp, .cyc, .spd, .tbs, .rtc, .mac, .red, .swc, .vfm, .mbx, .cmd, .key, .evr, .pwr, .hiLatch] s (coldState s) :=
  have h : Frame _ s (rtcCold s) := rtcCold_frame
  ⟨fun b hb => by
    cases b
    case now => exact h.now (by decide)
    case out => exact h.out (by decide)
    case freeCtr => exact h.freeCtr (by decide)
    case pending => exact h.pending (by decide)
    all_goals simp at hb⟩

theorem flashWarm_frame {s0} : Frame [.flt, .trg, .evr] s0 (flashWarm s0) := by
  unfold flashWarm
  repeat' first
    | with_reducible exact Frame.refl _ _
    | exact rfl
    | with_reducible apply Frame.app (k := flashDrop_frame)
    | with_reducible apply Frame.trans (k := Frame.foldOver ?_ _ _)
    | with_reducible apply Frame.trans (k := Frame.foldOver_snd ?_ _ _)
    | dsimp only
    | split
    | with_reducible refine Frame.app ?_ (Frame.snd (by assumption) (flashDrop_frame ..)) ?_
    | intro _

theorem mbxWarm_frame {s0} : Frame [.mbx] s0 (mbxWarm s0) := by
  unfold mbxWarm
  repeat' first
    | with_reducible exact Frame.refl _ _
    | exact rfl
    | with_reducible apply Frame.ite
    | with_reducible apply Frame.app (k := semFree_frame)
    | with_reducible apply Frame.app (k := modMbx_frame)
    | with_reducible apply Frame.trans (k := Frame.foldl ?_ _ _)
    | dsimp only
    | split
    | intro _

theorem vfmWarm_frame {s0} : Frame [.trp, .cyc, .vfm, .evr, .out] s0 (vfmWarm s0) := by
  unfold vfmWarm
  repeat' first
    | with_reducible exact Frame.refl _ _
    | exact rfl
    | with_reducible apply Frame.app (k := modVfm_frame)
    | with_reducible apply Frame.app (k := vfmPending_frame)
    | with_reducible apply Frame.trans (k := Frame.foldOver ?_ _ _)
    | with_reducible apply Frame.trans (k := Frame.foldOver_snd ?_ _ _)
    | simp (disch := decide) only [↓Frame.of_set_cyc]
    | split
    | intro _

theorem redWarm_frame {s0} : Frame [.red] s0 (redWarm s0) := by
  unfold redWarm
  repeat' first
    | with_reducible exact Frame.refl _ _
    | exact rfl
    | simp (disch := decide) only [↓Frame.of_set_red]
    | split
    | intro _

theorem cycWarm_frame {s0} : Frame [.cyc] s0 (cycWarm s0) := by
  unfold cycWarm
  repeat' first
    | with_reducible exact Frame.refl _ _
    | exact rfl
    | simp (disch := decide) only [↓Frame.of_set_cyc]
    | split
    | intro _

theorem trpWarm_frame {s0} : Frame [.trg, .trp, .evr] s0 (trpWarm s0) := by
  unfold trpWarm
  repeat' first
    | with_reducible exact Frame.refl _ _
    | exact rfl
    | with_reducible apply Frame.app (k := cancelCloses_frame)
    | with_reducible apply Frame.app (k := modTrp_frame)
    | dsimp only
    | split
    | intro _

theorem prtWarm_frame {s0} : Frame [.prt, .evr] s0 (prtWarm s0) := by
  unfold prtWarm
  repeat' first
    | with_reducible exact Frame.refl _ _
    | exact rfl
    | with_reducible apply Frame.ite
    | with_reducible apply Frame.app (k := modPrt_frame)
    | with_reducible apply Frame.app (k := thermalEvent_frame)
    | with_reducible apply Frame.app (k := rrecEventBy_frame)
    | with_reducible apply Frame.trans (k := Frame.foldOver ?_ _ _)
    | with_reducible apply Frame.trans (k := Frame.foldOver_snd ?_ _ _)
    | dsimp only
    | split
    | intro _

theorem trgWarm_frame {s0} : Frame [.trg] s0 (trgWarm s0) := by
  unfold trgWarm
  repeat' first
    | with_reducible exact Frame.refl _ _
    | exact rfl
    | with_reducible apply Frame.app (k := modTrg_frame)
    | with_reducible apply Frame.app (k := shutterWarm_frame)
    | dsimp only
    | split
    | intro _

theorem warmState_frame {s0} : Frame [.sys, .acq, .flt, .trg, .sve, .prt, .trp, .cyc, .spd, .tbs, .rtc, .mac, .red, .swc, .vfm, .mbx, .key, .evr, .pwr, .out] s0 (warmState s0) := by
  unfold warmState
  repeat' first
    | with_reducible exact Frame.refl _ _
    | exact rfl
    | with_reducible apply Frame.app (k := flashWarm_frame)
    | with_reducible apply Frame.app (k := loadCoefs_frame)
    | with_reducible apply Frame.app (k := mbxWarm_frame)
    | with_reducible apply Frame.app (k := vfmWarm_frame)
    | with_reducible apply Frame.app (k := swcReload_frame)
    | with_reducible apply Frame.app (k := redWarm_frame)
    | with_reducible apply Frame.app (k := cycWarm_frame)
    | with_reducible apply Frame.app (k := trpWarm_frame)
    | with_reducible apply Frame.app (k := prtWarm_frame)
    | with_reducible apply Frame.app (k := trgWarm_frame)
    | simp (disch := decide) only [↓Frame.of_set_sys, ↓Frame.of_set_acq, ↓Frame.of_set_flt, ↓Frame.of_set_sve, ↓Frame.of_set_spd, ↓Frame.of_set_tbs, ↓Frame.of_set_rtc, ↓Frame.of_set_mac, ↓Frame.of_set_key, ↓Frame.of_set_evr, ↓Frame.of_set_pwr, ↓Frame.of_set_sys_evr, ↓Frame.of_set_sys_pwr, ↓Frame.of_set_sys_acq_flt_sve_spd_tbs_rtc_mac_key_evr_pwr]
    | split
    | intro _

theorem stateCode_frame {a0 s1} : Frame [.freeCtr] s1 (stateCode a0 s1).2 := by
  unfold stateCode
  repeat' first
    | with_reducible exact Frame.refl _ _
    | exact rfl
    | with_reducible apply Frame.ite_snd
    | with_reducible apply Frame.app (k := drawFree_frame)
    | with_reducible apply Frame.ite
    | dsimp only
    | split
    | with_reducible refine Frame.app ?_ (Frame.snd (by assumption) (drawFree_frame ..)) ?_
    | intro _

theorem startBegin_frame {a0 a1 s2} : Frame [.sys, .acq, .flt, .trg, .sve, .prt, .trp, .cyc, .spd, .tbs, .rtc, .mac, .red, .swc, .vfm, .mbx, .cmd, .key, .evr, .pwr, .hiLatch, .out, .freeCtr] s2 (startBegin a0 a1 s2) := by
  unfold startBegin
  repeat' first
    | with_reducible exact Frame.refl _ _
    | exact rfl
    | with_reducible apply Frame.ite
    | with_reducible apply Frame.app (k := txnAbort_frame)
    | with_reducible apply Frame.app (k := cmdStart_frame)
    | with_reducible apply Frame.app (k := coldState_frame)
    | with_reducible apply Frame.app (k := warmState_frame)
    | with_reducible apply Frame.app (k := stateCode_frame)
    | with_reducible apply Frame.app (k := evBy_frame)
    | with_reducible apply Frame.app (k := ev_frame)
    | with_reducible apply Frame.app (k := settle_frame)
    | with_reducible apply Frame.app (k := vcoreOvrEvent_frame)
    | with_reducible apply Frame.trans (k := Frame.foldOver ?_ _ _)
    | with_reducible apply Frame.trans (k := Frame.foldOver_snd ?_ _ _)
    | simp (disch := decide) only [↓Frame.of_set_sys, ↓Frame.of_set_evr, ↓Frame.of_set_pwr, ↓Frame.of_set_hiLatch, ↓Frame.of_set_sys_evr, ↓Frame.of_set_sys_pwr, ↓Frame.of_set_sys_pwr_hiLatch]
    | split
    | with_reducible refine Frame.app ?_ (Frame.snd (by assumption) (stateCode_frame ..)) ?_
    | intro _

theorem execMrstAssert_frame {a0 s1} : Frames [.sys, .acq, .flt, .trg, .sve, .prt, .trp, .cyc, .spd, .tbs, .rtc, .mac, .red, .swc, .vfm, .mbx, .cmd, .key, .evr, .pwr, .hiLatch, .now, .out, .freeCtr] s1 (execMrstAssert a0 s1) := by
  unfold execMrstAssert
  repeat' first
    | with_reducible exact Frame.refl _ _
    | exact rfl
    | with_reducible apply Frames.ite
    | with_reducible apply Frame.app (k := modPwr_frame)
    | with_reducible apply Frame.app (k := atTime_frame)
    | with_reducible apply Frame.app (k := startBegin_frame)
    | with_reducible apply Frames.next
    | dsimp only
    | split
    | intro _

theorem interruptedReplies_frame {s0} : Frame [.mbx, .cmd, .out] s0 (interruptedReplies s0) := by
  unfold interruptedReplies
  repeat' first
    | with_reducible exact Frame.refl _ _
    | exact rfl
    | with_reducible apply Frame.app (k := reply_frame)
    | with_reducible apply Frame.app (k := modCmd_frame)
    | with_reducible apply Frame.trans (k := Frame.foldOver ?_ _ _)
    | with_reducible apply Frame.trans (k := Frame.foldOver_snd ?_ _ _)
    | dsimp only
    | split
    | intro _

theorem execStartComplete_frame {a0 s1} : Frames [.sys, .trg, .sve, .prt, .trp, .cyc, .spd, .tbs, .rtc, .mac, .red, .swc, .vfm, .mbx, .cmd, .evr, .pwr, .now, .out] s1 (execStartComplete a0 s1) := by
  unfold execStartComplete
  repeat' first
    | with_reducible exact Frame.refl _ _
    | exact rfl
    | with_reducible apply Frames.ite
    | with_reducible apply Frame.app (k := atTime_frame)
    | with_reducible apply Frame.app (k := interruptedReplies_frame)
    | with_reducible apply Frame.app (k := settle_frame)
    | with_reducible apply Frame.app (k := changeState_frame)
    | with_reducible apply Frame.app (k := seedBegin_frame)
    | with_reducible apply Frame.app (k := admitRefused_frame)
    | with_reducible apply Frame.app (k := admitStore_frame)
    | with_reducible apply Frame.app (k := setBkp_frame)
    | with_reducible apply Frame.app (k := enterService_frame)
    | with_reducible apply Frames.next
    | dsimp only
    | split
    | intro _

theorem supply_frame {a0 a1 s2} : Frame [.pwr] s2 (supply a0 a1 s2) := by
  unfold supply
  repeat' first
    | with_reducible exact Frame.refl _ _
    | exact rfl
    | with_reducible apply Frame.ite
    | with_reducible apply Frame.app (k := modPwr_frame)
    | dsimp only
    | split
    | intro _

theorem startFailed_frame {a0 s1} : Frame [.rtc, .key, .evr] s1 (startFailed a0 s1) := by
  unfold startFailed
  repeat' first
    | with_reducible exact Frame.refl _ _
    | exact rfl
    | with_reducible apply Frame.ite
    | with_reducible apply Frame.app (k := setBkp_frame)
    | with_reducible apply Frame.app (k := evBy_frame)
    | with_reducible apply Frame.app (k := trialFailed_frame)
    | dsimp only
    | split
    | intro _

theorem bootImage_frame {s u} (h : bootImage s = some u) : Frame [.key, .evr] s u := by
  unfold bootImage at h
  split at h
  · exact (bootCold_frame h).mono rfl
  · exact (bootWarm_frame h).mono rfl

theorem timeLostStart_frame {s0} : Frame [.rtc, .evr] s0 (timeLostStart s0) := by
  unfold timeLostStart
  repeat' first
    | with_reducible exact Frame.refl _ _
    | exact rfl
    | with_reducible apply Frame.ite
    | with_reducible apply Frame.app (k := setBkp_frame)
    | with_reducible apply Frame.app (k := evBy_frame)
    | dsimp only
    | split
    | intro _

theorem configStart_frame {s0} : Frame [.acq, .flt, .trg, .sve, .prt, .trp, .cyc, .spd, .tbs, .mac, .red, .swc, .vfm, .mbx, .cmd, .evr, .pwr, .out, .freeCtr] s0 (configStart s0) := by
  unfold configStart
  repeat' first
    | with_reducible exact Frame.refl _ _
    | exact rfl
    | with_reducible apply Frame.app (k := cfgApply_frame)
    | with_reducible apply Frame.app (k := loadRegs_frame)
    | with_reducible apply Frame.app (k := modCmd_frame)
    | with_reducible apply Frame.trans (k := Frame.foldOver ?_ _ _)
    | with_reducible apply Frame.trans (k := Frame.foldOver_snd ?_ _ _)
    | dsimp only
    | split
    | intro _

theorem indexStart_frame {s0} : Frame [.rtc, .vfm, .mbx, .cmd, .evr, .out] s0 (indexStart s0) := by
  unfold indexStart
  repeat' first
    | with_reducible exact Frame.refl _ _
    | exact rfl
    | with_reducible apply Frame.ite
    | with_reducible apply Frame.app (k := modEvr_frame)
    | with_reducible apply Frame.app (k := clearNow_frame)
    | with_reducible apply Frame.app (k := ev_frame)
    | dsimp only
    | split
    | intro _

theorem redStart_frame {s0} : Frame [.red, .evr] s0 (redStart s0) := by
  unfold redStart
  repeat' first
    | with_reducible exact Frame.refl _ _
    | exact rfl
    | with_reducible apply Frame.app (k := ownListen_frame)
    | with_reducible apply Frame.app (k := pairRestart_frame)
    | with_reducible apply Frame.trans (k := Frame.foldOver ?_ _ _)
    | with_reducible apply Frame.trans (k := Frame.foldOver_snd ?_ _ _)
    | dsimp only
    | split
    | intro _

theorem startRun_frame {s0} : Frame [.acq, .flt, .trg, .sve, .prt, .trp, .cyc, .spd, .tbs, .rtc, .mac, .red, .swc, .vfm, .mbx, .cmd, .key, .evr, .pwr, .out, .freeCtr] s0 (startRun s0) := by
  unfold startRun
  repeat' first
    | with_reducible exact Frame.refl _ _
    | exact rfl
    | with_reducible apply Frame.ite
    | with_reducible apply Frame.app (k := setBkp_frame)
    | with_reducible apply Frame.app (k := modCmd_frame)
    | with_reducible apply Frame.app (k := keysStart_frame)
    | with_reducible apply Frame.app (k := timeLostStart_frame)
    | with_reducible apply Frame.app (k := shutterCold_frame)
    | with_reducible apply Frame.app (k := configStart_frame)
    | with_reducible apply Frame.app (k := indexStart_frame)
    | with_reducible apply Frame.app (k := modPwr_frame)
    | with_reducible apply Frame.app (k := seedBegin_frame)
    | with_reducible apply Frame.app (k := tegArm_frame)
    | with_reducible apply Frame.app (k := loadCoefs_frame)
    | with_reducible apply Frame.app (k := strobeAlign_frame)
    | with_reducible apply Frame.app (k := redStart_frame)
    | with_reducible apply Frame.app (k := modSpd_frame)
    | with_reducible apply Frame.app (k := calStart_frame)
    | with_reducible apply Frame.app (k := settle_frame)
    | dsimp only
    | split
    | with_reducible refine Frame.app ?_ (bootImage_frame (by assumption)) ?_
    | intro _

theorem execWatchdogExpire_frame {a0 a1 s2} : Frames [.sys, .acq, .flt, .trg, .sve, .prt, .trp, .cyc, .spd, .tbs, .rtc, .mac, .red, .swc, .vfm, .mbx, .cmd, .key, .evr, .pwr, .hiLatch, .now, .out, .freeCtr] s2 (execWatchdogExpire a0 a1 s2) := by
  unfold execWatchdogExpire
  repeat' first
    | with_reducible exact Frame.refl _ _
    | exact rfl
    | with_reducible apply Frames.ite
    | with_reducible apply Frame.app (k := atTime_frame)
    | with_reducible apply Frame.app (k := startRun_frame)
    | with_reducible apply Frame.app (k := startBegin_frame)
    | with_reducible apply Frame.app (k := startFailed_frame)
    | with_reducible apply Frames.next
    | dsimp only
    | split
    | intro _

theorem execWarmStart_frame {a0 a1 s2} : Frames [.sys, .acq, .flt, .trg, .sve, .prt, .trp, .cyc, .spd, .tbs, .rtc, .mac, .red, .swc, .vfm, .mbx, .cmd, .key, .evr, .pwr, .hiLatch, .now, .out, .freeCtr] s2 (execWarmStart a0 a1 s2) := by
  unfold execWarmStart
  repeat' first
    | with_reducible exact Frame.refl _ _
    | exact rfl
    | with_reducible apply Frames.ite
    | with_reducible apply Frame.app (k := atTime_frame)
    | with_reducible apply Frame.app (k := startRun_frame)
    | with_reducible apply Frame.app (k := startBegin_frame)
    | with_reducible apply Frame.app (k := orderlyStore_frame)
    | with_reducible apply Frames.next
    | dsimp only
    | split
    | intro _

theorem execColdStart_frame {a0 a1 a2 a3 s4} : Frames [.sys, .acq, .flt, .trg, .sve, .prt, .trp, .cyc, .spd, .tbs, .rtc, .mac, .red, .swc, .vfm, .mbx, .cmd, .key, .evr, .pwr, .hiLatch, .now, .out, .freeCtr] s4 (execColdStart a0 a1 a2 a3 s4) := by
  unfold execColdStart
  repeat' first
    | with_reducible exact Frame.refl _ _
    | exact rfl
    | with_reducible apply Frames.ite
    | with_reducible apply Frame.app (k := atTime_frame)
    | with_reducible apply Frame.app (k := startRun_frame)
    | with_reducible apply Frame.app (k := supply_frame)
    | with_reducible apply Frame.app (k := startBegin_frame)
    | with_reducible apply Frame.app (k := modEvr_frame)
    | with_reducible apply Frame.app (k := orderlyStore_frame)
    | with_reducible apply Frames.next
    | simp (disch := decide) only [↓Frame.of_set_sys, ↓Frame.of_set_pwr, ↓Frame.of_set_sys_pwr]
    | split
    | intro _

theorem execMrstRelease_frame {a0 s1} : Frames [.acq, .flt, .trg, .sve, .prt, .trp, .cyc, .spd, .tbs, .rtc, .mac, .red, .swc, .vfm, .mbx, .cmd, .key, .evr, .pwr, .now, .out, .freeCtr] s1 (execMrstRelease a0 s1) := by
  unfold execMrstRelease
  repeat' first
    | with_reducible exact Frame.refl _ _
    | exact rfl
    | with_reducible apply Frame.app (k := startRun_frame)
    | with_reducible apply Frame.app (k := modPwr_frame)
    | with_reducible apply Frame.app (k := atTime_frame)
    | with_reducible apply Frames.next
    | dsimp only
    | split
    | intro _

end Sys2Proof.Machine
end

