-- ==== Sys2Proof/Laws/Frames/Power.lean ====
section
/-! SUPPORT. What each operation of Machine/Power.lean may change. -/

namespace Sys2Proof.Machine

theorem execWakeComplete_frame {a0 s1} : Frames [.sys, .trg, .sve, .prt, .trp, .cyc, .spd, .tbs, .mac, .red, .swc, .vfm, .cmd, .evr, .pwr, .now, .out] s1 (execWakeComplete a0 s1) := by
  unfold execWakeComplete
  repeat' first
    | with_reducible exact Frame.refl _ _
    | exact rfl
    | with_reducible apply Frames.ite
    | with_reducible apply Frame.app (k := atTime_frame)
    | with_reducible apply Frame.app (k := modPwr_frame)
    | with_reducible apply Frame.app (k := modCmd_frame)
    | with_reducible apply Frame.app (k := modSve_frame)
    | with_reducible apply Frame.app (k := pairRestart_frame)
    | with_reducible apply Frame.app (k := ownListen_frame)
    | with_reducible apply Frame.app (k := enterService_frame)
    | with_reducible apply Frame.app (k := ev_frame)
    | with_reducible apply Frames.next
    | with_reducible apply Frame.trans (k := Frame.foldOver ?_ _ _)
    | with_reducible apply Frame.trans (k := Frame.foldOver_snd ?_ _ _)
    | dsimp only
    | split
    | intro _

theorem copiesStop_frame {s0} : Frame [.mbx, .cmd, .evr, .out] s0 (copiesStop s0) := by
  unfold copiesStop
  repeat' first
    | with_reducible exact Frame.refl _ _
    | exact rfl
    | with_reducible apply Frame.app (k := finish_frame)
    | with_reducible apply Frame.app (k := sheetsClose_frame)
    | with_reducible apply Frame.trans (k := Frame.foldOver ?_ _ _)
    | with_reducible apply Frame.trans (k := Frame.foldOver_snd ?_ _ _)
    | dsimp only
    | split
    | intro _

theorem excursionEvent_frame {a0 a1 s2} : Frame [.evr] s2 (excursionEvent a0 a1 s2) := by
  unfold excursionEvent
  repeat' first
    | with_reducible exact Frame.refl _ _
    | exact rfl
    | with_reducible apply Frame.app (k := ev_frame)
    | dsimp only
    | split
    | intro _

theorem finalCommit_frame {s0} : Frame [.trg, .rtc, .vfm, .mbx, .cmd, .evr, .pwr, .out] s0 (finalCommit s0) := by
  unfold finalCommit
  repeat' first
    | with_reducible exact Frame.refl _ _
    | exact rfl
    | with_reducible apply Frame.ite
    | with_reducible apply Frame.app (k := excursionEvent_frame)
    | with_reducible apply Frame.app (k := modPwr_frame)
    | with_reducible apply Frame.app (k := orderlyStore_frame)
    | with_reducible apply Frame.app (k := shutterShed5_frame)
    | with_reducible apply Frame.app (k := copiesStop_frame)
    | dsimp only
    | split
    | intro _

theorem pubsShed_frame {a0 s1} : Frame [.sve, .evr] s1 (pubsShed a0 s1) := by
  unfold pubsShed
  repeat' first
    | with_reducible exact Frame.refl _ _
    | exact rfl
    | with_reducible apply Frame.ite
    | with_reducible apply Frame.app (k := modSve_frame)
    | with_reducible apply Frame.app (k := ev_frame)
    | dsimp only
    | split
    | intro _

theorem stationOff_frame {s0} : Frame [.mac, .red, .swc, .evr, .out, .freeCtr] s0 (stationOff s0) := by
  unfold stationOff
  repeat' first
    | with_reducible exact Frame.refl _ _
    | exact rfl
    | with_reducible apply Frame.ite
    | with_reducible apply Frame.app (k := linkChange_frame)
    | with_reducible apply Frame.trans (k := Frame.foldOver ?_ _ _)
    | with_reducible apply Frame.trans (k := Frame.foldOver_snd ?_ _ _)
    | dsimp only
    | split
    | intro _

theorem shedAct_frame {a0 s1} : Frame [.trg, .sve, .trp, .cyc, .tbs, .rtc, .mac, .red, .swc, .vfm, .mbx, .cmd, .evr, .pwr, .out, .freeCtr] s1 (shedAct a0 s1) := by
  unfold shedAct
  repeat' first
    | with_reducible exact Frame.refl _ _
    | exact rfl
    | with_reducible apply Frame.app (k := pubsShed_frame)
    | with_reducible apply Frame.app (k := stationOff_frame)
    | with_reducible apply Frame.app (k := tasksShed_frame)
    | with_reducible apply Frame.app (k := finalCommit_frame)
    | dsimp only
    | split
    | intro _

theorem vfStatsAfter_frame {s0 s1} : Frame [.out] s1 (vfStatsAfter s0 s1) := by
  unfold vfStatsAfter
  repeat' first
    | with_reducible exact Frame.refl _ _
    | exact rfl
    | with_reducible apply Frame.app (k := statSignal_frame)
    | with_reducible apply Frame.trans (k := Frame.foldOver ?_ _ _)
    | with_reducible apply Frame.trans (k := Frame.foldOver_snd ?_ _ _)
    | dsimp only
    | split
    | intro _

theorem setShed_frame {a0 s1} : Frame [.evr, .pwr, .out] s1 (setShed a0 s1) := by
  unfold setShed
  repeat' first
    | with_reducible exact Frame.refl _ _
    | exact rfl
    | with_reducible apply Frame.app (k := modPwr_frame)
    | with_reducible apply Frame.app (k := ev_frame)
    | with_reducible apply Frame.app (k := vfStatsAfter_frame)
    | dsimp only
    | split
    | intro _

theorem enterShed_frame {a0 s1} : Frame [.evr, .pwr, .out] s1 (enterShed a0 s1) := by
  unfold enterShed
  repeat' first
    | with_reducible exact Frame.refl _ _
    | exact rfl
    | with_reducible apply Frame.app (k := setShed_frame)
    | with_reducible apply Frame.app (k := modPwr_frame)
    | dsimp only
    | split
    | intro _

theorem execShedLevelEnter_frame {a0 a1 a2 s3} : Frames [.trg, .sve, .trp, .cyc, .tbs, .rtc, .mac, .red, .swc, .vfm, .mbx, .cmd, .evr, .pwr, .now, .out, .freeCtr] s3 (execShedLevelEnter a0 a1 a2 s3) := by
  unfold execShedLevelEnter
  repeat' first
    | with_reducible exact Frame.refl _ _
    | exact rfl
    | with_reducible apply Frames.ite
    | with_reducible apply Frame.app (k := supply_frame)
    | with_reducible apply Frame.app (k := atTime_frame)
    | with_reducible apply Frame.app (k := settle_frame)
    | with_reducible apply Frame.app (k := shedAct_frame)
    | with_reducible apply Frame.app (k := enterShed_frame)
    | with_reducible apply Frames.next
    | dsimp only
    | split
    | intro _

theorem powerDown_frame {s0} : Frame [.sys, .trp, .mac, .vfm, .cmd, .evr, .pwr] s0 (powerDown s0) := by
  unfold powerDown
  repeat' first
    | with_reducible exact Frame.refl _ _
    | exact rfl
    | with_reducible apply Frame.app (k := modVfm_frame)
    | with_reducible apply Frame.app (k := modCmd_frame)
    | with_reducible apply Frame.app (k := modPwr_frame)
    | simp (disch := decide) only [↓Frame.of_set_sys, ↓Frame.of_set_trp, ↓Frame.of_set_mac, ↓Frame.of_set_evr, ↓Frame.of_set_sys_evr, ↓Frame.of_set_sys_trp_mac_evr]
    | split
    | intro _

theorem powerCheck_frame {s0} : Frame [.sys, .trp, .mac, .vfm, .cmd, .evr, .pwr] s0 (powerCheck s0) := by
  unfold powerCheck
  repeat' first
    | with_reducible exact Frame.refl _ _
    | exact rfl
    | with_reducible apply Frame.ite
    | with_reducible apply Frame.app (k := powerDown_frame)
    | dsimp only
    | split
    | intro _

theorem execVinUndervoltage_frame {a0 a1 a2 s3} : Frames [.sys, .trp, .mac, .vfm, .cmd, .evr, .pwr, .now, .out] s3 (execVinUndervoltage a0 a1 a2 s3) := by
  unfold execVinUndervoltage
  repeat' first
    | with_reducible exact Frame.refl _ _
    | exact rfl
    | with_reducible apply Frames.ite
    | with_reducible apply Frame.app (k := supply_frame)
    | with_reducible apply Frame.app (k := atTime_frame)
    | with_reducible apply Frame.app (k := powerCheck_frame)
    | with_reducible apply Frame.app (k := modPwr_frame)
    | with_reducible apply Frames.next
    | dsimp only
    | split
    | intro _

theorem interruptionEnd_frame {s0} : Frame [.evr, .pwr] s0 (interruptionEnd s0) := by
  unfold interruptionEnd
  repeat' first
    | with_reducible exact Frame.refl _ _
    | exact rfl
    | with_reducible apply Frame.app (k := ev_frame)
    | with_reducible apply Frame.app (k := modPwr_frame)
    | dsimp only
    | split
    | intro _

theorem unshedAct_frame {a0 s1} : Frame [.acq, .flt, .trg, .sve, .prt, .trp, .cyc, .spd, .tbs, .rtc, .mac, .red, .swc, .vfm, .mbx, .cmd, .key, .evr, .pwr, .out, .freeCtr] s1 (unshedAct a0 s1) := by
  unfold unshedAct
  repeat' first
    | with_reducible exact Frame.refl _ _
    | exact rfl
    | with_reducible apply Frame.app (k := setBkp_frame)
    | with_reducible apply Frame.app (k := startRun_frame)
    | with_reducible apply Frame.app (k := tasksShed_frame)
    | with_reducible apply Frame.app (k := pubsShed_frame)
    | with_reducible apply Frame.app (k := wakeStart_frame)
    | with_reducible apply Frame.app (k := interruptionEnd_frame)
    | dsimp only
    | split
    | intro _

theorem execShedLevelLeave_frame {a0 a1 a2 s3} : Frames [.acq, .flt, .trg, .sve, .prt, .trp, .cyc, .spd, .tbs, .rtc, .mac, .red, .swc, .vfm, .mbx, .cmd, .key, .evr, .pwr, .now, .out, .freeCtr] s3 (execShedLevelLeave a0 a1 a2 s3) := by
  unfold execShedLevelLeave
  repeat' first
    | with_reducible exact Frame.refl _ _
    | exact rfl
    | with_reducible apply Frames.ite
    | with_reducible apply Frame.app (k := supply_frame)
    | with_reducible apply Frame.app (k := atTime_frame)
    | with_reducible apply Frame.app (k := settle_frame)
    | with_reducible apply Frame.app (k := unshedAct_frame)
    | with_reducible apply Frame.app (k := setShed_frame)
    | with_reducible apply Frame.app (k := modPwr_frame)
    | with_reducible apply Frames.next
    | dsimp only
    | split
    | intro _

theorem holdupEvent_frame {a0 a1 s2} : Frame [.evr] s2 (holdupEvent a0 a1 s2) := by
  unfold holdupEvent
  repeat' first
    | with_reducible exact Frame.refl _ _
    | exact rfl
    | with_reducible apply Frame.app (k := ev_frame)
    | dsimp only
    | split
    | intro _

theorem holdupAbort_frame {s0} : Frame [.mbx, .cmd, .evr, .pwr, .out] s0 (holdupAbort s0) := by
  unfold holdupAbort
  repeat' first
    | with_reducible exact Frame.refl _ _
    | exact rfl
    | with_reducible apply Frame.app (k := holdupEvent_frame)
    | with_reducible apply Frame.app (k := modPwr_frame)
    | with_reducible apply Frame.app (k := finish_frame)
    | dsimp only
    | split
    | intro _

theorem execSafelightWake_frame {a0 a1 s2} : Frames [.evr, .pwr, .now, .out] s2 (execSafelightWake a0 a1 s2) := by
  unfold execSafelightWake
  repeat' first
    | with_reducible exact Frame.refl _ _
    | exact rfl
    | with_reducible apply Frames.ite
    | with_reducible apply Frame.app (k := atTime_frame)
    | with_reducible apply Frame.app (k := wakeStart_frame)
    | with_reducible apply Frames.next
    | dsimp only
    | split
    | intro _

theorem holdupStart_frame {a0 s1} : Frame [.pwr] s1 (holdupStart a0 s1) := by
  unfold holdupStart
  repeat' first
    | with_reducible exact Frame.refl _ _
    | exact rfl
    | with_reducible apply Frame.app (k := modPwr_frame)
    | dsimp only
    | split
    | intro _

theorem execPwrHoldupTest_frame {a0 a1 a2 s3} : Frames [.mbx, .cmd, .evr, .pwr, .now, .out] s3 (execPwrHoldupTest a0 a1 a2 s3) := by
  unfold execPwrHoldupTest
  repeat' first
    | with_reducible exact Frame.refl _ _
    | exact rfl
    | with_reducible apply Frame.app (k := atTime_frame)
    | with_reducible apply Frame.app (k := supply_frame)
    | with_reducible apply Frame.trans (k := runCmd_frame ?_ ?_)
    | with_reducible apply Frame.trans (k := checked8_frame ?_ ?_)
    | with_reducible apply Frame.app (k := holdReply_frame)
    | with_reducible apply Frame.app (k := holdupStart_frame)
    | with_reducible apply Frames.next
    | dsimp only
    | split
    | intro _

theorem commitAll_frame {n s} : Frame [.trg, .evr] s (commitAll n s) := by
  induction n generalizing s with
  | zero => exact .refl _ _
  | succ n ih =>
    unfold commitAll
    split
    · exact ((modRec_frame.mono rfl).app committedEvent_frame rfl).trans ih
    · split
      · exact (writeBlock_frame.mono rfl).trans ih
      · exact .refl _ _

theorem execSafelightPowerGate_frame {a0 s1} : Frames [.mac, .red, .swc, .vfm, .evr, .pwr, .now, .out, .freeCtr] s1 (execSafelightPowerGate a0 s1) := by
  unfold execSafelightPowerGate
  repeat' first
    | with_reducible exact Frame.refl _ _
    | exact rfl
    | with_reducible apply Frames.ite
    | with_reducible apply Frame.app (k := atTime_frame)
    | with_reducible apply Frame.app (k := modVfm_frame)
    | with_reducible apply Frame.app (k := ev_frame)
    | with_reducible apply Frame.app (k := linkChange_frame)
    | with_reducible apply Frame.app (k := modPwr_frame)
    | with_reducible apply Frame.app (k := wakeStart_frame)
    | with_reducible apply Frames.next
    | with_reducible apply Frame.trans (k := Frame.foldOver ?_ _ _)
    | with_reducible apply Frame.trans (k := Frame.foldOver_snd ?_ _ _)
    | dsimp only
    | split
    | intro _

theorem execHoldupTestDue_frame {a0 a1 s2} : Frames [.evr, .pwr, .now, .out] s2 (execHoldupTestDue a0 a1 s2) := by
  unfold execHoldupTestDue
  repeat' first
    | with_reducible exact Frame.refl _ _
    | exact rfl
    | with_reducible apply Frames.ite
    | with_reducible apply Frame.app (k := atTime_frame)
    | with_reducible apply Frame.app (k := supply_frame)
    | with_reducible apply Frame.app (k := holdupStart_frame)
    | with_reducible apply Frame.app (k := modPwr_frame)
    | with_reducible apply Frames.next
    | dsimp only
    | split
    | intro _

theorem execSupplyRecovered_frame {a0 a1 s2} : Frames [.evr, .pwr, .now, .out] s2 (execSupplyRecovered a0 a1 s2) := by
  unfold execSupplyRecovered
  repeat' first
    | with_reducible exact Frame.refl _ _
    | exact rfl
    | with_reducible apply Frames.ite
    | with_reducible apply Frame.app (k := atTime_frame)
    | with_reducible apply Frame.app (k := modPwr_frame)
    | with_reducible apply Frame.app (k := supply_frame)
    | with_reducible apply Frames.next
    | dsimp only
    | split
    | intro _

theorem shutterClose_frame {s0} : Frame [.trg] s0 (shutterClose s0) := by
  unfold shutterClose
  repeat' first
    | with_reducible exact Frame.refl _ _
    | exact rfl
    | with_reducible apply Frame.ite
    | with_reducible apply Frame.app (k := modTrg_frame)
    | dsimp only
    | split
    | intro _

theorem execPowerDown_frame {a0 a1 s2} : Frames [.sys, .trp, .mac, .vfm, .cmd, .evr, .pwr, .now, .out] s2 (execPowerDown a0 a1 s2) := by
  unfold execPowerDown
  repeat' first
    | with_reducible exact Frame.refl _ _
    | exact rfl
    | with_reducible apply Frame.app (k := atTime_frame)
    | with_reducible apply Frame.app (k := powerCheck_frame)
    | with_reducible apply Frame.app (k := supply_frame)
    | with_reducible apply Frames.next
    | dsimp only
    | split
    | intro _

theorem udpStop_frame {s0} : Frame [.cmd] s0 (udpStop s0) := by
  unfold udpStop
  repeat' first
    | with_reducible exact Frame.refl _ _
    | exact rfl
    | with_reducible apply Frame.app (k := modCmd_frame)
    | dsimp only
    | split
    | intro _

theorem execVinExcursionEnd_frame {a0 a1 a2 s3} : Frames [.evr, .pwr, .now, .out] s3 (execVinExcursionEnd a0 a1 a2 s3) := by
  unfold execVinExcursionEnd
  repeat' first
    | with_reducible exact Frame.refl _ _
    | exact rfl
    | with_reducible apply Frames.ite
    | with_reducible apply Frame.app (k := atTime_frame)
    | with_reducible apply Frame.app (k := supply_frame)
    | with_reducible apply Frame.app (k := modPwr_frame)
    | with_reducible apply Frame.app (k := excursionEvent_frame)
    | with_reducible apply Frames.next
    | dsimp only
    | split
    | intro _

theorem execVinOvervoltageDisconnect_frame {a0 a1 s2} : Frames [.sys, .trp, .mac, .vfm, .cmd, .evr, .pwr, .now, .out] s2 (execVinOvervoltageDisconnect a0 a1 s2) := by
  unfold execVinOvervoltageDisconnect
  repeat' first
    | with_reducible exact Frame.refl _ _
    | exact rfl
    | with_reducible apply Frames.ite
    | with_reducible apply Frame.app (k := atTime_frame)
    | with_reducible apply Frame.app (k := supply_frame)
    | with_reducible apply Frame.app (k := powerCheck_frame)
    | with_reducible apply Frame.app (k := modPwr_frame)
    | with_reducible apply Frames.next
    | dsimp only
    | split
    | intro _

theorem execShed1Enter_frame {a0 a1 a2 s3} : Frames [.sys, .trg, .sve, .trp, .cyc, .tbs, .mac, .red, .swc, .vfm, .mbx, .cmd, .evr, .pwr, .now, .out] s3 (execShed1Enter a0 a1 a2 s3) := by
  unfold execShed1Enter
  repeat' first
    | with_reducible exact Frame.refl _ _
    | exact rfl
    | with_reducible apply Frames.ite
    | with_reducible apply Frame.app (k := supply_frame)
    | with_reducible apply Frame.app (k := atTime_frame)
    | with_reducible apply Frame.app (k := modPwr_frame)
    | with_reducible apply Frame.app (k := settle_frame)
    | with_reducible apply Frame.app (k := powerCheck_frame)
    | with_reducible apply Frame.app (k := tasksShed_frame)
    | with_reducible apply Frame.app (k := udpStop_frame)
    | with_reducible apply Frame.app (k := holdupAbort_frame)
    | with_reducible apply Frame.app (k := enterShed_frame)
    | with_reducible apply Frames.next
    | dsimp only
    | split
    | intro _

theorem execHoldShortDisconnect_frame {a0 s1} : Frames [.evr, .pwr, .now, .out] s1 (execHoldShortDisconnect a0 s1) := by
  unfold execHoldShortDisconnect
  repeat' first
    | with_reducible exact Frame.refl _ _
    | exact rfl
    | with_reducible apply Frame.app (k := modPwr_frame)
    | with_reducible apply Frame.app (k := atTime_frame)
    | with_reducible apply Frames.next
    | dsimp only
    | split
    | intro _

theorem execHoldupTestComplete_frame {a0 a1 s2} : Frames [.spd, .evr, .pwr, .now, .out] s2 (execHoldupTestComplete a0 a1 s2) := by
  unfold execHoldupTestComplete
  repeat' first
    | with_reducible exact Frame.refl _ _
    | exact rfl
    | with_reducible apply Frame.app (k := atTime_frame)
    | with_reducible apply Frame.app (k := modPwr_frame)
    | with_reducible apply Frame.app (k := modSpd_frame)
    | with_reducible apply Frame.app (k := holdupEvent_frame)
    | with_reducible apply Frame.app (k := capLowCheck_frame)
    | with_reducible apply Frames.next
    | dsimp only
    | split
    | intro _

theorem safelightEnter_frame {a0 a1 s2} : Frame [.sys, .trg, .sve, .trp, .cyc, .tbs, .rtc, .mac, .red, .swc, .vfm, .mbx, .cmd, .evr, .pwr, .out] s2 (safelightEnter a0 a1 s2) := by
  unfold safelightEnter
  repeat' first
    | with_reducible exact Frame.refl _ _
    | exact rfl
    | with_reducible apply Frame.app (k := settle_frame)
    | with_reducible apply Frame.app (k := shutterClose_frame)
    | with_reducible apply Frame.app (k := commitAll_frame)
    | with_reducible apply Frame.app (k := orderlyStore_frame)
    | with_reducible apply Frame.app (k := changeState_frame)
    | with_reducible apply Frame.app (k := evCmd_frame)
    | with_reducible apply Frame.app (k := modPwr_frame)
    | with_reducible apply Frame.app (k := modCmd_frame)
    | with_reducible apply Frame.app (k := finish_frame)
    | simp (disch := decide) only [↓Frame.of_set_sys]
    | split
    | intro _

end Sys2Proof.Machine
end

