-- ==== Sys2Proof/Laws/Frames/Leave.lean ====
section
/-! SUPPORT. What each operation of Machine/Leave.lean may change. -/

namespace Sys2Proof.Machine

theorem leaveStop_frame {s0} : Frame [.trg, .sve, .prt, .trp, .cyc, .tbs, .mac, .red, .swc, .vfm, .mbx, .cmd, .evr, .out] s0 (leaveStop s0) := by
  unfold leaveStop
  repeat' first
    | with_reducible exact Frame.refl _ _
    | exact rfl
    | with_reducible apply Frame.app (k := cancelCloses_frame)
    | with_reducible apply Frame.app (k := tasksStop_frame)
    | with_reducible apply Frame.app (k := settle_frame)
    | with_reducible apply Frame.app (k := endTestMode_frame)
    | with_reducible apply Frame.trans (k := Frame.foldOver ?_ _ _)
    | with_reducible apply Frame.trans (k := Frame.foldOver_snd ?_ _ _)
    | dsimp only
    | split
    | intro _

theorem maintEnter_frame {a0 s1} : Frame [.sys, .trg, .sve, .trp, .cyc, .tbs, .mac, .red, .swc, .vfm, .mbx, .cmd, .evr, .out] s1 (maintEnter a0 s1) := by
  unfold maintEnter
  repeat' first
    | with_reducible exact Frame.refl _ _
    | exact rfl
    | with_reducible apply Frame.app (k := settle_frame)
    | with_reducible apply Frame.app (k := finish_frame)
    | with_reducible apply Frame.app (k := changeState_frame)
    | simp (disch := decide) only [↓Frame.of_set_sys]
    | split
    | intro _

theorem leaveEnd_frame {a0 s1} : Frame [.sys, .trg, .sve, .trp, .cyc, .tbs, .rtc, .mac, .red, .swc, .vfm, .mbx, .cmd, .evr, .pwr, .out] s1 (leaveEnd a0 s1) := by
  unfold leaveEnd
  repeat' first
    | with_reducible exact Frame.refl _ _
    | exact rfl
    | with_reducible apply Frame.app (k := safelightEnter_frame)
    | with_reducible apply Frame.app (k := maintEnter_frame)
    | simp (disch := decide) only [↓Frame.of_set_sys]
    | split
    | intro _

theorem leaveStep_frame {s0} : Frame [.sys, .trg, .sve, .prt, .trp, .cyc, .tbs, .rtc, .mac, .red, .swc, .vfm, .mbx, .cmd, .evr, .pwr, .out] s0 (leaveStep s0) := by
  unfold leaveStep
  repeat' first
    | with_reducible exact Frame.refl _ _
    | exact rfl
    | with_reducible apply Frame.ite
    | with_reducible apply Frame.app (k := tasksFinish_frame)
    | with_reducible apply Frame.app (k := leaveStop_frame)
    | with_reducible apply Frame.app (k := leaveEnd_frame)
    | simp (disch := decide) only [↓Frame.of_set_sys]
    | split
    | intro _

theorem leaveStart_frame {a0 a1 s2} : Frame [.sys, .trg, .sve, .prt, .trp, .cyc, .tbs, .rtc, .mac, .red, .swc, .vfm, .mbx, .cmd, .evr, .pwr, .out] s2 (leaveStart a0 a1 s2) := by
  unfold leaveStart
  repeat' first
    | with_reducible exact Frame.refl _ _
    | exact rfl
    | with_reducible apply Frame.app (k := leaveStep_frame)
    | with_reducible apply Frame.app (k := zonesStop_frame)
    | with_reducible apply Frame.app (k := holdReply_frame)
    | simp (disch := decide) only [↓Frame.of_set_sys]
    | split
    | intro _

theorem execPwrSafelight_frame {a0 a1 a2 s3} : Frames [.sys, .trg, .sve, .prt, .trp, .cyc, .tbs, .rtc, .mac, .red, .swc, .vfm, .mbx, .cmd, .evr, .pwr, .now, .out] s3 (execPwrSafelight a0 a1 a2 s3) := by
  unfold execPwrSafelight
  repeat' first
    | with_reducible exact Frame.refl _ _
    | exact rfl
    | with_reducible apply Frame.app (k := atTime_frame)
    | with_reducible apply Frame.trans (k := runCmd_frame ?_ ?_)
    | with_reducible apply Frame.trans (k := checked8_frame ?_ ?_)
    | with_reducible apply Frame.app (k := leaveStart_frame)
    | with_reducible apply Frames.next
    | dsimp only
    | split
    | intro _

theorem execSysSetState_frame {a0 a1 a2 s3} : Frames [.sys, .trg, .sve, .prt, .trp, .cyc, .spd, .tbs, .rtc, .mac, .red, .swc, .vfm, .mbx, .cmd, .evr, .pwr, .now, .out] s3 (execSysSetState a0 a1 a2 s3) := by
  unfold execSysSetState
  repeat' first
    | with_reducible exact Frame.refl _ _
    | exact rfl
    | with_reducible apply Frames.ite
    | with_reducible apply Frame.app (k := atTime_frame)
    | with_reducible apply Frame.trans (k := runCmd_frame ?_ ?_)
    | with_reducible apply Frame.trans (k := checked8_frame ?_ ?_)
    | with_reducible apply Frame.app (k := leaveStart_frame)
    | with_reducible apply Frame.app (k := refuseBudget_frame)
    | with_reducible apply Frame.app (k := reply_frame)
    | with_reducible apply Frame.app (k := enterService_frame)
    | with_reducible apply Frame.app (k := admitStore_frame)
    | with_reducible apply Frames.next
    | dsimp only
    | split
    | intro _

theorem execTripRowRelease_frame {a0 a1 s2} : Frames [.sys, .trg, .sve, .prt, .trp, .cyc, .tbs, .rtc, .mac, .red, .swc, .vfm, .mbx, .cmd, .evr, .pwr, .now, .out] s2 (execTripRowRelease a0 a1 s2) := by
  unfold execTripRowRelease
  repeat' first
    | with_reducible exact Frame.refl _ _
    | exact rfl
    | with_reducible apply Frames.ite
    | with_reducible apply Frame.app (k := atTime_frame)
    | with_reducible apply Frame.app (k := leaveStep_frame)
    | with_reducible apply Frame.app (k := settle_frame)
    | with_reducible apply Frame.app (k := releaseRow_frame)
    | with_reducible apply Frames.next
    | dsimp only
    | split
    | intro _

theorem execTaskCycleCommit_frame {a0 a1 s2} : Frames [.sys, .trg, .sve, .prt, .trp, .cyc, .tbs, .rtc, .mac, .red, .swc, .vfm, .mbx, .cmd, .evr, .pwr, .now, .out] s2 (execTaskCycleCommit a0 a1 s2) := by
  unfold execTaskCycleCommit
  repeat' first
    | with_reducible exact Frame.refl _ _
    | exact rfl
    | with_reducible apply Frames.ite
    | with_reducible apply Frame.app (k := atTime_frame)
    | with_reducible apply Frame.app (k := lTasksDue_frame)
    | with_reducible apply Frame.app (k := leaveStep_frame)
    | with_reducible apply Frame.app (k := settle_frame)
    | with_reducible apply Frame.app (k := cycleBoundary_frame)
    | with_reducible apply Frame.app (k := commitCycle_frame)
    | with_reducible apply Frames.next
    | dsimp only
    | split
    | intro _

theorem execNativeCallAbort_frame {a0 a1 a2 a3 s4} : Frames [.cyc, .evr, .now, .out] s4 (execNativeCallAbort a0 a1 a2 a3 s4) := by
  unfold execNativeCallAbort
  repeat' first
    | with_reducible exact Frame.refl _ _
    | exact rfl
    | with_reducible apply Frames.ite
    | with_reducible apply Frame.app (k := atTime_frame)
    | with_reducible apply Frame.app (k := evBy_frame)
    | with_reducible apply Frame.app (k := modTask_frame)
    | with_reducible apply Frame.app (k := taskRun_frame)
    | with_reducible apply Frames.next
    | simp (disch := decide) only [↓Frame.of_set_cyc]
    | split
    | intro _

end Sys2Proof.Machine
end

