-- ==== Sys2Proof/Laws/RegFrame.lean ====
section
/-! SUPPORT. Frames of registers: which fields reading or writing a register may change. -/

namespace Sys2Proof.Machine

/-- Reading and writing the register change only fields in m. -/
structure Reg.Fits (m : List Block) (r : Reg) : Prop where
  clear : ∀ s, Frame m s (r.clear s)
  read : ∀ x, r.read = some x → ∀ t o b s, Frames m s (x t o b s)
  set : ∀ t o b v s, Frames m s (r.set t o b v s)

/-- The register, when there is one, changes only fields in m. -/
structure Fits (m : List Block) (o : Option Reg) : Prop where
  reg : ∀ r, o = some r → r.Fits m

theorem Frames.mono {l m : List Block} {s : State} {r : Res} (h : Frames l s r) (hm : subs l m = true) : Frames m s r :=
  let ⟨u, hu, k⟩ := h.after
  ⟨⟨u, hu, k.mono hm⟩⟩

theorem Reg.Fits.mono {l m : List Block} {r : Reg} (h : r.Fits l) (hm : subs l m = true) : r.Fits m :=
  ⟨fun s => (h.clear s).mono hm, fun x hx t o b s => (h.read x hx t o b s).mono hm, fun t o b v s => (h.set t o b v s).mono hm⟩

theorem Reg.Fits.read_none {m : List Block} :
    ∀ x, (none : Option (Nat → Nat → Master → State → Res)) = some x → ∀ t o b s, Frames m s (x t o b s) := nofun

theorem Reg.Fits.read_some {m : List Block} {f : Nat → Nat → Master → State → Res} (h : ∀ t o b s, Frames m s (f t o b s)) :
    ∀ x, some f = some x → ∀ t o b s, Frames m s (x t o b s) := fun x hx => by cases hx; exact h

variable {m : List Block} {g : State → Word}

theorem Reg.Fits.ro : (Reg.ro g).Fits m := ⟨.refl m, read_none, fun _ _ _ _ s => .next (.refl m s)⟩

theorem Reg.Fits.rc {c : State → State} (h : ∀ s, Frame m s (c s)) : (Reg.rc g c).Fits m :=
  ⟨h, read_none, fun _ _ _ _ s => .next (.refl m s)⟩

theorem Reg.Fits.rw {f : Word → State → State} (h : ∀ v s, Frame m s (f v s)) : (Reg.rw g f).Fits m :=
  ⟨.refl m, read_none, fun _ _ _ v s => .next (h v s)⟩

theorem Reg.Fits.cfg {f : Word → State → State} (hm : subs [.sys, .cmd, .evr] m = true) (h : ∀ v s, Frame m s (f v s)) : (Reg.cfg g f).Fits m :=
  ⟨.refl m, read_none, fun _ _ _ v _ => .next (cfgWrite_frame hm (h v))⟩

theorem Reg.Fits.act {x : Nat → Master → Word → State → Res} (h : ∀ t b v s, Frames m s (x t b v s)) : (Reg.act g x).Fits m :=
  ⟨.refl m, read_none, fun t _ b v s => h t b v s⟩

theorem Reg.Fits.actAt {x : Nat → Nat → Master → Word → State → Res} (h : ∀ t o b v s, Frames m s (x t o b v s)) : (Reg.actAt g x).Fits m :=
  ⟨.refl m, read_none, h⟩

theorem Reg.Fits.onRead {x : Nat → Master → State → Res} (h : ∀ t b s, Frames m s (x t b s)) : (Reg.onRead x).Fits m :=
  ⟨.refl m, read_some fun t _ b s => h t b s, fun _ _ _ _ s => .next (.refl m s)⟩

theorem Reg.Fits.wo {x : Nat → Master → Word → State → Res} (h : ∀ t b v s, Frames m s (x t b v s)) : (Reg.wo x).Fits m := .act h

theorem Reg.Fits.lo {f : State → Nat} {c : State → State} (h : ∀ s, Frame m s (c s)) : (Reg.lo f c).Fits m :=
  ⟨h, read_none, fun _ _ _ _ s => .next (.refl m s)⟩

theorem Reg.Fits.hiOf {o : Nat} : (Reg.hiOf o).Fits m := .ro

theorem Fits.mono {l : List Block} {o : Option Reg} (h : Fits l o) (hm : subs l m = true) : Fits m o := ⟨fun r hr => (h.reg r hr).mono hm⟩

theorem Fits.none : Fits m none := ⟨nofun⟩

theorem Fits.some {r : Reg} (h : r.Fits m) : Fits m (some r) := ⟨fun _ hr => by cases hr; exact h⟩

theorem Fits.ite {c : Prop} [Decidable c] {a b : Option Reg} (h : Fits m a) (k : Fits m b) : Fits m (if c then a else b) := by
  split <;> assumption

theorem Fits.first_nil : Fits m (firstReg []) := .none

theorem Fits.first_cons {a : Option Reg} {l : List (Option Reg)} (h : Fits m a) (k : Fits m (firstReg l)) : Fits m (firstReg (a :: l)) := by
  cases a with
  | none => exact k
  | some r => exact h

theorem Fits.pick_nil {o : Nat} : Fits m (pick o []) := .none

theorem Fits.pick_cons {o k : Nat} {r : Reg} {l : List (Nat × Reg)} (h : r.Fits m) (hl : Fits m (pick o l)) : Fits m (pick o ((k, r) :: l)) := by
  unfold pick
  split
  · exact .some h
  · exact hl

theorem Fits.arrReg {o b d n : Nat} {f : Nat → Reg} (h : ∀ i, (f i).Fits m) : Fits m (arrReg o b d n f) := by
  unfold Machine.arrReg
  cases arr o b d n with
  | none => exact .none
  | some i => exact .some (h i)

theorem Fits.winReg {o b d n : Nat} {f : Nat → Nat → Option Reg} (h : ∀ i k, Fits m (f i k)) : Fits m (winReg o b d n f) := by
  unfold Machine.winReg
  split
  · exact h _ _
  · exact .none

end Sys2Proof.Machine
end

