-- ==== Sys2Proof/Laws/Frames/RegsHost.lean ====
section
/-! SUPPORT. What each operation of Machine/RegsHost.lean may change. -/

namespace Sys2Proof.Machine

theorem commandReg_frame {a0} : Reg.Fits [.vfm] (commandReg a0) := by
  unfold commandReg
  repeat' first
    | with_reducible exact Frame.refl _ _
    | exact rfl
    | with_reducible apply Fits.ite
    | with_reducible apply Frame.app (k := modVfm_frame)
    | with_reducible apply Frame.app (k := modVf_frame)
    | with_reducible apply Frames.next
    | simp only [id_eq]
    | split
    | with_reducible apply Reg.Fits.ro
    | with_reducible apply Reg.Fits.hiOf
    | with_reducible apply Reg.Fits.rc
    | with_reducible apply Reg.Fits.rw
    | with_reducible apply Reg.Fits.cfg
    | with_reducible apply Reg.Fits.act
    | with_reducible apply Reg.Fits.wo
    | with_reducible apply Reg.Fits.lo
    | with_reducible apply Fits.pick_cons
    | with_reducible apply Fits.pick_nil
    | with_reducible apply Fits.first_cons
    | with_reducible apply Fits.first_nil
    | with_reducible apply Fits.arrReg
    | with_reducible apply Fits.winReg
    | with_reducible apply Fits.some
    | with_reducible apply Fits.none
    | with_reducible apply Reg.Fits.actAt
    | with_reducible apply Reg.Fits.onRead
    | intro _

theorem capHead_frame {a0 a1 a2} : Reg.Fits [] (capHead a0 a1 a2) := by
  unfold capHead
  repeat' first
    | with_reducible exact Frame.refl _ _
    | exact rfl
    | with_reducible apply Frames.next
    | simp only [id_eq]
    | split
    | with_reducible apply Reg.Fits.ro
    | with_reducible apply Reg.Fits.hiOf
    | with_reducible apply Reg.Fits.rc
    | with_reducible apply Reg.Fits.rw
    | with_reducible apply Reg.Fits.cfg
    | with_reducible apply Reg.Fits.act
    | with_reducible apply Reg.Fits.wo
    | with_reducible apply Reg.Fits.lo
    | with_reducible apply Fits.pick_cons
    | with_reducible apply Fits.pick_nil
    | with_reducible apply Fits.first_cons
    | with_reducible apply Fits.first_nil
    | with_reducible apply Fits.arrReg
    | with_reducible apply Fits.winReg
    | with_reducible apply Fits.some
    | with_reducible apply Fits.none
    | with_reducible apply Reg.Fits.actAt
    | with_reducible apply Reg.Fits.onRead
    | intro _

theorem pciWord_frame {a0 a1} : Reg.Fits [.vfm] (pciWord a0 a1) := by
  unfold pciWord
  repeat' first
    | with_reducible exact Frame.refl _ _
    | exact rfl
    | with_reducible apply Frame.app (k := modVfm_frame)
    | with_reducible apply Frames.next
    | simp only [id_eq]
    | split
    | with_reducible apply Reg.Fits.ro
    | with_reducible apply Reg.Fits.hiOf
    | with_reducible apply Reg.Fits.rc
    | with_reducible apply Reg.Fits.rw
    | with_reducible apply Reg.Fits.cfg
    | with_reducible apply Reg.Fits.act
    | with_reducible apply Reg.Fits.wo
    | with_reducible apply Reg.Fits.lo
    | with_reducible apply Fits.pick_cons
    | with_reducible apply Fits.pick_nil
    | with_reducible apply Fits.first_cons
    | with_reducible apply Fits.first_nil
    | with_reducible apply Fits.arrReg
    | with_reducible apply Fits.winReg
    | with_reducible apply Fits.some
    | with_reducible apply Fits.none
    | with_reducible apply Reg.Fits.actAt
    | with_reducible apply Reg.Fits.onRead
    | intro _

theorem devCtl_frame {a0} : Reg.Fits [.trg, .sve, .trp, .cyc, .tbs, .mac, .red, .swc, .vfm, .mbx, .cmd, .evr, .now, .out] (devCtl a0) := by
  unfold devCtl
  repeat' first
    | with_reducible exact Frame.refl _ _
    | exact rfl
    | with_reducible apply Fits.ite
    | with_reducible apply Reg.Fits.mono (h := pciWord_frame)
    | with_reducible apply Frame.app (k := modVfm_frame)
    | with_reducible apply Frames.ofState (k := execPfFlr_frame)
    | with_reducible apply Frames.ofState (k := execVfFlr_frame)
    | with_reducible apply Frames.next
    | simp only [id_eq]
    | split
    | with_reducible apply Reg.Fits.ro
    | with_reducible apply Reg.Fits.hiOf
    | with_reducible apply Reg.Fits.rc
    | with_reducible apply Reg.Fits.rw
    | with_reducible apply Reg.Fits.cfg
    | with_reducible apply Reg.Fits.act
    | with_reducible apply Reg.Fits.wo
    | with_reducible apply Reg.Fits.lo
    | with_reducible apply Fits.pick_cons
    | with_reducible apply Fits.pick_nil
    | with_reducible apply Fits.first_cons
    | with_reducible apply Fits.first_nil
    | with_reducible apply Fits.arrReg
    | with_reducible apply Fits.winReg
    | with_reducible apply Fits.some
    | with_reducible apply Fits.none
    | with_reducible apply Reg.Fits.actAt
    | with_reducible apply Reg.Fits.onRead
    | intro _

theorem extHead_frame {a0 a1} : Reg.Fits [] (extHead a0 a1) := by
  unfold extHead
  repeat' first
    | with_reducible exact Frame.refl _ _
    | exact rfl
    | with_reducible apply Frames.next
    | simp only [id_eq]
    | split
    | with_reducible apply Reg.Fits.ro
    | with_reducible apply Reg.Fits.hiOf
    | with_reducible apply Reg.Fits.rc
    | with_reducible apply Reg.Fits.rw
    | with_reducible apply Reg.Fits.cfg
    | with_reducible apply Reg.Fits.act
    | with_reducible apply Reg.Fits.wo
    | with_reducible apply Reg.Fits.lo
    | with_reducible apply Fits.pick_cons
    | with_reducible apply Fits.pick_nil
    | with_reducible apply Fits.first_cons
    | with_reducible apply Fits.first_nil
    | with_reducible apply Fits.arrReg
    | with_reducible apply Fits.winReg
    | with_reducible apply Fits.some
    | with_reducible apply Fits.none
    | with_reducible apply Reg.Fits.actAt
    | with_reducible apply Reg.Fits.onRead
    | intro _

theorem barReg_frame {a0 a1 a2 a3} : Reg.Fits [.vfm] (barReg a0 a1 a2 a3) := by
  unfold barReg
  repeat' first
    | with_reducible exact Frame.refl _ _
    | exact rfl
    | with_reducible apply Frame.app (k := modVfm_frame)
    | with_reducible apply Frames.next
    | simp only [id_eq]
    | split
    | with_reducible apply Reg.Fits.ro
    | with_reducible apply Reg.Fits.hiOf
    | with_reducible apply Reg.Fits.rc
    | with_reducible apply Reg.Fits.rw
    | with_reducible apply Reg.Fits.cfg
    | with_reducible apply Reg.Fits.act
    | with_reducible apply Reg.Fits.wo
    | with_reducible apply Reg.Fits.lo
    | with_reducible apply Fits.pick_cons
    | with_reducible apply Fits.pick_nil
    | with_reducible apply Fits.first_cons
    | with_reducible apply Fits.first_nil
    | with_reducible apply Fits.arrReg
    | with_reducible apply Fits.winReg
    | with_reducible apply Fits.some
    | with_reducible apply Fits.none
    | with_reducible apply Reg.Fits.actAt
    | with_reducible apply Reg.Fits.onRead
    | intro _

theorem sriovCtl_frame : Reg.Fits [.trg, .sve, .trp, .cyc, .tbs, .mac, .red, .swc, .vfm, .mbx, .evr, .now, .out] (sriovCtl ) := by
  unfold sriovCtl
  repeat' first
    | with_reducible exact Frame.refl _ _
    | exact rfl
    | with_reducible apply Frames.ofState (k := execVfEnableWrite_frame)
    | with_reducible apply Frames.next
    | simp only [id_eq]
    | split
    | with_reducible apply Reg.Fits.ro
    | with_reducible apply Reg.Fits.hiOf
    | with_reducible apply Reg.Fits.rc
    | with_reducible apply Reg.Fits.rw
    | with_reducible apply Reg.Fits.cfg
    | with_reducible apply Reg.Fits.act
    | with_reducible apply Reg.Fits.wo
    | with_reducible apply Reg.Fits.lo
    | with_reducible apply Fits.pick_cons
    | with_reducible apply Fits.pick_nil
    | with_reducible apply Fits.first_cons
    | with_reducible apply Fits.first_nil
    | with_reducible apply Fits.arrReg
    | with_reducible apply Fits.winReg
    | with_reducible apply Fits.some
    | with_reducible apply Fits.none
    | with_reducible apply Reg.Fits.actAt
    | with_reducible apply Reg.Fits.onRead
    | intro _

theorem numVfsReg_frame : Reg.Fits [.vfm] (numVfsReg ) := by
  unfold numVfsReg
  repeat' first
    | with_reducible exact Frame.refl _ _
    | exact rfl
    | with_reducible apply Fits.ite
    | with_reducible apply Frame.app (k := modVfm_frame)
    | with_reducible apply Frames.next
    | simp only [id_eq]
    | split
    | with_reducible apply Reg.Fits.ro
    | with_reducible apply Reg.Fits.hiOf
    | with_reducible apply Reg.Fits.rc
    | with_reducible apply Reg.Fits.rw
    | with_reducible apply Reg.Fits.cfg
    | with_reducible apply Reg.Fits.act
    | with_reducible apply Reg.Fits.wo
    | with_reducible apply Reg.Fits.lo
    | with_reducible apply Fits.pick_cons
    | with_reducible apply Fits.pick_nil
    | with_reducible apply Fits.first_cons
    | with_reducible apply Fits.first_nil
    | with_reducible apply Fits.arrReg
    | with_reducible apply Fits.winReg
    | with_reducible apply Fits.some
    | with_reducible apply Fits.none
    | with_reducible apply Reg.Fits.actAt
    | with_reducible apply Reg.Fits.onRead
    | intro _

theorem cfgSpaceReg_frame {a0 a1} : Fits [.trg, .sve, .trp, .cyc, .tbs, .mac, .red, .swc, .vfm, .mbx, .cmd, .evr, .now, .out] (cfgSpaceReg a0 a1) := by
  unfold cfgSpaceReg
  repeat' first
    | with_reducible exact Frame.refl _ _
    | exact rfl
    | with_reducible apply Fits.ite
    | with_reducible apply Reg.Fits.mono (h := commandReg_frame)
    | with_reducible apply Reg.Fits.mono (h := capHead_frame)
    | with_reducible apply Reg.Fits.mono (h := devCtl_frame)
    | with_reducible apply Frame.app (k := modVfm_frame)
    | with_reducible apply Reg.Fits.mono (h := extHead_frame)
    | with_reducible apply Reg.Fits.mono (h := barReg_frame)
    | with_reducible apply Reg.Fits.mono (h := pciWord_frame)
    | with_reducible apply Frames.ofState (k := execPfPowerStateChange_frame)
    | with_reducible apply Reg.Fits.mono (h := sriovCtl_frame)
    | with_reducible apply Reg.Fits.mono (h := numVfsReg_frame)
    | with_reducible apply Frames.next
    | simp only [id_eq]
    | split
    | with_reducible apply Reg.Fits.ro
    | with_reducible apply Reg.Fits.hiOf
    | with_reducible apply Reg.Fits.rc
    | with_reducible apply Reg.Fits.rw
    | with_reducible apply Reg.Fits.cfg
    | with_reducible apply Reg.Fits.act
    | with_reducible apply Reg.Fits.wo
    | with_reducible apply Reg.Fits.lo
    | with_reducible apply Fits.pick_cons
    | with_reducible apply Fits.pick_nil
    | with_reducible apply Fits.first_cons
    | with_reducible apply Fits.first_nil
    | with_reducible apply Fits.arrReg
    | with_reducible apply Fits.winReg
    | with_reducible apply Fits.some
    | with_reducible apply Fits.none
    | with_reducible apply Reg.Fits.actAt
    | with_reducible apply Reg.Fits.onRead
    | intro _

theorem pmbReg_frame {a0 a1} : Fits [.mbx, .evr, .now, .out] (pmbReg a0 a1) := by
  unfold pmbReg
  repeat' first
    | with_reducible exact Frame.refl _ _
    | exact rfl
    | with_reducible apply Fits.ite
    | with_reducible apply Frame.app (k := modMbx_frame)
    | with_reducible apply Frames.ofState (k := execPmbPost_frame)
    | with_reducible apply Frames.ofState (k := execPmbReplyRead_frame)
    | with_reducible apply Frames.next
    | simp only [id_eq]
    | split
    | with_reducible apply Reg.Fits.ro
    | with_reducible apply Reg.Fits.hiOf
    | with_reducible apply Reg.Fits.rc
    | with_reducible apply Reg.Fits.rw
    | with_reducible apply Reg.Fits.cfg
    | with_reducible apply Reg.Fits.act
    | with_reducible apply Reg.Fits.wo
    | with_reducible apply Reg.Fits.lo
    | with_reducible apply Fits.pick_cons
    | with_reducible apply Fits.pick_nil
    | with_reducible apply Fits.first_cons
    | with_reducible apply Fits.first_nil
    | with_reducible apply Fits.arrReg
    | with_reducible apply Fits.winReg
    | with_reducible apply Fits.some
    | with_reducible apply Fits.none
    | with_reducible apply Reg.Fits.actAt
    | with_reducible apply Reg.Fits.onRead
    | intro _

theorem coreSlotReg_frame {a0 a1} : Fits [.sys, .mbx, .evr, .now, .out] (coreSlotReg a0 a1) := by
  unfold coreSlotReg
  repeat' first
    | with_reducible exact Frame.refl _ _
    | exact rfl
    | with_reducible apply Frames.ofState (k := execMbxCoreDataRead_frame)
    | with_reducible apply Frames.next
    | simp only [id_eq]
    | split
    | with_reducible apply Reg.Fits.ro
    | with_reducible apply Reg.Fits.hiOf
    | with_reducible apply Reg.Fits.rc
    | with_reducible apply Reg.Fits.rw
    | with_reducible apply Reg.Fits.cfg
    | with_reducible apply Reg.Fits.act
    | with_reducible apply Reg.Fits.wo
    | with_reducible apply Reg.Fits.lo
    | with_reducible apply Fits.pick_cons
    | with_reducible apply Fits.pick_nil
    | with_reducible apply Fits.first_cons
    | with_reducible apply Fits.first_nil
    | with_reducible apply Fits.arrReg
    | with_reducible apply Fits.winReg
    | with_reducible apply Fits.some
    | with_reducible apply Fits.none
    | with_reducible apply Reg.Fits.actAt
    | with_reducible apply Reg.Fits.onRead
    | intro _

theorem corePostReg_frame {a0 a1} : Fits [.sys, .mbx, .evr, .now, .out] (corePostReg a0 a1) := by
  unfold corePostReg
  repeat' first
    | with_reducible exact Frame.refl _ _
    | exact rfl
    | with_reducible apply Frames.ofState (k := execMbxCorePost_frame)
    | with_reducible apply Frames.next
    | simp only [id_eq]
    | split
    | with_reducible apply Reg.Fits.ro
    | with_reducible apply Reg.Fits.hiOf
    | with_reducible apply Reg.Fits.rc
    | with_reducible apply Reg.Fits.rw
    | with_reducible apply Reg.Fits.cfg
    | with_reducible apply Reg.Fits.act
    | with_reducible apply Reg.Fits.wo
    | with_reducible apply Reg.Fits.lo
    | with_reducible apply Fits.pick_cons
    | with_reducible apply Fits.pick_nil
    | with_reducible apply Fits.first_cons
    | with_reducible apply Fits.first_nil
    | with_reducible apply Fits.arrReg
    | with_reducible apply Fits.winReg
    | with_reducible apply Fits.some
    | with_reducible apply Fits.none
    | with_reducible apply Reg.Fits.actAt
    | with_reducible apply Reg.Fits.onRead
    | intro _

theorem vfMailReg_frame {a0 a1} : Fits [.mbx, .evr, .now, .out] (vfMailReg a0 a1) := by
  unfold vfMailReg
  repeat' first
    | with_reducible exact Frame.refl _ _
    | exact rfl
    | with_reducible apply Frames.ofState (k := execMbxVfRxDataRead_frame)
    | with_reducible apply Frames.ofState (k := execMbxVfTxPost_frame)
    | with_reducible apply Frames.next
    | simp only [id_eq]
    | split
    | with_reducible apply Reg.Fits.ro
    | with_reducible apply Reg.Fits.hiOf
    | with_reducible apply Reg.Fits.rc
    | with_reducible apply Reg.Fits.rw
    | with_reducible apply Reg.Fits.cfg
    | with_reducible apply Reg.Fits.act
    | with_reducible apply Reg.Fits.wo
    | with_reducible apply Reg.Fits.lo
    | with_reducible apply Fits.pick_cons
    | with_reducible apply Fits.pick_nil
    | with_reducible apply Fits.first_cons
    | with_reducible apply Fits.first_nil
    | with_reducible apply Fits.arrReg
    | with_reducible apply Fits.winReg
    | with_reducible apply Fits.some
    | with_reducible apply Fits.none
    | with_reducible apply Reg.Fits.actAt
    | with_reducible apply Reg.Fits.onRead
    | intro _

theorem mbxReg_frame {a0} : Fits [.sys, .mbx, .evr, .now, .out] (mbxReg a0) := by
  unfold mbxReg
  repeat' first
    | with_reducible exact Frame.refl _ _
    | exact rfl
    | with_reducible apply Frame.app (k := modMbx_frame)
    | with_reducible apply Frames.ofState (k := execSemRelease_frame)
    | with_reducible apply Fits.mono (h := pmbReg_frame)
    | with_reducible apply Fits.mono (h := coreSlotReg_frame)
    | with_reducible apply Fits.mono (h := corePostReg_frame)
    | with_reducible apply Fits.mono (h := vfMailReg_frame)
    | with_reducible apply Frames.next
    | simp only [id_eq]
    | split
    | with_reducible apply Reg.Fits.ro
    | with_reducible apply Reg.Fits.hiOf
    | with_reducible apply Reg.Fits.rc
    | with_reducible apply Reg.Fits.rw
    | with_reducible apply Reg.Fits.cfg
    | with_reducible apply Reg.Fits.act
    | with_reducible apply Reg.Fits.wo
    | with_reducible apply Reg.Fits.lo
    | with_reducible apply Fits.pick_cons
    | with_reducible apply Fits.pick_nil
    | with_reducible apply Fits.first_cons
    | with_reducible apply Fits.first_nil
    | with_reducible apply Fits.arrReg
    | with_reducible apply Fits.winReg
    | with_reducible apply Fits.some
    | with_reducible apply Fits.none
    | with_reducible apply Reg.Fits.actAt
    | with_reducible apply Reg.Fits.onRead
    | intro _

theorem ringIdle_frame {a0 a1 a2} : Reg.Fits [.vfm] (ringIdle a0 a1 a2) := by
  unfold ringIdle
  repeat' first
    | with_reducible exact Frame.refl _ _
    | exact rfl
    | with_reducible apply Fits.ite
    | with_reducible apply Frame.app (k := modRing_frame)
    | with_reducible apply Frames.next
    | simp only [id_eq]
    | split
    | with_reducible apply Reg.Fits.ro
    | with_reducible apply Reg.Fits.hiOf
    | with_reducible apply Reg.Fits.rc
    | with_reducible apply Reg.Fits.rw
    | with_reducible apply Reg.Fits.cfg
    | with_reducible apply Reg.Fits.act
    | with_reducible apply Reg.Fits.wo
    | with_reducible apply Reg.Fits.lo
    | with_reducible apply Fits.pick_cons
    | with_reducible apply Fits.pick_nil
    | with_reducible apply Fits.first_cons
    | with_reducible apply Fits.first_nil
    | with_reducible apply Fits.arrReg
    | with_reducible apply Fits.winReg
    | with_reducible apply Fits.some
    | with_reducible apply Fits.none
    | with_reducible apply Reg.Fits.actAt
    | with_reducible apply Reg.Fits.onRead
    | intro _

theorem cmdRc_frame {a0 a1} : Reg.Fits [.cmd] (cmdRc a0 a1) := by
  unfold cmdRc
  repeat' first
    | with_reducible exact Frame.refl _ _
    | exact rfl
    | with_reducible apply Frame.app (k := modCmd_frame)
    | with_reducible apply Frames.next
    | simp only [id_eq]
    | split
    | with_reducible apply Reg.Fits.ro
    | with_reducible apply Reg.Fits.hiOf
    | with_reducible apply Reg.Fits.rc
    | with_reducible apply Reg.Fits.rw
    | with_reducible apply Reg.Fits.cfg
    | with_reducible apply Reg.Fits.act
    | with_reducible apply Reg.Fits.wo
    | with_reducible apply Reg.Fits.lo
    | with_reducible apply Fits.pick_cons
    | with_reducible apply Fits.pick_nil
    | with_reducible apply Fits.first_cons
    | with_reducible apply Fits.first_nil
    | with_reducible apply Fits.arrReg
    | with_reducible apply Fits.winReg
    | with_reducible apply Fits.some
    | with_reducible apply Fits.none
    | with_reducible apply Reg.Fits.actAt
    | with_reducible apply Reg.Fits.onRead
    | intro _

theorem vfRc_frame {a0 a1 a2} : Reg.Fits [.vfm] (vfRc a0 a1 a2) := by
  unfold vfRc
  repeat' first
    | with_reducible exact Frame.refl _ _
    | exact rfl
    | with_reducible apply Frame.app (k := modVf_frame)
    | with_reducible apply Frames.next
    | simp only [id_eq]
    | split
    | with_reducible apply Reg.Fits.ro
    | with_reducible apply Reg.Fits.hiOf
    | with_reducible apply Reg.Fits.rc
    | with_reducible apply Reg.Fits.rw
    | with_reducible apply Reg.Fits.cfg
    | with_reducible apply Reg.Fits.act
    | with_reducible apply Reg.Fits.wo
    | with_reducible apply Reg.Fits.lo
    | with_reducible apply Fits.pick_cons
    | with_reducible apply Fits.pick_nil
    | with_reducible apply Fits.first_cons
    | with_reducible apply Fits.first_nil
    | with_reducible apply Fits.arrReg
    | with_reducible apply Fits.winReg
    | with_reducible apply Fits.some
    | with_reducible apply Fits.none
    | with_reducible apply Reg.Fits.actAt
    | with_reducible apply Reg.Fits.onRead
    | intro _

theorem ringReg_frame {a0 a1} : Fits [.vfm, .evr, .now, .out] (ringReg a0 a1) := by
  unfold ringReg
  repeat' first
    | with_reducible exact Frame.refl _ _
    | exact rfl
    | with_reducible apply Reg.Fits.mono (h := ringIdle_frame)
    | with_reducible apply Frames.ofState (k := execQCtlWrite_frame)
    | with_reducible apply Frame.app (k := modRing_frame)
    | with_reducible apply Frames.next
    | simp only [id_eq]
    | split
    | with_reducible apply Reg.Fits.ro
    | with_reducible apply Reg.Fits.hiOf
    | with_reducible apply Reg.Fits.rc
    | with_reducible apply Reg.Fits.rw
    | with_reducible apply Reg.Fits.cfg
    | with_reducible apply Reg.Fits.act
    | with_reducible apply Reg.Fits.wo
    | with_reducible apply Reg.Fits.lo
    | with_reducible apply Fits.pick_cons
    | with_reducible apply Fits.pick_nil
    | with_reducible apply Fits.first_cons
    | with_reducible apply Fits.first_nil
    | with_reducible apply Fits.arrReg
    | with_reducible apply Fits.winReg
    | with_reducible apply Fits.some
    | with_reducible apply Fits.none
    | with_reducible apply Reg.Fits.actAt
    | with_reducible apply Reg.Fits.onRead
    | intro _

theorem msixReg_frame {a0 a1 a2} : Fits [.vfm] (msixReg a0 a1 a2) := by
  unfold msixReg
  repeat' first
    | with_reducible exact Frame.refl _ _
    | exact rfl
    | with_reducible apply Fits.ite
    | with_reducible apply Reg.Fits.mono (h := pciWord_frame)
    | with_reducible apply Frames.next
    | simp only [id_eq]
    | split
    | with_reducible apply Reg.Fits.ro
    | with_reducible apply Reg.Fits.hiOf
    | with_reducible apply Reg.Fits.rc
    | with_reducible apply Reg.Fits.rw
    | with_reducible apply Reg.Fits.cfg
    | with_reducible apply Reg.Fits.act
    | with_reducible apply Reg.Fits.wo
    | with_reducible apply Reg.Fits.lo
    | with_reducible apply Fits.pick_cons
    | with_reducible apply Fits.pick_nil
    | with_reducible apply Fits.first_cons
    | with_reducible apply Fits.first_nil
    | with_reducible apply Fits.arrReg
    | with_reducible apply Fits.winReg
    | with_reducible apply Fits.some
    | with_reducible apply Fits.none
    | with_reducible apply Reg.Fits.actAt
    | with_reducible apply Reg.Fits.onRead
    | intro _

theorem vfBarReg_frame {a0 a1} : Fits [.trg, .sve, .trp, .cyc, .tbs, .mac, .red, .swc, .vfm, .mbx, .evr, .now, .out] (vfBarReg a0 a1) := by
  unfold vfBarReg
  repeat' first
    | with_reducible exact Frame.refl _ _
    | exact rfl
    | with_reducible apply Frames.ofState (k := execVfVreqSet_frame)
    | with_reducible apply Frames.ofState (k := execVfVreqClr_frame)
    | with_reducible apply Reg.Fits.mono (h := vfRc_frame)
    | with_reducible apply Frames.ofState (k := execMbRxDataRead_frame)
    | with_reducible apply Frames.ofState (k := execMbTxPost_frame)
    | with_reducible apply Frame.app (k := modMbx_frame)
    | with_reducible apply Frames.ofState (k := execDoorbellRx_frame)
    | with_reducible apply Frames.ofState (k := execDoorbellTx_frame)
    | with_reducible apply Fits.mono (h := ringReg_frame)
    | with_reducible apply Fits.mono (h := msixReg_frame)
    | with_reducible apply Frames.next
    | simp only [id_eq]
    | split
    | with_reducible apply Reg.Fits.ro
    | with_reducible apply Reg.Fits.hiOf
    | with_reducible apply Reg.Fits.rc
    | with_reducible apply Reg.Fits.rw
    | with_reducible apply Reg.Fits.cfg
    | with_reducible apply Reg.Fits.act
    | with_reducible apply Reg.Fits.wo
    | with_reducible apply Reg.Fits.lo
    | with_reducible apply Fits.pick_cons
    | with_reducible apply Fits.pick_nil
    | with_reducible apply Fits.first_cons
    | with_reducible apply Fits.first_nil
    | with_reducible apply Fits.arrReg
    | with_reducible apply Fits.winReg
    | with_reducible apply Fits.some
    | with_reducible apply Fits.none
    | with_reducible apply Reg.Fits.actAt
    | with_reducible apply Reg.Fits.onRead
    | intro _

theorem vfCfgReg_frame {a0 a1} : Fits [] (vfCfgReg a0 a1) := by
  unfold vfCfgReg
  repeat' first
    | with_reducible exact Frame.refl _ _
    | exact rfl
    | with_reducible apply Frames.next
    | simp only [id_eq]
    | split
    | with_reducible apply Reg.Fits.ro
    | with_reducible apply Reg.Fits.hiOf
    | with_reducible apply Reg.Fits.rc
    | with_reducible apply Reg.Fits.rw
    | with_reducible apply Reg.Fits.cfg
    | with_reducible apply Reg.Fits.act
    | with_reducible apply Reg.Fits.wo
    | with_reducible apply Reg.Fits.lo
    | with_reducible apply Fits.pick_cons
    | with_reducible apply Fits.pick_nil
    | with_reducible apply Fits.first_cons
    | with_reducible apply Fits.first_nil
    | with_reducible apply Fits.arrReg
    | with_reducible apply Fits.winReg
    | with_reducible apply Fits.some
    | with_reducible apply Fits.none
    | with_reducible apply Reg.Fits.actAt
    | with_reducible apply Reg.Fits.onRead
    | intro _

theorem vfmReg_frame {a0} : Fits [.vfm, .evr, .now, .out] (vfmReg a0) := by
  unfold vfmReg
  repeat' first
    | with_reducible exact Frame.refl _ _
    | exact rfl
    | with_reducible apply Frame.app (k := modVfm_frame)
    | with_reducible apply Fits.mono (h := ringReg_frame)
    | with_reducible apply Fits.mono (h := vfCfgReg_frame)
    | with_reducible apply Frames.next
    | simp only [id_eq]
    | split
    | with_reducible apply Reg.Fits.ro
    | with_reducible apply Reg.Fits.hiOf
    | with_reducible apply Reg.Fits.rc
    | with_reducible apply Reg.Fits.rw
    | with_reducible apply Reg.Fits.cfg
    | with_reducible apply Reg.Fits.act
    | with_reducible apply Reg.Fits.wo
    | with_reducible apply Reg.Fits.lo
    | with_reducible apply Fits.pick_cons
    | with_reducible apply Fits.pick_nil
    | with_reducible apply Fits.first_cons
    | with_reducible apply Fits.first_nil
    | with_reducible apply Fits.arrReg
    | with_reducible apply Fits.winReg
    | with_reducible apply Fits.some
    | with_reducible apply Fits.none
    | with_reducible apply Reg.Fits.actAt
    | with_reducible apply Reg.Fits.onRead
    | intro _

theorem modIp_frame {a0 a1 s2} : Frame [.cmd] s2 (modIp a0 a1 s2) := by
  unfold modIp
  repeat' first
    | with_reducible exact Frame.refl _ _
    | exact rfl
    | with_reducible apply Frame.app (k := modCmd_frame)
    | dsimp only
    | split
    | intro _

theorem ipReg_frame {a0 a1} : Fits [.sys, .cmd, .evr] (ipReg a0 a1) := by
  unfold ipReg
  repeat' first
    | with_reducible exact Frame.refl _ _
    | exact rfl
    | with_reducible apply Frame.app (k := modIp_frame)
    | with_reducible apply Frames.next
    | simp only [id_eq]
    | split
    | with_reducible apply Reg.Fits.ro
    | with_reducible apply Reg.Fits.hiOf
    | with_reducible apply Reg.Fits.rc
    | with_reducible apply Reg.Fits.rw
    | with_reducible apply Reg.Fits.cfg
    | with_reducible apply Reg.Fits.act
    | with_reducible apply Reg.Fits.wo
    | with_reducible apply Reg.Fits.lo
    | with_reducible apply Fits.pick_cons
    | with_reducible apply Fits.pick_nil
    | with_reducible apply Fits.first_cons
    | with_reducible apply Fits.first_nil
    | with_reducible apply Fits.arrReg
    | with_reducible apply Fits.winReg
    | with_reducible apply Fits.some
    | with_reducible apply Fits.none
    | with_reducible apply Reg.Fits.actAt
    | with_reducible apply Reg.Fits.onRead
    | intro _

theorem cmdReg_frame {a0} : Fits [.sys, .cmd, .evr] (cmdReg a0) := by
  unfold cmdReg
  repeat' first
    | with_reducible exact Frame.refl _ _
    | exact rfl
    | with_reducible apply Reg.Fits.mono (h := cmdRc_frame)
    | with_reducible apply Fits.mono (h := ipReg_frame)
    | with_reducible apply Frames.next
    | simp only [id_eq]
    | split
    | with_reducible apply Reg.Fits.ro
    | with_reducible apply Reg.Fits.hiOf
    | with_reducible apply Reg.Fits.rc
    | with_reducible apply Reg.Fits.rw
    | with_reducible apply Reg.Fits.cfg
    | with_reducible apply Reg.Fits.act
    | with_reducible apply Reg.Fits.wo
    | with_reducible apply Reg.Fits.lo
    | with_reducible apply Fits.pick_cons
    | with_reducible apply Fits.pick_nil
    | with_reducible apply Fits.first_cons
    | with_reducible apply Fits.first_nil
    | with_reducible apply Fits.arrReg
    | with_reducible apply Fits.winReg
    | with_reducible apply Fits.some
    | with_reducible apply Fits.none
    | with_reducible apply Reg.Fits.actAt
    | with_reducible apply Reg.Fits.onRead
    | intro _

theorem evrReg_frame {a0} : Fits [.sys, .evr, .now, .out] (evrReg a0) := by
  unfold evrReg
  repeat' first
    | with_reducible exact Frame.refl _ _
    | exact rfl
    | with_reducible apply Frame.app (k := modEvr_frame)
    | with_reducible apply Frames.ofState (k := execEvrRdSelect_frame)
    | with_reducible apply Frames.ofState (k := execEvrRdNext_frame)
    | with_reducible apply Frames.next
    | simp only [id_eq]
    | split
    | with_reducible apply Reg.Fits.ro
    | with_reducible apply Reg.Fits.hiOf
    | with_reducible apply Reg.Fits.rc
    | with_reducible apply Reg.Fits.rw
    | with_reducible apply Reg.Fits.cfg
    | with_reducible apply Reg.Fits.act
    | with_reducible apply Reg.Fits.wo
    | with_reducible apply Reg.Fits.lo
    | with_reducible apply Fits.pick_cons
    | with_reducible apply Fits.pick_nil
    | with_reducible apply Fits.first_cons
    | with_reducible apply Fits.first_nil
    | with_reducible apply Fits.arrReg
    | with_reducible apply Fits.winReg
    | with_reducible apply Fits.some
    | with_reducible apply Fits.none
    | with_reducible apply Reg.Fits.actAt
    | with_reducible apply Reg.Fits.onRead
    | intro _

theorem keyReg_frame {a0} : Fits [] (keyReg a0) := by
  unfold keyReg
  repeat' first
    | with_reducible exact Frame.refl _ _
    | exact rfl
    | with_reducible apply Frames.next
    | simp only [id_eq]
    | split
    | with_reducible apply Reg.Fits.ro
    | with_reducible apply Reg.Fits.hiOf
    | with_reducible apply Reg.Fits.rc
    | with_reducible apply Reg.Fits.rw
    | with_reducible apply Reg.Fits.cfg
    | with_reducible apply Reg.Fits.act
    | with_reducible apply Reg.Fits.wo
    | with_reducible apply Reg.Fits.lo
    | with_reducible apply Fits.pick_cons
    | with_reducible apply Fits.pick_nil
    | with_reducible apply Fits.first_cons
    | with_reducible apply Fits.first_nil
    | with_reducible apply Fits.arrReg
    | with_reducible apply Fits.winReg
    | with_reducible apply Fits.some
    | with_reducible apply Fits.none
    | with_reducible apply Reg.Fits.actAt
    | with_reducible apply Reg.Fits.onRead
    | intro _

end Sys2Proof.Machine
end

