-- ==== Sys2Proof/Laws/Frames/RegsIn.lean ====
section
/-! SUPPORT. What each operation of Machine/RegsIn.lean may change. -/

namespace Sys2Proof.Machine

theorem modSys_frame {a0 s1} : Frame [.sys] s1 (modSys a0 s1) := by
  unfold modSys
  repeat' first
    | with_reducible exact Frame.refl _ _
    | exact rfl
    | simp (disch := decide) only [↓Frame.of_set_sys]
    | split
    | intro _

theorem acqClamp_frame {a0 s1} : Frame [.acq] s1 (acqClamp a0 s1) := by
  unfold acqClamp
  repeat' first
    | with_reducible exact Frame.refl _ _
    | exact rfl
    | with_reducible apply Frame.app (k := modAcq_frame)
    | dsimp only
    | split
    | intro _

theorem ckCtlWrite_frame {a0 a1 s2} : Frame [.acq, .evr] s2 (ckCtlWrite a0 a1 s2) := by
  unfold ckCtlWrite
  repeat' first
    | with_reducible exact Frame.refl _ _
    | exact rfl
    | with_reducible apply Frame.ite
    | with_reducible apply Frame.app (k := acqClamp_frame)
    | with_reducible apply Frame.app (k := setCkCtl_frame)
    | with_reducible apply Frame.app (k := implMask_frame)
    | with_reducible apply Frame.app (k := seqWritten_frame)
    | dsimp only
    | split
    | intro _

theorem pwrCtlWrite_frame {a0 s1} : Frame [.pwr] s1 (pwrCtlWrite a0 s1) := by
  unfold pwrCtlWrite
  repeat' first
    | with_reducible exact Frame.refl _ _
    | exact rfl
    | with_reducible apply Frame.app (k := modPwr_frame)
    | dsimp only
    | split
    | intro _

theorem pwrReg_frame {a0} : Fits [.sys, .cmd, .evr, .pwr] (pwrReg a0) := by
  unfold pwrReg
  repeat' first
    | with_reducible exact Frame.refl _ _
    | exact rfl
    | with_reducible apply Frame.app (k := pwrCtlWrite_frame)
    | with_reducible apply Frame.app (k := modPwr_frame)
    | with_reducible apply Frame.app (k := ratedChanged_frame)
    | with_reducible apply Frames.next
    | simp only [id_eq]
    | split
    | with_reducible apply Reg.Fits.ro
    | with_reducible apply Reg.Fits.hiOf
    | with_reducible apply Reg.Fits.rc
    | with_reducible apply Reg.Fits.rw
    | with_reducible apply Reg.Fits.cfg
    | with_reducible apply Reg.Fits.act
    | with_reducible apply Reg.Fits.wo
    | with_reducible apply Reg.Fits.lo
    | with_reducible apply Fits.pick_cons
    | with_reducible apply Fits.pick_nil
    | with_reducible apply Fits.first_cons
    | with_reducible apply Fits.first_nil
    | with_reducible apply Fits.arrReg
    | with_reducible apply Fits.winReg
    | with_reducible apply Fits.some
    | with_reducible apply Fits.none
    | with_reducible apply Reg.Fits.actAt
    | with_reducible apply Reg.Fits.onRead
    | intro _

theorem modFs_frame {a0 a1 a2 s3} : Frame [.flt] s3 (modFs a0 a1 a2 s3) := by
  unfold modFs
  repeat' first
    | with_reducible exact Frame.refl _ _
    | exact rfl
    | with_reducible apply Frame.app (k := modFlt_frame)
    | dsimp only
    | split
    | intro _

theorem fsReg_frame {a0 a1 a2 a3} : Reg.Fits [.sys, .flt, .cmd, .evr] (fsReg a0 a1 a2 a3) := by
  unfold fsReg
  repeat' first
    | with_reducible exact Frame.refl _ _
    | exact rfl
    | with_reducible apply Fits.ite
    | with_reducible apply Frame.trans (k := cfgWrite_frame ?_ ?_)
    | with_reducible apply Frame.app (k := cfgErrEvent_frame)
    | with_reducible apply Frame.app (k := modFs_frame)
    | with_reducible apply Frames.next
    | simp only [id_eq]
    | split
    | with_reducible apply Reg.Fits.ro
    | with_reducible apply Reg.Fits.hiOf
    | with_reducible apply Reg.Fits.rc
    | with_reducible apply Reg.Fits.rw
    | with_reducible apply Reg.Fits.cfg
    | with_reducible apply Reg.Fits.act
    | with_reducible apply Reg.Fits.wo
    | with_reducible apply Reg.Fits.lo
    | with_reducible apply Fits.pick_cons
    | with_reducible apply Fits.pick_nil
    | with_reducible apply Fits.first_cons
    | with_reducible apply Fits.first_nil
    | with_reducible apply Fits.arrReg
    | with_reducible apply Fits.winReg
    | with_reducible apply Fits.some
    | with_reducible apply Fits.none
    | with_reducible apply Reg.Fits.actAt
    | with_reducible apply Reg.Fits.onRead
    | intro _

theorem flashReg_frame {a0 a1 a2} : Fits [.sys, .flt, .cmd, .evr] (flashReg a0 a1 a2) := by
  unfold flashReg
  repeat' first
    | with_reducible exact Frame.refl _ _
    | exact rfl
    | with_reducible apply Reg.Fits.mono (h := fsReg_frame)
    | with_reducible apply Frames.next
    | simp only [id_eq]
    | split
    | with_reducible apply Reg.Fits.ro
    | with_reducible apply Reg.Fits.hiOf
    | with_reducible apply Reg.Fits.rc
    | with_reducible apply Reg.Fits.rw
    | with_reducible apply Reg.Fits.cfg
    | with_reducible apply Reg.Fits.act
    | with_reducible apply Reg.Fits.wo
    | with_reducible apply Reg.Fits.lo
    | with_reducible apply Fits.pick_cons
    | with_reducible apply Fits.pick_nil
    | with_reducible apply Fits.first_cons
    | with_reducible apply Fits.first_nil
    | with_reducible apply Fits.arrReg
    | with_reducible apply Fits.winReg
    | with_reducible apply Fits.some
    | with_reducible apply Fits.none
    | with_reducible apply Reg.Fits.actAt
    | with_reducible apply Reg.Fits.onRead
    | intro _

theorem fltChReg_frame {a0 a1} : Fits [.sys, .flt, .cmd, .evr, .now, .out] (fltChReg a0 a1) := by
  unfold fltChReg
  repeat' first
    | with_reducible exact Frame.refl _ _
    | exact rfl
    | with_reducible apply Frames.ofState (k := execFltDcbFreezeWrite_frame)
    | with_reducible apply Frames.ofState (k := execFltScaleEofsWrite_frame)
    | with_reducible apply Frame.app (k := modFlt_frame)
    | with_reducible apply Frames.ofState (k := execFltDetClr_frame)
    | with_reducible apply Fits.mono (h := flashReg_frame)
    | with_reducible apply Frames.next
    | simp only [id_eq]
    | split
    | with_reducible apply Reg.Fits.ro
    | with_reducible apply Reg.Fits.hiOf
    | with_reducible apply Reg.Fits.rc
    | with_reducible apply Reg.Fits.rw
    | with_reducible apply Reg.Fits.cfg
    | with_reducible apply Reg.Fits.act
    | with_reducible apply Reg.Fits.wo
    | with_reducible apply Reg.Fits.lo
    | with_reducible apply Fits.pick_cons
    | with_reducible apply Fits.pick_nil
    | with_reducible apply Fits.first_cons
    | with_reducible apply Fits.first_nil
    | with_reducible apply Fits.arrReg
    | with_reducible apply Fits.winReg
    | with_reducible apply Fits.some
    | with_reducible apply Fits.none
    | with_reducible apply Reg.Fits.actAt
    | with_reducible apply Reg.Fits.onRead
    | intro _

theorem coefReg_frame {a0 a1} {m : List Block} (hm : subs [.sys, .evr] m = true) (ha1 : ∀ x0 x1, Frame m x1 (a1 x0 x1)) : Reg.Fits m (coefReg a0 a1) := by
  unfold coefReg
  repeat' first
    | with_reducible exact Frame.refl _ _
    | exact rfl
    | with_reducible apply Fits.ite
    | with_reducible apply Frame.trans (k := ha1 ..)
    | exact subs_trans rfl hm
    | with_reducible apply Frame.trans (k := regWrite_frame ?_ ?_)
    | with_reducible apply Frame.app (k := busViolate_frame)
    | with_reducible apply Frames.next
    | simp only [id_eq]
    | split
    | with_reducible apply Reg.Fits.ro
    | with_reducible apply Reg.Fits.hiOf
    | with_reducible apply Reg.Fits.rc
    | with_reducible apply Reg.Fits.rw
    | with_reducible apply Reg.Fits.cfg
    | with_reducible apply Reg.Fits.act
    | with_reducible apply Reg.Fits.wo
    | with_reducible apply Reg.Fits.lo
    | with_reducible apply Fits.pick_cons
    | with_reducible apply Fits.pick_nil
    | with_reducible apply Fits.first_cons
    | with_reducible apply Fits.first_nil
    | with_reducible apply Fits.arrReg
    | with_reducible apply Fits.winReg
    | with_reducible apply Fits.some
    | with_reducible apply Fits.none
    | with_reducible apply Reg.Fits.actAt
    | with_reducible apply Reg.Fits.onRead
    | intro _

theorem offsReg_frame {a0} : Reg.Fits [.sys, .acq, .evr] (offsReg a0) := by
  unfold offsReg
  repeat' first
    | with_reducible exact Frame.refl _ _
    | exact rfl
    | with_reducible apply coefReg_frame
    | with_reducible apply Frame.app (k := setCoef_frame)
    | with_reducible apply Frames.next
    | simp only [id_eq]
    | split
    | with_reducible apply Reg.Fits.ro
    | with_reducible apply Reg.Fits.hiOf
    | with_reducible apply Reg.Fits.rc
    | with_reducible apply Reg.Fits.rw
    | with_reducible apply Reg.Fits.cfg
    | with_reducible apply Reg.Fits.act
    | with_reducible apply Reg.Fits.wo
    | with_reducible apply Reg.Fits.lo
    | with_reducible apply Fits.pick_cons
    | with_reducible apply Fits.pick_nil
    | with_reducible apply Fits.first_cons
    | with_reducible apply Fits.first_nil
    | with_reducible apply Fits.arrReg
    | with_reducible apply Fits.winReg
    | with_reducible apply Fits.some
    | with_reducible apply Fits.none
    | with_reducible apply Reg.Fits.actAt
    | with_reducible apply Reg.Fits.onRead
    | intro _

theorem spdReg_frame {a0} : Fits [.sys, .spd, .cmd, .evr, .now, .out] (spdReg a0) := by
  unfold spdReg
  repeat' first
    | with_reducible exact Frame.refl _ _
    | exact rfl
    | with_reducible apply Frames.ofState (k := execSpdSiPlanWrite_frame)
    | with_reducible apply Frame.app (k := modSpd_frame)
    | with_reducible apply Frames.ofState (k := execSpdVcoreOvrWrite_frame)
    | with_reducible apply Frames.next
    | simp only [id_eq]
    | split
    | with_reducible apply Reg.Fits.ro
    | with_reducible apply Reg.Fits.hiOf
    | with_reducible apply Reg.Fits.rc
    | with_reducible apply Reg.Fits.rw
    | with_reducible apply Reg.Fits.cfg
    | with_reducible apply Reg.Fits.act
    | with_reducible apply Reg.Fits.wo
    | with_reducible apply Reg.Fits.lo
    | with_reducible apply Fits.pick_cons
    | with_reducible apply Fits.pick_nil
    | with_reducible apply Fits.first_cons
    | with_reducible apply Fits.first_nil
    | with_reducible apply Fits.arrReg
    | with_reducible apply Fits.winReg
    | with_reducible apply Fits.some
    | with_reducible apply Fits.none
    | with_reducible apply Reg.Fits.actAt
    | with_reducible apply Reg.Fits.onRead
    | intro _

theorem gainReg_frame {a0} : Reg.Fits [.sys, .acq, .evr] (gainReg a0) := by
  unfold gainReg
  repeat' first
    | with_reducible exact Frame.refl _ _
    | exact rfl
    | with_reducible apply coefReg_frame
    | with_reducible apply Frame.app (k := setCoef_frame)
    | with_reducible apply Frames.next
    | simp only [id_eq]
    | split
    | with_reducible apply Reg.Fits.ro
    | with_reducible apply Reg.Fits.hiOf
    | with_reducible apply Reg.Fits.rc
    | with_reducible apply Reg.Fits.rw
    | with_reducible apply Reg.Fits.cfg
    | with_reducible apply Reg.Fits.act
    | with_reducible apply Reg.Fits.wo
    | with_reducible apply Reg.Fits.lo
    | with_reducible apply Fits.pick_cons
    | with_reducible apply Fits.pick_nil
    | with_reducible apply Fits.first_cons
    | with_reducible apply Fits.first_nil
    | with_reducible apply Fits.arrReg
    | with_reducible apply Fits.winReg
    | with_reducible apply Fits.some
    | with_reducible apply Fits.none
    | with_reducible apply Reg.Fits.actAt
    | with_reducible apply Reg.Fits.onRead
    | intro _

theorem ckReg_frame {a0 a1} : Fits [.sys, .acq, .cmd, .evr, .now, .out] (ckReg a0 a1) := by
  unfold ckReg
  repeat' first
    | with_reducible exact Frame.refl _ _
    | exact rfl
    | with_reducible apply Frame.app (k := ckCtlWrite_frame)
    | with_reducible apply Frames.ofState (k := execAcqCkSeqWrite_frame)
    | with_reducible apply Reg.Fits.mono (h := offsReg_frame)
    | with_reducible apply Reg.Fits.mono (h := gainReg_frame)
    | with_reducible apply Frames.next
    | simp only [id_eq]
    | split
    | with_reducible apply Reg.Fits.ro
    | with_reducible apply Reg.Fits.hiOf
    | with_reducible apply Reg.Fits.rc
    | with_reducible apply Reg.Fits.rw
    | with_reducible apply Reg.Fits.cfg
    | with_reducible apply Reg.Fits.act
    | with_reducible apply Reg.Fits.wo
    | with_reducible apply Reg.Fits.lo
    | with_reducible apply Fits.pick_cons
    | with_reducible apply Fits.pick_nil
    | with_reducible apply Fits.first_cons
    | with_reducible apply Fits.first_nil
    | with_reducible apply Fits.arrReg
    | with_reducible apply Fits.winReg
    | with_reducible apply Fits.some
    | with_reducible apply Fits.none
    | with_reducible apply Reg.Fits.actAt
    | with_reducible apply Reg.Fits.onRead
    | intro _

theorem stageSeen_frame {a0 a1 s2} : Frame [.flt] s2 (stageSeen a0 a1 s2) := by
  unfold stageSeen
  repeat' first
    | with_reducible exact Frame.refl _ _
    | exact rfl
    | with_reducible apply Frame.ite
    | with_reducible apply Frame.app (k := modFs_frame)
    | with_reducible apply Frame.trans (k := Frame.foldOver ?_ _ _)
    | with_reducible apply Frame.trans (k := Frame.foldOver_snd ?_ _ _)
    | dsimp only
    | split
    | intro _

theorem fltReg_frame {a0} : Fits [.sys, .flt, .cmd, .evr, .now, .out] (fltReg a0) := by
  unfold fltReg
  repeat' first
    | with_reducible exact Frame.refl _ _
    | exact rfl
    | with_reducible apply Fits.mono (h := fltChReg_frame)
    | with_reducible apply Frame.app (k := stageSeen_frame)
    | with_reducible apply Frames.next
    | simp only [id_eq]
    | split
    | with_reducible apply Reg.Fits.ro
    | with_reducible apply Reg.Fits.hiOf
    | with_reducible apply Reg.Fits.rc
    | with_reducible apply Reg.Fits.rw
    | with_reducible apply Reg.Fits.cfg
    | with_reducible apply Reg.Fits.act
    | with_reducible apply Reg.Fits.wo
    | with_reducible apply Reg.Fits.lo
    | with_reducible apply Fits.pick_cons
    | with_reducible apply Fits.pick_nil
    | with_reducible apply Fits.first_cons
    | with_reducible apply Fits.first_nil
    | with_reducible apply Fits.arrReg
    | with_reducible apply Fits.winReg
    | with_reducible apply Fits.some
    | with_reducible apply Fits.none
    | with_reducible apply Reg.Fits.actAt
    | with_reducible apply Reg.Fits.onRead
    | intro _

theorem sysReg_frame {a0} : Fits [.sys, .mbx, .evr, .now, .out] (sysReg a0) := by
  unfold sysReg
  repeat' first
    | with_reducible exact Frame.refl _ _
    | exact rfl
    | with_reducible apply Frame.app (k := modSys_frame)
    | with_reducible apply Frames.ofState (k := execSemRead_frame)
    | with_reducible apply Frames.next
    | simp only [id_eq]
    | split
    | with_reducible apply Reg.Fits.ro
    | with_reducible apply Reg.Fits.hiOf
    | with_reducible apply Reg.Fits.rc
    | with_reducible apply Reg.Fits.rw
    | with_reducible apply Reg.Fits.cfg
    | with_reducible apply Reg.Fits.act
    | with_reducible apply Reg.Fits.wo
    | with_reducible apply Reg.Fits.lo
    | with_reducible apply Fits.pick_cons
    | with_reducible apply Fits.pick_nil
    | with_reducible apply Fits.first_cons
    | with_reducible apply Fits.first_nil
    | with_reducible apply Fits.arrReg
    | with_reducible apply Fits.winReg
    | with_reducible apply Fits.some
    | with_reducible apply Fits.none
    | with_reducible apply Reg.Fits.actAt
    | with_reducible apply Reg.Fits.onRead
    | intro _

theorem acqCtlWrite_frame {a0 s1} : Frame [.acq, .flt, .evr] s1 (acqCtlWrite a0 s1) := by
  unfold acqCtlWrite
  repeat' first
    | with_reducible exact Frame.refl _ _
    | exact rfl
    | with_reducible apply Frame.ite
    | with_reducible apply Frame.app (k := strobeMove_frame)
    | with_reducible apply Frame.app (k := modAcq_frame)
    | dsimp only
    | split
    | intro _

theorem acqReg_frame {a0} : Fits [.sys, .acq, .flt, .cmd, .evr, .now, .out] (acqReg a0) := by
  unfold acqReg
  repeat' first
    | with_reducible exact Frame.refl _ _
    | exact rfl
    | with_reducible apply Frame.app (k := acqCtlWrite_frame)
    | with_reducible apply Frame.app (k := modAcq_frame)
    | with_reducible apply Frame.app (k := acqClamp_frame)
    | with_reducible apply Frame.app (k := implMask_frame)
    | with_reducible apply Frames.ofState (k := execAcqImplClear_frame)
    | with_reducible apply Frames.ofState (k := execAcqUrgWrite_frame)
    | with_reducible apply Frame.app (k := setHkCtl_frame)
    | with_reducible apply Reg.Fits.mono (h := offsReg_frame)
    | with_reducible apply Reg.Fits.mono (h := gainReg_frame)
    | with_reducible apply Frame.app (k := setSkew_frame)
    | with_reducible apply Fits.mono (h := ckReg_frame)
    | with_reducible apply Frames.next
    | simp only [id_eq]
    | split
    | with_reducible apply Reg.Fits.ro
    | with_reducible apply Reg.Fits.hiOf
    | with_reducible apply Reg.Fits.rc
    | with_reducible apply Reg.Fits.rw
    | with_reducible apply Reg.Fits.cfg
    | with_reducible apply Reg.Fits.act
    | with_reducible apply Reg.Fits.wo
    | with_reducible apply Reg.Fits.lo
    | with_reducible apply Fits.pick_cons
    | with_reducible apply Fits.pick_nil
    | with_reducible apply Fits.first_cons
    | with_reducible apply Fits.first_nil
    | with_reducible apply Fits.arrReg
    | with_reducible apply Fits.winReg
    | with_reducible apply Fits.some
    | with_reducible apply Fits.none
    | with_reducible apply Reg.Fits.actAt
    | with_reducible apply Reg.Fits.onRead
    | intro _

theorem trgReg_frame {a0} : Fits [.sys, .trg, .cmd, .evr, .now, .out] (trgReg a0) := by
  unfold trgReg
  repeat' first
    | with_reducible exact Frame.refl _ _
    | exact rfl
    | with_reducible apply Frames.ofState (k := execTrgArmedWrite_frame)
    | with_reducible apply Frame.app (k := modTrg_frame)
    | with_reducible apply Frames.ofState (k := execTrgForceWrite_frame)
    | with_reducible apply Frame.app (k := setSource_frame)
    | with_reducible apply Frames.next
    | simp only [id_eq]
    | split
    | with_reducible apply Reg.Fits.ro
    | with_reducible apply Reg.Fits.hiOf
    | with_reducible apply Reg.Fits.rc
    | with_reducible apply Reg.Fits.rw
    | with_reducible apply Reg.Fits.cfg
    | with_reducible apply Reg.Fits.act
    | with_reducible apply Reg.Fits.wo
    | with_reducible apply Reg.Fits.lo
    | with_reducible apply Fits.pick_cons
    | with_reducible apply Fits.pick_nil
    | with_reducible apply Fits.first_cons
    | with_reducible apply Fits.first_nil
    | with_reducible apply Fits.arrReg
    | with_reducible apply Fits.winReg
    | with_reducible apply Fits.some
    | with_reducible apply Fits.none
    | with_reducible apply Reg.Fits.actAt
    | with_reducible apply Reg.Fits.onRead
    | intro _

end Sys2Proof.Machine
end

