-- ==== Sys2Proof/Laws/Frames/RegsNet.lean ====
section
/-! SUPPORT. What each operation of Machine/RegsNet.lean may change. -/

namespace Sys2Proof.Machine

theorem pairReg_frame {a0 a1} : Fits [.red] (pairReg a0 a1) := by
  unfold pairReg
  repeat' first
    | with_reducible exact Frame.refl _ _
    | exact rfl
    | with_reducible apply Frame.app (k := modPair_frame)
    | with_reducible apply Frames.next
    | simp only [id_eq]
    | split
    | with_reducible apply Reg.Fits.ro
    | with_reducible apply Reg.Fits.hiOf
    | with_reducible apply Reg.Fits.rc
    | with_reducible apply Reg.Fits.rw
    | with_reducible apply Reg.Fits.cfg
    | with_reducible apply Reg.Fits.act
    | with_reducible apply Reg.Fits.wo
    | with_reducible apply Reg.Fits.lo
    | with_reducible apply Fits.pick_cons
    | with_reducible apply Fits.pick_nil
    | with_reducible apply Fits.first_cons
    | with_reducible apply Fits.first_nil
    | with_reducible apply Fits.arrReg
    | with_reducible apply Fits.winReg
    | with_reducible apply Fits.some
    | with_reducible apply Fits.none
    | with_reducible apply Reg.Fits.actAt
    | with_reducible apply Reg.Fits.onRead
    | intro _

theorem macCfg_frame {a0 a1 a2} : Reg.Fits [.sys, .mac, .cmd, .evr] (macCfg a0 a1 a2) := by
  unfold macCfg
  repeat' first
    | with_reducible exact Frame.refl _ _
    | exact rfl
    | with_reducible apply Frame.app (k := modMac_frame)
    | with_reducible apply Frames.next
    | simp only [id_eq]
    | split
    | with_reducible apply Reg.Fits.ro
    | with_reducible apply Reg.Fits.hiOf
    | with_reducible apply Reg.Fits.rc
    | with_reducible apply Reg.Fits.rw
    | with_reducible apply Reg.Fits.cfg
    | with_reducible apply Reg.Fits.act
    | with_reducible apply Reg.Fits.wo
    | with_reducible apply Reg.Fits.lo
    | with_reducible apply Fits.pick_cons
    | with_reducible apply Fits.pick_nil
    | with_reducible apply Fits.first_cons
    | with_reducible apply Fits.first_nil
    | with_reducible apply Fits.arrReg
    | with_reducible apply Fits.winReg
    | with_reducible apply Fits.some
    | with_reducible apply Fits.none
    | with_reducible apply Reg.Fits.actAt
    | with_reducible apply Reg.Fits.onRead
    | intro _

theorem wakeCfg_frame {a0 a1 a2 a3} : Reg.Fits [.sys, .mac, .cmd, .evr] (wakeCfg a0 a1 a2 a3) := by
  unfold wakeCfg
  repeat' first
    | with_reducible exact Frame.refl _ _
    | exact rfl
    | with_reducible apply Reg.Fits.mono (h := macCfg_frame)
    | with_reducible apply Frames.next
    | simp only [id_eq]
    | split
    | with_reducible apply Reg.Fits.ro
    | with_reducible apply Reg.Fits.hiOf
    | with_reducible apply Reg.Fits.rc
    | with_reducible apply Reg.Fits.rw
    | with_reducible apply Reg.Fits.cfg
    | with_reducible apply Reg.Fits.act
    | with_reducible apply Reg.Fits.wo
    | with_reducible apply Reg.Fits.lo
    | with_reducible apply Fits.pick_cons
    | with_reducible apply Fits.pick_nil
    | with_reducible apply Fits.first_cons
    | with_reducible apply Fits.first_nil
    | with_reducible apply Fits.arrReg
    | with_reducible apply Fits.winReg
    | with_reducible apply Fits.some
    | with_reducible apply Fits.none
    | with_reducible apply Reg.Fits.actAt
    | with_reducible apply Reg.Fits.onRead
    | intro _

theorem wakeReg_frame {a0 a1 a2} : Fits [.sys, .mac, .cmd, .evr] (wakeReg a0 a1 a2) := by
  unfold wakeReg
  repeat' first
    | with_reducible exact Frame.refl _ _
    | exact rfl
    | with_reducible apply Reg.Fits.mono (h := wakeCfg_frame)
    | with_reducible apply Frames.next
    | simp only [id_eq]
    | split
    | with_reducible apply Reg.Fits.ro
    | with_reducible apply Reg.Fits.hiOf
    | with_reducible apply Reg.Fits.rc
    | with_reducible apply Reg.Fits.rw
    | with_reducible apply Reg.Fits.cfg
    | with_reducible apply Reg.Fits.act
    | with_reducible apply Reg.Fits.wo
    | with_reducible apply Reg.Fits.lo
    | with_reducible apply Fits.pick_cons
    | with_reducible apply Fits.pick_nil
    | with_reducible apply Fits.first_cons
    | with_reducible apply Fits.first_nil
    | with_reducible apply Fits.arrReg
    | with_reducible apply Fits.winReg
    | with_reducible apply Fits.some
    | with_reducible apply Fits.none
    | with_reducible apply Reg.Fits.actAt
    | with_reducible apply Reg.Fits.onRead
    | intro _

theorem macCntClear_frame {a0 a1 s2} : Frame [.mac] s2 (macCntClear a0 a1 s2) := by
  unfold macCntClear
  repeat' first
    | with_reducible exact Frame.refl _ _
    | exact rfl
    | with_reducible apply Frame.app (k := modMac_frame)
    | with_reducible apply Frame.app (k := pauseAccrue_frame)
    | dsimp only
    | split
    | intro _

theorem macPortReg_frame {a0 a1} : Fits [.sys, .mac, .red, .swc, .cmd, .evr, .pwr, .out, .freeCtr] (macPortReg a0 a1) := by
  unfold macPortReg
  repeat' first
    | with_reducible exact Frame.refl _ _
    | exact rfl
    | with_reducible apply Frame.app (k := setMacCtl_frame)
    | with_reducible apply Frame.app (k := modMac_frame)
    | with_reducible apply Reg.Fits.mono (h := macCfg_frame)
    | with_reducible apply Fits.mono (h := wakeReg_frame)
    | with_reducible apply Frame.app (k := macCntClear_frame)
    | with_reducible apply Frames.next
    | simp only [id_eq]
    | split
    | with_reducible apply Reg.Fits.ro
    | with_reducible apply Reg.Fits.hiOf
    | with_reducible apply Reg.Fits.rc
    | with_reducible apply Reg.Fits.rw
    | with_reducible apply Reg.Fits.cfg
    | with_reducible apply Reg.Fits.act
    | with_reducible apply Reg.Fits.wo
    | with_reducible apply Reg.Fits.lo
    | with_reducible apply Fits.pick_cons
    | with_reducible apply Fits.pick_nil
    | with_reducible apply Fits.first_cons
    | with_reducible apply Fits.first_nil
    | with_reducible apply Fits.arrReg
    | with_reducible apply Fits.winReg
    | with_reducible apply Fits.some
    | with_reducible apply Fits.none
    | with_reducible apply Reg.Fits.actAt
    | with_reducible apply Reg.Fits.onRead
    | intro _

theorem macReg_frame {a0} : Fits [.sys, .mac, .red, .swc, .cmd, .evr, .pwr, .out, .freeCtr] (macReg a0) := by
  unfold macReg
  repeat' first
    | with_reducible exact Frame.refl _ _
    | exact rfl
    | with_reducible apply Fits.mono (h := macPortReg_frame)
    | with_reducible apply Frames.next
    | simp only [id_eq]
    | split
    | with_reducible apply Reg.Fits.ro
    | with_reducible apply Reg.Fits.hiOf
    | with_reducible apply Reg.Fits.rc
    | with_reducible apply Reg.Fits.rw
    | with_reducible apply Reg.Fits.cfg
    | with_reducible apply Reg.Fits.act
    | with_reducible apply Reg.Fits.wo
    | with_reducible apply Reg.Fits.lo
    | with_reducible apply Fits.pick_cons
    | with_reducible apply Fits.pick_nil
    | with_reducible apply Fits.first_cons
    | with_reducible apply Fits.first_nil
    | with_reducible apply Fits.arrReg
    | with_reducible apply Fits.winReg
    | with_reducible apply Fits.some
    | with_reducible apply Fits.none
    | with_reducible apply Reg.Fits.actAt
    | with_reducible apply Reg.Fits.onRead
    | intro _

theorem swcRc_frame {a0 a1 a2} : Reg.Fits [.swc] (swcRc a0 a1 a2) := by
  unfold swcRc
  repeat' first
    | with_reducible exact Frame.refl _ _
    | exact rfl
    | with_reducible apply Frame.app (k := modSwcPort_frame)
    | with_reducible apply Frames.next
    | simp only [id_eq]
    | split
    | with_reducible apply Reg.Fits.ro
    | with_reducible apply Reg.Fits.hiOf
    | with_reducible apply Reg.Fits.rc
    | with_reducible apply Reg.Fits.rw
    | with_reducible apply Reg.Fits.cfg
    | with_reducible apply Reg.Fits.act
    | with_reducible apply Reg.Fits.wo
    | with_reducible apply Reg.Fits.lo
    | with_reducible apply Fits.pick_cons
    | with_reducible apply Fits.pick_nil
    | with_reducible apply Fits.first_cons
    | with_reducible apply Fits.first_nil
    | with_reducible apply Fits.arrReg
    | with_reducible apply Fits.winReg
    | with_reducible apply Fits.some
    | with_reducible apply Fits.none
    | with_reducible apply Reg.Fits.actAt
    | with_reducible apply Reg.Fits.onRead
    | intro _

theorem swcPortReg_frame {a0 a1} : Fits [.sys, .mac, .swc, .cmd, .evr, .out] (swcPortReg a0 a1) := by
  unfold swcPortReg
  repeat' first
    | with_reducible exact Frame.refl _ _
    | exact rfl
    | with_reducible apply Frame.app (k := modSwcPort_frame)
    | with_reducible apply Frame.app (k := swcSettle_frame)
    | with_reducible apply Reg.Fits.mono (h := swcRc_frame)
    | with_reducible apply Frames.next
    | simp only [id_eq]
    | split
    | with_reducible apply Reg.Fits.ro
    | with_reducible apply Reg.Fits.hiOf
    | with_reducible apply Reg.Fits.rc
    | with_reducible apply Reg.Fits.rw
    | with_reducible apply Reg.Fits.cfg
    | with_reducible apply Reg.Fits.act
    | with_reducible apply Reg.Fits.wo
    | with_reducible apply Reg.Fits.lo
    | with_reducible apply Fits.pick_cons
    | with_reducible apply Fits.pick_nil
    | with_reducible apply Fits.first_cons
    | with_reducible apply Fits.first_nil
    | with_reducible apply Fits.arrReg
    | with_reducible apply Fits.winReg
    | with_reducible apply Fits.some
    | with_reducible apply Fits.none
    | with_reducible apply Reg.Fits.actAt
    | with_reducible apply Reg.Fits.onRead
    | intro _

theorem swcReg_frame {a0} : Fits [.sys, .mac, .swc, .cmd, .evr, .now, .out] (swcReg a0) := by
  unfold swcReg
  repeat' first
    | with_reducible exact Frame.refl _ _
    | exact rfl
    | with_reducible apply Frame.app (k := modSwc_frame)
    | with_reducible apply Frame.app (k := swcSettle_frame)
    | with_reducible apply Frames.ofState (k := execSwcVoqSelWrite_frame)
    | with_reducible apply Fits.mono (h := swcPortReg_frame)
    | with_reducible apply Frames.next
    | simp only [id_eq]
    | split
    | with_reducible apply Reg.Fits.ro
    | with_reducible apply Reg.Fits.hiOf
    | with_reducible apply Reg.Fits.rc
    | with_reducible apply Reg.Fits.rw
    | with_reducible apply Reg.Fits.cfg
    | with_reducible apply Reg.Fits.act
    | with_reducible apply Reg.Fits.wo
    | with_reducible apply Reg.Fits.lo
    | with_reducible apply Fits.pick_cons
    | with_reducible apply Fits.pick_nil
    | with_reducible apply Fits.first_cons
    | with_reducible apply Fits.first_nil
    | with_reducible apply Fits.arrReg
    | with_reducible apply Fits.winReg
    | with_reducible apply Fits.some
    | with_reducible apply Fits.none
    | with_reducible apply Reg.Fits.actAt
    | with_reducible apply Reg.Fits.onRead
    | intro _

theorem ownReg_frame {a0 a1} : Fits [] (ownReg a0 a1) := by
  unfold ownReg
  repeat' first
    | with_reducible exact Frame.refl _ _
    | exact rfl
    | with_reducible apply Frames.next
    | simp only [id_eq]
    | split
    | with_reducible apply Reg.Fits.ro
    | with_reducible apply Reg.Fits.hiOf
    | with_reducible apply Reg.Fits.rc
    | with_reducible apply Reg.Fits.rw
    | with_reducible apply Reg.Fits.cfg
    | with_reducible apply Reg.Fits.act
    | with_reducible apply Reg.Fits.wo
    | with_reducible apply Reg.Fits.lo
    | with_reducible apply Fits.pick_cons
    | with_reducible apply Fits.pick_nil
    | with_reducible apply Fits.first_cons
    | with_reducible apply Fits.first_nil
    | with_reducible apply Fits.arrReg
    | with_reducible apply Fits.winReg
    | with_reducible apply Fits.some
    | with_reducible apply Fits.none
    | with_reducible apply Reg.Fits.actAt
    | with_reducible apply Reg.Fits.onRead
    | intro _

theorem redReg_frame {a0} : Fits [.red] (redReg a0) := by
  unfold redReg
  repeat' first
    | with_reducible exact Frame.refl _ _
    | exact rfl
    | with_reducible apply Fits.mono (h := pairReg_frame)
    | with_reducible apply Fits.mono (h := ownReg_frame)
    | with_reducible apply Frames.next
    | simp only [id_eq]
    | simp (disch := decide) only [↓Frame.of_set_red]
    | split
    | with_reducible apply Reg.Fits.ro
    | with_reducible apply Reg.Fits.hiOf
    | with_reducible apply Reg.Fits.rc
    | with_reducible apply Reg.Fits.rw
    | with_reducible apply Reg.Fits.cfg
    | with_reducible apply Reg.Fits.act
    | with_reducible apply Reg.Fits.wo
    | with_reducible apply Reg.Fits.lo
    | with_reducible apply Fits.pick_cons
    | with_reducible apply Fits.pick_nil
    | with_reducible apply Fits.first_cons
    | with_reducible apply Fits.first_nil
    | with_reducible apply Fits.arrReg
    | with_reducible apply Fits.winReg
    | with_reducible apply Fits.some
    | with_reducible apply Fits.none
    | with_reducible apply Reg.Fits.actAt
    | with_reducible apply Reg.Fits.onRead
    | intro _

end Sys2Proof.Machine
end

