-- ==== Sys2Proof/Laws/Frames/RegsProt.lean ====
section
/-! SUPPORT. What each operation of Machine/RegsProt.lean may change. -/

namespace Sys2Proof.Machine

theorem rowCfg_frame {a0 a1 a2} : Reg.Fits [.sys, .trg, .sve, .trp, .cyc, .tbs, .mac, .red, .swc, .vfm, .cmd, .evr, .out] (rowCfg a0 a1 a2) := by
  unfold rowCfg
  repeat' first
    | with_reducible exact Frame.refl _ _
    | exact rfl
    | with_reducible apply Frame.app (k := settle_frame)
    | with_reducible apply Frame.app (k := modRow_frame)
    | with_reducible apply Frames.next
    | simp only [id_eq]
    | split
    | with_reducible apply Reg.Fits.ro
    | with_reducible apply Reg.Fits.hiOf
    | with_reducible apply Reg.Fits.rc
    | with_reducible apply Reg.Fits.rw
    | with_reducible apply Reg.Fits.cfg
    | with_reducible apply Reg.Fits.act
    | with_reducible apply Reg.Fits.wo
    | with_reducible apply Reg.Fits.lo
    | with_reducible apply Fits.pick_cons
    | with_reducible apply Fits.pick_nil
    | with_reducible apply Fits.first_cons
    | with_reducible apply Fits.first_nil
    | with_reducible apply Fits.arrReg
    | with_reducible apply Fits.winReg
    | with_reducible apply Fits.some
    | with_reducible apply Fits.none
    | with_reducible apply Reg.Fits.actAt
    | with_reducible apply Reg.Fits.onRead
    | intro _

theorem biCfgWrite_frame {a0 a1 s2} : Frame [.trg, .sve, .trp, .cyc, .tbs, .mac, .red, .swc, .vfm, .evr, .out] s2 (biCfgWrite a0 a1 s2) := by
  unfold biCfgWrite
  repeat' first
    | with_reducible exact Frame.refl _ _
    | exact rfl
    | with_reducible apply Frame.ite
    | with_reducible apply Frame.app (k := settle_frame)
    | with_reducible apply Frame.app (k := modBi_frame)
    | dsimp only
    | split
    | intro _

theorem modCyc_frame {a0 s1} : Frame [.cyc] s1 (modCyc a0 s1) := by
  unfold modCyc
  repeat' first
    | with_reducible exact Frame.refl _ _
    | exact rfl
    | simp (disch := decide) only [↓Frame.of_set_cyc]
    | split
    | intro _

theorem cycTask_frame {a0 a1} : Fits [.cyc] (cycTask a0 a1) := by
  unfold cycTask
  repeat' first
    | with_reducible exact Frame.refl _ _
    | exact rfl
    | with_reducible apply Frame.app (k := modCyc_frame)
    | with_reducible apply Frames.next
    | simp only [id_eq]
    | split
    | with_reducible apply Reg.Fits.ro
    | with_reducible apply Reg.Fits.hiOf
    | with_reducible apply Reg.Fits.rc
    | with_reducible apply Reg.Fits.rw
    | with_reducible apply Reg.Fits.cfg
    | with_reducible apply Reg.Fits.act
    | with_reducible apply Reg.Fits.wo
    | with_reducible apply Reg.Fits.lo
    | with_reducible apply Fits.pick_cons
    | with_reducible apply Fits.pick_nil
    | with_reducible apply Fits.first_cons
    | with_reducible apply Fits.first_nil
    | with_reducible apply Fits.arrReg
    | with_reducible apply Fits.winReg
    | with_reducible apply Fits.some
    | with_reducible apply Fits.none
    | with_reducible apply Reg.Fits.actAt
    | with_reducible apply Reg.Fits.onRead
    | intro _

theorem svePubReg_frame {a0 a1} : Fits [.sve] (svePubReg a0 a1) := by
  unfold svePubReg
  repeat' first
    | with_reducible exact Frame.refl _ _
    | exact rfl
    | with_reducible apply Frame.app (k := modSve_frame)
    | with_reducible apply Frames.next
    | simp only [id_eq]
    | split
    | with_reducible apply Reg.Fits.ro
    | with_reducible apply Reg.Fits.hiOf
    | with_reducible apply Reg.Fits.rc
    | with_reducible apply Reg.Fits.rw
    | with_reducible apply Reg.Fits.cfg
    | with_reducible apply Reg.Fits.act
    | with_reducible apply Reg.Fits.wo
    | with_reducible apply Reg.Fits.lo
    | with_reducible apply Fits.pick_cons
    | with_reducible apply Fits.pick_nil
    | with_reducible apply Fits.first_cons
    | with_reducible apply Fits.first_nil
    | with_reducible apply Fits.arrReg
    | with_reducible apply Fits.winReg
    | with_reducible apply Fits.some
    | with_reducible apply Fits.none
    | with_reducible apply Reg.Fits.actAt
    | with_reducible apply Reg.Fits.onRead
    | intro _

theorem sveRc_frame {a0 a1} : Reg.Fits [.sve] (sveRc a0 a1) := by
  unfold sveRc
  repeat' first
    | with_reducible exact Frame.refl _ _
    | exact rfl
    | with_reducible apply Frame.app (k := modSve_frame)
    | with_reducible apply Frames.next
    | simp only [id_eq]
    | split
    | with_reducible apply Reg.Fits.ro
    | with_reducible apply Reg.Fits.hiOf
    | with_reducible apply Reg.Fits.rc
    | with_reducible apply Reg.Fits.rw
    | with_reducible apply Reg.Fits.cfg
    | with_reducible apply Reg.Fits.act
    | with_reducible apply Reg.Fits.wo
    | with_reducible apply Reg.Fits.lo
    | with_reducible apply Fits.pick_cons
    | with_reducible apply Fits.pick_nil
    | with_reducible apply Fits.first_cons
    | with_reducible apply Fits.first_nil
    | with_reducible apply Fits.arrReg
    | with_reducible apply Fits.winReg
    | with_reducible apply Fits.some
    | with_reducible apply Fits.none
    | with_reducible apply Reg.Fits.actAt
    | with_reducible apply Reg.Fits.onRead
    | intro _

theorem subRc_frame {a0 a1 a2} : Reg.Fits [.sve] (subRc a0 a1 a2) := by
  unfold subRc
  repeat' first
    | with_reducible exact Frame.refl _ _
    | exact rfl
    | with_reducible apply Frame.app (k := modSub_frame)
    | with_reducible apply Frames.next
    | simp only [id_eq]
    | split
    | with_reducible apply Reg.Fits.ro
    | with_reducible apply Reg.Fits.hiOf
    | with_reducible apply Reg.Fits.rc
    | with_reducible apply Reg.Fits.rw
    | with_reducible apply Reg.Fits.cfg
    | with_reducible apply Reg.Fits.act
    | with_reducible apply Reg.Fits.wo
    | with_reducible apply Reg.Fits.lo
    | with_reducible apply Fits.pick_cons
    | with_reducible apply Fits.pick_nil
    | with_reducible apply Fits.first_cons
    | with_reducible apply Fits.first_nil
    | with_reducible apply Fits.arrReg
    | with_reducible apply Fits.winReg
    | with_reducible apply Fits.some
    | with_reducible apply Fits.none
    | with_reducible apply Reg.Fits.actAt
    | with_reducible apply Reg.Fits.onRead
    | intro _

theorem strReg_frame {a0 a1} : Fits [.sve] (strReg a0 a1) := by
  unfold strReg
  repeat' first
    | with_reducible exact Frame.refl _ _
    | exact rfl
    | with_reducible apply Reg.Fits.mono (h := subRc_frame)
    | with_reducible apply Frames.next
    | simp only [id_eq]
    | split
    | with_reducible apply Reg.Fits.ro
    | with_reducible apply Reg.Fits.hiOf
    | with_reducible apply Reg.Fits.rc
    | with_reducible apply Reg.Fits.rw
    | with_reducible apply Reg.Fits.cfg
    | with_reducible apply Reg.Fits.act
    | with_reducible apply Reg.Fits.wo
    | with_reducible apply Reg.Fits.lo
    | with_reducible apply Fits.pick_cons
    | with_reducible apply Fits.pick_nil
    | with_reducible apply Fits.first_cons
    | with_reducible apply Fits.first_nil
    | with_reducible apply Fits.arrReg
    | with_reducible apply Fits.winReg
    | with_reducible apply Fits.some
    | with_reducible apply Fits.none
    | with_reducible apply Reg.Fits.actAt
    | with_reducible apply Reg.Fits.onRead
    | intro _

theorem rtcCtlWrite_frame {a0 a1 a2 s3} : Frames [.sys, .rtc, .evr, .now, .out] s3 (rtcCtlWrite a0 a1 a2 s3) := by
  unfold rtcCtlWrite
  repeat' first
    | with_reducible exact Frame.refl _ _
    | exact rfl
    | with_reducible apply Frames.ite
    | with_reducible apply Frame.app (k := modRtc_frame)
    | with_reducible apply Frames.ofState (k := execRtcCapture_frame)
    | with_reducible apply Frames.next
    | dsimp only
    | split
    | intro _

theorem trpRc_frame {a0 a1} : Reg.Fits [.trp] (trpRc a0 a1) := by
  unfold trpRc
  repeat' first
    | with_reducible exact Frame.refl _ _
    | exact rfl
    | with_reducible apply Frame.app (k := modTrp_frame)
    | with_reducible apply Frames.next
    | simp only [id_eq]
    | split
    | with_reducible apply Reg.Fits.ro
    | with_reducible apply Reg.Fits.hiOf
    | with_reducible apply Reg.Fits.rc
    | with_reducible apply Reg.Fits.rw
    | with_reducible apply Reg.Fits.cfg
    | with_reducible apply Reg.Fits.act
    | with_reducible apply Reg.Fits.wo
    | with_reducible apply Reg.Fits.lo
    | with_reducible apply Fits.pick_cons
    | with_reducible apply Fits.pick_nil
    | with_reducible apply Fits.first_cons
    | with_reducible apply Fits.first_nil
    | with_reducible apply Fits.arrReg
    | with_reducible apply Fits.winReg
    | with_reducible apply Fits.some
    | with_reducible apply Fits.none
    | with_reducible apply Reg.Fits.actAt
    | with_reducible apply Reg.Fits.onRead
    | intro _

theorem bkpWrite_frame {a0 a1 a2 a3 s4} : Frame [.sys, .rtc, .evr] s4 (bkpWrite a0 a1 a2 a3 s4) := by
  unfold bkpWrite
  repeat' first
    | with_reducible exact Frame.refl _ _
    | exact rfl
    | with_reducible apply Frame.ite
    | with_reducible apply Frame.app (k := modRtc_frame)
    | with_reducible apply Frame.app (k := busViolate_frame)
    | dsimp only
    | split
    | intro _

theorem rowReg_frame {a0 a1} : Fits [.sys, .trg, .sve, .trp, .cyc, .tbs, .mac, .red, .swc, .vfm, .cmd, .evr, .out] (rowReg a0 a1) := by
  unfold rowReg
  repeat' first
    | with_reducible exact Frame.refl _ _
    | exact rfl
    | with_reducible apply Reg.Fits.mono (h := rowCfg_frame)
    | with_reducible apply Frames.next
    | simp only [id_eq]
    | split
    | with_reducible apply Reg.Fits.ro
    | with_reducible apply Reg.Fits.hiOf
    | with_reducible apply Reg.Fits.rc
    | with_reducible apply Reg.Fits.rw
    | with_reducible apply Reg.Fits.cfg
    | with_reducible apply Reg.Fits.act
    | with_reducible apply Reg.Fits.wo
    | with_reducible apply Reg.Fits.lo
    | with_reducible apply Fits.pick_cons
    | with_reducible apply Fits.pick_nil
    | with_reducible apply Fits.first_cons
    | with_reducible apply Fits.first_nil
    | with_reducible apply Fits.arrReg
    | with_reducible apply Fits.winReg
    | with_reducible apply Fits.some
    | with_reducible apply Fits.none
    | with_reducible apply Reg.Fits.actAt
    | with_reducible apply Reg.Fits.onRead
    | intro _

theorem trpReg_frame {a0} : Fits [.sys, .trg, .sve, .trp, .cyc, .tbs, .mac, .red, .swc, .vfm, .cmd, .evr, .out] (trpReg a0) := by
  unfold trpReg
  repeat' first
    | with_reducible exact Frame.refl _ _
    | exact rfl
    | with_reducible apply Frame.app (k := modTrp_frame)
    | with_reducible apply Reg.Fits.mono (h := trpRc_frame)
    | with_reducible apply Frame.app (k := biCfgWrite_frame)
    | with_reducible apply Fits.mono (h := rowReg_frame)
    | with_reducible apply Frames.next
    | simp only [id_eq]
    | split
    | with_reducible apply Reg.Fits.ro
    | with_reducible apply Reg.Fits.hiOf
    | with_reducible apply Reg.Fits.rc
    | with_reducible apply Reg.Fits.rw
    | with_reducible apply Reg.Fits.cfg
    | with_reducible apply Reg.Fits.act
    | with_reducible apply Reg.Fits.wo
    | with_reducible apply Reg.Fits.lo
    | with_reducible apply Fits.pick_cons
    | with_reducible apply Fits.pick_nil
    | with_reducible apply Fits.first_cons
    | with_reducible apply Fits.first_nil
    | with_reducible apply Fits.arrReg
    | with_reducible apply Fits.winReg
    | with_reducible apply Fits.some
    | with_reducible apply Fits.none
    | with_reducible apply Reg.Fits.actAt
    | with_reducible apply Reg.Fits.onRead
    | intro _

theorem rtcReg_frame {a0} : Fits [.sys, .rtc, .evr, .now, .out] (rtcReg a0) := by
  unfold rtcReg
  repeat' first
    | with_reducible exact Frame.refl _ _
    | exact rfl
    | with_reducible apply Frames.ofState (k := rtcCtlWrite_frame)
    | with_reducible apply Frame.app (k := modRtc_frame)
    | with_reducible apply Frames.ofState (k := execRtcStgSecWrite_frame)
    | with_reducible apply Frame.app (k := bkpWrite_frame)
    | with_reducible apply Frames.next
    | simp only [id_eq]
    | split
    | with_reducible apply Reg.Fits.ro
    | with_reducible apply Reg.Fits.hiOf
    | with_reducible apply Reg.Fits.rc
    | with_reducible apply Reg.Fits.rw
    | with_reducible apply Reg.Fits.cfg
    | with_reducible apply Reg.Fits.act
    | with_reducible apply Reg.Fits.wo
    | with_reducible apply Reg.Fits.lo
    | with_reducible apply Fits.pick_cons
    | with_reducible apply Fits.pick_nil
    | with_reducible apply Fits.first_cons
    | with_reducible apply Fits.first_nil
    | with_reducible apply Fits.arrReg
    | with_reducible apply Fits.winReg
    | with_reducible apply Fits.some
    | with_reducible apply Fits.none
    | with_reducible apply Reg.Fits.actAt
    | with_reducible apply Reg.Fits.onRead
    | intro _

theorem tegField_frame {a0 a1 a2} : Reg.Fits [.sys, .tbs, .evr] (tegField a0 a1 a2) := by
  unfold tegField
  repeat' first
    | with_reducible exact Frame.refl _ _
    | exact rfl
    | with_reducible apply Fits.ite
    | with_reducible apply Frame.trans (k := regWrite_frame ?_ ?_)
    | with_reducible apply Frame.app (k := modTeg_frame)
    | with_reducible apply Frame.app (k := busViolate_frame)
    | with_reducible apply Frames.next
    | simp only [id_eq]
    | split
    | with_reducible apply Reg.Fits.ro
    | with_reducible apply Reg.Fits.hiOf
    | with_reducible apply Reg.Fits.rc
    | with_reducible apply Reg.Fits.rw
    | with_reducible apply Reg.Fits.cfg
    | with_reducible apply Reg.Fits.act
    | with_reducible apply Reg.Fits.wo
    | with_reducible apply Reg.Fits.lo
    | with_reducible apply Fits.pick_cons
    | with_reducible apply Fits.pick_nil
    | with_reducible apply Fits.first_cons
    | with_reducible apply Fits.first_nil
    | with_reducible apply Fits.arrReg
    | with_reducible apply Fits.winReg
    | with_reducible apply Fits.some
    | with_reducible apply Fits.none
    | with_reducible apply Reg.Fits.actAt
    | with_reducible apply Reg.Fits.onRead
    | intro _

theorem tegReg_frame {a0 a1} : Fits [.sys, .tbs, .evr, .now, .out] (tegReg a0 a1) := by
  unfold tegReg
  repeat' first
    | with_reducible exact Frame.refl _ _
    | exact rfl
    | with_reducible apply Frames.ofState (k := execTegCtlWrite_frame)
    | with_reducible apply Reg.Fits.mono (h := tegField_frame)
    | with_reducible apply Frames.next
    | simp only [id_eq]
    | split
    | with_reducible apply Reg.Fits.ro
    | with_reducible apply Reg.Fits.hiOf
    | with_reducible apply Reg.Fits.rc
    | with_reducible apply Reg.Fits.rw
    | with_reducible apply Reg.Fits.cfg
    | with_reducible apply Reg.Fits.act
    | with_reducible apply Reg.Fits.wo
    | with_reducible apply Reg.Fits.lo
    | with_reducible apply Fits.pick_cons
    | with_reducible apply Fits.pick_nil
    | with_reducible apply Fits.first_cons
    | with_reducible apply Fits.first_nil
    | with_reducible apply Fits.arrReg
    | with_reducible apply Fits.winReg
    | with_reducible apply Fits.some
    | with_reducible apply Fits.none
    | with_reducible apply Reg.Fits.actAt
    | with_reducible apply Reg.Fits.onRead
    | intro _

theorem portLatWrite_frame {a0 a1 s2} : Frame [.tbs, .evr] s2 (portLatWrite a0 a1 s2) := by
  unfold portLatWrite
  repeat' first
    | with_reducible exact Frame.refl _ _
    | exact rfl
    | with_reducible apply Frame.ite
    | with_reducible apply Frame.app (k := ev_frame)
    | with_reducible apply Frame.app (k := modPtp_frame)
    | dsimp only
    | split
    | intro _

theorem baseReg_frame {a0 a1} : Fits [.tbs] (baseReg a0 a1) := by
  unfold baseReg
  repeat' first
    | with_reducible exact Frame.refl _ _
    | exact rfl
    | with_reducible apply Fits.ite
    | with_reducible apply Frame.app (k := modBase_frame)
    | with_reducible apply Frames.next
    | simp only [id_eq]
    | split
    | with_reducible apply Reg.Fits.ro
    | with_reducible apply Reg.Fits.hiOf
    | with_reducible apply Reg.Fits.rc
    | with_reducible apply Reg.Fits.rw
    | with_reducible apply Reg.Fits.cfg
    | with_reducible apply Reg.Fits.act
    | with_reducible apply Reg.Fits.wo
    | with_reducible apply Reg.Fits.lo
    | with_reducible apply Fits.pick_cons
    | with_reducible apply Fits.pick_nil
    | with_reducible apply Fits.first_cons
    | with_reducible apply Fits.first_nil
    | with_reducible apply Fits.arrReg
    | with_reducible apply Fits.winReg
    | with_reducible apply Fits.some
    | with_reducible apply Fits.none
    | with_reducible apply Reg.Fits.actAt
    | with_reducible apply Reg.Fits.onRead
    | intro _

theorem portReg_frame {a0 a1} : Fits [.sys, .tbs, .cmd, .evr] (portReg a0 a1) := by
  unfold portReg
  repeat' first
    | with_reducible exact Frame.refl _ _
    | exact rfl
    | with_reducible apply Frame.app (k := portLatWrite_frame)
    | with_reducible apply Frame.app (k := modPtp_frame)
    | with_reducible apply Frames.next
    | simp only [id_eq]
    | split
    | with_reducible apply Reg.Fits.ro
    | with_reducible apply Reg.Fits.hiOf
    | with_reducible apply Reg.Fits.rc
    | with_reducible apply Reg.Fits.rw
    | with_reducible apply Reg.Fits.cfg
    | with_reducible apply Reg.Fits.act
    | with_reducible apply Reg.Fits.wo
    | with_reducible apply Reg.Fits.lo
    | with_reducible apply Fits.pick_cons
    | with_reducible apply Fits.pick_nil
    | with_reducible apply Fits.first_cons
    | with_reducible apply Fits.first_nil
    | with_reducible apply Fits.arrReg
    | with_reducible apply Fits.winReg
    | with_reducible apply Fits.some
    | with_reducible apply Fits.none
    | with_reducible apply Reg.Fits.actAt
    | with_reducible apply Reg.Fits.onRead
    | intro _

theorem alignWrite_frame {a0 a1 s2} : Frame [.sve] s2 (alignWrite a0 a1 s2) := by
  unfold alignWrite
  repeat' first
    | with_reducible exact Frame.refl _ _
    | exact rfl
    | with_reducible apply Frame.app (k := modSve_frame)
    | dsimp only
    | split
    | intro _

theorem gsReg_frame {a0 a1} : Fits [.sve] (gsReg a0 a1) := by
  unfold gsReg
  repeat' first
    | with_reducible exact Frame.refl _ _
    | exact rfl
    | with_reducible apply Frame.app (k := modGsub_frame)
    | with_reducible apply Frames.next
    | simp only [id_eq]
    | split
    | with_reducible apply Reg.Fits.ro
    | with_reducible apply Reg.Fits.hiOf
    | with_reducible apply Reg.Fits.rc
    | with_reducible apply Reg.Fits.rw
    | with_reducible apply Reg.Fits.cfg
    | with_reducible apply Reg.Fits.act
    | with_reducible apply Reg.Fits.wo
    | with_reducible apply Reg.Fits.lo
    | with_reducible apply Fits.pick_cons
    | with_reducible apply Fits.pick_nil
    | with_reducible apply Fits.first_cons
    | with_reducible apply Fits.first_nil
    | with_reducible apply Fits.arrReg
    | with_reducible apply Fits.winReg
    | with_reducible apply Fits.some
    | with_reducible apply Fits.none
    | with_reducible apply Reg.Fits.actAt
    | with_reducible apply Reg.Fits.onRead
    | intro _

theorem gpReg_frame {a0 a1} : Fits [] (gpReg a0 a1) := by
  unfold gpReg
  repeat' first
    | with_reducible exact Frame.refl _ _
    | exact rfl
    | with_reducible apply Frames.next
    | simp only [id_eq]
    | split
    | with_reducible apply Reg.Fits.ro
    | with_reducible apply Reg.Fits.hiOf
    | with_reducible apply Reg.Fits.rc
    | with_reducible apply Reg.Fits.rw
    | with_reducible apply Reg.Fits.cfg
    | with_reducible apply Reg.Fits.act
    | with_reducible apply Reg.Fits.wo
    | with_reducible apply Reg.Fits.lo
    | with_reducible apply Fits.pick_cons
    | with_reducible apply Fits.pick_nil
    | with_reducible apply Fits.first_cons
    | with_reducible apply Fits.first_nil
    | with_reducible apply Fits.arrReg
    | with_reducible apply Fits.winReg
    | with_reducible apply Fits.some
    | with_reducible apply Fits.none
    | with_reducible apply Reg.Fits.actAt
    | with_reducible apply Reg.Fits.onRead
    | intro _

theorem sveReg_frame {a0} : Fits [.sys, .trg, .sve, .prt, .cmd, .evr, .now, .out] (sveReg a0) := by
  unfold sveReg
  repeat' first
    | with_reducible exact Frame.refl _ _
    | exact rfl
    | with_reducible apply Frames.ofState (k := execSveSimWrite_frame)
    | with_reducible apply Frame.app (k := modSve_frame)
    | with_reducible apply Frames.ofState (k := execSveCsSelWrite_frame)
    | with_reducible apply Reg.Fits.mono (h := sveRc_frame)
    | with_reducible apply Frame.app (k := alignWrite_frame)
    | with_reducible apply Fits.mono (h := strReg_frame)
    | with_reducible apply Fits.mono (h := svePubReg_frame)
    | with_reducible apply Fits.mono (h := gsReg_frame)
    | with_reducible apply Fits.mono (h := gpReg_frame)
    | with_reducible apply Frames.next
    | simp only [id_eq]
    | split
    | with_reducible apply Reg.Fits.ro
    | with_reducible apply Reg.Fits.hiOf
    | with_reducible apply Reg.Fits.rc
    | with_reducible apply Reg.Fits.rw
    | with_reducible apply Reg.Fits.cfg
    | with_reducible apply Reg.Fits.act
    | with_reducible apply Reg.Fits.wo
    | with_reducible apply Reg.Fits.lo
    | with_reducible apply Fits.pick_cons
    | with_reducible apply Fits.pick_nil
    | with_reducible apply Fits.first_cons
    | with_reducible apply Fits.first_nil
    | with_reducible apply Fits.arrReg
    | with_reducible apply Fits.winReg
    | with_reducible apply Fits.some
    | with_reducible apply Fits.none
    | with_reducible apply Reg.Fits.actAt
    | with_reducible apply Reg.Fits.onRead
    | intro _

theorem zoneReg_frame {a0 a1} : Fits [.prt] (zoneReg a0 a1) := by
  unfold zoneReg
  repeat' first
    | with_reducible exact Frame.refl _ _
    | exact rfl
    | with_reducible apply Fits.ite
    | with_reducible apply Frame.app (k := modZone_frame)
    | with_reducible apply Frames.next
    | simp only [id_eq]
    | split
    | with_reducible apply Reg.Fits.ro
    | with_reducible apply Reg.Fits.hiOf
    | with_reducible apply Reg.Fits.rc
    | with_reducible apply Reg.Fits.rw
    | with_reducible apply Reg.Fits.cfg
    | with_reducible apply Reg.Fits.act
    | with_reducible apply Reg.Fits.wo
    | with_reducible apply Reg.Fits.lo
    | with_reducible apply Fits.pick_cons
    | with_reducible apply Fits.pick_nil
    | with_reducible apply Fits.first_cons
    | with_reducible apply Fits.first_nil
    | with_reducible apply Fits.arrReg
    | with_reducible apply Fits.winReg
    | with_reducible apply Fits.some
    | with_reducible apply Fits.none
    | with_reducible apply Reg.Fits.actAt
    | with_reducible apply Reg.Fits.onRead
    | intro _

theorem tbsReg_frame {a0} : Fits [.sys, .tbs, .cmd, .evr, .now, .out] (tbsReg a0) := by
  unfold tbsReg
  repeat' first
    | with_reducible exact Frame.refl _ _
    | exact rfl
    | with_reducible apply Fits.ite
    | with_reducible apply Frames.ofState (k := execTbsCapture_frame)
    | with_reducible apply Frame.app (k := modTbs_frame)
    | with_reducible apply Fits.mono (h := portReg_frame)
    | with_reducible apply Fits.mono (h := baseReg_frame)
    | with_reducible apply Fits.mono (h := tegReg_frame)
    | with_reducible apply Frames.next
    | simp only [id_eq]
    | split
    | with_reducible apply Reg.Fits.ro
    | with_reducible apply Reg.Fits.hiOf
    | with_reducible apply Reg.Fits.rc
    | with_reducible apply Reg.Fits.rw
    | with_reducible apply Reg.Fits.cfg
    | with_reducible apply Reg.Fits.act
    | with_reducible apply Reg.Fits.wo
    | with_reducible apply Reg.Fits.lo
    | with_reducible apply Fits.pick_cons
    | with_reducible apply Fits.pick_nil
    | with_reducible apply Fits.first_cons
    | with_reducible apply Fits.first_nil
    | with_reducible apply Fits.arrReg
    | with_reducible apply Fits.winReg
    | with_reducible apply Fits.some
    | with_reducible apply Fits.none
    | with_reducible apply Reg.Fits.actAt
    | with_reducible apply Reg.Fits.onRead
    | intro _

theorem prtReg_frame {a0} : Fits [.prt] (prtReg a0) := by
  unfold prtReg
  repeat' first
    | with_reducible exact Frame.refl _ _
    | exact rfl
    | with_reducible apply Fits.mono (h := zoneReg_frame)
    | with_reducible apply Frames.next
    | simp only [id_eq]
    | split
    | with_reducible apply Reg.Fits.ro
    | with_reducible apply Reg.Fits.hiOf
    | with_reducible apply Reg.Fits.rc
    | with_reducible apply Reg.Fits.rw
    | with_reducible apply Reg.Fits.cfg
    | with_reducible apply Reg.Fits.act
    | with_reducible apply Reg.Fits.wo
    | with_reducible apply Reg.Fits.lo
    | with_reducible apply Fits.pick_cons
    | with_reducible apply Fits.pick_nil
    | with_reducible apply Fits.first_cons
    | with_reducible apply Fits.first_nil
    | with_reducible apply Fits.arrReg
    | with_reducible apply Fits.winReg
    | with_reducible apply Fits.some
    | with_reducible apply Fits.none
    | with_reducible apply Reg.Fits.actAt
    | with_reducible apply Reg.Fits.onRead
    | intro _

theorem cycReg_frame {a0} : Fits [.sys, .cyc, .cmd, .evr] (cycReg a0) := by
  unfold cycReg
  repeat' first
    | with_reducible exact Frame.refl _ _
    | exact rfl
    | with_reducible apply Frame.app (k := modCyc_frame)
    | with_reducible apply Fits.mono (h := cycTask_frame)
    | with_reducible apply Frames.next
    | simp only [id_eq]
    | split
    | with_reducible apply Reg.Fits.ro
    | with_reducible apply Reg.Fits.hiOf
    | with_reducible apply Reg.Fits.rc
    | with_reducible apply Reg.Fits.rw
    | with_reducible apply Reg.Fits.cfg
    | with_reducible apply Reg.Fits.act
    | with_reducible apply Reg.Fits.wo
    | with_reducible apply Reg.Fits.lo
    | with_reducible apply Fits.pick_cons
    | with_reducible apply Fits.pick_nil
    | with_reducible apply Fits.first_cons
    | with_reducible apply Fits.first_nil
    | with_reducible apply Fits.arrReg
    | with_reducible apply Fits.winReg
    | with_reducible apply Fits.some
    | with_reducible apply Fits.none
    | with_reducible apply Reg.Fits.actAt
    | with_reducible apply Reg.Fits.onRead
    | intro _

end Sys2Proof.Machine
end

