-- ==== Sys2Proof/Laws/Frames/RegAccess.lean ====
section
/-! SUPPORT. What each operation of Machine/RegAccess.lean may change. -/

namespace Sys2Proof.Machine

theorem readReg_frame {t b a r s} {m : List Block} (h : Fits m r) (hm : subs [.hiLatch, .out] m = true) : Frames m s (readReg t b a r s) := by
  unfold readReg
  split
  · exact .next (emit_frame.mono (subs_trans rfl hm))
  · rename_i r
    split
    · exact (h.reg _ rfl).read _ ‹_› _ _ _ _
    · have he : Frame m s (emit (.readData (r.get s)) (r.clear s)) := ((h.reg _ rfl).clear s).app emit_frame (subs_trans rfl hm)
      refine .next ?_
      split
      · exact he.set_hiLatch (subs_trans rfl hm)
      · exact he

theorem hostReg_frame {a0 s1} : Fits [.trg, .sve, .trp, .cyc, .tbs, .mac, .red, .swc, .vfm, .mbx, .cmd, .evr, .now, .out] (hostReg a0 s1) := by
  unfold hostReg
  repeat' first
    | with_reducible exact Frame.refl _ _
    | exact rfl
    | with_reducible apply Fits.ite
    | with_reducible apply Fits.mono (h := cfgSpaceReg_frame)
    | with_reducible apply Fits.mono (h := vfBarReg_frame)
    | with_reducible apply Fits.mono (h := msixReg_frame)
    | with_reducible apply Frames.next
    | simp only [id_eq]
    | split
    | with_reducible apply Reg.Fits.ro
    | with_reducible apply Reg.Fits.hiOf
    | with_reducible apply Reg.Fits.rc
    | with_reducible apply Reg.Fits.rw
    | with_reducible apply Reg.Fits.cfg
    | with_reducible apply Reg.Fits.act
    | with_reducible apply Reg.Fits.wo
    | with_reducible apply Reg.Fits.lo
    | with_reducible apply Fits.pick_cons
    | with_reducible apply Fits.pick_nil
    | with_reducible apply Fits.first_cons
    | with_reducible apply Fits.first_nil
    | with_reducible apply Fits.arrReg
    | with_reducible apply Fits.winReg
    | with_reducible apply Fits.some
    | with_reducible apply Fits.none
    | with_reducible apply Reg.Fits.actAt
    | with_reducible apply Reg.Fits.onRead
    | intro _

theorem regAt_frame {a0} : Fits [.sys, .acq, .flt, .trg, .sve, .prt, .trp, .cyc, .spd, .tbs, .rtc, .mac, .red, .swc, .vfm, .mbx, .cmd, .evr, .pwr, .now, .out, .freeCtr] (regAt a0) := by
  unfold regAt
  repeat' first
    | with_reducible exact Frame.refl _ _
    | exact rfl
    | with_reducible apply Fits.mono (h := sysReg_frame)
    | with_reducible apply Fits.mono (h := pwrReg_frame)
    | with_reducible apply Fits.mono (h := spdReg_frame)
    | with_reducible apply Fits.mono (h := acqReg_frame)
    | with_reducible apply Fits.mono (h := fltReg_frame)
    | with_reducible apply Fits.mono (h := trgReg_frame)
    | with_reducible apply Fits.mono (h := sveReg_frame)
    | with_reducible apply Fits.mono (h := prtReg_frame)
    | with_reducible apply Fits.mono (h := trpReg_frame)
    | with_reducible apply Fits.mono (h := cycReg_frame)
    | with_reducible apply Fits.mono (h := tbsReg_frame)
    | with_reducible apply Fits.mono (h := rtcReg_frame)
    | with_reducible apply Fits.mono (h := macReg_frame)
    | with_reducible apply Fits.mono (h := redReg_frame)
    | with_reducible apply Fits.mono (h := swcReg_frame)
    | with_reducible apply Fits.mono (h := mbxReg_frame)
    | with_reducible apply Fits.mono (h := vfmReg_frame)
    | with_reducible apply Fits.mono (h := keyReg_frame)
    | with_reducible apply Fits.mono (h := evrReg_frame)
    | with_reducible apply Fits.mono (h := cmdReg_frame)
    | with_reducible apply Fits.mono (h := ringReg_frame)
    | with_reducible apply Frames.next
    | simp only [id_eq]
    | split
    | with_reducible apply Reg.Fits.ro
    | with_reducible apply Reg.Fits.hiOf
    | with_reducible apply Reg.Fits.rc
    | with_reducible apply Reg.Fits.rw
    | with_reducible apply Reg.Fits.cfg
    | with_reducible apply Reg.Fits.act
    | with_reducible apply Reg.Fits.wo
    | with_reducible apply Reg.Fits.lo
    | with_reducible apply Fits.pick_cons
    | with_reducible apply Fits.pick_nil
    | with_reducible apply Fits.first_cons
    | with_reducible apply Fits.first_nil
    | with_reducible apply Fits.arrReg
    | with_reducible apply Fits.winReg
    | with_reducible apply Fits.some
    | with_reducible apply Fits.none
    | with_reducible apply Reg.Fits.actAt
    | with_reducible apply Reg.Fits.onRead
    | intro _

theorem execRegisterRead_frame {t b a s} : Frames [.sys, .acq, .flt, .trg, .sve, .prt, .trp, .cyc, .spd, .tbs, .rtc, .mac, .red, .swc, .vfm, .mbx, .cmd, .evr, .pwr, .hiLatch, .now, .out, .freeCtr] s (execRegisterRead t b a s) := by
  have ht : Frame [.sys, .acq, .flt, .trg, .sve, .prt, .trp, .cyc, .spd, .tbs, .rtc, .mac, .red, .swc, .vfm, .mbx, .cmd, .evr, .pwr, .hiLatch, .now, .out, .freeCtr] s (atTime t s) := atTime_frame.mono rfl
  unfold execRegisterRead
  dsimp only
  split
  · exact .next ht
  · split
    · split
      · exact .ofState ht (readReg_frame (m := [.sys, .acq, .flt, .trg, .sve, .prt, .trp, .cyc, .spd, .tbs, .rtc, .mac, .red, .swc, .vfm, .mbx, .cmd, .evr, .pwr, .hiLatch, .now, .out, .freeCtr]) (hostReg_frame.mono rfl) rfl) rfl
      · exact .next (ht.app emit_frame rfl)
    · split
      · exact .next ((ht.app busViolate_frame rfl).app emit_frame rfl)
      · exact .ofState ht (readReg_frame (m := [.sys, .acq, .flt, .trg, .sve, .prt, .trp, .cyc, .spd, .tbs, .rtc, .mac, .red, .swc, .vfm, .mbx, .cmd, .evr, .pwr, .hiLatch, .now, .out, .freeCtr]) (regAt_frame.mono rfl) rfl) rfl

theorem writeReg_frame {t b a r v s} {m : List Block} (h : Fits m r) : Frames m s (writeReg t b a r v s) := by
  unfold writeReg
  split
  · exact (h.reg _ rfl).set _ _ _ _ _
  · exact .next (.refl _ _)

theorem execRegisterWrite_frame {t b a v s} : Frames [.sys, .acq, .flt, .trg, .sve, .prt, .trp, .cyc, .spd, .tbs, .rtc, .mac, .red, .swc, .vfm, .mbx, .cmd, .evr, .pwr, .now, .out, .freeCtr] s (execRegisterWrite t b a v s) := by
  have ht : Frame [.sys, .acq, .flt, .trg, .sve, .prt, .trp, .cyc, .spd, .tbs, .rtc, .mac, .red, .swc, .vfm, .mbx, .cmd, .evr, .pwr, .now, .out, .freeCtr] s (atTime t s) := atTime_frame.mono rfl
  unfold execRegisterWrite
  dsimp only
  split
  · exact .next ht
  · split
    · split
      · exact .ofState ht (writeReg_frame hostReg_frame) rfl
      · exact .next ht
    · split
      · exact .next (ht.app busViolate_frame rfl)
      · exact .ofState ht (writeReg_frame regAt_frame) rfl

end Sys2Proof.Machine
end

