-- ==== Sys2Proof/Laws/Frames/SysCommands.lean ====
section
/-! SUPPORT. What each operation of Machine/SysCommands.lean may change. -/

namespace Sys2Proof.Machine

theorem execSysIdentify_frame {a0 a1 s2} : Frames [.mbx, .cmd, .evr, .now, .out] s2 (execSysIdentify a0 a1 s2) := by
  unfold execSysIdentify
  repeat' first
    | with_reducible exact Frame.refl _ _
    | exact rfl
    | with_reducible apply Frame.app (k := atTime_frame)
    | with_reducible apply Frame.trans (k := runCmd_frame ?_ ?_)
    | with_reducible apply Frame.trans (k := checked_frame ?_ ?_)
    | with_reducible apply Frame.app (k := reply_frame)
    | with_reducible apply Frames.next
    | dsimp only
    | split
    | intro _

theorem execSysGetHealth_frame {a0 a1 s2} : Frames [.mbx, .cmd, .evr, .now, .out] s2 (execSysGetHealth a0 a1 s2) := by
  unfold execSysGetHealth
  repeat' first
    | with_reducible exact Frame.refl _ _
    | exact rfl
    | with_reducible apply Frame.app (k := atTime_frame)
    | with_reducible apply Frame.trans (k := runCmd_frame ?_ ?_)
    | with_reducible apply Frame.trans (k := checked_frame ?_ ?_)
    | with_reducible apply Frame.app (k := reply_frame)
    | with_reducible apply Frames.next
    | dsimp only
    | split
    | intro _

theorem execSysReset_frame {a0 a1 a2 s3} : Frames [.mbx, .cmd, .evr, .pwr, .now, .out] s3 (execSysReset a0 a1 a2 s3) := by
  unfold execSysReset
  repeat' first
    | with_reducible exact Frame.refl _ _
    | exact rfl
    | with_reducible apply Frame.app (k := atTime_frame)
    | with_reducible apply Frame.trans (k := runCmd_frame ?_ ?_)
    | with_reducible apply Frame.trans (k := checked_frame ?_ ?_)
    | with_reducible apply Frame.app (k := reply_frame)
    | with_reducible apply Frame.app (k := modPwr_frame)
    | with_reducible apply Frames.next
    | dsimp only
    | split
    | intro _

theorem execSysSelftest_frame {a0 a1 a2 s3} : Frames [.mbx, .cmd, .evr, .now, .out] s3 (execSysSelftest a0 a1 a2 s3) := by
  unfold execSysSelftest
  repeat' first
    | with_reducible exact Frame.refl _ _
    | exact rfl
    | with_reducible apply Frame.app (k := atTime_frame)
    | with_reducible apply Frame.trans (k := runCmd_frame ?_ ?_)
    | with_reducible apply Frame.trans (k := checked8_frame ?_ ?_)
    | with_reducible apply Frame.app (k := holdReply_frame)
    | with_reducible apply Frame.app (k := modCmd_frame)
    | with_reducible apply Frames.next
    | dsimp only
    | split
    | intro _

theorem execSelftestComplete_frame {a0 a1 a2 a3 s4} : Frames [.mbx, .cmd, .evr, .now, .out] s4 (execSelftestComplete a0 a1 a2 a3 s4) := by
  unfold execSelftestComplete
  repeat' first
    | with_reducible exact Frame.refl _ _
    | exact rfl
    | with_reducible apply Frames.ite
    | with_reducible apply Frame.app (k := atTime_frame)
    | with_reducible apply Frame.app (k := modCmd_frame)
    | with_reducible apply Frame.app (k := finish_frame)
    | with_reducible apply Frames.next
    | dsimp only
    | split
    | intro _

theorem execSysGetState_frame {a0 a1 s2} : Frames [.mbx, .cmd, .evr, .now, .out] s2 (execSysGetState a0 a1 s2) := by
  unfold execSysGetState
  repeat' first
    | with_reducible exact Frame.refl _ _
    | exact rfl
    | with_reducible apply Frame.app (k := atTime_frame)
    | with_reducible apply Frame.trans (k := runCmd_frame ?_ ?_)
    | with_reducible apply Frame.trans (k := checked_frame ?_ ?_)
    | with_reducible apply Frame.app (k := reply_frame)
    | with_reducible apply Frames.next
    | dsimp only
    | split
    | intro _

end Sys2Proof.Machine
end

