-- ==== Sys2Proof/Laws/Memory.lean ====
section
/-! SUPPORT. The boot banks: a write keeps their canonical form, puts its octets where it says and leaves every other octet alone. -/

namespace Sys2Proof.Machine

theorem wf_pairwise (l : List Host.Cell) : Memory.wf l = true ↔ l.Pairwise fun a b => a.1 < b.1 := by
  induction l with
  | nil => simp [Memory.wf]
  | cons a r ih =>
    cases r with
    | nil => simp [Memory.wf]
    | cons b r =>
      rw [Memory.wf, Bool.and_eq_true, ih, decide_eq_true_eq, List.pairwise_cons (a := a)]
      constructor
      · rintro ⟨h, hr⟩
        refine ⟨fun c hc => ?_, hr⟩
        rcases List.mem_cons.1 hc with rfl | hc
        · exact h
        · exact Nat.lt_trans h ((List.pairwise_cons.1 hr).1 c hc)
      · rintro ⟨h, hr⟩
        exact ⟨h b (by simp), hr⟩

theorem cells_mem {off : Nat} {d : Bytes} {c : Host.Cell} (h : c ∈ imap (fun i b => (off + i, b)) d) : off ≤ c.1 ∧ c.1 < off + d.length := by
  rw [imap, List.mem_mapIdx] at h
  obtain ⟨i, hi, rfl⟩ := h
  exact ⟨Nat.le_add_right _ _, Nat.add_lt_add_left hi _⟩

theorem cells_rise (off : Nat) (d : Bytes) : (imap (fun i b => (off + i, b)) d : List Host.Cell).Pairwise fun a b => a.1 < b.1 := by
  rw [imap, List.pairwise_iff_getElem]
  intro i j hi hj hij
  simpa using hij

/-- A write keeps the canonical form. -/
theorem bankWrite_wf (off : Nat) (d : Bytes) {l : List Host.Cell} (h : Memory.wf l = true) : Memory.wf (bankWrite off d l) = true := by
  rw [wf_pairwise] at h ⊢
  have f (p : Host.Cell → Bool) : (l.filter p).Pairwise fun a b => a.1 < b.1 := h.sublist (List.filter_sublist)
  rw [bankWrite, List.pairwise_append, List.pairwise_append]
  refine ⟨⟨f _, cells_rise off d, fun a ha b hb => ?_⟩, f _, fun a ha b hb => ?_⟩
  · have := cells_mem hb
    simp at ha
    omega
  · simp at hb
    rcases List.mem_append.1 ha with ha | ha
    · simp at ha
      omega
    · have := cells_mem ha
      omega

/-- After a write the octets written read as written, and every other as before. -/
theorem bankWrite_find (off : Nat) (d : Bytes) (l : List Host.Cell) (a : Nat) :
    (bankWrite off d l).find? (fun c => c.1 == a) =
      if off ≤ a ∧ a < off + d.length then (d[a - off]?).map (fun b => (a, b)) else l.find? (fun c => c.1 == a) := by
  have outside (p : Host.Cell → Bool) (h : ∀ c : Host.Cell, c.1 = a → p c = true) :
      (l.filter p).find? (fun c => c.1 == a) = l.find? (fun c => c.1 == a) := by
    rw [List.find?_filter]
    congr 1
    funext c
    by_cases e : c.1 = a <;> simp [e, h c]
  have none' (p : Host.Cell → Bool) (h : ∀ c : Host.Cell, c.1 = a → p c = false) : (l.filter p).find? (fun c => c.1 == a) = none := by
    rw [List.find?_eq_none]
    intro c hc e
    simp at hc e
    simp [h c e] at hc
  have cells (h : ¬(off ≤ a ∧ a < off + d.length)) : (imap (fun i b => (off + i, b)) d : List Host.Cell).find? (fun c => c.1 == a) = none := by
    rw [List.find?_eq_none]
    intro c hc e
    have := cells_mem hc
    simp at e
    omega
  rw [bankWrite, List.find?_append, List.find?_append]
  by_cases lo : a < off
  · rw [outside _ (by intro c e; simp; omega), cells (by omega), none' _ (by intro c e; simp; omega), if_neg (by omega)]
    simp
  by_cases hi : off + d.length ≤ a
  · rw [none' _ (by intro c e; simp; omega), cells (by omega), outside _ (by intro c e; simp; omega), if_neg (by omega)]
    simp
  rw [none' _ (by intro c e; simp; omega), none' _ (by intro c e; simp; omega), if_pos (by omega), Option.none_or, Option.or_none]
  have hd : a - off < d.length := by omega
  rw [List.getElem?_eq_getElem hd, Option.map_some, List.find?_eq_some_iff_getElem]
  refine ⟨by simp, a - off, by simpa [imap] using hd, ?_, ?_⟩
  · simp [imap]
    omega
  · intro j hj
    simp [imap]
    omega

end Sys2Proof.Machine
end

