-- ==== Sys2Proof/Laws/Octets.lean ====
section
/-! SUPPORT. Lengths of octet strings. -/

namespace Sys2Proof.Machine

@[simp] theorem le_length (n v : Nat) : (le n v).length = n := by
  induction n generalizing v with
  | zero => rfl
  | succ n ih => simp [le, ih]

@[simp] theorem leI_length (n : Nat) (v : Int) : (leI n v).length = n := le_length ..

@[simp] theorem be_length (n v : Nat) : (be n v).length = n := by simp [be]

@[simp] theorem zeros_length (n : Nat) : (zeros n).length = n := by simp [zeros]

@[simp] theorem padTo_length (n : Nat) (b : Bytes) : (padTo n b).length = n := by
  simp only [padTo, List.length_take, List.length_append, zeros_length]
  omega

/-- A list of blocks of one length. -/
theorem flatMap_length {α β : Type} {k : Nat} {f : α → List β} (h : ∀ a, (f a).length = k) (l : List α) : (l.flatMap f).length = l.length * k := by
  induction l with
  | nil => simp
  | cons a r ih => simp [ih, h, Nat.succ_mul, Nat.add_comm]

end Sys2Proof.Machine
end

