-- ==== Sys2Proof/Laws/State.lean ====
section
/-! SUPPORT. What each field of the state reads after each update of one block: one lemma per field per update. -/

namespace Sys2Proof.Machine

/-! ### atTime -/

@[simp] theorem atTime_sys (t s) : (atTime t s).sys = s.sys := rfl
@[simp] theorem atTime_acq (t s) : (atTime t s).acq = s.acq := rfl
@[simp] theorem atTime_flt (t s) : (atTime t s).flt = s.flt := rfl
@[simp] theorem atTime_trg (t s) : (atTime t s).trg = s.trg := rfl
@[simp] theorem atTime_sve (t s) : (atTime t s).sve = s.sve := rfl
@[simp] theorem atTime_prt (t s) : (atTime t s).prt = s.prt := rfl
@[simp] theorem atTime_trp (t s) : (atTime t s).trp = s.trp := rfl
@[simp] theorem atTime_cyc (t s) : (atTime t s).cyc = s.cyc := rfl
@[simp] theorem atTime_spd (t s) : (atTime t s).spd = s.spd := rfl
@[simp] theorem atTime_tbs (t s) : (atTime t s).tbs = s.tbs := rfl
@[simp] theorem atTime_rtc (t s) : (atTime t s).rtc = s.rtc := rfl
@[simp] theorem atTime_mac (t s) : (atTime t s).mac = s.mac := rfl
@[simp] theorem atTime_red (t s) : (atTime t s).red = s.red := rfl
@[simp] theorem atTime_swc (t s) : (atTime t s).swc = s.swc := rfl
@[simp] theorem atTime_vfm (t s) : (atTime t s).vfm = s.vfm := rfl
@[simp] theorem atTime_mbx (t s) : (atTime t s).mbx = s.mbx := rfl
@[simp] theorem atTime_cmd (t s) : (atTime t s).cmd = s.cmd := rfl
@[simp] theorem atTime_key (t s) : (atTime t s).key = s.key := rfl
@[simp] theorem atTime_pwr (t s) : (atTime t s).pwr = s.pwr := rfl
@[simp] theorem atTime_hiLatch (t s) : (atTime t s).hiLatch = s.hiLatch := rfl
@[simp] theorem atTime_now (t s) : (atTime t s).now = max s.now t := rfl
@[simp] theorem atTime_out (t s) : (atTime t s).out = [] := rfl
@[simp] theorem atTime_freeCtr (t s) : (atTime t s).freeCtr = s.freeCtr := rfl
@[simp] theorem atTime_pending (t s) : (atTime t s).pending = s.pending := rfl

/-! ### modSys -/

@[simp] theorem modSys_sys (f s) : (modSys f s).sys = f s.sys := rfl
@[simp] theorem modSys_acq (f s) : (modSys f s).acq = s.acq := rfl
@[simp] theorem modSys_flt (f s) : (modSys f s).flt = s.flt := rfl
@[simp] theorem modSys_trg (f s) : (modSys f s).trg = s.trg := rfl
@[simp] theorem modSys_sve (f s) : (modSys f s).sve = s.sve := rfl
@[simp] theorem modSys_prt (f s) : (modSys f s).prt = s.prt := rfl
@[simp] theorem modSys_trp (f s) : (modSys f s).trp = s.trp := rfl
@[simp] theorem modSys_cyc (f s) : (modSys f s).cyc = s.cyc := rfl
@[simp] theorem modSys_spd (f s) : (modSys f s).spd = s.spd := rfl
@[simp] theorem modSys_tbs (f s) : (modSys f s).tbs = s.tbs := rfl
@[simp] theorem modSys_rtc (f s) : (modSys f s).rtc = s.rtc := rfl
@[simp] theorem modSys_mac (f s) : (modSys f s).mac = s.mac := rfl
@[simp] theorem modSys_red (f s) : (modSys f s).red = s.red := rfl
@[simp] theorem modSys_swc (f s) : (modSys f s).swc = s.swc := rfl
@[simp] theorem modSys_vfm (f s) : (modSys f s).vfm = s.vfm := rfl
@[simp] theorem modSys_mbx (f s) : (modSys f s).mbx = s.mbx := rfl
@[simp] theorem modSys_cmd (f s) : (modSys f s).cmd = s.cmd := rfl
@[simp] theorem modSys_key (f s) : (modSys f s).key = s.key := rfl
@[simp] theorem modSys_evr (f s) : (modSys f s).evr = s.evr := rfl
@[simp] theorem modSys_pwr (f s) : (modSys f s).pwr = s.pwr := rfl
@[simp] theorem modSys_hiLatch (f s) : (modSys f s).hiLatch = s.hiLatch := rfl
@[simp] theorem modSys_now (f s) : (modSys f s).now = s.now := rfl
@[simp] theorem modSys_out (f s) : (modSys f s).out = s.out := rfl
@[simp] theorem modSys_freeCtr (f s) : (modSys f s).freeCtr = s.freeCtr := rfl
@[simp] theorem modSys_pending (f s) : (modSys f s).pending = s.pending := rfl

/-! ### modAcq -/

@[simp] theorem modAcq_sys (f s) : (modAcq f s).sys = s.sys := rfl
@[simp] theorem modAcq_acq (f s) : (modAcq f s).acq = f s.acq := rfl
@[simp] theorem modAcq_flt (f s) : (modAcq f s).flt = s.flt := rfl
@[simp] theorem modAcq_trg (f s) : (modAcq f s).trg = s.trg := rfl
@[simp] theorem modAcq_sve (f s) : (modAcq f s).sve = s.sve := rfl
@[simp] theorem modAcq_prt (f s) : (modAcq f s).prt = s.prt := rfl
@[simp] theorem modAcq_trp (f s) : (modAcq f s).trp = s.trp := rfl
@[simp] theorem modAcq_cyc (f s) : (modAcq f s).cyc = s.cyc := rfl
@[simp] theorem modAcq_spd (f s) : (modAcq f s).spd = s.spd := rfl
@[simp] theorem modAcq_tbs (f s) : (modAcq f s).tbs = s.tbs := rfl
@[simp] theorem modAcq_rtc (f s) : (modAcq f s).rtc = s.rtc := rfl
@[simp] theorem modAcq_mac (f s) : (modAcq f s).mac = s.mac := rfl
@[simp] theorem modAcq_red (f s) : (modAcq f s).red = s.red := rfl
@[simp] theorem modAcq_swc (f s) : (modAcq f s).swc = s.swc := rfl
@[simp] theorem modAcq_vfm (f s) : (modAcq f s).vfm = s.vfm := rfl
@[simp] theorem modAcq_mbx (f s) : (modAcq f s).mbx = s.mbx := rfl
@[simp] theorem modAcq_cmd (f s) : (modAcq f s).cmd = s.cmd := rfl
@[simp] theorem modAcq_key (f s) : (modAcq f s).key = s.key := rfl
@[simp] theorem modAcq_evr (f s) : (modAcq f s).evr = s.evr := rfl
@[simp] theorem modAcq_pwr (f s) : (modAcq f s).pwr = s.pwr := rfl
@[simp] theorem modAcq_hiLatch (f s) : (modAcq f s).hiLatch = s.hiLatch := rfl
@[simp] theorem modAcq_now (f s) : (modAcq f s).now = s.now := rfl
@[simp] theorem modAcq_out (f s) : (modAcq f s).out = s.out := rfl
@[simp] theorem modAcq_freeCtr (f s) : (modAcq f s).freeCtr = s.freeCtr := rfl
@[simp] theorem modAcq_pending (f s) : (modAcq f s).pending = s.pending := rfl

/-! ### modTrg -/

@[simp] theorem modTrg_sys (f s) : (modTrg f s).sys = s.sys := rfl
@[simp] theorem modTrg_acq (f s) : (modTrg f s).acq = s.acq := rfl
@[simp] theorem modTrg_flt (f s) : (modTrg f s).flt = s.flt := rfl
@[simp] theorem modTrg_trg (f s) : (modTrg f s).trg = f s.trg := rfl
@[simp] theorem modTrg_sve (f s) : (modTrg f s).sve = s.sve := rfl
@[simp] theorem modTrg_prt (f s) : (modTrg f s).prt = s.prt := rfl
@[simp] theorem modTrg_trp (f s) : (modTrg f s).trp = s.trp := rfl
@[simp] theorem modTrg_cyc (f s) : (modTrg f s).cyc = s.cyc := rfl
@[simp] theorem modTrg_spd (f s) : (modTrg f s).spd = s.spd := rfl
@[simp] theorem modTrg_tbs (f s) : (modTrg f s).tbs = s.tbs := rfl
@[simp] theorem modTrg_rtc (f s) : (modTrg f s).rtc = s.rtc := rfl
@[simp] theorem modTrg_mac (f s) : (modTrg f s).mac = s.mac := rfl
@[simp] theorem modTrg_red (f s) : (modTrg f s).red = s.red := rfl
@[simp] theorem modTrg_swc (f s) : (modTrg f s).swc = s.swc := rfl
@[simp] theorem modTrg_vfm (f s) : (modTrg f s).vfm = s.vfm := rfl
@[simp] theorem modTrg_mbx (f s) : (modTrg f s).mbx = s.mbx := rfl
@[simp] theorem modTrg_cmd (f s) : (modTrg f s).cmd = s.cmd := rfl
@[simp] theorem modTrg_key (f s) : (modTrg f s).key = s.key := rfl
@[simp] theorem modTrg_evr (f s) : (modTrg f s).evr = s.evr := rfl
@[simp] theorem modTrg_pwr (f s) : (modTrg f s).pwr = s.pwr := rfl
@[simp] theorem modTrg_hiLatch (f s) : (modTrg f s).hiLatch = s.hiLatch := rfl
@[simp] theorem modTrg_now (f s) : (modTrg f s).now = s.now := rfl
@[simp] theorem modTrg_out (f s) : (modTrg f s).out = s.out := rfl
@[simp] theorem modTrg_freeCtr (f s) : (modTrg f s).freeCtr = s.freeCtr := rfl
@[simp] theorem modTrg_pending (f s) : (modTrg f s).pending = s.pending := rfl

/-! ### modSve -/

@[simp] theorem modSve_sys (f s) : (modSve f s).sys = s.sys := rfl
@[simp] theorem modSve_acq (f s) : (modSve f s).acq = s.acq := rfl
@[simp] theorem modSve_flt (f s) : (modSve f s).flt = s.flt := rfl
@[simp] theorem modSve_trg (f s) : (modSve f s).trg = s.trg := rfl
@[simp] theorem modSve_sve (f s) : (modSve f s).sve = f s.sve := rfl
@[simp] theorem modSve_prt (f s) : (modSve f s).prt = s.prt := rfl
@[simp] theorem modSve_trp (f s) : (modSve f s).trp = s.trp := rfl
@[simp] theorem modSve_cyc (f s) : (modSve f s).cyc = s.cyc := rfl
@[simp] theorem modSve_spd (f s) : (modSve f s).spd = s.spd := rfl
@[simp] theorem modSve_tbs (f s) : (modSve f s).tbs = s.tbs := rfl
@[simp] theorem modSve_rtc (f s) : (modSve f s).rtc = s.rtc := rfl
@[simp] theorem modSve_mac (f s) : (modSve f s).mac = s.mac := rfl
@[simp] theorem modSve_red (f s) : (modSve f s).red = s.red := rfl
@[simp] theorem modSve_swc (f s) : (modSve f s).swc = s.swc := rfl
@[simp] theorem modSve_vfm (f s) : (modSve f s).vfm = s.vfm := rfl
@[simp] theorem modSve_mbx (f s) : (modSve f s).mbx = s.mbx := rfl
@[simp] theorem modSve_cmd (f s) : (modSve f s).cmd = s.cmd := rfl
@[simp] theorem modSve_key (f s) : (modSve f s).key = s.key := rfl
@[simp] theorem modSve_evr (f s) : (modSve f s).evr = s.evr := rfl
@[simp] theorem modSve_pwr (f s) : (modSve f s).pwr = s.pwr := rfl
@[simp] theorem modSve_hiLatch (f s) : (modSve f s).hiLatch = s.hiLatch := rfl
@[simp] theorem modSve_now (f s) : (modSve f s).now = s.now := rfl
@[simp] theorem modSve_out (f s) : (modSve f s).out = s.out := rfl
@[simp] theorem modSve_freeCtr (f s) : (modSve f s).freeCtr = s.freeCtr := rfl
@[simp] theorem modSve_pending (f s) : (modSve f s).pending = s.pending := rfl

/-! ### modPrt -/

@[simp] theorem modPrt_sys (f s) : (modPrt f s).sys = s.sys := rfl
@[simp] theorem modPrt_acq (f s) : (modPrt f s).acq = s.acq := rfl
@[simp] theorem modPrt_flt (f s) : (modPrt f s).flt = s.flt := rfl
@[simp] theorem modPrt_trg (f s) : (modPrt f s).trg = s.trg := rfl
@[simp] theorem modPrt_sve (f s) : (modPrt f s).sve = s.sve := rfl
@[simp] theorem modPrt_prt (f s) : (modPrt f s).prt = f s.prt := rfl
@[simp] theorem modPrt_trp (f s) : (modPrt f s).trp = s.trp := rfl
@[simp] theorem modPrt_cyc (f s) : (modPrt f s).cyc = s.cyc := rfl
@[simp] theorem modPrt_spd (f s) : (modPrt f s).spd = s.spd := rfl
@[simp] theorem modPrt_tbs (f s) : (modPrt f s).tbs = s.tbs := rfl
@[simp] theorem modPrt_rtc (f s) : (modPrt f s).rtc = s.rtc := rfl
@[simp] theorem modPrt_mac (f s) : (modPrt f s).mac = s.mac := rfl
@[simp] theorem modPrt_red (f s) : (modPrt f s).red = s.red := rfl
@[simp] theorem modPrt_swc (f s) : (modPrt f s).swc = s.swc := rfl
@[simp] theorem modPrt_vfm (f s) : (modPrt f s).vfm = s.vfm := rfl
@[simp] theorem modPrt_mbx (f s) : (modPrt f s).mbx = s.mbx := rfl
@[simp] theorem modPrt_cmd (f s) : (modPrt f s).cmd = s.cmd := rfl
@[simp] theorem modPrt_key (f s) : (modPrt f s).key = s.key := rfl
@[simp] theorem modPrt_evr (f s) : (modPrt f s).evr = s.evr := rfl
@[simp] theorem modPrt_pwr (f s) : (modPrt f s).pwr = s.pwr := rfl
@[simp] theorem modPrt_hiLatch (f s) : (modPrt f s).hiLatch = s.hiLatch := rfl
@[simp] theorem modPrt_now (f s) : (modPrt f s).now = s.now := rfl
@[simp] theorem modPrt_out (f s) : (modPrt f s).out = s.out := rfl
@[simp] theorem modPrt_freeCtr (f s) : (modPrt f s).freeCtr = s.freeCtr := rfl
@[simp] theorem modPrt_pending (f s) : (modPrt f s).pending = s.pending := rfl

/-! ### modTrp -/

@[simp] theorem modTrp_sys (f s) : (modTrp f s).sys = s.sys := rfl
@[simp] theorem modTrp_acq (f s) : (modTrp f s).acq = s.acq := rfl
@[simp] theorem modTrp_flt (f s) : (modTrp f s).flt = s.flt := rfl
@[simp] theorem modTrp_trg (f s) : (modTrp f s).trg = s.trg := rfl
@[simp] theorem modTrp_sve (f s) : (modTrp f s).sve = s.sve := rfl
@[simp] theorem modTrp_prt (f s) : (modTrp f s).prt = s.prt := rfl
@[simp] theorem modTrp_trp (f s) : (modTrp f s).trp = f s.trp := rfl
@[simp] theorem modTrp_cyc (f s) : (modTrp f s).cyc = s.cyc := rfl
@[simp] theorem modTrp_spd (f s) : (modTrp f s).spd = s.spd := rfl
@[simp] theorem modTrp_tbs (f s) : (modTrp f s).tbs = s.tbs := rfl
@[simp] theorem modTrp_rtc (f s) : (modTrp f s).rtc = s.rtc := rfl
@[simp] theorem modTrp_mac (f s) : (modTrp f s).mac = s.mac := rfl
@[simp] theorem modTrp_red (f s) : (modTrp f s).red = s.red := rfl
@[simp] theorem modTrp_swc (f s) : (modTrp f s).swc = s.swc := rfl
@[simp] theorem modTrp_vfm (f s) : (modTrp f s).vfm = s.vfm := rfl
@[simp] theorem modTrp_mbx (f s) : (modTrp f s).mbx = s.mbx := rfl
@[simp] theorem modTrp_cmd (f s) : (modTrp f s).cmd = s.cmd := rfl
@[simp] theorem modTrp_key (f s) : (modTrp f s).key = s.key := rfl
@[simp] theorem modTrp_evr (f s) : (modTrp f s).evr = s.evr := rfl
@[simp] theorem modTrp_pwr (f s) : (modTrp f s).pwr = s.pwr := rfl
@[simp] theorem modTrp_hiLatch (f s) : (modTrp f s).hiLatch = s.hiLatch := rfl
@[simp] theorem modTrp_now (f s) : (modTrp f s).now = s.now := rfl
@[simp] theorem modTrp_out (f s) : (modTrp f s).out = s.out := rfl
@[simp] theorem modTrp_freeCtr (f s) : (modTrp f s).freeCtr = s.freeCtr := rfl
@[simp] theorem modTrp_pending (f s) : (modTrp f s).pending = s.pending := rfl

/-! ### modCyc -/

@[simp] theorem modCyc_sys (f s) : (modCyc f s).sys = s.sys := rfl
@[simp] theorem modCyc_acq (f s) : (modCyc f s).acq = s.acq := rfl
@[simp] theorem modCyc_flt (f s) : (modCyc f s).flt = s.flt := rfl
@[simp] theorem modCyc_trg (f s) : (modCyc f s).trg = s.trg := rfl
@[simp] theorem modCyc_sve (f s) : (modCyc f s).sve = s.sve := rfl
@[simp] theorem modCyc_prt (f s) : (modCyc f s).prt = s.prt := rfl
@[simp] theorem modCyc_trp (f s) : (modCyc f s).trp = s.trp := rfl
@[simp] theorem modCyc_cyc (f s) : (modCyc f s).cyc = f s.cyc := rfl
@[simp] theorem modCyc_spd (f s) : (modCyc f s).spd = s.spd := rfl
@[simp] theorem modCyc_tbs (f s) : (modCyc f s).tbs = s.tbs := rfl
@[simp] theorem modCyc_rtc (f s) : (modCyc f s).rtc = s.rtc := rfl
@[simp] theorem modCyc_mac (f s) : (modCyc f s).mac = s.mac := rfl
@[simp] theorem modCyc_red (f s) : (modCyc f s).red = s.red := rfl
@[simp] theorem modCyc_swc (f s) : (modCyc f s).swc = s.swc := rfl
@[simp] theorem modCyc_vfm (f s) : (modCyc f s).vfm = s.vfm := rfl
@[simp] theorem modCyc_mbx (f s) : (modCyc f s).mbx = s.mbx := rfl
@[simp] theorem modCyc_cmd (f s) : (modCyc f s).cmd = s.cmd := rfl
@[simp] theorem modCyc_key (f s) : (modCyc f s).key = s.key := rfl
@[simp] theorem modCyc_evr (f s) : (modCyc f s).evr = s.evr := rfl
@[simp] theorem modCyc_pwr (f s) : (modCyc f s).pwr = s.pwr := rfl
@[simp] theorem modCyc_hiLatch (f s) : (modCyc f s).hiLatch = s.hiLatch := rfl
@[simp] theorem modCyc_now (f s) : (modCyc f s).now = s.now := rfl
@[simp] theorem modCyc_out (f s) : (modCyc f s).out = s.out := rfl
@[simp] theorem modCyc_freeCtr (f s) : (modCyc f s).freeCtr = s.freeCtr := rfl
@[simp] theorem modCyc_pending (f s) : (modCyc f s).pending = s.pending := rfl

/-! ### modSpd -/

@[simp] theorem modSpd_sys (f s) : (modSpd f s).sys = s.sys := rfl
@[simp] theorem modSpd_acq (f s) : (modSpd f s).acq = s.acq := rfl
@[simp] theorem modSpd_flt (f s) : (modSpd f s).flt = s.flt := rfl
@[simp] theorem modSpd_trg (f s) : (modSpd f s).trg = s.trg := rfl
@[simp] theorem modSpd_sve (f s) : (modSpd f s).sve = s.sve := rfl
@[simp] theorem modSpd_prt (f s) : (modSpd f s).prt = s.prt := rfl
@[simp] theorem modSpd_trp (f s) : (modSpd f s).trp = s.trp := rfl
@[simp] theorem modSpd_cyc (f s) : (modSpd f s).cyc = s.cyc := rfl
@[simp] theorem modSpd_spd (f s) : (modSpd f s).spd = f s.spd := rfl
@[simp] theorem modSpd_tbs (f s) : (modSpd f s).tbs = s.tbs := rfl
@[simp] theorem modSpd_rtc (f s) : (modSpd f s).rtc = s.rtc := rfl
@[simp] theorem modSpd_mac (f s) : (modSpd f s).mac = s.mac := rfl
@[simp] theorem modSpd_red (f s) : (modSpd f s).red = s.red := rfl
@[simp] theorem modSpd_swc (f s) : (modSpd f s).swc = s.swc := rfl
@[simp] theorem modSpd_vfm (f s) : (modSpd f s).vfm = s.vfm := rfl
@[simp] theorem modSpd_mbx (f s) : (modSpd f s).mbx = s.mbx := rfl
@[simp] theorem modSpd_cmd (f s) : (modSpd f s).cmd = s.cmd := rfl
@[simp] theorem modSpd_key (f s) : (modSpd f s).key = s.key := rfl
@[simp] theorem modSpd_evr (f s) : (modSpd f s).evr = s.evr := rfl
@[simp] theorem modSpd_pwr (f s) : (modSpd f s).pwr = s.pwr := rfl
@[simp] theorem modSpd_hiLatch (f s) : (modSpd f s).hiLatch = s.hiLatch := rfl
@[simp] theorem modSpd_now (f s) : (modSpd f s).now = s.now := rfl
@[simp] theorem modSpd_out (f s) : (modSpd f s).out = s.out := rfl
@[simp] theorem modSpd_freeCtr (f s) : (modSpd f s).freeCtr = s.freeCtr := rfl
@[simp] theorem modSpd_pending (f s) : (modSpd f s).pending = s.pending := rfl

/-! ### modTbs -/

@[simp] theorem modTbs_sys (f s) : (modTbs f s).sys = s.sys := rfl
@[simp] theorem modTbs_acq (f s) : (modTbs f s).acq = s.acq := rfl
@[simp] theorem modTbs_flt (f s) : (modTbs f s).flt = s.flt := rfl
@[simp] theorem modTbs_trg (f s) : (modTbs f s).trg = s.trg := rfl
@[simp] theorem modTbs_sve (f s) : (modTbs f s).sve = s.sve := rfl
@[simp] theorem modTbs_prt (f s) : (modTbs f s).prt = s.prt := rfl
@[simp] theorem modTbs_trp (f s) : (modTbs f s).trp = s.trp := rfl
@[simp] theorem modTbs_cyc (f s) : (modTbs f s).cyc = s.cyc := rfl
@[simp] theorem modTbs_spd (f s) : (modTbs f s).spd = s.spd := rfl
@[simp] theorem modTbs_tbs (f s) : (modTbs f s).tbs = f s.tbs := rfl
@[simp] theorem modTbs_rtc (f s) : (modTbs f s).rtc = s.rtc := rfl
@[simp] theorem modTbs_mac (f s) : (modTbs f s).mac = s.mac := rfl
@[simp] theorem modTbs_red (f s) : (modTbs f s).red = s.red := rfl
@[simp] theorem modTbs_swc (f s) : (modTbs f s).swc = s.swc := rfl
@[simp] theorem modTbs_vfm (f s) : (modTbs f s).vfm = s.vfm := rfl
@[simp] theorem modTbs_mbx (f s) : (modTbs f s).mbx = s.mbx := rfl
@[simp] theorem modTbs_cmd (f s) : (modTbs f s).cmd = s.cmd := rfl
@[simp] theorem modTbs_key (f s) : (modTbs f s).key = s.key := rfl
@[simp] theorem modTbs_evr (f s) : (modTbs f s).evr = s.evr := rfl
@[simp] theorem modTbs_pwr (f s) : (modTbs f s).pwr = s.pwr := rfl
@[simp] theorem modTbs_hiLatch (f s) : (modTbs f s).hiLatch = s.hiLatch := rfl
@[simp] theorem modTbs_now (f s) : (modTbs f s).now = s.now := rfl
@[simp] theorem modTbs_out (f s) : (modTbs f s).out = s.out := rfl
@[simp] theorem modTbs_freeCtr (f s) : (modTbs f s).freeCtr = s.freeCtr := rfl
@[simp] theorem modTbs_pending (f s) : (modTbs f s).pending = s.pending := rfl

/-! ### modRtc -/

@[simp] theorem modRtc_sys (f s) : (modRtc f s).sys = s.sys := rfl
@[simp] theorem modRtc_acq (f s) : (modRtc f s).acq = s.acq := rfl
@[simp] theorem modRtc_flt (f s) : (modRtc f s).flt = s.flt := rfl
@[simp] theorem modRtc_trg (f s) : (modRtc f s).trg = s.trg := rfl
@[simp] theorem modRtc_sve (f s) : (modRtc f s).sve = s.sve := rfl
@[simp] theorem modRtc_prt (f s) : (modRtc f s).prt = s.prt := rfl
@[simp] theorem modRtc_trp (f s) : (modRtc f s).trp = s.trp := rfl
@[simp] theorem modRtc_cyc (f s) : (modRtc f s).cyc = s.cyc := rfl
@[simp] theorem modRtc_spd (f s) : (modRtc f s).spd = s.spd := rfl
@[simp] theorem modRtc_tbs (f s) : (modRtc f s).tbs = s.tbs := rfl
@[simp] theorem modRtc_rtc (f s) : (modRtc f s).rtc = f s.rtc := rfl
@[simp] theorem modRtc_mac (f s) : (modRtc f s).mac = s.mac := rfl
@[simp] theorem modRtc_red (f s) : (modRtc f s).red = s.red := rfl
@[simp] theorem modRtc_swc (f s) : (modRtc f s).swc = s.swc := rfl
@[simp] theorem modRtc_vfm (f s) : (modRtc f s).vfm = s.vfm := rfl
@[simp] theorem modRtc_mbx (f s) : (modRtc f s).mbx = s.mbx := rfl
@[simp] theorem modRtc_cmd (f s) : (modRtc f s).cmd = s.cmd := rfl
@[simp] theorem modRtc_key (f s) : (modRtc f s).key = s.key := rfl
@[simp] theorem modRtc_evr (f s) : (modRtc f s).evr = s.evr := rfl
@[simp] theorem modRtc_pwr (f s) : (modRtc f s).pwr = s.pwr := rfl
@[simp] theorem modRtc_hiLatch (f s) : (modRtc f s).hiLatch = s.hiLatch := rfl
@[simp] theorem modRtc_now (f s) : (modRtc f s).now = s.now := rfl
@[simp] theorem modRtc_out (f s) : (modRtc f s).out = s.out := rfl
@[simp] theorem modRtc_freeCtr (f s) : (modRtc f s).freeCtr = s.freeCtr := rfl
@[simp] theorem modRtc_pending (f s) : (modRtc f s).pending = s.pending := rfl

/-! ### modSwc -/

@[simp] theorem modSwc_sys (f s) : (modSwc f s).sys = s.sys := rfl
@[simp] theorem modSwc_acq (f s) : (modSwc f s).acq = s.acq := rfl
@[simp] theorem modSwc_flt (f s) : (modSwc f s).flt = s.flt := rfl
@[simp] theorem modSwc_trg (f s) : (modSwc f s).trg = s.trg := rfl
@[simp] theorem modSwc_sve (f s) : (modSwc f s).sve = s.sve := rfl
@[simp] theorem modSwc_prt (f s) : (modSwc f s).prt = s.prt := rfl
@[simp] theorem modSwc_trp (f s) : (modSwc f s).trp = s.trp := rfl
@[simp] theorem modSwc_cyc (f s) : (modSwc f s).cyc = s.cyc := rfl
@[simp] theorem modSwc_spd (f s) : (modSwc f s).spd = s.spd := rfl
@[simp] theorem modSwc_tbs (f s) : (modSwc f s).tbs = s.tbs := rfl
@[simp] theorem modSwc_rtc (f s) : (modSwc f s).rtc = s.rtc := rfl
@[simp] theorem modSwc_mac (f s) : (modSwc f s).mac = s.mac := rfl
@[simp] theorem modSwc_red (f s) : (modSwc f s).red = s.red := rfl
@[simp] theorem modSwc_swc (f s) : (modSwc f s).swc = f s.swc := rfl
@[simp] theorem modSwc_vfm (f s) : (modSwc f s).vfm = s.vfm := rfl
@[simp] theorem modSwc_mbx (f s) : (modSwc f s).mbx = s.mbx := rfl
@[simp] theorem modSwc_cmd (f s) : (modSwc f s).cmd = s.cmd := rfl
@[simp] theorem modSwc_key (f s) : (modSwc f s).key = s.key := rfl
@[simp] theorem modSwc_evr (f s) : (modSwc f s).evr = s.evr := rfl
@[simp] theorem modSwc_pwr (f s) : (modSwc f s).pwr = s.pwr := rfl
@[simp] theorem modSwc_hiLatch (f s) : (modSwc f s).hiLatch = s.hiLatch := rfl
@[simp] theorem modSwc_now (f s) : (modSwc f s).now = s.now := rfl
@[simp] theorem modSwc_out (f s) : (modSwc f s).out = s.out := rfl
@[simp] theorem modSwc_freeCtr (f s) : (modSwc f s).freeCtr = s.freeCtr := rfl
@[simp] theorem modSwc_pending (f s) : (modSwc f s).pending = s.pending := rfl

/-! ### modVfm -/

@[simp] theorem modVfm_sys (f s) : (modVfm f s).sys = s.sys := rfl
@[simp] theorem modVfm_acq (f s) : (modVfm f s).acq = s.acq := rfl
@[simp] theorem modVfm_flt (f s) : (modVfm f s).flt = s.flt := rfl
@[simp] theorem modVfm_trg (f s) : (modVfm f s).trg = s.trg := rfl
@[simp] theorem modVfm_sve (f s) : (modVfm f s).sve = s.sve := rfl
@[simp] theorem modVfm_prt (f s) : (modVfm f s).prt = s.prt := rfl
@[simp] theorem modVfm_trp (f s) : (modVfm f s).trp = s.trp := rfl
@[simp] theorem modVfm_cyc (f s) : (modVfm f s).cyc = s.cyc := rfl
@[simp] theorem modVfm_spd (f s) : (modVfm f s).spd = s.spd := rfl
@[simp] theorem modVfm_tbs (f s) : (modVfm f s).tbs = s.tbs := rfl
@[simp] theorem modVfm_rtc (f s) : (modVfm f s).rtc = s.rtc := rfl
@[simp] theorem modVfm_mac (f s) : (modVfm f s).mac = s.mac := rfl
@[simp] theorem modVfm_red (f s) : (modVfm f s).red = s.red := rfl
@[simp] theorem modVfm_swc (f s) : (modVfm f s).swc = s.swc := rfl
@[simp] theorem modVfm_vfm (f s) : (modVfm f s).vfm = f s.vfm := rfl
@[simp] theorem modVfm_mbx (f s) : (modVfm f s).mbx = s.mbx := rfl
@[simp] theorem modVfm_cmd (f s) : (modVfm f s).cmd = s.cmd := rfl
@[simp] theorem modVfm_key (f s) : (modVfm f s).key = s.key := rfl
@[simp] theorem modVfm_evr (f s) : (modVfm f s).evr = s.evr := rfl
@[simp] theorem modVfm_pwr (f s) : (modVfm f s).pwr = s.pwr := rfl
@[simp] theorem modVfm_hiLatch (f s) : (modVfm f s).hiLatch = s.hiLatch := rfl
@[simp] theorem modVfm_now (f s) : (modVfm f s).now = s.now := rfl
@[simp] theorem modVfm_out (f s) : (modVfm f s).out = s.out := rfl
@[simp] theorem modVfm_freeCtr (f s) : (modVfm f s).freeCtr = s.freeCtr := rfl
@[simp] theorem modVfm_pending (f s) : (modVfm f s).pending = s.pending := rfl

/-! ### modMbx -/

@[simp] theorem modMbx_sys (f s) : (modMbx f s).sys = s.sys := rfl
@[simp] theorem modMbx_acq (f s) : (modMbx f s).acq = s.acq := rfl
@[simp] theorem modMbx_flt (f s) : (modMbx f s).flt = s.flt := rfl
@[simp] theorem modMbx_trg (f s) : (modMbx f s).trg = s.trg := rfl
@[simp] theorem modMbx_sve (f s) : (modMbx f s).sve = s.sve := rfl
@[simp] theorem modMbx_prt (f s) : (modMbx f s).prt = s.prt := rfl
@[simp] theorem modMbx_trp (f s) : (modMbx f s).trp = s.trp := rfl
@[simp] theorem modMbx_cyc (f s) : (modMbx f s).cyc = s.cyc := rfl
@[simp] theorem modMbx_spd (f s) : (modMbx f s).spd = s.spd := rfl
@[simp] theorem modMbx_tbs (f s) : (modMbx f s).tbs = s.tbs := rfl
@[simp] theorem modMbx_rtc (f s) : (modMbx f s).rtc = s.rtc := rfl
@[simp] theorem modMbx_mac (f s) : (modMbx f s).mac = s.mac := rfl
@[simp] theorem modMbx_red (f s) : (modMbx f s).red = s.red := rfl
@[simp] theorem modMbx_swc (f s) : (modMbx f s).swc = s.swc := rfl
@[simp] theorem modMbx_vfm (f s) : (modMbx f s).vfm = s.vfm := rfl
@[simp] theorem modMbx_mbx (f s) : (modMbx f s).mbx = f s.mbx := rfl
@[simp] theorem modMbx_cmd (f s) : (modMbx f s).cmd = s.cmd := rfl
@[simp] theorem modMbx_key (f s) : (modMbx f s).key = s.key := rfl
@[simp] theorem modMbx_evr (f s) : (modMbx f s).evr = s.evr := rfl
@[simp] theorem modMbx_pwr (f s) : (modMbx f s).pwr = s.pwr := rfl
@[simp] theorem modMbx_hiLatch (f s) : (modMbx f s).hiLatch = s.hiLatch := rfl
@[simp] theorem modMbx_now (f s) : (modMbx f s).now = s.now := rfl
@[simp] theorem modMbx_out (f s) : (modMbx f s).out = s.out := rfl
@[simp] theorem modMbx_freeCtr (f s) : (modMbx f s).freeCtr = s.freeCtr := rfl
@[simp] theorem modMbx_pending (f s) : (modMbx f s).pending = s.pending := rfl

/-! ### modCmd -/

@[simp] theorem modCmd_sys (f s) : (modCmd f s).sys = s.sys := rfl
@[simp] theorem modCmd_acq (f s) : (modCmd f s).acq = s.acq := rfl
@[simp] theorem modCmd_flt (f s) : (modCmd f s).flt = s.flt := rfl
@[simp] theorem modCmd_trg (f s) : (modCmd f s).trg = s.trg := rfl
@[simp] theorem modCmd_sve (f s) : (modCmd f s).sve = s.sve := rfl
@[simp] theorem modCmd_prt (f s) : (modCmd f s).prt = s.prt := rfl
@[simp] theorem modCmd_trp (f s) : (modCmd f s).trp = s.trp := rfl
@[simp] theorem modCmd_cyc (f s) : (modCmd f s).cyc = s.cyc := rfl
@[simp] theorem modCmd_spd (f s) : (modCmd f s).spd = s.spd := rfl
@[simp] theorem modCmd_tbs (f s) : (modCmd f s).tbs = s.tbs := rfl
@[simp] theorem modCmd_rtc (f s) : (modCmd f s).rtc = s.rtc := rfl
@[simp] theorem modCmd_mac (f s) : (modCmd f s).mac = s.mac := rfl
@[simp] theorem modCmd_red (f s) : (modCmd f s).red = s.red := rfl
@[simp] theorem modCmd_swc (f s) : (modCmd f s).swc = s.swc := rfl
@[simp] theorem modCmd_vfm (f s) : (modCmd f s).vfm = s.vfm := rfl
@[simp] theorem modCmd_mbx (f s) : (modCmd f s).mbx = s.mbx := rfl
@[simp] theorem modCmd_cmd (f s) : (modCmd f s).cmd = f s.cmd := rfl
@[simp] theorem modCmd_key (f s) : (modCmd f s).key = s.key := rfl
@[simp] theorem modCmd_evr (f s) : (modCmd f s).evr = s.evr := rfl
@[simp] theorem modCmd_pwr (f s) : (modCmd f s).pwr = s.pwr := rfl
@[simp] theorem modCmd_hiLatch (f s) : (modCmd f s).hiLatch = s.hiLatch := rfl
@[simp] theorem modCmd_now (f s) : (modCmd f s).now = s.now := rfl
@[simp] theorem modCmd_out (f s) : (modCmd f s).out = s.out := rfl
@[simp] theorem modCmd_freeCtr (f s) : (modCmd f s).freeCtr = s.freeCtr := rfl
@[simp] theorem modCmd_pending (f s) : (modCmd f s).pending = s.pending := rfl

/-! ### modKey -/

@[simp] theorem modKey_sys (f s) : (modKey f s).sys = s.sys := rfl
@[simp] theorem modKey_acq (f s) : (modKey f s).acq = s.acq := rfl
@[simp] theorem modKey_flt (f s) : (modKey f s).flt = s.flt := rfl
@[simp] theorem modKey_trg (f s) : (modKey f s).trg = s.trg := rfl
@[simp] theorem modKey_sve (f s) : (modKey f s).sve = s.sve := rfl
@[simp] theorem modKey_prt (f s) : (modKey f s).prt = s.prt := rfl
@[simp] theorem modKey_trp (f s) : (modKey f s).trp = s.trp := rfl
@[simp] theorem modKey_cyc (f s) : (modKey f s).cyc = s.cyc := rfl
@[simp] theorem modKey_spd (f s) : (modKey f s).spd = s.spd := rfl
@[simp] theorem modKey_tbs (f s) : (modKey f s).tbs = s.tbs := rfl
@[simp] theorem modKey_rtc (f s) : (modKey f s).rtc = s.rtc := rfl
@[simp] theorem modKey_mac (f s) : (modKey f s).mac = s.mac := rfl
@[simp] theorem modKey_red (f s) : (modKey f s).red = s.red := rfl
@[simp] theorem modKey_swc (f s) : (modKey f s).swc = s.swc := rfl
@[simp] theorem modKey_vfm (f s) : (modKey f s).vfm = s.vfm := rfl
@[simp] theorem modKey_mbx (f s) : (modKey f s).mbx = s.mbx := rfl
@[simp] theorem modKey_cmd (f s) : (modKey f s).cmd = s.cmd := rfl
@[simp] theorem modKey_key (f s) : (modKey f s).key = f s.key := rfl
@[simp] theorem modKey_evr (f s) : (modKey f s).evr = s.evr := rfl
@[simp] theorem modKey_pwr (f s) : (modKey f s).pwr = s.pwr := rfl
@[simp] theorem modKey_hiLatch (f s) : (modKey f s).hiLatch = s.hiLatch := rfl
@[simp] theorem modKey_now (f s) : (modKey f s).now = s.now := rfl
@[simp] theorem modKey_out (f s) : (modKey f s).out = s.out := rfl
@[simp] theorem modKey_freeCtr (f s) : (modKey f s).freeCtr = s.freeCtr := rfl
@[simp] theorem modKey_pending (f s) : (modKey f s).pending = s.pending := rfl

/-! ### modEvr -/

@[simp] theorem modEvr_sys (f s) : (modEvr f s).sys = s.sys := rfl
@[simp] theorem modEvr_acq (f s) : (modEvr f s).acq = s.acq := rfl
@[simp] theorem modEvr_flt (f s) : (modEvr f s).flt = s.flt := rfl
@[simp] theorem modEvr_trg (f s) : (modEvr f s).trg = s.trg := rfl
@[simp] theorem modEvr_sve (f s) : (modEvr f s).sve = s.sve := rfl
@[simp] theorem modEvr_prt (f s) : (modEvr f s).prt = s.prt := rfl
@[simp] theorem modEvr_trp (f s) : (modEvr f s).trp = s.trp := rfl
@[simp] theorem modEvr_cyc (f s) : (modEvr f s).cyc = s.cyc := rfl
@[simp] theorem modEvr_spd (f s) : (modEvr f s).spd = s.spd := rfl
@[simp] theorem modEvr_tbs (f s) : (modEvr f s).tbs = s.tbs := rfl
@[simp] theorem modEvr_rtc (f s) : (modEvr f s).rtc = s.rtc := rfl
@[simp] theorem modEvr_mac (f s) : (modEvr f s).mac = s.mac := rfl
@[simp] theorem modEvr_red (f s) : (modEvr f s).red = s.red := rfl
@[simp] theorem modEvr_swc (f s) : (modEvr f s).swc = s.swc := rfl
@[simp] theorem modEvr_vfm (f s) : (modEvr f s).vfm = s.vfm := rfl
@[simp] theorem modEvr_mbx (f s) : (modEvr f s).mbx = s.mbx := rfl
@[simp] theorem modEvr_cmd (f s) : (modEvr f s).cmd = s.cmd := rfl
@[simp] theorem modEvr_key (f s) : (modEvr f s).key = s.key := rfl
@[simp] theorem modEvr_evr (f s) : (modEvr f s).evr = f s.evr := rfl
@[simp] theorem modEvr_pwr (f s) : (modEvr f s).pwr = s.pwr := rfl
@[simp] theorem modEvr_hiLatch (f s) : (modEvr f s).hiLatch = s.hiLatch := rfl
@[simp] theorem modEvr_now (f s) : (modEvr f s).now = s.now := rfl
@[simp] theorem modEvr_out (f s) : (modEvr f s).out = s.out := rfl
@[simp] theorem modEvr_freeCtr (f s) : (modEvr f s).freeCtr = s.freeCtr := rfl
@[simp] theorem modEvr_pending (f s) : (modEvr f s).pending = s.pending := rfl

/-! ### modPwr -/

@[simp] theorem modPwr_sys (f s) : (modPwr f s).sys = s.sys := rfl
@[simp] theorem modPwr_acq (f s) : (modPwr f s).acq = s.acq := rfl
@[simp] theorem modPwr_flt (f s) : (modPwr f s).flt = s.flt := rfl
@[simp] theorem modPwr_trg (f s) : (modPwr f s).trg = s.trg := rfl
@[simp] theorem modPwr_sve (f s) : (modPwr f s).sve = s.sve := rfl
@[simp] theorem modPwr_prt (f s) : (modPwr f s).prt = s.prt := rfl
@[simp] theorem modPwr_trp (f s) : (modPwr f s).trp = s.trp := rfl
@[simp] theorem modPwr_cyc (f s) : (modPwr f s).cyc = s.cyc := rfl
@[simp] theorem modPwr_spd (f s) : (modPwr f s).spd = s.spd := rfl
@[simp] theorem modPwr_tbs (f s) : (modPwr f s).tbs = s.tbs := rfl
@[simp] theorem modPwr_rtc (f s) : (modPwr f s).rtc = s.rtc := rfl
@[simp] theorem modPwr_mac (f s) : (modPwr f s).mac = s.mac := rfl
@[simp] theorem modPwr_red (f s) : (modPwr f s).red = s.red := rfl
@[simp] theorem modPwr_swc (f s) : (modPwr f s).swc = s.swc := rfl
@[simp] theorem modPwr_vfm (f s) : (modPwr f s).vfm = s.vfm := rfl
@[simp] theorem modPwr_mbx (f s) : (modPwr f s).mbx = s.mbx := rfl
@[simp] theorem modPwr_cmd (f s) : (modPwr f s).cmd = s.cmd := rfl
@[simp] theorem modPwr_key (f s) : (modPwr f s).key = s.key := rfl
@[simp] theorem modPwr_evr (f s) : (modPwr f s).evr = s.evr := rfl
@[simp] theorem modPwr_pwr (f s) : (modPwr f s).pwr = f s.pwr := rfl
@[simp] theorem modPwr_hiLatch (f s) : (modPwr f s).hiLatch = s.hiLatch := rfl
@[simp] theorem modPwr_now (f s) : (modPwr f s).now = s.now := rfl
@[simp] theorem modPwr_out (f s) : (modPwr f s).out = s.out := rfl
@[simp] theorem modPwr_freeCtr (f s) : (modPwr f s).freeCtr = s.freeCtr := rfl
@[simp] theorem modPwr_pending (f s) : (modPwr f s).pending = s.pending := rfl

/-! ### modMac -/

@[simp] theorem modMac_sys (p f s) : (modMac p f s).sys = s.sys := rfl
@[simp] theorem modMac_acq (p f s) : (modMac p f s).acq = s.acq := rfl
@[simp] theorem modMac_flt (p f s) : (modMac p f s).flt = s.flt := rfl
@[simp] theorem modMac_trg (p f s) : (modMac p f s).trg = s.trg := rfl
@[simp] theorem modMac_sve (p f s) : (modMac p f s).sve = s.sve := rfl
@[simp] theorem modMac_prt (p f s) : (modMac p f s).prt = s.prt := rfl
@[simp] theorem modMac_trp (p f s) : (modMac p f s).trp = s.trp := rfl
@[simp] theorem modMac_cyc (p f s) : (modMac p f s).cyc = s.cyc := rfl
@[simp] theorem modMac_spd (p f s) : (modMac p f s).spd = s.spd := rfl
@[simp] theorem modMac_tbs (p f s) : (modMac p f s).tbs = s.tbs := rfl
@[simp] theorem modMac_rtc (p f s) : (modMac p f s).rtc = s.rtc := rfl
@[simp] theorem modMac_mac (p f s) : (modMac p f s).mac = lmod s.mac p f := rfl
@[simp] theorem modMac_red (p f s) : (modMac p f s).red = s.red := rfl
@[simp] theorem modMac_swc (p f s) : (modMac p f s).swc = s.swc := rfl
@[simp] theorem modMac_vfm (p f s) : (modMac p f s).vfm = s.vfm := rfl
@[simp] theorem modMac_mbx (p f s) : (modMac p f s).mbx = s.mbx := rfl
@[simp] theorem modMac_cmd (p f s) : (modMac p f s).cmd = s.cmd := rfl
@[simp] theorem modMac_key (p f s) : (modMac p f s).key = s.key := rfl
@[simp] theorem modMac_evr (p f s) : (modMac p f s).evr = s.evr := rfl
@[simp] theorem modMac_pwr (p f s) : (modMac p f s).pwr = s.pwr := rfl
@[simp] theorem modMac_hiLatch (p f s) : (modMac p f s).hiLatch = s.hiLatch := rfl
@[simp] theorem modMac_now (p f s) : (modMac p f s).now = s.now := rfl
@[simp] theorem modMac_out (p f s) : (modMac p f s).out = s.out := rfl
@[simp] theorem modMac_freeCtr (p f s) : (modMac p f s).freeCtr = s.freeCtr := rfl
@[simp] theorem modMac_pending (p f s) : (modMac p f s).pending = s.pending := rfl

/-! ### modAcqCh -/

@[simp] theorem modAcqCh_sys (n f s) : (modAcqCh n f s).sys = s.sys := rfl
@[simp] theorem modAcqCh_acq (n f s) : (modAcqCh n f s).acq = { s.acq with ch := lmod s.acq.ch n f } := rfl
@[simp] theorem modAcqCh_flt (n f s) : (modAcqCh n f s).flt = s.flt := rfl
@[simp] theorem modAcqCh_trg (n f s) : (modAcqCh n f s).trg = s.trg := rfl
@[simp] theorem modAcqCh_sve (n f s) : (modAcqCh n f s).sve = s.sve := rfl
@[simp] theorem modAcqCh_prt (n f s) : (modAcqCh n f s).prt = s.prt := rfl
@[simp] theorem modAcqCh_trp (n f s) : (modAcqCh n f s).trp = s.trp := rfl
@[simp] theorem modAcqCh_cyc (n f s) : (modAcqCh n f s).cyc = s.cyc := rfl
@[simp] theorem modAcqCh_spd (n f s) : (modAcqCh n f s).spd = s.spd := rfl
@[simp] theorem modAcqCh_tbs (n f s) : (modAcqCh n f s).tbs = s.tbs := rfl
@[simp] theorem modAcqCh_rtc (n f s) : (modAcqCh n f s).rtc = s.rtc := rfl
@[simp] theorem modAcqCh_mac (n f s) : (modAcqCh n f s).mac = s.mac := rfl
@[simp] theorem modAcqCh_red (n f s) : (modAcqCh n f s).red = s.red := rfl
@[simp] theorem modAcqCh_swc (n f s) : (modAcqCh n f s).swc = s.swc := rfl
@[simp] theorem modAcqCh_vfm (n f s) : (modAcqCh n f s).vfm = s.vfm := rfl
@[simp] theorem modAcqCh_mbx (n f s) : (modAcqCh n f s).mbx = s.mbx := rfl
@[simp] theorem modAcqCh_cmd (n f s) : (modAcqCh n f s).cmd = s.cmd := rfl
@[simp] theorem modAcqCh_key (n f s) : (modAcqCh n f s).key = s.key := rfl
@[simp] theorem modAcqCh_evr (n f s) : (modAcqCh n f s).evr = s.evr := rfl
@[simp] theorem modAcqCh_pwr (n f s) : (modAcqCh n f s).pwr = s.pwr := rfl
@[simp] theorem modAcqCh_hiLatch (n f s) : (modAcqCh n f s).hiLatch = s.hiLatch := rfl
@[simp] theorem modAcqCh_now (n f s) : (modAcqCh n f s).now = s.now := rfl
@[simp] theorem modAcqCh_out (n f s) : (modAcqCh n f s).out = s.out := rfl
@[simp] theorem modAcqCh_freeCtr (n f s) : (modAcqCh n f s).freeCtr = s.freeCtr := rfl
@[simp] theorem modAcqCh_pending (n f s) : (modAcqCh n f s).pending = s.pending := rfl

/-! ### modCk -/

@[simp] theorem modCk_sys (n f s) : (modCk n f s).sys = s.sys := rfl
@[simp] theorem modCk_acq (n f s) : (modCk n f s).acq = { s.acq with ck := lmod s.acq.ck n f } := rfl
@[simp] theorem modCk_flt (n f s) : (modCk n f s).flt = s.flt := rfl
@[simp] theorem modCk_trg (n f s) : (modCk n f s).trg = s.trg := rfl
@[simp] theorem modCk_sve (n f s) : (modCk n f s).sve = s.sve := rfl
@[simp] theorem modCk_prt (n f s) : (modCk n f s).prt = s.prt := rfl
@[simp] theorem modCk_trp (n f s) : (modCk n f s).trp = s.trp := rfl
@[simp] theorem modCk_cyc (n f s) : (modCk n f s).cyc = s.cyc := rfl
@[simp] theorem modCk_spd (n f s) : (modCk n f s).spd = s.spd := rfl
@[simp] theorem modCk_tbs (n f s) : (modCk n f s).tbs = s.tbs := rfl
@[simp] theorem modCk_rtc (n f s) : (modCk n f s).rtc = s.rtc := rfl
@[simp] theorem modCk_mac (n f s) : (modCk n f s).mac = s.mac := rfl
@[simp] theorem modCk_red (n f s) : (modCk n f s).red = s.red := rfl
@[simp] theorem modCk_swc (n f s) : (modCk n f s).swc = s.swc := rfl
@[simp] theorem modCk_vfm (n f s) : (modCk n f s).vfm = s.vfm := rfl
@[simp] theorem modCk_mbx (n f s) : (modCk n f s).mbx = s.mbx := rfl
@[simp] theorem modCk_cmd (n f s) : (modCk n f s).cmd = s.cmd := rfl
@[simp] theorem modCk_key (n f s) : (modCk n f s).key = s.key := rfl
@[simp] theorem modCk_evr (n f s) : (modCk n f s).evr = s.evr := rfl
@[simp] theorem modCk_pwr (n f s) : (modCk n f s).pwr = s.pwr := rfl
@[simp] theorem modCk_hiLatch (n f s) : (modCk n f s).hiLatch = s.hiLatch := rfl
@[simp] theorem modCk_now (n f s) : (modCk n f s).now = s.now := rfl
@[simp] theorem modCk_out (n f s) : (modCk n f s).out = s.out := rfl
@[simp] theorem modCk_freeCtr (n f s) : (modCk n f s).freeCtr = s.freeCtr := rfl
@[simp] theorem modCk_pending (n f s) : (modCk n f s).pending = s.pending := rfl

/-! ### modHk -/

@[simp] theorem modHk_sys (f s) : (modHk f s).sys = s.sys := rfl
@[simp] theorem modHk_acq (f s) : (modHk f s).acq = { s.acq with hk := f s.acq.hk } := rfl
@[simp] theorem modHk_flt (f s) : (modHk f s).flt = s.flt := rfl
@[simp] theorem modHk_trg (f s) : (modHk f s).trg = s.trg := rfl
@[simp] theorem modHk_sve (f s) : (modHk f s).sve = s.sve := rfl
@[simp] theorem modHk_prt (f s) : (modHk f s).prt = s.prt := rfl
@[simp] theorem modHk_trp (f s) : (modHk f s).trp = s.trp := rfl
@[simp] theorem modHk_cyc (f s) : (modHk f s).cyc = s.cyc := rfl
@[simp] theorem modHk_spd (f s) : (modHk f s).spd = s.spd := rfl
@[simp] theorem modHk_tbs (f s) : (modHk f s).tbs = s.tbs := rfl
@[simp] theorem modHk_rtc (f s) : (modHk f s).rtc = s.rtc := rfl
@[simp] theorem modHk_mac (f s) : (modHk f s).mac = s.mac := rfl
@[simp] theorem modHk_red (f s) : (modHk f s).red = s.red := rfl
@[simp] theorem modHk_swc (f s) : (modHk f s).swc = s.swc := rfl
@[simp] theorem modHk_vfm (f s) : (modHk f s).vfm = s.vfm := rfl
@[simp] theorem modHk_mbx (f s) : (modHk f s).mbx = s.mbx := rfl
@[simp] theorem modHk_cmd (f s) : (modHk f s).cmd = s.cmd := rfl
@[simp] theorem modHk_key (f s) : (modHk f s).key = s.key := rfl
@[simp] theorem modHk_evr (f s) : (modHk f s).evr = s.evr := rfl
@[simp] theorem modHk_pwr (f s) : (modHk f s).pwr = s.pwr := rfl
@[simp] theorem modHk_hiLatch (f s) : (modHk f s).hiLatch = s.hiLatch := rfl
@[simp] theorem modHk_now (f s) : (modHk f s).now = s.now := rfl
@[simp] theorem modHk_out (f s) : (modHk f s).out = s.out := rfl
@[simp] theorem modHk_freeCtr (f s) : (modHk f s).freeCtr = s.freeCtr := rfl
@[simp] theorem modHk_pending (f s) : (modHk f s).pending = s.pending := rfl

/-! ### modFlt -/

@[simp] theorem modFlt_sys (n f s) : (modFlt n f s).sys = s.sys := rfl
@[simp] theorem modFlt_acq (n f s) : (modFlt n f s).acq = s.acq := rfl
@[simp] theorem modFlt_flt (n f s) : (modFlt n f s).flt = { s.flt with ch := lmod s.flt.ch n f } := rfl
@[simp] theorem modFlt_trg (n f s) : (modFlt n f s).trg = s.trg := rfl
@[simp] theorem modFlt_sve (n f s) : (modFlt n f s).sve = s.sve := rfl
@[simp] theorem modFlt_prt (n f s) : (modFlt n f s).prt = s.prt := rfl
@[simp] theorem modFlt_trp (n f s) : (modFlt n f s).trp = s.trp := rfl
@[simp] theorem modFlt_cyc (n f s) : (modFlt n f s).cyc = s.cyc := rfl
@[simp] theorem modFlt_spd (n f s) : (modFlt n f s).spd = s.spd := rfl
@[simp] theorem modFlt_tbs (n f s) : (modFlt n f s).tbs = s.tbs := rfl
@[simp] theorem modFlt_rtc (n f s) : (modFlt n f s).rtc = s.rtc := rfl
@[simp] theorem modFlt_mac (n f s) : (modFlt n f s).mac = s.mac := rfl
@[simp] theorem modFlt_red (n f s) : (modFlt n f s).red = s.red := rfl
@[simp] theorem modFlt_swc (n f s) : (modFlt n f s).swc = s.swc := rfl
@[simp] theorem modFlt_vfm (n f s) : (modFlt n f s).vfm = s.vfm := rfl
@[simp] theorem modFlt_mbx (n f s) : (modFlt n f s).mbx = s.mbx := rfl
@[simp] theorem modFlt_cmd (n f s) : (modFlt n f s).cmd = s.cmd := rfl
@[simp] theorem modFlt_key (n f s) : (modFlt n f s).key = s.key := rfl
@[simp] theorem modFlt_evr (n f s) : (modFlt n f s).evr = s.evr := rfl
@[simp] theorem modFlt_pwr (n f s) : (modFlt n f s).pwr = s.pwr := rfl
@[simp] theorem modFlt_hiLatch (n f s) : (modFlt n f s).hiLatch = s.hiLatch := rfl
@[simp] theorem modFlt_now (n f s) : (modFlt n f s).now = s.now := rfl
@[simp] theorem modFlt_out (n f s) : (modFlt n f s).out = s.out := rfl
@[simp] theorem modFlt_freeCtr (n f s) : (modFlt n f s).freeCtr = s.freeCtr := rfl
@[simp] theorem modFlt_pending (n f s) : (modFlt n f s).pending = s.pending := rfl

/-! ### modZone -/

@[simp] theorem modZone_sys (n f s) : (modZone n f s).sys = s.sys := rfl
@[simp] theorem modZone_acq (n f s) : (modZone n f s).acq = s.acq := rfl
@[simp] theorem modZone_flt (n f s) : (modZone n f s).flt = s.flt := rfl
@[simp] theorem modZone_trg (n f s) : (modZone n f s).trg = s.trg := rfl
@[simp] theorem modZone_sve (n f s) : (modZone n f s).sve = s.sve := rfl
@[simp] theorem modZone_prt (n f s) : (modZone n f s).prt = { s.prt with zones := tmod s.prt.zones n f } := rfl
@[simp] theorem modZone_trp (n f s) : (modZone n f s).trp = s.trp := rfl
@[simp] theorem modZone_cyc (n f s) : (modZone n f s).cyc = s.cyc := rfl
@[simp] theorem modZone_spd (n f s) : (modZone n f s).spd = s.spd := rfl
@[simp] theorem modZone_tbs (n f s) : (modZone n f s).tbs = s.tbs := rfl
@[simp] theorem modZone_rtc (n f s) : (modZone n f s).rtc = s.rtc := rfl
@[simp] theorem modZone_mac (n f s) : (modZone n f s).mac = s.mac := rfl
@[simp] theorem modZone_red (n f s) : (modZone n f s).red = s.red := rfl
@[simp] theorem modZone_swc (n f s) : (modZone n f s).swc = s.swc := rfl
@[simp] theorem modZone_vfm (n f s) : (modZone n f s).vfm = s.vfm := rfl
@[simp] theorem modZone_mbx (n f s) : (modZone n f s).mbx = s.mbx := rfl
@[simp] theorem modZone_cmd (n f s) : (modZone n f s).cmd = s.cmd := rfl
@[simp] theorem modZone_key (n f s) : (modZone n f s).key = s.key := rfl
@[simp] theorem modZone_evr (n f s) : (modZone n f s).evr = s.evr := rfl
@[simp] theorem modZone_pwr (n f s) : (modZone n f s).pwr = s.pwr := rfl
@[simp] theorem modZone_hiLatch (n f s) : (modZone n f s).hiLatch = s.hiLatch := rfl
@[simp] theorem modZone_now (n f s) : (modZone n f s).now = s.now := rfl
@[simp] theorem modZone_out (n f s) : (modZone n f s).out = s.out := rfl
@[simp] theorem modZone_freeCtr (n f s) : (modZone n f s).freeCtr = s.freeCtr := rfl
@[simp] theorem modZone_pending (n f s) : (modZone n f s).pending = s.pending := rfl

/-! ### modInst -/

@[simp] theorem modInst_sys (n f s) : (modInst n f s).sys = s.sys := rfl
@[simp] theorem modInst_acq (n f s) : (modInst n f s).acq = s.acq := rfl
@[simp] theorem modInst_flt (n f s) : (modInst n f s).flt = s.flt := rfl
@[simp] theorem modInst_trg (n f s) : (modInst n f s).trg = s.trg := rfl
@[simp] theorem modInst_sve (n f s) : (modInst n f s).sve = s.sve := rfl
@[simp] theorem modInst_prt (n f s) : (modInst n f s).prt = { s.prt with insts := tmod s.prt.insts n f } := rfl
@[simp] theorem modInst_trp (n f s) : (modInst n f s).trp = s.trp := rfl
@[simp] theorem modInst_cyc (n f s) : (modInst n f s).cyc = s.cyc := rfl
@[simp] theorem modInst_spd (n f s) : (modInst n f s).spd = s.spd := rfl
@[simp] theorem modInst_tbs (n f s) : (modInst n f s).tbs = s.tbs := rfl
@[simp] theorem modInst_rtc (n f s) : (modInst n f s).rtc = s.rtc := rfl
@[simp] theorem modInst_mac (n f s) : (modInst n f s).mac = s.mac := rfl
@[simp] theorem modInst_red (n f s) : (modInst n f s).red = s.red := rfl
@[simp] theorem modInst_swc (n f s) : (modInst n f s).swc = s.swc := rfl
@[simp] theorem modInst_vfm (n f s) : (modInst n f s).vfm = s.vfm := rfl
@[simp] theorem modInst_mbx (n f s) : (modInst n f s).mbx = s.mbx := rfl
@[simp] theorem modInst_cmd (n f s) : (modInst n f s).cmd = s.cmd := rfl
@[simp] theorem modInst_key (n f s) : (modInst n f s).key = s.key := rfl
@[simp] theorem modInst_evr (n f s) : (modInst n f s).evr = s.evr := rfl
@[simp] theorem modInst_pwr (n f s) : (modInst n f s).pwr = s.pwr := rfl
@[simp] theorem modInst_hiLatch (n f s) : (modInst n f s).hiLatch = s.hiLatch := rfl
@[simp] theorem modInst_now (n f s) : (modInst n f s).now = s.now := rfl
@[simp] theorem modInst_out (n f s) : (modInst n f s).out = s.out := rfl
@[simp] theorem modInst_freeCtr (n f s) : (modInst n f s).freeCtr = s.freeCtr := rfl
@[simp] theorem modInst_pending (n f s) : (modInst n f s).pending = s.pending := rfl

/-! ### modRow -/

@[simp] theorem modRow_sys (n f s) : (modRow n f s).sys = s.sys := rfl
@[simp] theorem modRow_acq (n f s) : (modRow n f s).acq = s.acq := rfl
@[simp] theorem modRow_flt (n f s) : (modRow n f s).flt = s.flt := rfl
@[simp] theorem modRow_trg (n f s) : (modRow n f s).trg = s.trg := rfl
@[simp] theorem modRow_sve (n f s) : (modRow n f s).sve = s.sve := rfl
@[simp] theorem modRow_prt (n f s) : (modRow n f s).prt = s.prt := rfl
@[simp] theorem modRow_trp (n f s) : (modRow n f s).trp = { s.trp with rows := lmod s.trp.rows n f } := rfl
@[simp] theorem modRow_cyc (n f s) : (modRow n f s).cyc = s.cyc := rfl
@[simp] theorem modRow_spd (n f s) : (modRow n f s).spd = s.spd := rfl
@[simp] theorem modRow_tbs (n f s) : (modRow n f s).tbs = s.tbs := rfl
@[simp] theorem modRow_rtc (n f s) : (modRow n f s).rtc = s.rtc := rfl
@[simp] theorem modRow_mac (n f s) : (modRow n f s).mac = s.mac := rfl
@[simp] theorem modRow_red (n f s) : (modRow n f s).red = s.red := rfl
@[simp] theorem modRow_swc (n f s) : (modRow n f s).swc = s.swc := rfl
@[simp] theorem modRow_vfm (n f s) : (modRow n f s).vfm = s.vfm := rfl
@[simp] theorem modRow_mbx (n f s) : (modRow n f s).mbx = s.mbx := rfl
@[simp] theorem modRow_cmd (n f s) : (modRow n f s).cmd = s.cmd := rfl
@[simp] theorem modRow_key (n f s) : (modRow n f s).key = s.key := rfl
@[simp] theorem modRow_evr (n f s) : (modRow n f s).evr = s.evr := rfl
@[simp] theorem modRow_pwr (n f s) : (modRow n f s).pwr = s.pwr := rfl
@[simp] theorem modRow_hiLatch (n f s) : (modRow n f s).hiLatch = s.hiLatch := rfl
@[simp] theorem modRow_now (n f s) : (modRow n f s).now = s.now := rfl
@[simp] theorem modRow_out (n f s) : (modRow n f s).out = s.out := rfl
@[simp] theorem modRow_freeCtr (n f s) : (modRow n f s).freeCtr = s.freeCtr := rfl
@[simp] theorem modRow_pending (n f s) : (modRow n f s).pending = s.pending := rfl

/-! ### modBi -/

@[simp] theorem modBi_sys (n f s) : (modBi n f s).sys = s.sys := rfl
@[simp] theorem modBi_acq (n f s) : (modBi n f s).acq = s.acq := rfl
@[simp] theorem modBi_flt (n f s) : (modBi n f s).flt = s.flt := rfl
@[simp] theorem modBi_trg (n f s) : (modBi n f s).trg = s.trg := rfl
@[simp] theorem modBi_sve (n f s) : (modBi n f s).sve = s.sve := rfl
@[simp] theorem modBi_prt (n f s) : (modBi n f s).prt = s.prt := rfl
@[simp] theorem modBi_trp (n f s) : (modBi n f s).trp = { s.trp with bi := lmod s.trp.bi n f } := rfl
@[simp] theorem modBi_cyc (n f s) : (modBi n f s).cyc = s.cyc := rfl
@[simp] theorem modBi_spd (n f s) : (modBi n f s).spd = s.spd := rfl
@[simp] theorem modBi_tbs (n f s) : (modBi n f s).tbs = s.tbs := rfl
@[simp] theorem modBi_rtc (n f s) : (modBi n f s).rtc = s.rtc := rfl
@[simp] theorem modBi_mac (n f s) : (modBi n f s).mac = s.mac := rfl
@[simp] theorem modBi_red (n f s) : (modBi n f s).red = s.red := rfl
@[simp] theorem modBi_swc (n f s) : (modBi n f s).swc = s.swc := rfl
@[simp] theorem modBi_vfm (n f s) : (modBi n f s).vfm = s.vfm := rfl
@[simp] theorem modBi_mbx (n f s) : (modBi n f s).mbx = s.mbx := rfl
@[simp] theorem modBi_cmd (n f s) : (modBi n f s).cmd = s.cmd := rfl
@[simp] theorem modBi_key (n f s) : (modBi n f s).key = s.key := rfl
@[simp] theorem modBi_evr (n f s) : (modBi n f s).evr = s.evr := rfl
@[simp] theorem modBi_pwr (n f s) : (modBi n f s).pwr = s.pwr := rfl
@[simp] theorem modBi_hiLatch (n f s) : (modBi n f s).hiLatch = s.hiLatch := rfl
@[simp] theorem modBi_now (n f s) : (modBi n f s).now = s.now := rfl
@[simp] theorem modBi_out (n f s) : (modBi n f s).out = s.out := rfl
@[simp] theorem modBi_freeCtr (n f s) : (modBi n f s).freeCtr = s.freeCtr := rfl
@[simp] theorem modBi_pending (n f s) : (modBi n f s).pending = s.pending := rfl

/-! ### modTask -/

@[simp] theorem modTask_sys (n f s) : (modTask n f s).sys = s.sys := rfl
@[simp] theorem modTask_acq (n f s) : (modTask n f s).acq = s.acq := rfl
@[simp] theorem modTask_flt (n f s) : (modTask n f s).flt = s.flt := rfl
@[simp] theorem modTask_trg (n f s) : (modTask n f s).trg = s.trg := rfl
@[simp] theorem modTask_sve (n f s) : (modTask n f s).sve = s.sve := rfl
@[simp] theorem modTask_prt (n f s) : (modTask n f s).prt = s.prt := rfl
@[simp] theorem modTask_trp (n f s) : (modTask n f s).trp = s.trp := rfl
@[simp] theorem modTask_cyc (n f s) : (modTask n f s).cyc = { s.cyc with tasks := tmod s.cyc.tasks n f } := rfl
@[simp] theorem modTask_spd (n f s) : (modTask n f s).spd = s.spd := rfl
@[simp] theorem modTask_tbs (n f s) : (modTask n f s).tbs = s.tbs := rfl
@[simp] theorem modTask_rtc (n f s) : (modTask n f s).rtc = s.rtc := rfl
@[simp] theorem modTask_mac (n f s) : (modTask n f s).mac = s.mac := rfl
@[simp] theorem modTask_red (n f s) : (modTask n f s).red = s.red := rfl
@[simp] theorem modTask_swc (n f s) : (modTask n f s).swc = s.swc := rfl
@[simp] theorem modTask_vfm (n f s) : (modTask n f s).vfm = s.vfm := rfl
@[simp] theorem modTask_mbx (n f s) : (modTask n f s).mbx = s.mbx := rfl
@[simp] theorem modTask_cmd (n f s) : (modTask n f s).cmd = s.cmd := rfl
@[simp] theorem modTask_key (n f s) : (modTask n f s).key = s.key := rfl
@[simp] theorem modTask_evr (n f s) : (modTask n f s).evr = s.evr := rfl
@[simp] theorem modTask_pwr (n f s) : (modTask n f s).pwr = s.pwr := rfl
@[simp] theorem modTask_hiLatch (n f s) : (modTask n f s).hiLatch = s.hiLatch := rfl
@[simp] theorem modTask_now (n f s) : (modTask n f s).now = s.now := rfl
@[simp] theorem modTask_out (n f s) : (modTask n f s).out = s.out := rfl
@[simp] theorem modTask_freeCtr (n f s) : (modTask n f s).freeCtr = s.freeCtr := rfl
@[simp] theorem modTask_pending (n f s) : (modTask n f s).pending = s.pending := rfl

/-! ### modBase -/

@[simp] theorem modBase_sys (n f s) : (modBase n f s).sys = s.sys := rfl
@[simp] theorem modBase_acq (n f s) : (modBase n f s).acq = s.acq := rfl
@[simp] theorem modBase_flt (n f s) : (modBase n f s).flt = s.flt := rfl
@[simp] theorem modBase_trg (n f s) : (modBase n f s).trg = s.trg := rfl
@[simp] theorem modBase_sve (n f s) : (modBase n f s).sve = s.sve := rfl
@[simp] theorem modBase_prt (n f s) : (modBase n f s).prt = s.prt := rfl
@[simp] theorem modBase_trp (n f s) : (modBase n f s).trp = s.trp := rfl
@[simp] theorem modBase_cyc (n f s) : (modBase n f s).cyc = s.cyc := rfl
@[simp] theorem modBase_spd (n f s) : (modBase n f s).spd = s.spd := rfl
@[simp] theorem modBase_tbs (n f s) : (modBase n f s).tbs = { s.tbs with base := lmod s.tbs.base n f } := rfl
@[simp] theorem modBase_rtc (n f s) : (modBase n f s).rtc = s.rtc := rfl
@[simp] theorem modBase_mac (n f s) : (modBase n f s).mac = s.mac := rfl
@[simp] theorem modBase_red (n f s) : (modBase n f s).red = s.red := rfl
@[simp] theorem modBase_swc (n f s) : (modBase n f s).swc = s.swc := rfl
@[simp] theorem modBase_vfm (n f s) : (modBase n f s).vfm = s.vfm := rfl
@[simp] theorem modBase_mbx (n f s) : (modBase n f s).mbx = s.mbx := rfl
@[simp] theorem modBase_cmd (n f s) : (modBase n f s).cmd = s.cmd := rfl
@[simp] theorem modBase_key (n f s) : (modBase n f s).key = s.key := rfl
@[simp] theorem modBase_evr (n f s) : (modBase n f s).evr = s.evr := rfl
@[simp] theorem modBase_pwr (n f s) : (modBase n f s).pwr = s.pwr := rfl
@[simp] theorem modBase_hiLatch (n f s) : (modBase n f s).hiLatch = s.hiLatch := rfl
@[simp] theorem modBase_now (n f s) : (modBase n f s).now = s.now := rfl
@[simp] theorem modBase_out (n f s) : (modBase n f s).out = s.out := rfl
@[simp] theorem modBase_freeCtr (n f s) : (modBase n f s).freeCtr = s.freeCtr := rfl
@[simp] theorem modBase_pending (n f s) : (modBase n f s).pending = s.pending := rfl

/-! ### modPtp -/

@[simp] theorem modPtp_sys (n f s) : (modPtp n f s).sys = s.sys := rfl
@[simp] theorem modPtp_acq (n f s) : (modPtp n f s).acq = s.acq := rfl
@[simp] theorem modPtp_flt (n f s) : (modPtp n f s).flt = s.flt := rfl
@[simp] theorem modPtp_trg (n f s) : (modPtp n f s).trg = s.trg := rfl
@[simp] theorem modPtp_sve (n f s) : (modPtp n f s).sve = s.sve := rfl
@[simp] theorem modPtp_prt (n f s) : (modPtp n f s).prt = s.prt := rfl
@[simp] theorem modPtp_trp (n f s) : (modPtp n f s).trp = s.trp := rfl
@[simp] theorem modPtp_cyc (n f s) : (modPtp n f s).cyc = s.cyc := rfl
@[simp] theorem modPtp_spd (n f s) : (modPtp n f s).spd = s.spd := rfl
@[simp] theorem modPtp_tbs (n f s) : (modPtp n f s).tbs = { s.tbs with ports := lmod s.tbs.ports n f } := rfl
@[simp] theorem modPtp_rtc (n f s) : (modPtp n f s).rtc = s.rtc := rfl
@[simp] theorem modPtp_mac (n f s) : (modPtp n f s).mac = s.mac := rfl
@[simp] theorem modPtp_red (n f s) : (modPtp n f s).red = s.red := rfl
@[simp] theorem modPtp_swc (n f s) : (modPtp n f s).swc = s.swc := rfl
@[simp] theorem modPtp_vfm (n f s) : (modPtp n f s).vfm = s.vfm := rfl
@[simp] theorem modPtp_mbx (n f s) : (modPtp n f s).mbx = s.mbx := rfl
@[simp] theorem modPtp_cmd (n f s) : (modPtp n f s).cmd = s.cmd := rfl
@[simp] theorem modPtp_key (n f s) : (modPtp n f s).key = s.key := rfl
@[simp] theorem modPtp_evr (n f s) : (modPtp n f s).evr = s.evr := rfl
@[simp] theorem modPtp_pwr (n f s) : (modPtp n f s).pwr = s.pwr := rfl
@[simp] theorem modPtp_hiLatch (n f s) : (modPtp n f s).hiLatch = s.hiLatch := rfl
@[simp] theorem modPtp_now (n f s) : (modPtp n f s).now = s.now := rfl
@[simp] theorem modPtp_out (n f s) : (modPtp n f s).out = s.out := rfl
@[simp] theorem modPtp_freeCtr (n f s) : (modPtp n f s).freeCtr = s.freeCtr := rfl
@[simp] theorem modPtp_pending (n f s) : (modPtp n f s).pending = s.pending := rfl

/-! ### modTeg -/

@[simp] theorem modTeg_sys (n f s) : (modTeg n f s).sys = s.sys := rfl
@[simp] theorem modTeg_acq (n f s) : (modTeg n f s).acq = s.acq := rfl
@[simp] theorem modTeg_flt (n f s) : (modTeg n f s).flt = s.flt := rfl
@[simp] theorem modTeg_trg (n f s) : (modTeg n f s).trg = s.trg := rfl
@[simp] theorem modTeg_sve (n f s) : (modTeg n f s).sve = s.sve := rfl
@[simp] theorem modTeg_prt (n f s) : (modTeg n f s).prt = s.prt := rfl
@[simp] theorem modTeg_trp (n f s) : (modTeg n f s).trp = s.trp := rfl
@[simp] theorem modTeg_cyc (n f s) : (modTeg n f s).cyc = s.cyc := rfl
@[simp] theorem modTeg_spd (n f s) : (modTeg n f s).spd = s.spd := rfl
@[simp] theorem modTeg_tbs (n f s) : (modTeg n f s).tbs = { s.tbs with teg := lmod s.tbs.teg n f } := rfl
@[simp] theorem modTeg_rtc (n f s) : (modTeg n f s).rtc = s.rtc := rfl
@[simp] theorem modTeg_mac (n f s) : (modTeg n f s).mac = s.mac := rfl
@[simp] theorem modTeg_red (n f s) : (modTeg n f s).red = s.red := rfl
@[simp] theorem modTeg_swc (n f s) : (modTeg n f s).swc = s.swc := rfl
@[simp] theorem modTeg_vfm (n f s) : (modTeg n f s).vfm = s.vfm := rfl
@[simp] theorem modTeg_mbx (n f s) : (modTeg n f s).mbx = s.mbx := rfl
@[simp] theorem modTeg_cmd (n f s) : (modTeg n f s).cmd = s.cmd := rfl
@[simp] theorem modTeg_key (n f s) : (modTeg n f s).key = s.key := rfl
@[simp] theorem modTeg_evr (n f s) : (modTeg n f s).evr = s.evr := rfl
@[simp] theorem modTeg_pwr (n f s) : (modTeg n f s).pwr = s.pwr := rfl
@[simp] theorem modTeg_hiLatch (n f s) : (modTeg n f s).hiLatch = s.hiLatch := rfl
@[simp] theorem modTeg_now (n f s) : (modTeg n f s).now = s.now := rfl
@[simp] theorem modTeg_out (n f s) : (modTeg n f s).out = s.out := rfl
@[simp] theorem modTeg_freeCtr (n f s) : (modTeg n f s).freeCtr = s.freeCtr := rfl
@[simp] theorem modTeg_pending (n f s) : (modTeg n f s).pending = s.pending := rfl

/-! ### modPair -/

@[simp] theorem modPair_sys (n f s) : (modPair n f s).sys = s.sys := rfl
@[simp] theorem modPair_acq (n f s) : (modPair n f s).acq = s.acq := rfl
@[simp] theorem modPair_flt (n f s) : (modPair n f s).flt = s.flt := rfl
@[simp] theorem modPair_trg (n f s) : (modPair n f s).trg = s.trg := rfl
@[simp] theorem modPair_sve (n f s) : (modPair n f s).sve = s.sve := rfl
@[simp] theorem modPair_prt (n f s) : (modPair n f s).prt = s.prt := rfl
@[simp] theorem modPair_trp (n f s) : (modPair n f s).trp = s.trp := rfl
@[simp] theorem modPair_cyc (n f s) : (modPair n f s).cyc = s.cyc := rfl
@[simp] theorem modPair_spd (n f s) : (modPair n f s).spd = s.spd := rfl
@[simp] theorem modPair_tbs (n f s) : (modPair n f s).tbs = s.tbs := rfl
@[simp] theorem modPair_rtc (n f s) : (modPair n f s).rtc = s.rtc := rfl
@[simp] theorem modPair_mac (n f s) : (modPair n f s).mac = s.mac := rfl
@[simp] theorem modPair_red (n f s) : (modPair n f s).red = { s.red with pair := lmod s.red.pair n f } := rfl
@[simp] theorem modPair_swc (n f s) : (modPair n f s).swc = s.swc := rfl
@[simp] theorem modPair_vfm (n f s) : (modPair n f s).vfm = s.vfm := rfl
@[simp] theorem modPair_mbx (n f s) : (modPair n f s).mbx = s.mbx := rfl
@[simp] theorem modPair_cmd (n f s) : (modPair n f s).cmd = s.cmd := rfl
@[simp] theorem modPair_key (n f s) : (modPair n f s).key = s.key := rfl
@[simp] theorem modPair_evr (n f s) : (modPair n f s).evr = s.evr := rfl
@[simp] theorem modPair_pwr (n f s) : (modPair n f s).pwr = s.pwr := rfl
@[simp] theorem modPair_hiLatch (n f s) : (modPair n f s).hiLatch = s.hiLatch := rfl
@[simp] theorem modPair_now (n f s) : (modPair n f s).now = s.now := rfl
@[simp] theorem modPair_out (n f s) : (modPair n f s).out = s.out := rfl
@[simp] theorem modPair_freeCtr (n f s) : (modPair n f s).freeCtr = s.freeCtr := rfl
@[simp] theorem modPair_pending (n f s) : (modPair n f s).pending = s.pending := rfl

/-! ### modZoneOwn -/

@[simp] theorem modZoneOwn_sys (n f s) : (modZoneOwn n f s).sys = s.sys := rfl
@[simp] theorem modZoneOwn_acq (n f s) : (modZoneOwn n f s).acq = s.acq := rfl
@[simp] theorem modZoneOwn_flt (n f s) : (modZoneOwn n f s).flt = s.flt := rfl
@[simp] theorem modZoneOwn_trg (n f s) : (modZoneOwn n f s).trg = s.trg := rfl
@[simp] theorem modZoneOwn_sve (n f s) : (modZoneOwn n f s).sve = s.sve := rfl
@[simp] theorem modZoneOwn_prt (n f s) : (modZoneOwn n f s).prt = s.prt := rfl
@[simp] theorem modZoneOwn_trp (n f s) : (modZoneOwn n f s).trp = s.trp := rfl
@[simp] theorem modZoneOwn_cyc (n f s) : (modZoneOwn n f s).cyc = s.cyc := rfl
@[simp] theorem modZoneOwn_spd (n f s) : (modZoneOwn n f s).spd = s.spd := rfl
@[simp] theorem modZoneOwn_tbs (n f s) : (modZoneOwn n f s).tbs = s.tbs := rfl
@[simp] theorem modZoneOwn_rtc (n f s) : (modZoneOwn n f s).rtc = s.rtc := rfl
@[simp] theorem modZoneOwn_mac (n f s) : (modZoneOwn n f s).mac = s.mac := rfl
@[simp] theorem modZoneOwn_red (n f s) : (modZoneOwn n f s).red = { s.red with zones := lmod s.red.zones n f } := rfl
@[simp] theorem modZoneOwn_swc (n f s) : (modZoneOwn n f s).swc = s.swc := rfl
@[simp] theorem modZoneOwn_vfm (n f s) : (modZoneOwn n f s).vfm = s.vfm := rfl
@[simp] theorem modZoneOwn_mbx (n f s) : (modZoneOwn n f s).mbx = s.mbx := rfl
@[simp] theorem modZoneOwn_cmd (n f s) : (modZoneOwn n f s).cmd = s.cmd := rfl
@[simp] theorem modZoneOwn_key (n f s) : (modZoneOwn n f s).key = s.key := rfl
@[simp] theorem modZoneOwn_evr (n f s) : (modZoneOwn n f s).evr = s.evr := rfl
@[simp] theorem modZoneOwn_pwr (n f s) : (modZoneOwn n f s).pwr = s.pwr := rfl
@[simp] theorem modZoneOwn_hiLatch (n f s) : (modZoneOwn n f s).hiLatch = s.hiLatch := rfl
@[simp] theorem modZoneOwn_now (n f s) : (modZoneOwn n f s).now = s.now := rfl
@[simp] theorem modZoneOwn_out (n f s) : (modZoneOwn n f s).out = s.out := rfl
@[simp] theorem modZoneOwn_freeCtr (n f s) : (modZoneOwn n f s).freeCtr = s.freeCtr := rfl
@[simp] theorem modZoneOwn_pending (n f s) : (modZoneOwn n f s).pending = s.pending := rfl

/-! ### modSwcPort -/

@[simp] theorem modSwcPort_sys (n f s) : (modSwcPort n f s).sys = s.sys := rfl
@[simp] theorem modSwcPort_acq (n f s) : (modSwcPort n f s).acq = s.acq := rfl
@[simp] theorem modSwcPort_flt (n f s) : (modSwcPort n f s).flt = s.flt := rfl
@[simp] theorem modSwcPort_trg (n f s) : (modSwcPort n f s).trg = s.trg := rfl
@[simp] theorem modSwcPort_sve (n f s) : (modSwcPort n f s).sve = s.sve := rfl
@[simp] theorem modSwcPort_prt (n f s) : (modSwcPort n f s).prt = s.prt := rfl
@[simp] theorem modSwcPort_trp (n f s) : (modSwcPort n f s).trp = s.trp := rfl
@[simp] theorem modSwcPort_cyc (n f s) : (modSwcPort n f s).cyc = s.cyc := rfl
@[simp] theorem modSwcPort_spd (n f s) : (modSwcPort n f s).spd = s.spd := rfl
@[simp] theorem modSwcPort_tbs (n f s) : (modSwcPort n f s).tbs = s.tbs := rfl
@[simp] theorem modSwcPort_rtc (n f s) : (modSwcPort n f s).rtc = s.rtc := rfl
@[simp] theorem modSwcPort_mac (n f s) : (modSwcPort n f s).mac = s.mac := rfl
@[simp] theorem modSwcPort_red (n f s) : (modSwcPort n f s).red = s.red := rfl
@[simp] theorem modSwcPort_swc (n f s) : (modSwcPort n f s).swc = { s.swc with port := lmod s.swc.port n f } := rfl
@[simp] theorem modSwcPort_vfm (n f s) : (modSwcPort n f s).vfm = s.vfm := rfl
@[simp] theorem modSwcPort_mbx (n f s) : (modSwcPort n f s).mbx = s.mbx := rfl
@[simp] theorem modSwcPort_cmd (n f s) : (modSwcPort n f s).cmd = s.cmd := rfl
@[simp] theorem modSwcPort_key (n f s) : (modSwcPort n f s).key = s.key := rfl
@[simp] theorem modSwcPort_evr (n f s) : (modSwcPort n f s).evr = s.evr := rfl
@[simp] theorem modSwcPort_pwr (n f s) : (modSwcPort n f s).pwr = s.pwr := rfl
@[simp] theorem modSwcPort_hiLatch (n f s) : (modSwcPort n f s).hiLatch = s.hiLatch := rfl
@[simp] theorem modSwcPort_now (n f s) : (modSwcPort n f s).now = s.now := rfl
@[simp] theorem modSwcPort_out (n f s) : (modSwcPort n f s).out = s.out := rfl
@[simp] theorem modSwcPort_freeCtr (n f s) : (modSwcPort n f s).freeCtr = s.freeCtr := rfl
@[simp] theorem modSwcPort_pending (n f s) : (modSwcPort n f s).pending = s.pending := rfl

/-! ### modVf -/

@[simp] theorem modVf_sys (n f s) : (modVf n f s).sys = s.sys := rfl
@[simp] theorem modVf_acq (n f s) : (modVf n f s).acq = s.acq := rfl
@[simp] theorem modVf_flt (n f s) : (modVf n f s).flt = s.flt := rfl
@[simp] theorem modVf_trg (n f s) : (modVf n f s).trg = s.trg := rfl
@[simp] theorem modVf_sve (n f s) : (modVf n f s).sve = s.sve := rfl
@[simp] theorem modVf_prt (n f s) : (modVf n f s).prt = s.prt := rfl
@[simp] theorem modVf_trp (n f s) : (modVf n f s).trp = s.trp := rfl
@[simp] theorem modVf_cyc (n f s) : (modVf n f s).cyc = s.cyc := rfl
@[simp] theorem modVf_spd (n f s) : (modVf n f s).spd = s.spd := rfl
@[simp] theorem modVf_tbs (n f s) : (modVf n f s).tbs = s.tbs := rfl
@[simp] theorem modVf_rtc (n f s) : (modVf n f s).rtc = s.rtc := rfl
@[simp] theorem modVf_mac (n f s) : (modVf n f s).mac = s.mac := rfl
@[simp] theorem modVf_red (n f s) : (modVf n f s).red = s.red := rfl
@[simp] theorem modVf_swc (n f s) : (modVf n f s).swc = s.swc := rfl
@[simp] theorem modVf_vfm (n f s) : (modVf n f s).vfm = { s.vfm with vfs := tmodD s.vfm.vfs n Vf.reset f } := rfl
@[simp] theorem modVf_mbx (n f s) : (modVf n f s).mbx = s.mbx := rfl
@[simp] theorem modVf_cmd (n f s) : (modVf n f s).cmd = s.cmd := rfl
@[simp] theorem modVf_key (n f s) : (modVf n f s).key = s.key := rfl
@[simp] theorem modVf_evr (n f s) : (modVf n f s).evr = s.evr := rfl
@[simp] theorem modVf_pwr (n f s) : (modVf n f s).pwr = s.pwr := rfl
@[simp] theorem modVf_hiLatch (n f s) : (modVf n f s).hiLatch = s.hiLatch := rfl
@[simp] theorem modVf_now (n f s) : (modVf n f s).now = s.now := rfl
@[simp] theorem modVf_out (n f s) : (modVf n f s).out = s.out := rfl
@[simp] theorem modVf_freeCtr (n f s) : (modVf n f s).freeCtr = s.freeCtr := rfl
@[simp] theorem modVf_pending (n f s) : (modVf n f s).pending = s.pending := rfl

/-! ### modGsub -/

@[simp] theorem modGsub_sys (n f s) : (modGsub n f s).sys = s.sys := rfl
@[simp] theorem modGsub_acq (n f s) : (modGsub n f s).acq = s.acq := rfl
@[simp] theorem modGsub_flt (n f s) : (modGsub n f s).flt = s.flt := rfl
@[simp] theorem modGsub_trg (n f s) : (modGsub n f s).trg = s.trg := rfl
@[simp] theorem modGsub_sve (n f s) : (modGsub n f s).sve = { s.sve with gsubs := tmod s.sve.gsubs n f } := rfl
@[simp] theorem modGsub_prt (n f s) : (modGsub n f s).prt = s.prt := rfl
@[simp] theorem modGsub_trp (n f s) : (modGsub n f s).trp = s.trp := rfl
@[simp] theorem modGsub_cyc (n f s) : (modGsub n f s).cyc = s.cyc := rfl
@[simp] theorem modGsub_spd (n f s) : (modGsub n f s).spd = s.spd := rfl
@[simp] theorem modGsub_tbs (n f s) : (modGsub n f s).tbs = s.tbs := rfl
@[simp] theorem modGsub_rtc (n f s) : (modGsub n f s).rtc = s.rtc := rfl
@[simp] theorem modGsub_mac (n f s) : (modGsub n f s).mac = s.mac := rfl
@[simp] theorem modGsub_red (n f s) : (modGsub n f s).red = s.red := rfl
@[simp] theorem modGsub_swc (n f s) : (modGsub n f s).swc = s.swc := rfl
@[simp] theorem modGsub_vfm (n f s) : (modGsub n f s).vfm = s.vfm := rfl
@[simp] theorem modGsub_mbx (n f s) : (modGsub n f s).mbx = s.mbx := rfl
@[simp] theorem modGsub_cmd (n f s) : (modGsub n f s).cmd = s.cmd := rfl
@[simp] theorem modGsub_key (n f s) : (modGsub n f s).key = s.key := rfl
@[simp] theorem modGsub_evr (n f s) : (modGsub n f s).evr = s.evr := rfl
@[simp] theorem modGsub_pwr (n f s) : (modGsub n f s).pwr = s.pwr := rfl
@[simp] theorem modGsub_hiLatch (n f s) : (modGsub n f s).hiLatch = s.hiLatch := rfl
@[simp] theorem modGsub_now (n f s) : (modGsub n f s).now = s.now := rfl
@[simp] theorem modGsub_out (n f s) : (modGsub n f s).out = s.out := rfl
@[simp] theorem modGsub_freeCtr (n f s) : (modGsub n f s).freeCtr = s.freeCtr := rfl
@[simp] theorem modGsub_pending (n f s) : (modGsub n f s).pending = s.pending := rfl

/-! ### modSub -/

@[simp] theorem modSub_sys (n f s) : (modSub n f s).sys = s.sys := rfl
@[simp] theorem modSub_acq (n f s) : (modSub n f s).acq = s.acq := rfl
@[simp] theorem modSub_flt (n f s) : (modSub n f s).flt = s.flt := rfl
@[simp] theorem modSub_trg (n f s) : (modSub n f s).trg = s.trg := rfl
@[simp] theorem modSub_sve (n f s) : (modSub n f s).sve = { s.sve with subs := tmod s.sve.subs n f } := rfl
@[simp] theorem modSub_prt (n f s) : (modSub n f s).prt = s.prt := rfl
@[simp] theorem modSub_trp (n f s) : (modSub n f s).trp = s.trp := rfl
@[simp] theorem modSub_cyc (n f s) : (modSub n f s).cyc = s.cyc := rfl
@[simp] theorem modSub_spd (n f s) : (modSub n f s).spd = s.spd := rfl
@[simp] theorem modSub_tbs (n f s) : (modSub n f s).tbs = s.tbs := rfl
@[simp] theorem modSub_rtc (n f s) : (modSub n f s).rtc = s.rtc := rfl
@[simp] theorem modSub_mac (n f s) : (modSub n f s).mac = s.mac := rfl
@[simp] theorem modSub_red (n f s) : (modSub n f s).red = s.red := rfl
@[simp] theorem modSub_swc (n f s) : (modSub n f s).swc = s.swc := rfl
@[simp] theorem modSub_vfm (n f s) : (modSub n f s).vfm = s.vfm := rfl
@[simp] theorem modSub_mbx (n f s) : (modSub n f s).mbx = s.mbx := rfl
@[simp] theorem modSub_cmd (n f s) : (modSub n f s).cmd = s.cmd := rfl
@[simp] theorem modSub_key (n f s) : (modSub n f s).key = s.key := rfl
@[simp] theorem modSub_evr (n f s) : (modSub n f s).evr = s.evr := rfl
@[simp] theorem modSub_pwr (n f s) : (modSub n f s).pwr = s.pwr := rfl
@[simp] theorem modSub_hiLatch (n f s) : (modSub n f s).hiLatch = s.hiLatch := rfl
@[simp] theorem modSub_now (n f s) : (modSub n f s).now = s.now := rfl
@[simp] theorem modSub_out (n f s) : (modSub n f s).out = s.out := rfl
@[simp] theorem modSub_freeCtr (n f s) : (modSub n f s).freeCtr = s.freeCtr := rfl
@[simp] theorem modSub_pending (n f s) : (modSub n f s).pending = s.pending := rfl

/-! ### setBkp -/

@[simp] theorem setBkp_sys (n v s) : (setBkp n v s).sys = s.sys := rfl
@[simp] theorem setBkp_acq (n v s) : (setBkp n v s).acq = s.acq := rfl
@[simp] theorem setBkp_flt (n v s) : (setBkp n v s).flt = s.flt := rfl
@[simp] theorem setBkp_trg (n v s) : (setBkp n v s).trg = s.trg := rfl
@[simp] theorem setBkp_sve (n v s) : (setBkp n v s).sve = s.sve := rfl
@[simp] theorem setBkp_prt (n v s) : (setBkp n v s).prt = s.prt := rfl
@[simp] theorem setBkp_trp (n v s) : (setBkp n v s).trp = s.trp := rfl
@[simp] theorem setBkp_cyc (n v s) : (setBkp n v s).cyc = s.cyc := rfl
@[simp] theorem setBkp_spd (n v s) : (setBkp n v s).spd = s.spd := rfl
@[simp] theorem setBkp_tbs (n v s) : (setBkp n v s).tbs = s.tbs := rfl
@[simp] theorem setBkp_rtc (n v s) : (setBkp n v s).rtc = { s.rtc with bkp := s.rtc.bkp.set n (BitVec.ofNat 8 v) } := rfl
@[simp] theorem setBkp_mac (n v s) : (setBkp n v s).mac = s.mac := rfl
@[simp] theorem setBkp_red (n v s) : (setBkp n v s).red = s.red := rfl
@[simp] theorem setBkp_swc (n v s) : (setBkp n v s).swc = s.swc := rfl
@[simp] theorem setBkp_vfm (n v s) : (setBkp n v s).vfm = s.vfm := rfl
@[simp] theorem setBkp_mbx (n v s) : (setBkp n v s).mbx = s.mbx := rfl
@[simp] theorem setBkp_cmd (n v s) : (setBkp n v s).cmd = s.cmd := rfl
@[simp] theorem setBkp_key (n v s) : (setBkp n v s).key = s.key := rfl
@[simp] theorem setBkp_evr (n v s) : (setBkp n v s).evr = s.evr := rfl
@[simp] theorem setBkp_pwr (n v s) : (setBkp n v s).pwr = s.pwr := rfl
@[simp] theorem setBkp_hiLatch (n v s) : (setBkp n v s).hiLatch = s.hiLatch := rfl
@[simp] theorem setBkp_now (n v s) : (setBkp n v s).now = s.now := rfl
@[simp] theorem setBkp_out (n v s) : (setBkp n v s).out = s.out := rfl
@[simp] theorem setBkp_freeCtr (n v s) : (setBkp n v s).freeCtr = s.freeCtr := rfl
@[simp] theorem setBkp_pending (n v s) : (setBkp n v s).pending = s.pending := rfl

/-! ### emit -/

@[simp] theorem emit_sys (o s) : (emit o s).sys = s.sys := rfl
@[simp] theorem emit_acq (o s) : (emit o s).acq = s.acq := rfl
@[simp] theorem emit_flt (o s) : (emit o s).flt = s.flt := rfl
@[simp] theorem emit_trg (o s) : (emit o s).trg = s.trg := rfl
@[simp] theorem emit_sve (o s) : (emit o s).sve = s.sve := rfl
@[simp] theorem emit_prt (o s) : (emit o s).prt = s.prt := rfl
@[simp] theorem emit_trp (o s) : (emit o s).trp = s.trp := rfl
@[simp] theorem emit_cyc (o s) : (emit o s).cyc = s.cyc := rfl
@[simp] theorem emit_spd (o s) : (emit o s).spd = s.spd := rfl
@[simp] theorem emit_tbs (o s) : (emit o s).tbs = s.tbs := rfl
@[simp] theorem emit_rtc (o s) : (emit o s).rtc = s.rtc := rfl
@[simp] theorem emit_mac (o s) : (emit o s).mac = s.mac := rfl
@[simp] theorem emit_red (o s) : (emit o s).red = s.red := rfl
@[simp] theorem emit_swc (o s) : (emit o s).swc = s.swc := rfl
@[simp] theorem emit_vfm (o s) : (emit o s).vfm = s.vfm := rfl
@[simp] theorem emit_mbx (o s) : (emit o s).mbx = s.mbx := rfl
@[simp] theorem emit_cmd (o s) : (emit o s).cmd = s.cmd := rfl
@[simp] theorem emit_key (o s) : (emit o s).key = s.key := rfl
@[simp] theorem emit_evr (o s) : (emit o s).evr = s.evr := rfl
@[simp] theorem emit_pwr (o s) : (emit o s).pwr = s.pwr := rfl
@[simp] theorem emit_hiLatch (o s) : (emit o s).hiLatch = s.hiLatch := rfl
@[simp] theorem emit_now (o s) : (emit o s).now = s.now := rfl
@[simp] theorem emit_out (o s) : (emit o s).out = s.out ++ [o] := rfl
@[simp] theorem emit_freeCtr (o s) : (emit o s).freeCtr = s.freeCtr := rfl
@[simp] theorem emit_pending (o s) : (emit o s).pending = s.pending := rfl

end Sys2Proof.Machine
end

