-- ==== Sys2Proof/Laws/Tables.lean ====
section
/-! SUPPORT. Reads after writes of lists and sparse tables, and the canonical form of a table: every operation on a table keeps its keys rising. -/

namespace Sys2Proof.Machine

variable {α β : Type}

@[simp] theorem lmod_length (l : List α) (i : Nat) (f : α → α) : (lmod l i f).length = l.length := by simp [lmod]

@[simp] theorem lset_length (l : List α) (i : Nat) (v : α) : (lset l i v).length = l.length := by simp [lset]

@[simp] theorem tab_length (n : Nat) (f : Nat → α) : (tab n f).length = n := by simp [tab]

@[simp] theorem imap_length (f : Nat → α → β) (l : List α) : (imap f l).length = l.length := by simp [imap]

theorem lmod_get (l : List α) (i j : Nat) (f : α → α) : (lmod l i f)[j]? = if i = j then l[j]?.map f else l[j]? := by
  simp only [lmod, List.getElem?_modify]
  split <;> simp [*]

theorem lset_get (l : List α) (i j : Nat) (v : α) : (lset l i v)[j]? = if i = j then l[j]?.map (fun _ => v) else l[j]? := by
  simp only [lset, List.getElem?_set]
  by_cases h : i = j
  · subst h
    by_cases h' : i < l.length <;> simp [h']
  · simp [h]

@[simp] theorem tget_nil (k : Nat) : tget ([] : Table α) k = none := rfl

theorem tget_cons (p : Nat × α) (t : Table α) (k : Nat) : tget (p :: t) k = if p.1 = k then some p.2 else tget t k := rfl

/-- A read of a table after a write. -/
theorem tget_tset (t : Table α) (k j : Nat) (v : α) : tget (tset t k v) j = if k = j then some v else tget t j := by
  induction t with
  | nil => simp [tset, tget_cons]
  | cons p r ih =>
    obtain ⟨i, w⟩ := p
    simp only [tset]
    split
    · simp only [tget_cons]
    · split
      · rename_i e
        subst e
        simp only [tget_cons]
        split <;> rfl
      · rename_i h1 h2
        simp only [tget_cons, ih]
        by_cases e : i = j
        · subst e; simp [h2]
        · simp [e]

theorem tgetD_tset (t : Table α) (k j : Nat) (v d : α) : tgetD (tset t k v) j d = if k = j then v else tgetD t j d := by
  simp only [tgetD, tget_tset]
  split <;> rfl

theorem tgetD_tmodD (t : Table α) (k j : Nat) (d : α) (f : α → α) : tgetD (tmodD t k d f) j d = if k = j then f (tgetD t j d) else tgetD t j d := by
  rw [tmodD, tgetD_tset]
  split
  · rename_i e; rw [e]
  · rfl

theorem tget_tdel (t : Table α) (k j : Nat) : tget (tdel t k) j = if k = j then none else tget t j := by
  induction t with
  | nil => simp [tdel]
  | cons p r ih =>
    simp only [tdel, List.filter_cons] at ih ⊢
    by_cases h : p.1 = k
    · subst h
      simp only [bne_self_eq_false, Bool.false_eq_true, if_false, ih, tget_cons]
      split <;> simp_all
    · simp only [bne_iff_ne, ne_eq, h, not_false_eq_true, if_true, tget_cons, ih]
      split
      · rename_i e; subst e; rw [if_neg (fun e => h e.symm)]
      · rfl

theorem tget_tmod (t : Table α) (k j : Nat) (f : α → α) : tget (tmod t k f) j = if k = j then (tget t j).map f else tget t j := by
  induction t with
  | nil => simp [tmod]
  | cons p r ih =>
    simp only [tmod, List.map_cons] at ih ⊢
    by_cases h : p.1 = k
    · subst h
      simp only [if_true, tget_cons, ih]
      split <;> simp
    · simp only [h, if_false, tget_cons, ih]
      split
      · rename_i e; subst e; rw [if_neg (fun e => h e.symm)]
      · rfl

theorem tsorted_tail {p : Nat × α} {t : Table α} (h : tsorted (p :: t) = true) : tsorted t = true := by
  cases t with
  | nil => rfl
  | cons q r => simp only [tsorted, Bool.and_eq_true] at h; exact h.2

/-- Every key of the rest lies above the first. -/
theorem tsorted_lt {p : Nat × α} {t : Table α} (h : tsorted (p :: t) = true) : ∀ q ∈ t, p.1 < q.1 := by
  induction t generalizing p with
  | nil => simp
  | cons a r ih =>
    have h1 : p.1 < a.1 := by simp only [tsorted, Bool.and_eq_true, decide_eq_true_eq] at h; exact h.1
    intro q hq
    rcases List.mem_cons.1 hq with rfl | hq
    · exact h1
    · exact Nat.lt_trans h1 (ih (tsorted_tail h) q hq)

theorem tsorted_cons {p : Nat × α} {t : Table α} (h : tsorted t = true) (hp : ∀ q ∈ t, p.1 < q.1) : tsorted (p :: t) = true := by
  cases t with
  | nil => rfl
  | cons a r => simp only [tsorted, Bool.and_eq_true, decide_eq_true_eq]; exact ⟨hp a (by simp), h⟩

theorem mem_tset {t : Table α} {k : Nat} {v : α} {q : Nat × α} (h : q ∈ tset t k v) : q = (k, v) ∨ q ∈ t := by
  induction t with
  | nil => simp_all [tset]
  | cons p r ih =>
    simp only [tset] at h
    split at h
    · rcases List.mem_cons.1 h with rfl | h <;> simp_all
    · split at h
      · rcases List.mem_cons.1 h with rfl | h <;> simp_all
      · rcases List.mem_cons.1 h with rfl | h
        · simp
        · rcases ih h with e | e <;> simp [e]

/-- A write keeps the canonical form. -/
theorem tset_sorted {t : Table α} (h : tsorted t = true) (k : Nat) (v : α) : tsorted (tset t k v) = true := by
  induction t with
  | nil => rfl
  | cons p r ih =>
    have hr := tsorted_tail h
    have hlt := tsorted_lt h
    simp only [tset]
    split
    · rename_i hk
      exact tsorted_cons h (fun q hq => by rcases List.mem_cons.1 hq with rfl | hq; exacts [hk, Nat.lt_trans hk (hlt q hq)])
    · split
      · rename_i e
        subst e
        exact tsorted_cons hr hlt
      · rename_i h1 h2
        refine tsorted_cons (ih hr) (fun q hq => ?_)
        rcases mem_tset hq with rfl | hq
        · exact Nat.lt_of_le_of_ne (Nat.le_of_not_lt h1) (fun e => h2 e.symm)
        · exact hlt q hq

/-- Leaving entries out keeps the canonical form. -/
theorem filter_sorted {t : Table α} (h : tsorted t = true) (f : Nat × α → Bool) : tsorted (t.filter f) = true := by
  induction t with
  | nil => rfl
  | cons p r ih =>
    simp only [List.filter_cons]
    split
    · exact tsorted_cons (ih (tsorted_tail h)) (fun q hq => tsorted_lt h q (List.mem_filter.1 hq).1)
    · exact ih (tsorted_tail h)

theorem tdel_sorted {t : Table α} (h : tsorted t = true) (k : Nat) : tsorted (tdel t k) = true := filter_sorted h _

/-- Changing entries in place keeps the canonical form. -/
theorem map_sorted {t : Table α} (h : tsorted t = true) {f : Nat × α → Nat × β} (hf : ∀ p, (f p).1 = p.1) : tsorted (t.map f) = true := by
  induction t with
  | nil => rfl
  | cons p r ih =>
    refine tsorted_cons (ih (tsorted_tail h)) (fun q hq => ?_)
    obtain ⟨a, ha, rfl⟩ := List.mem_map.1 hq
    rw [hf, hf]
    exact tsorted_lt h a ha

theorem tmod_sorted {t : Table α} (h : tsorted t = true) (k : Nat) (f : α → α) : tsorted (tmod t k f) = true :=
  map_sorted h (fun p => by split <;> rfl)

theorem tmodD_sorted {t : Table α} (h : tsorted t = true) (k : Nat) (d : α) (f : α → α) : tsorted (tmodD t k d f) = true :=
  tset_sorted h k _

end Sys2Proof.Machine
end

