-- ==== Sys2Proof/Machine/Pins.lean ====
section
/-! DEFINITION. Levels of the output pins in each state, from the fields that decide them (19_connectors_environment.md R455, R456, R463; log entry 152). -/

namespace Sys2Proof.Machine

/-- An output pin drives a level, or is undriven and takes its pull (R463). -/
inductive PinLevel where
  | low
  | high
  | undriven
deriving DecidableEq, Repr

def PinLevel.ofBool (b : Bool) : PinLevel := if b then .high else .low

/-- A pin that the module drives in every state but OFF. -/
def drivenPin (s : State) (b : Bool) : PinLevel := if s.sys.st = .off then .undriven else .ofBool b

/-- TO0 to TO7: high while the output is energised (R456, R463). -/
def toPin (s : State) (i : Nat) : PinLevel := drivenPin s (s.trp.pins.getLsbD i)

/-- MOD_OK: high in SERVICE (R456). -/
def modOkPin (s : State) : PinLevel := drivenPin s (s.sys.st == .service)

/-- FORCE_N: an open drain that is low while a force is active (R222, R456, R463). -/
def forceNPin (s : State) : PinLevel :=
  match s.sys.st with
  | .off | .start => .undriven
  | _ => if forceActive s then .low else .undriven

/-- PPS_OUT0 and PPS_OUT1 (R266, R463). -/
def ppsPin (s : State) (i : Nat) : PinLevel := drivenPin s (ppsLevel s i)

/-- A port's transmitter is off: until its MODE is loaded, and in SAFELIGHT unless it is kept for a wake (R463). -/
def txOff (s : State) (p : Nat) : Bool :=
  match s.sys.st with
  | .start => !s.cmd.cfgLoaded || (macOf s p).mode p == 0
  | .safelight => !wakePort s p
  | _ => (macOf s p).mode p == 0

/-- PA_TXDIS and PB_TXDIS: high while the transmitter is off (R455, R463). -/
def txDisPin (s : State) (p : Nat) : PinLevel := drivenPin s (txOff s p)

/-- DP_TXDIS: DP has one mode, taken to be loaded with the configuration (R313, R463; log entry 152). -/
def dpTxDisPin (s : State) : PinLevel := drivenPin s (!s.cmd.cfgLoaded || s.sys.st == .safelight)

/-- PHY_RST_N: low in START until the interpreter runs (R442, R443, R463). -/
def phyRstPin (s : State) : PinLevel := drivenPin s (s.sys.st != .start || s.cmd.interp)

/-- XLINE0 and XLINE1: open drains, low for the module's own pulse and released in OFF, START and SAFELIGHT (R92, R463). -/
def xlinePin (s : State) (line : Nat) : PinLevel :=
  match s.sys.st with
  | .off | .start | .safelight => .undriven
  | _ => match s.trg.xout[line]? with
    | some p => if p.on && decide (s.now < p.to') then .low else .undriven
    | none => .undriven

end Sys2Proof.Machine
end

