-- ==== Sys2Proof/WellFormed.lean ====
section
/-! DEFINITION. Well-formed commands and events: every index names something the module has, every field of a packet fits its width. Execution asks nothing of this: an ill-formed operand has no effect, or the refusal of its command. -/

namespace Sys2Proof

open Sys2Proof.Machine

/-- An index below its bound. -/
abbrev below (n x : Nat) : Bool := decide (x < n)

/-- A VF: 1 to 1,024 (R334). -/
abbrev vfIndex (v : Nat) : Bool := decide (1 ≤ v) && decide (v ≤ 1024)

/-- A ring of PF or VF (R339). -/
def ringIndex : RingId → Bool
  | .rx v => vfIndex v
  | .tx v => vfIndex v
  | .evq => true

/-- A master that exists (R37, R363). -/
def masterIndex : Master → Bool
  | .qc c => below 16 c
  | .vf v => vfIndex v
  | .host | .svc | .ksc => true

/-- A source code of R382. -/
def sourceCode (n : Nat) : Bool := below 4 n || n == 0x10 || n == 0x20 || n == 0x21

/-- A packet whose header fields fit their widths (R371). -/
def packetWf (e : Env) : Bool :=
  sourceCode e.src && below 256 e.version && below 65536 e.hdr.opcode && below 256 e.hdr.flags && below (2 ^ 32) e.hdr.tag && below (2 ^ 32) e.hdr.plen
    && below 65536 e.hdr.scope && below 65536 e.hdr.authSlot && below (2 ^ 64) e.hdr.replyAddr && below (2 ^ 32) e.hdr.replyMax && below (2 ^ 32) e.hdr.nonce

/-- A well-formed command or event. -/
def Instr.wf (i : Instr) : Bool :=
  match i with
  | .coldStart .. | .startComplete .. | .mrstAssert .. | .mrstRelease .. | .hkConvert .. | .calibrationComplete .. | .cd5LockLost .. | .cd5LockAcquired ..
  | .shutterDecisionInterval .. | .shutterRecordClose .. | .shutterDataBlockWrite .. | .shutterCommitComplete .. | .irigFrameReceive .. | .ocxoDailyValue ..
  | .backupSupplySwitch .. | .vbatSample .. | .rtcSecondRollover .. | .rtcDisciplineStep .. | .rtcCommitLoad .. | .rtcCaptureComplete ..
  | .ownSilenceDetect .. | .hostLinkChange .. | .perstAssert .. | .perstDeassert .. | .pfFlr .. | .pfPowerStateChange .. | .cfgTransactionTimeout ..
  | .attestSignComplete .. | .evrRecordWrite .. | .optimeStore .. | .shed1Enter .. | .shedLevelEnter .. | .supplyRecovered .. | .shedLevelLeave ..
  | .powerDown .. | .vinOvervoltageDisconnect .. | .vinUndervoltage .. | .vinExcursionEnd .. | .holdupTestDue .. | .holdupTestComplete ..
  | .holdShortDisconnect .. | .safelightPowerGate .. | .wakeComplete .. | .vcoreFastLoopStep .. | .marginPlan .. | .backupDomainRestart ..
  | .evrClearComplete .. => true
  | .warmStart _ src => decide (1 ≤ src) && below 4 src
  | .watchdogExpire _ step => below 256 step
  | .adcStrobe _ codes => codes.length == 24
  | .ckSlotConvert _ ck _ => below 4 ck
  | .urgentConversionComplete _ conv _ => below 5 conv
  | .slotDeadline _ ch _ => below 4120 ch
  | .svFrameReceive _ f => below 4 f.link.port
  | .gooseFrameReceive _ f => below 4 f.link.port
  | .svStreamLostTimeout _ n => below 512 n
  | .gooseTalExpire _ n => below 128 n
  | .gooseRetransmit _ n => below 32 n
  | .zoneEvaluate _ z _ => below 64 z
  | .testModeExpire _ z | .ownBeaconTransmit _ z | .ownListenExpire _ z | .ownClaimComplete _ z => below 64 z
  | .tripRowRelease _ r => below 16 r
  | .blockedQHoldExpire _ n => below 2048 n
  | .flashSuppressSummary _ ch stage => below 24 ch && below 2 stage
  | .biDebouncedChange _ n _ => below 16 n
  | .biChatterRecover _ n => below 16 n
  | .toFeedbackMismatch _ n | .toMismatchClear _ n => below 8 n
  | .taskCycleStart _ n _ => below 64 n
  | .nativeCallAbort _ n _ _ => below 64 n
  | .taskCycleCommit _ n => below 64 n
  | .trigEdgeQualify _ line _ stamp => below 6 line && stamp.length == 4
  | .xlinePulseEnd _ line => below 2 line
  | .ptpSyncReceive _ m => below 4 m.hdr.port
  | .ptpFollowUpReceive _ m => below 4 m.hdr.port
  | .ptpAnnounceReceive _ m => below 4 m.hdr.port
  | .pdelayMessageReceive _ m => below 4 m.hdr.port
  | .followUpTimeout _ p | .pauseRefresh _ p | .pauseExpire _ p => below 4 p
  | .ptpMessageTransmit _ p k => below 4 p && (match k with
    | .sync b | .announce b => below 4 b
    | .pdelayReq => true)
  | .announceReceiptTimeout _ b | .sourceLossTimeout _ b | .holdoverErrorUpdate _ b | .holdoverLimitExpire _ b | .timStepApply _ b
  | .leapSecondApply _ b => below 4 b
  | .ppsInEdge _ stamp => stamp.length == 4
  | .tegFire _ g => below 16 g
  | .linkUp _ p _ | .linkDown _ p _ => below 4 p
  | .frameReceive _ f => below 4 f.port
  | .pauseReceive _ p q => below 4 p && below 65536 q
  | .swcFrameTransmit _ p => below 8 p
  | .fdbAgeOut _ mac vid => below (2 ^ 48) mac && below 4095 vid
  | .prpSupervisionTransmit _ q | .standbyFaultClear _ q | .revertHoldExpire _ q => below 2 q
  | .prpNodeForget _ q _ => below 2 q
  | .bracketMissDecide _ q n _ => below 2 q && below 512 n
  | .ownBeaconReceive _ b => below 4 b.port
  | .vfFlr _ v | .stopBathComplete _ v | .mbxVfRxDataRead _ v | .mbRxDataRead _ v => vfIndex v
  | .vfEnableWrite _ _ n _ => below 65536 n
  | .doorbellRx _ v _ | .doorbellTx _ v _ | .mbxVfTxPost _ v _ | .mbTxPost _ v _ | .vfVreqSet _ v _ | .vfVreqClr _ v _ => vfIndex v
  | .txEntryFetch _ v _ => vfIndex v
  | .qCtlWrite _ q _ => ringIndex q
  | .rxDeliveryWrite _ q _ => ringIndex q
  | .msixCoalesceExpire _ q => ringIndex q
  | .completionTimeout _ fn => below 1025 fn
  | .mbxCorePost _ m r slot _ => masterIndex m && below 17 r && below 16 slot
  | .mbxCoreDataRead _ m r slot => masterIndex m && below 17 r && below 16 slot
  | .pmbPost _ n _ => below 4 n
  | .cmdFetch _ n packet => below 4 n && packet.all packetWf
  | .replyNoticePost _ n | .pmbReplyRead _ n => below 4 n
  | .semRead _ m n => masterIndex m && below 64 n
  | .semRelease _ m _ | .evrRdSelect _ m _ | .evrRdNext _ m _ | .rtcStgSecWrite _ m _ | .acqUrgWrite _ m _ | .acqImplClear _ m _ | .trgForceWrite _ m _
  | .trgArmedWrite _ m _ | .sveSimWrite _ m _ | .sveCsSelWrite _ m _ | .swcVoqSelWrite _ m _ | .spdSiPlanWrite _ m _ | .spdVcoreOvrWrite _ m _ => masterIndex m
  | .tbsCapture _ m | .rtcCapture _ m => masterIndex m
  | .udpCommandReceive _ d | .udpDataRequest _ d => below 2 d.port && below (2 ^ 32) d.addr && below 65536 d.udpPort
  | .udpSequenceIdleExpire _ src _ _ | .udpOutputExpire _ src _ _ => sourceCode src
  | .arpRequestReceive _ p target sender => below 2 p && below (2 ^ 32) target && below (2 ^ 48) sender
  | .icmpEchoReceive _ p target sender _ => below 2 p && below (2 ^ 32) target && below (2 ^ 48) sender
  | .consoleLineReceive _ line => line.all fun c => c != '\n' && c != '\r'
  | .tamperDetect _ src _ _ => below 5 src
  | .snapshotCopyComplete _ n | .snapshotTimeout _ n => below 2 n
  | .safelightWake _ src => below 5 src.cls && below 256 src.index
  | .speedMeasurement _ counts => counts.length == 22
  | .registerWrite _ m a _ => masterIndex m && a % 4 == 0
  | .registerRead _ m a => masterIndex m && a % 4 == 0
  | .acqCkSeqWrite _ m ck _ _ => masterIndex m && below 4 ck
  | .fltDetClr _ m ch _ | .fltDcbFreezeWrite _ m ch _ => masterIndex m && below 24 ch
  | .fltScaleEofsWrite _ m ch _ _ => masterIndex m && below 24 ch
  | .tegCtlWrite _ m g _ => masterIndex m && below 16 g
  | .selftestComplete _ _ _ _ => true
  | .sysIdentify _ e | .sysGetState _ e | .sysGetHealth _ e | .cfgAbort _ e | .trgDisarm _ e | .trgArm _ e | .trgEraseRecords _ e | .rtcGet _ e
  | .vfmReset _ e | .evrStatus _ e => packetWf e
  | .sysSetState _ e x | .sysReset _ e x | .fltGetDelay _ e x | .prtOwnershipRead _ e x | .prtOwnershipClaim _ e x | .prtOwnershipRelease _ e x
  | .logGetStatus _ e x | .timGetStatus _ e x => packetWf e && below 256 x
  | .cfgBegin _ e x | .sveUnsubscribe _ e x | .prtGetElement _ e x | .spdGetPlan _ e x => packetWf e && below 65536 x
  | .sysSelftest _ e _ | .acqCalibrate _ e _ => packetWf e
  | .cfgCommit _ e a n => packetWf e && below 256 a && below (2 ^ 32) n
  | .cfgRead _ e which addr len => packetWf e && below 256 which && below (2 ^ 64) addr && below (2 ^ 32) len
  | .acqUrgentConvert _ e conv input => packetWf e && below 256 conv && below 256 input
  | .prtSetGroup _ e z g => packetWf e && below 256 z && below 256 g
  | .logOnlineChange _ e task slot => packetWf e && below 256 task && below 256 slot
  | .logForceSet _ e area n val => packetWf e && below 256 area && below (2 ^ 24) n && below 256 val
  | .logForceClear _ e all area n => packetWf e && below 256 all && below 256 area && below (2 ^ 24) n
  | .pwrHoldupTest _ e _ => packetWf e
  | .acqSetChannel _ e _ | .acqSetSequence _ e _ | .fltSetChain _ e _ | .trgArmLoadProfile _ e _ | .trgSetSources _ e _ | .trgForce _ e _
  | .trgExportRecord _ e _ | .sveSubscribe _ e _ | .svePublish _ e _ | .sveGooseSubscribe _ e _ | .sveGoosePublish _ e _ | .prtDefineZone _ e _
  | .prtSetElement _ e _ | .prtTripMatrix _ e _ | .prtTestInject _ e _ | .logLoad _ e _ | .logActivate _ e _ | .timConfigBase _ e _ | .timStep _ e _
  | .rtcSet _ e _ | .netPortConfig _ e _ | .netRedundancy _ e _ | .netFilter _ e _ | .netWakePattern _ e _ | .netCounters _ e _ | .swcTableRead _ e _
  | .swcTableWrite _ e _ | .swcTableDelete _ e _ | .swcTableFlush _ e _ | .swcBufferPolicy _ e _ | .vfmSetShare _ e _ | .vfmBindZone _ e _
  | .vfmGrantTrip _ e _ | .keyLoad _ e _ | .keyDerive _ e _ | .keyDestroySlot _ e _ | .keyFogNow _ e _ | .keyTamperClear _ e _ | .keySetTampEn _ e _
  | .keyChallenge _ e _ | .keyAttestPubkey _ e _ | .keyAttestQuote _ e _ | .fwUpdateWrite _ e _ | .fwUpdateVerify _ e _ | .fwUpdateActivate _ e _
  | .fwUpdateCommit _ e _ | .fwUpdateRevert _ e _ | .evrSnapshotOpen _ e _ | .evrSnapshotRead _ e _ | .evrSnapshotClose _ e _ | .evrClear _ e _
  | .pwrSetThresholds _ e _ | .pwrSafelight _ e _ => packetWf e

end Sys2Proof
end

