-- ==== Sys2Proof/Tests/Slice0.lean ====
section
/-! SUPPORT. Tests: states that meet the hypotheses of every statement, ill-formed operands, and worked examples of the spec. -/

namespace Sys2Proof.Tests

open Sys2Proof Sys2Proof.Machine

/-- The module in a state, the interpreter running. -/
def up (st : ModState) : State := { State.reset with sys := { Sys.reset with st := st }, cmd := { Cmd.reset with interp := true } }

/-- A packet on channel 0 with AUTH, signed with slot 1. -/
def packet (op plen scope : Nat) : Env := ⟨0, (0, 0), 1, ⟨op, 1, 7, plen, scope, 1, 0x1000, 65535, 0⟩, List.replicate plen 0#8, [], true⟩

/-- A packet without AUTH. -/
def plain (op plen : Nat) : Env := { packet op plen 0 with hdr := { (packet op plen 0).hdr with flags := 0 } }

/-- The packet waits past the first checks, and slot 1 carries CMD_AUTH. -/
def queued (p : Env) (s : State) : State :=
  { s with cmd := { s.cmd with queue := [⟨p, some []⟩] }, key := { s.key with slots := tset s.key.slots 1 ⟨3, 0x1#8, 0#32, []⟩ } }

/-- The packet begins in that state and the row's own conditions hold. -/
def meets (p : Env) (q : CmdReq) (s : State) (cond : ReplyTo → State → Bool) : Bool :=
  match begins p q (atTime 0 (queued p s)) with
  | some (rt, u) => cond rt u
  | none => false

/-- What a witness by meets shows: a packet, a state and a destination that meet the hypotheses of a command's clause. -/
theorem meets_met {p : Env} {q : CmdReq} {s : State} {cond : ReplyTo → State → Bool} (h : meets p q s cond = true) :
    ∃ rt u, begins p q (atTime 0 (queued p s)) = some (rt, u) ∧ cond rt u = true := by
  unfold meets at h
  split at h
  · exact ⟨_, _, ‹_›, h⟩
  · cases h

theorem met_SystemCommandsComplete :
    meets (packet 0x0100 4 0) ⟨0x0100, false, plenIs 4, 72, [.start, .service, .maint, .safeService]⟩ (up .start) (fun _ _ => true) = true ∧
    meets (packet 0x0101 4 0) ⟨0x0101, false, plenIs 4, 16, [.start, .service, .maint, .safeService]⟩ (up .safeService) (fun _ _ => true) = true ∧
    meets (packet 0x0105 4 0) ⟨0x0105, false, plenIs 4, 32, [.start, .service, .maint, .safeService]⟩ (up .maint) (fun _ _ => true) = true ∧
    meets (packet 0x0103 4 0) ⟨0x0103, true, plenIs 4, 0, [.start, .service, .maint, .safeService]⟩ (up .service) (fun _ _ => true) = true ∧
    meets (packet 0x0104 4 0) ⟨0x0104, false, plenIs 4, 16, [.service, .maint, .safeService]⟩ (up .maint)
      (fun _ u => testsAllowed u.sys.st 63#32 && decide ((63#32).toNat < 64) && u.cmd.selftest.isNone) = true ∧
    { Cmd.reset with selftest := some (63#32, 0, ⟨0, (0, 0), (packet 0 0 0).hdr, none⟩) }.selftest = some (63#32, 0, ⟨0, (0, 0), (packet 0 0 0).hdr, none⟩) ∧
    42#32 ||| 21#32 = 63#32 ∧ 42#32 &&& 21#32 = 0#32 := by decide +kernel

theorem met_SetStateChangesTheState :
    meets (packet 0x0102 4 0) ⟨0x0102, true, plenIs 4, 0, [.service, .maint]⟩ (up .service)
      (fun _ u => u.sys.st == .service && u.sys.leaving.isNone) = true ∧
    { Sys.reset with leaving := some ⟨⟨0, (0, 0), (packet 0 0 0).hdr, none⟩, none, false⟩ }.leaving ≠ none ∧
    meets (packet 0x0102 4 0) ⟨0x0102, true, plenIs 4, 0, [.service, .maint]⟩ (up .maint)
      (fun _ u => u.sys.st == .maint && u.sys.leaving.isNone && (admitFault u).isNone) = true := by decide +kernel

/-- The worked example of 08_cyclic_logic.md as an image: id 9, timer 7 a TON of 2,500 µs, write set Q 4,096. -/
def harwick : Image :=
  ⟨9, [0x04000002, 0x40C00040, 0x14C00051, 0x54000000, 0x81800007, 0x24401000, 0x74000000].map instrOf, [⟨7, 0, 2500⟩], [], [], [⟨1, 4096, 1⟩], [], [], [], [], [], 0⟩

theorem test_harwick_words : harwick.prog = [⟨1, 0, 2⟩, ⟨16, 3, 64⟩, ⟨5, 3, 81⟩, ⟨21, 0, 0⟩, ⟨32, 6, 7⟩, ⟨9, 1, 4096⟩, ⟨29, 0, 0⟩] := by decide +kernel
theorem test_harwick_cost : harwick.cost = 164 := by decide +kernel
theorem test_harwick_sound : imgFault harwick = none := by decide +kernel
def endOnly : Image := ⟨1, [⟨29, 0, 0⟩], [], [], [], [], [], [], [], [], [], 0⟩

theorem test_image_octets : imgParse endOnly.octets = some endOnly := by decide +kernel

/-- Zone 3 of DC channels, and an element in it. -/
def zoneDef : ZoneDef := ⟨3, 1, 0, 0, 0, 3, 750, 4000, List.replicate 8 0xFFFF, ⟨0xFF, 0xFF, 0⟩, 0, 0xFFFFFFFF, 0xFFFFFFFF⟩

def withZone (s : State) : State := { s with prt := { s.prt with zones := tset s.prt.zones 3 (Zone.fresh zoneDef 0) } }

def inst5 : Inst := ⟨⟨5, 3, clsPTRC, 1, 0, 0xFF, 0, ⟨0xFF, 0xFF, 0⟩, 0, ⟨0xFF, 0xFF, 0⟩, 0, 0xFFFFFFFF, 0, 15, 0xFFFF, 0xFFFF, []⟩, List.replicate 4 (List.replicate 16 0#32), Signals.reset, .use, ElemState.reset, 0, 0, 0, false, none⟩

def withInst (s : State) : State := { withZone s with prt := { (withZone s).prt with insts := [(5, inst5)] } }

/-- A module that owns zone 3 in a unit of its own. -/
def withOwner (st : OwnState) (s : State) : State :=
  { s with red := { s.red with own := { s.red.own with unitId := 1, ownEn := 8#64 }, zones := lmod s.red.zones 3 fun z => { z with st := st, epoch := 41 } } }

/-- A committed record of one channel, one row long. -/
def record : ShtRec :=
  { recno := 1, prevRecno := 0, flags := BitVec.ofNat 16 (2 ^ rfCommitted), tb := 0, rate := 0, info := ⟨0, 0, 0, 0⟩, trig := 1000000000, trigSrc := 0xFFFF, ntrig := 1
    start := 900000000, stop := 1100000000, preMs := 100, postMs := 100, urgResult := 0, urgConv := 0, urgInput := 0, urgStatus := 0, wins := []
    chans := [⟨0, 0, [], [], 0#32, 0#32⟩], frDescs := [], digs := [], station := [], rows := [[]], digLog := [], digNow := [], frRows := [], phase := .committed
    written := 1, blocks := [0], chain := none }

def withRecord (s : State) : State := { s with trg := { s.trg with records := [record], ctl := s.trg.ctl ||| 1#32 } }

def withTask (s : State) : State :=
  { s with cyc := { s.cyc with slots := [(1, harwick), (2, { harwick with id := 10 }), (3, endOnly)],
                               tasks := [(6, Task.fresh { s with cyc := { s.cyc with slots := [(1, harwick)] } } ⟨6, 1, 2, 0, 1, 0, 0, 0, 0, 1000, 0⟩)] } }

theorem met_ConverterRowsComplete :
    meets (packet 0x0302 4 0) ⟨0x0302, false, plenIs 4, 8, [.maint, .service]⟩ (up .maint) (fun _ u => (calTargetMap 0xFF).isSome && !u.acq.calBusy && u.sys.st == .maint) = true ∧
    meets (packet 0x0303 4 0) ⟨0x0303, false, plenIs 4, 16, [.service, .maint, .safeService]⟩ (up .service)
      (fun rt u => (urgentRequest 3 ⟨7, some rt, none⟩ u).1 && (urgentRequest 4 ⟨12, some rt, none⟩ u).1) = true ∧
    (dark (up .maint) = false ∧ bits 0xC04#32 2 0 = 4 ∧ bits 0xC04#32 11 8 ≤ 12 ∧
      (urgentRequest 4 ⟨12, none, none⟩ (atTime 0 (up .maint))).1 = true) ∧
    (up .maint).sys.st = .maint ∧ bit { (up .maint).acq with impl := 0x800000#32 }.impl 23 = true ∧
    meets (packet 0x0311 4 0) ⟨0x0311, false, plenIs 4, 32, [.service, .maint, .safeService]⟩ (up .safeService) (fun _ _ => true) = true := by decide +kernel

theorem met_ShutterCommandsComplete :
    meets (packet 0x0320 1 0) ⟨0x0320, false, fun n => decide (n ≥ 1), 0, [.service, .maint]⟩ (up .service) (fun _ _ => true) = true ∧
    meets (packet 0x0320 1 0) ⟨0x0320, true, fun n => decide (n ≥ 1), 0, [.maint]⟩ (up .maint) (fun _ _ => true) = true ∧
    meets { packet 0x0320 1 0 with payload := [4#8] } ⟨0x0320, false, fun n => decide (n ≥ 1), 0, [.service, .maint]⟩ (up .service) (fun _ _ => true) = true ∧
    ((packet 0x0320 1 0).payload.headD 0#8).toNat ≤ 3 ∧ 4 ≤ (({ packet 0x0320 1 0 with payload := [4#8] } : Env).payload.headD 0#8).toNat ∧
    meets (packet 0x0322 20 0) ⟨0x0322, false, plenIs 20, 8, [.service, .maint]⟩ (withRecord (up .service))
      (fun _ u => bit u.trg.ctl 0 && decide (0 ≤ shtNow u) && nbit 3 0 && !nbit 2 0) = true ∧
    meets (packet 0x0323 24 0) ⟨0x0323, false, plenIs 24, 24, [.service, .maint, .safeService]⟩ (withRecord (up .maint))
      (fun rt u => (exportOf u ⟨1, 0, 1, 0, 0⟩).isSome && !isUdp rt.src) = true := by decide +kernel

/-- An output of BUF_LEN octets fits, but for UDP with an address. -/
theorem output_fits {rt : ReplyTo} (h : isUdp rt.src = false) (a n : Nat) : outputFault rt a n n = none := by simp [outputFault, h]

theorem met_ShutterCommandsComplete_export : ∃ (p : TrgExport) (x : ShtRec × Comtrade) (rt : ReplyTo) (u : State),
    begins (packet 0x0323 24 0) ⟨0x0323, false, plenIs 24, 24, [.service, .maint, .safeService]⟩ (atTime 0 (queued (packet 0x0323 24 0) (withRecord (up .maint)))) = some (rt, u) ∧
    exportOf u p = some x ∧ p.part ≤ 4 ∧ p.format ≤ 1 ∧ outputFault rt p.bufAddr p.bufLen ((Config.comtrade x.2).1 ++ (Config.comtrade x.2).2).length = none := by
  obtain ⟨rt, u, h, hc⟩ := meets_met met_ShutterCommandsComplete.2.2.2.2.2.2
  simp only [Bool.and_eq_true, Bool.not_eq_true'] at hc
  obtain ⟨x, hx⟩ := Option.isSome_iff_exists.mp hc.1
  exact ⟨⟨1, 0, 1, 0, ((Config.comtrade x.2).1 ++ (Config.comtrade x.2).2).length⟩, x, rt, u, h, hx, Nat.zero_le _, Nat.le_refl _, output_fits hc.2 0 _⟩

theorem met_ProtectionCommandsComplete :
    meets (packet 0x0402 4 0) ⟨0x0402, false, plenIs 4, 288, [.service, .maint, .safeService]⟩ (withInst (up .maint)) (fun _ u => tget u.prt.insts 5 == some inst5) = true ∧
    meets (packet 0x0403 4 0) ⟨0x0403, false, plenIs 4, 0, [.service, .maint]⟩ (withZone (up .service))
      (fun _ u => tget u.prt.zones 3 == some (Zone.fresh zoneDef 0) && (Zone.fresh zoneDef 0).cfg.grpLo == 0xFFFFFFFF && u.sys.st == .service) = true ∧
    meets (packet 0x0403 4 0) ⟨0x0403, false, plenIs 4, 0, [.service, .maint]⟩ (withZone (up .maint))
      (fun _ u => tget u.prt.zones 3 == some (Zone.fresh zoneDef 0) && u.sys.st == .maint) = true ∧
    meets (packet 0x0405 216 0) ⟨0x0405, true, plenIs 216, 0, [.service]⟩ (withZone (up .service))
      (fun _ u => (injectCheck ⟨3, 1, 60000, 60, 0, List.replicate 8 ⟨0#32, 0#32, 0#32, 0#32, 0#32, 0x3F800000#32⟩⟩ u).isNone) = true ∧
    meets (packet 0x0405 4 0) ⟨0x0405, true, plenIs 4, 0, [.service]⟩ (withZone (up .service)) (fun _ u => (injectCheck ⟨3, 0, 0, 0, 0, []⟩ u).isNone) = true ∧
    meets (packet 0x0406 4 0) ⟨0x0406, false, plenIs 4, 16, [.service, .maint]⟩ (up .maint) (fun _ _ => true) = true ∧
    meets (packet 0x0406 4 0) ⟨0x0406, true, plenIs 4, 16, [.service, .maint]⟩ (withOwner .fenced (up .service))
      (fun _ u => ownEff u 3 && (zoneOwnOf u 3).claim.isNone && (zoneOwnOf u 3).st != .owner &&
        decide (max (zoneOwnOf u 3).epoch (zoneOwnOf u 3).heard + 1 < 2 ^ 32)) = true ∧
    meets (packet 0x0406 4 0) ⟨0x0406, true, plenIs 4, 16, [.service, .maint]⟩ (withOwner .owner (up .service))
      (fun _ u => ownEff u 3 && (zoneOwnOf u 3).claim.isNone && (zoneOwnOf u 3).st == .owner &&
        decide ((zoneOwnOf u 3).epoch + 1 < 2 ^ 32) && u.red.zones.length == 64) = true := by decide +kernel

theorem met_LogicCommandsComplete :
    meets (packet 0x0500 16 0) ⟨0x0500, false, plenIs 16, 8, [.service, .maint]⟩ (up .service)
      (fun rt u => !slotUsed u 31 && endOnly.octets.length == 68 && (imgParse endOnly.octets).any (fun g => (imgFault g).isNone) && !isUdp rt.src) = true ∧
    meets (packet 0x0502 4 0) ⟨0x0502, true, plenIs 4, 8, [.service, .maint]⟩ (withTask (up .maint))
      (fun _ u => (changePre 6 u).isNone && (changeCheck 6 2 u).isNone && (admitFault (changedState 6 2 u)).isNone) = true ∧
    meets (packet 0x0503 8 0) ⟨0x0503, true, plenIs 8, 4, [.service, .maint]⟩ (up .maint) (fun _ u => operandOk 5 16383 &&
      decide (u.cyc.forces.length < 256) && !u.cyc.forces.any (fun f => f.area == 5 && f.opnd == 16383)) = true ∧
    meets (packet 0x0504 4 0) ⟨0x0504, true, plenIs 4, 4, [.service, .maint]⟩ (up .service) (fun _ _ => true) = true ∧
    meets (packet 0x0505 4 0) ⟨0x0505, false, plenIs 4, 48, [.service, .maint, .safeService]⟩ (up .safeService) (fun _ _ => true) = true := by decide +kernel

/-- A chain for channel 23, with other values than those of reset. -/
def flashChain : CfgCmd := .fltSetChain ⟨23, 0, 2, 1, 0, 0, 21, 1, 96, 0x3F800000#32, 0#32, ⟨0, 0, 1, 0, 0, 1024⟩, ⟨0, 0, 4096, 0, 0, 1⟩⟩

/-- One command of every configuration row, as a module in MAINT with zone 3 and logic images accepts it. -/
def cfgSamples : List CfgCmd :=
  [.acqSetChannel ⟨23, 0, 4094, 0, 1048576⟩, .acqSetSequence ⟨3, 2, 4, 4, [6, 7] ++ List.replicate 14 0⟩,
   flashChain,
   .trgArmProfile ⟨0, 0, 0, 400, 100, 20000, 0, 0, 0#32, ascii "EMU83", [⟨0, 0, ascii "I1", ascii "A", 0x3F800000#32, 0x3F800000#32⟩], [0]⟩,
   .trgSetSources ⟨255, 1, [(0#32, 0#32)]⟩,
   .sveSubscribe ⟨511, 3, 1, 0, 1, 1, 0, 0x4000, 0, 0x010CCD040001, 0, 0, 1, 400, 0, 0, 0, ascii "S1", 4, [⟨24, 0, 0, 0, 0x3F800000#32⟩]⟩,
   .sveUnsubscribe 0,
   .svePublish ⟨7, 0, 0, 0, 0, 0, 0, 0, 0, 0, 0, 0, 0, 0, [], []⟩,
   .sveGooseSubscribe ⟨127, 1, 1, 1, 1, 0x010CCD010001, 0, 1, 0, 0, ascii "GCB", [], [⟨0, 0, 0⟩]⟩,
   .sveGoosePublish ⟨31, 1, 1, 1, 1, 0, 0x010CCD010002, 4, 0, 1, 0, 63, 60000, ascii "GCB", ascii "DS", ascii "G", [⟨1, 0, false, 0⟩]⟩,
   .prtDefineZone { zoneDef with zone := 63 },
   .prtSetElement { inst5.cfg with inst := 2047, op := 1, groups := List.replicate 4 (List.replicate 16 0#32) },
   .prtTripMatrix ⟨15, 1, 1#32, 1#32, 0#32, [0x00000000#32]⟩,
   .logActivate ⟨63, 1, 2, 15, 3, 0, 0, 0, 0, 1000, 750⟩,
   .timConfigBase (TimCfg.reset 3), .netPortConfig ⟨3, 7, 0, 9600, 1000, 65535, 400, 200⟩,
   .netRedundancy (.own ⟨0, 1, 0x3FFF, 0, 0x010CCD010003, 8#64⟩),
   .netFilter ⟨3, 0, List.replicate 4 (0, false), List.replicate 16 0#32, List.replicate 8 (0, 0)⟩,
   .netWakePattern ⟨3, 7, 0, 0, 0#128, 0#32⟩,
   .swcTableWrite ⟨1, 1, 0, .vlan [⟨4094, 3#8, 0#8, true, false⟩]⟩, .swcTableDelete ⟨1, 1, 0, .vlan [⟨4094, 0#8, 0#8, false, false⟩]⟩,
   .swcBufferPolicy SwcPolicy.reset,
   .vfmSetShare 1024 ⟨1, 0, 448, 0, 0⟩, .vfmBindZone 1024 ⟨3, 1, 3, 0#8, 64, 3, 1023, 1⟩, .vfmGrantTrip 1024 ⟨255, 1, 0xFFFF#16, 100⟩,
   .pwrSetThresholds ⟨110, 60, 0, 0, 720⟩]

/-- Where they are accepted. -/
def cfgState : State :=
  cfgTry [.sveSubscribe ⟨0, 3, 1, 0, 1, 1, 0, 0x4001, 0, 0x010CCD040002, 0, 0, 1, 400, 0, 0, 0, ascii "S0", 4, [⟨25, 0, 0, 0, 0x3F800000#32⟩]⟩] (withTask (withInst (up .maint)))

/-- A transaction of channel 0. -/
def withTxn (remote : Nat × Nat) (s : State) : State := { s with cmd := { s.cmd with txn := some ⟨0, remote, 10, 0, []⟩ } }

/-- Every command of the samples begins in s as its row, and its own checks and cond hold. -/
def samplesMeet (s : State) (cond : CfgCmd → ReplyTo → State → Bool) : Bool :=
  cfgSamples.all fun c => (cfgRow 0 (packet c.opcode c.octets.length 1024) c).isSome &&
    meets (packet c.opcode c.octets.length 1024) ⟨c.opcode, c.auth, plenIs c.octets.length, 0, c.states⟩ s (cond c)

theorem met_ConfigurationCommandsTakeEffect :
    samplesMeet cfgState (fun c _ u => u.cmd.txn.isNone && (cfgPre c u).isNone && (cfgCheck c u).isNone && (!c.admits || (admitFault (cfgTry [c] u)).isNone)) = true ∧
    samplesMeet { cfgState with spd := { cfgState.spd with siPlan := 0 } }
      (fun c _ u => u.cmd.txn.isNone && (cfgPre c u).isNone && (cfgCheck c u).isNone && (!c.admits || (admitFault (cfgTry [c] u)).isSome)) = true ∧
    samplesMeet (withTxn (0, 0) cfgState) (fun c rt u => u.cmd.txn.any fun x => x.src == rt.src && x.remote == rt.remote &&
      (cfgPre c (cfgTry x.cmds u)).isNone && (cfgCheck c (cfgTry x.cmds u)).isNone && decide (nsum (x.staged.map Staged.plen) + c.octets.length ≤ 1048576)) = true ∧
    samplesMeet (withTxn (1, 1) cfgState) (fun _ rt u => u.cmd.txn.any fun x => x.remote != rt.remote) = true := by
  refine ⟨by decide +kernel, by decide +kernel, by decide +kernel, by decide +kernel⟩

/-- The configuration of two of the samples, one without admission and one with it, fits its copy in MRAM. -/
theorem met_ConfigurationFits :
    [CfgCmd.sveUnsubscribe 0, .prtDefineZone { zoneDef with zone := 63 }].all (fun c => meets (packet c.opcode c.octets.length 1024)
      ⟨c.opcode, c.auth, plenIs c.octets.length, 0, c.states⟩ cfgState (fun _ u => (commitTooLong [c] u).isNone)) = true := by decide +kernel

theorem met_SetStateChangesTheState_refused :
    meets (packet 0x0102 4 0) ⟨0x0102, true, plenIs 4, 0, [.service, .maint]⟩ { cfgState with spd := { cfgState.spd with siPlan := 0 } }
      (fun _ u => u.sys.st == .maint && (admitFault u).isSome) = true := by decide +kernel

/-- A transaction of channel 0 that holds c. -/
def withStaged (c : CfgCmd) (s : State) : State := { s with cmd := { s.cmd with txn := some ⟨0, (0, 0), 10, 0, [⟨c, c.octets.length⟩]⟩ } }

/-- A commit of c begins, is admitted and fits, and cond holds of the state that it leaves. -/
def commits (c : CfgCmd) (cond : State → Bool) : Bool :=
  meets (packet 0x0201 8 0) ⟨0x0201, false, plenIs 8, 72, [.service, .maint]⟩ (withStaged c (up .maint)) (fun rt u =>
    (notOwner rt u).isNone && (stagedFault 1 [c] u).isNone && (admitFault (cfgTry [c] u)).isNone && (commitTooLong [c] u).isNone && cond (committed rt 2 [c] u))

/-- A commit is replied at once when its changes have taken effect, and waits for a chain's strobe else (R384). -/
theorem met_TransactionRowsComplete_commit :
    commits (.pwrSetThresholds ⟨110, 60, 0, 0, 720⟩) (cfgDone · (.pwrSetThresholds ⟨110, 60, 0, 0, 720⟩)) = true ∧
    commits flashChain (fun v => !cfgDone v flashChain) = true := by decide +kernel

theorem met_TransactionRowsComplete :
    meets (packet 0x0200 4 0) ⟨0x0200, false, plenIs 4, 4, [.service, .maint]⟩ (up .service) (fun _ u => u.cmd.txn.isNone) = true ∧
    meets (packet 0x0202 4 0) ⟨0x0202, false, plenIs 4, 4, [.service, .maint, .safeService]⟩ (withTxn (0, 0) (up .maint))
      (fun rt u => u.cmd.txn.any fun x => x.src == rt.src && x.remote == rt.remote) = true ∧
    ((withTxn (0, 0) (up .maint)).cmd.txn.any fun x => decide (x.last + x.timeoutS * 1000000000 ≤ 10000000000)) = true ∧
    meets (packet 0x0201 8 0) ⟨0x0201, false, plenIs 8, 72, [.service, .maint]⟩ (up .maint)
      (fun rt u => u.cmd.txn.isNone && (notOwner rt u).isNone && (admitFault u).isNone && decide (recordForm u ≤ 10485696) && decide (1 ≠ u.cmd.cfgSeq.toNat)) = true ∧
    meets (packet 0x0201 8 0) ⟨0x0201, false, plenIs 8, 72, [.service, .maint]⟩ (withStaged (.pwrSetThresholds ⟨110, 60, 0, 0, 1⟩) (up .maint))
      (fun rt u => (notOwner rt u).isNone && (stagedFault 1 [.pwrSetThresholds ⟨110, 60, 0, 0, 1⟩] u).isSome) = true ∧
    meets (packet 0x0203 24 0) ⟨0x0203, false, plenIs 24, 80, [.service, .maint, .safeService]⟩ (up .safeService)
      (fun rt u => (outputFault rt 0 0 (recordsOf u.cmd.stored.cmds).length).isNone) = true := by decide +kernel

/-- Slot 1 holds an image with n octets of data. -/
def huge (n : Nat) : State := { up .maint with cyc := { (up .maint).cyc with slots := [(1, { endOnly with data := List.replicate n 0#8 })] } }

/-- One command's record is no longer than the records of all. -/
theorem record_le {c : CfgCmd} : ∀ {l : List CfgCmd}, c ∈ l → c.recordOctets.length ≤ (recordsOf l).length
  | d :: r, h => by
    simp only [recordsOf, List.flatMap_cons, List.length_append]
    cases h with
    | head => omega
    | tail _ h => have := record_le h; simp only [recordsOf] at this; omega

theorem load_octets (k n : Nat) (b : Bytes) : (CfgCmd.logLoad ⟨k, n, 0, b⟩).octets = u8 k ++ zeros 3 ++ u32 n ++ u64 0 ++ b := rfl

theorem data_le (k : Nat) (g : Image) : g.data.length ≤ (CfgCmd.logLoad ⟨k, g.octets.length, 0, g.octets⟩).recordOctets.length := by
  have h : g.data.length ≤ g.octets.length := by
    unfold Image.octets
    rw [List.length_append, List.length_append (bs := g.data)]
    omega
  have r (c : CfgCmd) : c.octets.length ≤ c.recordOctets.length := by
    unfold CfgCmd.recordOctets pad4
    simp only [List.length_append]
    omega
  refine Nat.le_trans h (Nat.le_trans ?_ (r _))
  rw [load_octets, List.length_append]
  exact Nat.le_add_left _ _

/-- A configuration is at least as long as the data of an image in its slots. -/
theorem recordForm_image {s : State} {k : Nat} {g : Image} (h : (k, g) ∈ s.cyc.slots) (hv : s.vfm.vfs = []) : g.data.length ≤ recordForm s := by
  have hw : withWaiting s = s := by simp [withWaiting, hv, foldOver]
  have hi : CfgCmd.logLoad ⟨k, g.octets.length, 0, g.octets⟩ ∈ snapLogic s := 
    List.mem_append_left _ (List.mem_map_of_mem (f := fun (p : Nat × Image) => CfgCmd.logLoad ⟨p.1, p.2.octets.length, 0, p.2.octets⟩) h)
  have hm : CfgCmd.logLoad ⟨k, g.octets.length, 0, g.octets⟩ ∈ snapCmds s := by simp only [snapCmds, List.mem_append, hi, true_or, or_true]
  simpa only [recordForm, hw] using Nat.le_trans (data_le k g) (record_le hm)

/-- A configuration that is longer than its copy in MRAM holds: with a command, and with nothing staged. -/
theorem met_ConfigurationTooLong : ∃ (rt : ReplyTo) (u : State),
    begins (packet 0x0B00 12 0) ⟨0x0B00, false, plenIs 12, 0, [.service, .maint]⟩ (atTime 0 (queued (packet 0x0B00 12 0) (huge 10485697))) = some (rt, u) ∧
    cfgPre (.pwrSetThresholds ⟨110, 60, 0, 0, 720⟩) u = none ∧ cfgCheck (.pwrSetThresholds ⟨110, 60, 0, 0, 720⟩) u = none ∧ u.cmd.txn = none ∧
    (commitTooLong [.pwrSetThresholds ⟨110, 60, 0, 0, 720⟩] u).isSome = true ∧ (commitTooLong [] u).isSome = true := by
  obtain ⟨rt, u, h, hc⟩ := meets_met (p := packet 0x0B00 12 0) (q := ⟨0x0B00, false, plenIs 12, 0, [.service, .maint]⟩) (s := huge 10485697)
    (cond := fun _ u => u.cmd.txn.isNone) (by decide +kernel)
  have hf := begins_frame h
  have hy : u.cyc.slots = (huge 10485697).cyc.slots := congrArg Cyc.slots (hf.cyc (by decide))
  have hv : u.vfm.vfs = [] := congrArg Vfm.vfs (hf.vfm (by decide))
  have long (l : List CfgCmd) (hf : Frame [.evr, .pwr] u (cfgTry l u)) : (commitTooLong l u).isSome = true := by
    have := recordForm_image (s := cfgTry l u) (k := 1) (g := { endOnly with data := List.replicate 10485697 0#8 })
      (by rw [hf.cyc (by decide), hy]; exact List.mem_singleton.mpr rfl) (by rw [hf.vfm (by decide), hv])
    simp only [commitTooLong]
    rw [if_pos (Nat.lt_of_lt_of_le (by rw [List.length_replicate]; decide) this)]
    rfl
  exact ⟨rt, u, h, rfl, show pwrCheck _ = none by decide, Option.isNone_iff_eq_none.mp hc, long [_] pwrApply_frame, long [] (Frame.refl _ _)⟩

/-- Slot 2 holds a key that may derive and challenge. -/
def withKey (s : State) : State := { s with key := { s.key with slots := [(2, ⟨3, 0x31#8, 5#32, List.replicate 32 1#8⟩)] } }

/-- A sheet of channel 0 with one record, open. -/
def sheet : Sheet := ⟨0, (0, 0), [⟨7, ⟨0x0100, [], 0#16, 0x0810, 0#32, 0#32, 0⟩⟩], 0, 7, 0, 0, none⟩

def withSheet (s : State) : State := { s with evr := { s.evr with snaps := [some sheet, none] } }

def withBank (s : State) (f : Key → Key) : State := { s with key := f { s.key with running := 1, committed := 1 } }

theorem met_TimeCommandsComplete :
    meets (packet 0x0601 24 0) ⟨0x0601, true, plenIs 24, 24, [.service, .maint]⟩ (up .maint)
      (fun _ u => let p : TimStepCmd := ⟨3, 0, 0, 5, 0⟩
        (baseOf u 3).cfg.src == 0 && (baseOf u 3).pend.isNone && decide (0 ≤ (timStepPlan u p).1 + p.delta) &&
          decide ((timStepPlan u p).1 + p.delta < ((2 ^ 48 * 1000000000 : Nat) : Int))) = true ∧
    meets (packet 0x0601 24 0) ⟨0x0601, true, plenIs 24, 24, [.service, .maint]⟩
      { up .service with tbs := { Tbs.reset with base := lmod Tbs.reset.base 3 fun b => { b with cfg := { b.cfg with src := 3 } } } }
      (fun _ u => let p : TimStepCmd := ⟨3, 1, 0, 0, 1⟩
        (baseOf u 3).cfg.src == 3 && p.mode == 1 && p.ns == 0 && p.delta == 0 && (baseOf u 3).pend.isNone && decide (0 ≤ (timStepPlan u p).1 + (timStepPlan u p).2) &&
          decide ((timStepPlan u p).1 + (timStepPlan u p).2 < ((2 ^ 48 * 1000000000 : Nat) : Int))) = true ∧
    meets (packet 0x0602 4 0) ⟨0x0602, false, plenIs 4, 64, [.service, .maint, .safeService]⟩ (up .service) (fun _ _ => true) = true ∧
    meets (packet 0x0603 12 0) ⟨0x0603, true, plenIs 12, 8, [.service, .maint, .safeService]⟩ (up .safeService)
      (fun _ u => (!u.rtc.discEn || !utcValid (baseOf u 0)) && civilOk ⟨2000, 2, 29, 23, 59, 59⟩) = true ∧
    meets (packet 0x0604 4 0) ⟨0x0604, false, plenIs 4, 24, [.service, .maint, .safeService]⟩ (up .maint) (fun _ _ => true) = true ∧
    meets (packet 0x0B02 4 0) ⟨0x0B02, false, plenIs 4, 64, [.service, .maint, .safeService]⟩
      { up .maint with spd := { Spd.reset with plans := [planOf 1 1 (up .maint)] } } (fun _ u => u.spd.plans[0]?.isSome) = true := by decide +kernel

theorem met_NetworkCommandsComplete :
    meets (packet 0x0706 4 0) ⟨0x0706, false, plenIs 4, 144, [.service, .maint, .safeService]⟩ (up .service) (fun _ _ => true) = true ∧
    meets (packet 0x0704 8 0) ⟨0x0704, false, fun n => n == 8 || n == 8 + 16 * 64, 8 + 16 * 64, [.service, .maint]⟩ (up .service) (fun _ _ => true) = true ∧
    meets (packet 0x0704 8 0) ⟨0x0704, false, plenIs 8, 0, [.service, .maint]⟩ (up .maint) (fun _ _ => true) = true ∧
    meets (packet 0x0803 4 1024) ⟨0x0803, false, plenIs 4, 16, [.service, .maint, .safeService]⟩
      { up .service with vfm := { Vfm.reset with vfEnable := true, numVfs := 1024 } } (fun _ u => vfEnabled u 1024) = true ∧
    meets (packet 0x0706 4 0) ⟨0x0706, false, plenIs 4, 48, [.service, .maint, .safeService]⟩ (up .service) (fun _ _ => true) = true ∧
    meets (packet 0x0803 4 1) ⟨0x0803, false, plenIs 4, 16, [.service, .maint, .safeService]⟩ (up .maint) (fun _ u => !vfEnabled u 1) = true := by decide +kernel

theorem met_KeyCommandsComplete :
    meets (plain 0x0900 48) ⟨0x0900, false, plenIs 48, 0, [.service, .maint, .safeService]⟩ (up .maint)
      (fun _ u => !(plain 0x0900 48).hdr.auth && (tget u.key.slots 0).isNone && !u.key.tampLatched && u.sys.st == .maint) = true ∧
    meets (packet 0x0901 268 0) ⟨0x0901, true, plenIs (12 + 256), 0, [.service, .maint]⟩ (withKey (up .service))
      (fun _ u => !u.key.tampLatched && (tget u.key.slots 2).any (fun k => k.attr.getLsbD 4) && attrOk 255 3 0x20#8) = true ∧
    meets (packet 0x0902 4 0) ⟨0x0902, true, plenIs 4, 0, [.start, .service, .maint, .safeService]⟩ (up .start) (fun _ _ => true) = true ∧
    meets { packet 0x0902 4 0 with hdr := { (packet 0x0902 4 0).hdr with authSlot := 0 } } ⟨0x0902, true, plenIs 4, 0, [.start, .service, .maint, .safeService]⟩
      { up .maint with key := { Key.reset with slots := [(0, ⟨3, 0xC9#8, 0#32, []⟩)] } } (fun _ u => u.key.active == 0#6) = true ∧
    meets (packet 0x0903 36 0) ⟨0x0903, false, plenIs 36, 40, [.service, .maint, .safeService]⟩ (withKey (up .service))
      (fun _ u => (tget u.key.slots 2).any (fun k => k.attr.getLsbD 5) && decide ((if u.key.chalSec = u.now / 1000000000 then u.key.chalN else 0) < 10)) = true ∧
    meets (packet 0x0904 52 0) ⟨0x0904, false, plenIs 52, 64, [.service, .maint, .safeService]⟩ (up .safeService) (fun _ _ => true) = true ∧
    meets (packet 0x0904 52 0) ⟨0x0904, false, plenIs 52, 72, [.service, .maint, .safeService]⟩ (up .service)
      (fun rt u => u.key.attest.isNone && !isUdp rt.src) = true := by decide +kernel

/-- Slot 3 holds a transport key. -/
def withTransport (s : State) : State := { s with key := { s.key with slots := [(3, ⟨3, 0x08#8, 5#32, List.replicate 32 1#8⟩)] } }

/-- A load of slot 255 with a key of 16 octets wrapped under slot 3. -/
def wrapped (tag : Bytes) : KeyLoad := ⟨255, 2, 0x02, 9, 16, 1, 3, zeros 16, zeros 16, tag⟩

theorem met_KeyCommandsComplete_wrapped : ∃ (p : KeyLoad) (k : Bytes) (rt : ReplyTo) (u : State),
    begins (packet 0x0900 80 0) ⟨0x0900, true, fun n => n == 64 + p.klen, 0, [.service, .maint, .safeService]⟩ (atTime 0 (queued (packet 0x0900 80 0) (withTransport (up .maint)))) = some (rt, u) ∧
    p.form = 1 ∧ keyLen p.type = some p.klen ∧ attrOk p.slot p.type (attrOf p.slot p.attr) = true ∧ p.slot ≠ 0 ∧ u.key.tampLatched = false ∧ loadedKey u p = some k := by
  obtain ⟨rt, u, h, hc⟩ := meets_met (p := packet 0x0900 80 0) (q := ⟨0x0900, true, fun n => n == 64 + 16, 0, [.service, .maint, .safeService]⟩) (s := withTransport (up .maint))
    (cond := fun _ u => !u.key.tampLatched && transportKey u 3 == some (List.replicate 32 1#8)) (by decide +kernel)
  simp only [Bool.and_eq_true, Bool.not_eq_true', beq_iff_eq] at hc
  obtain ⟨tag, ht⟩ : ∃ tag, Config.kmac256 (List.replicate 32 1#8) (zeros 16 ++ (wrapped []).head ++ zeros 16) 32 (ascii "MQ16-XPORT-A") = tag := ⟨_, rfl⟩
  obtain ⟨k, hk⟩ : ∃ k, xorBytes (zeros 16) (Config.kmac256 (List.replicate 32 1#8) (zeros 16 ++ (wrapped []).head) 16 (ascii "MQ16-XPORT-E")) = k := ⟨_, rfl⟩
  have hl : loadedKey u (wrapped tag) = match transportKey u 3 with
    | none => none
    | some kt => if Config.kmac256 kt (zeros 16 ++ (wrapped []).head ++ zeros 16) 32 (ascii "MQ16-XPORT-A") = tag then
        some (xorBytes (zeros 16) (Config.kmac256 kt (zeros 16 ++ (wrapped []).head) 16 (ascii "MQ16-XPORT-E"))) else none := if_neg (show ¬ (1 = 0) by decide)
  refine ⟨wrapped tag, k, rt, u, h, rfl, rfl, show attrOk 255 2 0x02#8 = true by decide, show 255 ≠ 0 by decide, hc.1, ?_⟩
  rw [hl, hc.2]
  simp only [ht, hk, if_true]

theorem met_FirmwareCommandsComplete :
    meets (packet 0x0905 17 0) ⟨0x0905, true, plenIs (16 + 1), 0, [.service, .maint]⟩ (withBank (up .service) id)
      (fun _ u => otherBank u != u.key.committed) = true ∧
    meets (packet 0x0905 1040 0) ⟨0x0905, true, plenIs (16 + 1024), 0, [.service, .maint]⟩ (withBank (up .service) id)
      (fun _ u => otherBank u != u.key.committed) = true ∧
    meets (packet 0x0905 16 0) ⟨0x0905, true, plenIs 16, 72, [.service, .maint]⟩ (withBank (up .maint) id)
      (fun _ u => (verifyBank u (otherBank u)).1 == 0 && FwUpdate.blank ⟨0, 0, []⟩) = true ∧
    meets (packet 0x0905 16 0) ⟨0x0905, true, plenIs 16, 0, [.maint]⟩ (withBank (up .maint) fun k => { k with otherVerified := true })
      (fun _ u => u.key.otherVerified) = true ∧
    meets (packet 0x0905 16 0) ⟨0x0905, true, plenIs 16, 0, [.service, .maint]⟩ (withBank (up .service) fun k => { k with trial := true })
      (fun _ u => u.key.trial && manifestOf u u.key.running == Manifest.zero) = true ∧
    meets (packet 0x0905 16 0) ⟨0x0905, true, plenIs 16, 0, [.service, .maint]⟩ (up .maint) (fun _ u => u.key.trialNext.getD (otherBank u) == 1) = true := by
  decide +kernel

theorem met_RecorderCommandsComplete :
    meets (packet 0x0A00 32 0) ⟨0x0A00, false, plenIs 32, 32, [.service, .maint, .safeService]⟩ (up .service) (fun _ u => (sheetOf u 0).isNone) = true ∧
    meets (packet 0x0A00 32 0) ⟨0x0A00, false, plenIs 32, 8, [.service, .maint, .safeService]⟩ (withSheet (up .service))
      (fun rt u => sheetOf u 0 == some sheet && sheet.src == rt.src && sheet.remote == rt.remote && decide (0 < sheet.len) &&
        (outputFault rt 0 4096 ((sheet.octets.drop 0).take 4096).length).isNone) = true ∧
    meets (packet 0x0A00 32 0) ⟨0x0A00, false, plenIs 32, 0, [.service, .maint, .safeService]⟩ (withSheet (up .maint))
      (fun rt u => sheetOf u 0 == some sheet && sheet.src == rt.src && sheet.remote == rt.remote) = true ∧
    meets (packet 0x0A01 16 0) ⟨0x0A01, true, plenIs 16, 16, [.maint, .safeService]⟩ (up .maint) (fun _ u => u.evr.clearing.isNone) = true ∧
    meets (packet 0x0A02 4 0) ⟨0x0A02, false, plenIs 4, 64, [.start, .service, .maint, .safeService]⟩ (up .start) (fun _ _ => true) = true ∧
    (match begins (packet 0x0B03 4 0) ⟨0x0B03, true, plenIs 4, 16, [.service, .maint]⟩ (supply 0 47000 (atTime 0 (queued (packet 0x0B03 4 0) (up .maint)))) with
      | some (_, u) => u.pwr.shed == 0 && decide (47000 ≤ u.pwr.vhu) && u.pwr.ht.isNone && u.pwr.htReply.isNone
      | none => false) = true ∧
    meets (packet 0x0B01 8 0) ⟨0x0B01, true, plenIs 8, 0, [.service]⟩ (up .service)
      (fun _ u => (safelightPre u).isNone && (safelightCheck ⟨1#16, 0#16, 0⟩ u).isNone) = true := by decide +kernel

/-- The module OFF. -/
def off : State := { State.reset with sys := { Sys.reset with st := .off } }

theorem met_StartRowsBegin :
    (off.sys.st = .off ∧ (16000 : Nat) ≤ 16000) ∧
    ((up .service).sys.st ≠ .off ∧ (up .service).sys.st ≠ .start ∧ { Pwr.reset with resetAt := some (0, true) }.resetAt = some (0, true)) ∧
    ((up .safeService).sys.st ≠ .off ∧ (up .safeService).sys.st ≠ .start ∧ (up .safeService).sys.st ≠ .safelight) ∧
    State.reset.sys.st = .start := by decide +kernel

/-- In START, every step of the start done. -/
def started : State := { State.reset with sys := { Sys.reset with st := .start }, pwr := { Pwr.reset with startPending := false }, acq := { Acq.reset with calBusy := false } }

/-- The same with AUTOSTART 1 and a stored configuration. -/
def autoStarted : State :=
  { started with cmd := { Cmd.reset with cfgSeq := 1#32 }, rtc := { Rtc.reset with bkp := List.replicate 57 0#8 ++ 1#8 :: List.replicate 6 0#8 } }

theorem met_StartRowsEnd :
    ({ State.reset with sys := { Sys.reset with st := .service } }.sys.st ≠ .start) ∧
    ({ started with pwr := { started.pwr with startPending := true, mrst := true } }.sys.st = .start ∧ started.pwr.shed < 4 ∧ bkp started 56 ≠ 3 ∧
      (bootImage { atTime 0 started with pwr := { Pwr.reset with startPending := true, mrst := false } }).isSome = true) ∧
    (started.sys.st = .start ∧ started.pwr.startPending = false ∧ started.pwr.mrst = false ∧ started.pwr.shed < 4 ∧ started.acq.calBusy = false ∧
      started.spd.deferred = false ∧ safeStart started = false ∧ started.pwr.shed1Seen = false) ∧
    safeStart { started with sys := { started.sys with rstCause := 4#32, startCold := false }, rtc := { Rtc.reset with bkp := List.replicate 56 0#8 ++ 3#8 :: List.replicate 7 0#8 } } = true ∧
    (autoStarted.cmd.cfgSeq ≠ 0#32 ∧ safeStart autoStarted = false ∧ autoStarted.sys.startCold = true ∧ admitFault (atTime 0 autoStarted) = none ∧ nbit (bkp autoStarted 57) 0 = true) ∧
    started.cmd.cfgSeq = 0#32 := by decide +kernel

/-- A converter's codes: channel 0 converts -131,072, the others did not complete. -/
def codes : List (Option Int) := some (-131072) :: List.replicate 23 none

theorem met_StrobeCompletes : (up .safeService).sys.st = .safeService ∧ (up .maint).sys.st ≠ .off ∧ (up .maint).sys.st ≠ .safeService := by decide

theorem met_StrobeTakesSamples : ∃ c, State.reset.acq.ch[23]? = some c ∧ c.cal = false ∧ bit State.reset.acq.fault 23 = false ∧ codes[0]? = some (some (-131072)) := by
  refine ⟨_, rfl, ?_⟩; decide

/-- CK3 in its last slot with a request waiting, HK at its last position. -/
def scanning : State :=
  { up .service with acq := { Acq.reset with ck := lmod Acq.reset.ck 3 fun k => { k with urg := some ⟨7, none, none⟩ }, hk := { Acq.reset.hk with pos := 12 } } }

theorem met_ScanRowsConvert :
    (∃ k, scanning.acq.ck[3]? = some k ∧ k.cal = false ∧ k.urgRun = none ∧ ckPlaced scanning 3 ((seqSlots k.run).getD k.slot 7) = true) ∧
    scanning.sys.st ≠ .off ∧ scanning.acq.hk.cal = false ∧ scanning.acq.hk.urgRun = none := by
  refine ⟨⟨_, rfl, ?_⟩, ?_⟩ <;> decide

/-- R55: one period after the previous conversion the next takes place, a strobe earlier it does not. -/
theorem test_check_slot_placed :
    let prev (p : Int) : State := { scanning with acq := { scanning.acq with ck := lmod scanning.acq.ck 3 fun k => { k with prev := some p } } }
    ckPlaced (prev (strobeLatest scanning 3 7 - 2000000000)) 3 7 = true ∧ ckPlaced (prev (strobeLatest scanning 3 7 - 1999999999)) 3 7 = false := by decide +kernel

/-- A calibration of channel 23 and an urgent conversion of CK3 and of HK are running. -/
def calibrating : State :=
  { scanning with acq := { scanning.acq with calBusy := true, calTargets := 0x800000#32, ck := lmod Acq.reset.ck 3 fun k => { k with urgRun := some ⟨7, none, none⟩ }, hk := { Acq.reset.hk with urgRun := some ⟨12, none, none⟩ } } }

theorem met_CalibrationAndUrgentComplete :
    calibrating.acq.calBusy = true ∧ calibrating.acq.calTargets = wd (2 ^ 23) ∧ (calibrating.acq.ch[23]?).isSome = true ∧
    (calSolve 23 ⟨23, 0, 0, 0, true⟩).isNone = true ∧ calSolve 23 ⟨23, -31457280, 0, 31457280, true⟩ = some (0, 1048576) ∧ (∃ k r, calibrating.acq.ck[3]? = some k ∧ k.urgRun = some r) ∧ (∃ r, calibrating.acq.hk.urgRun = some r) := by
  refine ⟨by decide, by decide, by decide, by decide, by decide, ⟨_, _, rfl, rfl⟩, ⟨_, rfl⟩⟩

theorem met_CalibrationAndUrgentComplete_placed : ckPlaced calibrating 3 7 = true := by decide

theorem met_StrobeClockLock :
    (∃ c, (up .maint).acq.ch[23]? = some c) ∧ { Acq.reset with locked := true }.locked = true ∧ { Acq.reset with locked := false }.locked = false ∧
    (up .maint).sys.st ≠ .off := by refine ⟨⟨_, rfl⟩, ?_⟩; decide

/-- MAINT or SERVICE with both ports of the first pair linked up. -/
def linked (st : ModState) : State := { up st with mac := State.reset.mac.map fun m => { m with link := true } }

/-- GOOSE publication 31, running, with the values it sent last. -/
def publication (values : List GooseOut) : Gpub :=
  ⟨⟨31, 1, 1, 0, 1, 0, 0x010CCD010002, 4, 0, 1, 0, 63, 60000, ascii "GCB", ascii "DS", ascii "G", [⟨1, 0, false, 0⟩]⟩, true, false, 1, 0, 1, some 0, values⟩

/-- Subscription 0 of remote channel 25 and GOOSE subscription 127. -/
def streams (st : ModState) : State :=
  { linked st with sve := { Sve.reset with
    subs := [(0, ⟨⟨0, 3, 1, 0, 1, 1, 0, 0x4001, 0, 0x010CCD040002, 0, 3, 1, 400, 0, 0, 0, ascii "S0", 4, [⟨25, 0, 0, 0, 0x3F800000#32⟩]⟩,
      .waiting, 0, false, 0, 0, 0, 0, 0#32, 0#32, 0#32, none, none⟩)]
    gsubs := [(127, ⟨⟨127, 1, 1, 1, 1, 0x010CCD010001, 0, 1, 0, 0, ascii "GCB", [], [⟨1023, 0, 1⟩]⟩, false, false, false, false, false, false, 0, 0, 0#32, none⟩)] } }

/-- A frame of subscription 0 on a port. -/
def svFrame (port appid : Nat) : SvFrame := ⟨⟨port, 0x010CCD040002, 0, none, none, [0, 0, 0, 0], []⟩, appid, false, 1, [⟨ascii "S0", 0, 1, 2, zeros 4⟩], none⟩

/-- Pair P in Bracket. -/
def bracket (s : State) : State := { s with red := { s.red with pair := lmod s.red.pair 0 fun p => { p with cfg := { p.cfg with mode := 2 } } } }

/-- Pair P in PRP. -/
def prp (s : State) : State := { s with red := { s.red with pair := lmod s.red.pair 0 fun p => { p with cfg := { p.cfg with mode := 1 } } } }

/-- The same subscription with flags f: 1 for port PA, 3 for both. -/
def onPorts (f : Nat) (s : State) : State := { s with sve := { s.sve with subs := tmod s.sve.subs 0 fun u => { u with cfg := { u.cfg with flags := f } } } }

theorem met_FilterRowsComplete :
    ({ (fltOf State.reset 23) with fs := lmod FltCh.reset.fs 1 fun f => { f with suppressed := 1 } }.fs.getD 1 FlashStage.reset).suppressed ≠ 0 ∧
    (dark (up .service) = false ∧ bit 1#32 0 = true) ∧
    ((up .service).pwr.gated = false ∧ operational (up .service) = true ∧
      ((fltOf (up .service) 23).ctl ||| 0x200#32) &&& 0x1F3F01FF#32 = (fltOf (up .service) 23).ctl &&& 0x1F3F01FF#32) ∧
    (dark (up .maint) = false ∧ (up .maint).sys.st = .maint) := by decide +kernel

/-- A remote channel with one written slot. -/
def stored (s : State) : State := { s with sve := { s.sve with chans := tset s.sve.chans 25 ⟨0, 0, [⟨0, 7#32, 0#16, true⟩], 0, some (0, 7#32, 0#16), []⟩ } }

theorem met_SampledValueRowsComplete :
    (linkUp (streams .maint) 1 = true ∧ operational (streams .maint) = true ∧ pairMode (streams .maint) 0 ≠ 1 ∧ pairMode (streams .maint) 0 ≠ 2 ∧
      svMatch (atTime 0 (streams .maint)) (svFrame 1 0x7FFF) = none) ∧
    (linkUp (prp (streams .maint)) 1 = true ∧ operational (prp (streams .maint)) = true ∧ pairMode (prp (streams .maint)) 0 = 1) ∧
    ((svMatch (atTime 0 (onPorts 3 (bracket (streams .service)))) (svFrame 0 0x4001)).any fun x => x.2.cfg.flags % 4 == 3 &&
      operational (svBracket x.1 x.2 (svFrame 0 0x4001) (atTime 0 (onPorts 3 (bracket (streams .service))))).2) = true ∧
    (svMatch (atTime 0 (streams .service)) (svFrame 0 0x4001)).isSome = true ∧
    (linkUp (bracket (streams .service)) 1 = true ∧ pairMode (bracket (streams .service)) 0 = 2 ∧ svMatch (atTime 0 (bracket (streams .service))) (svFrame 1 0x7FFF) = none) ∧
    ((svMatch (atTime 0 (onPorts 1 (bracket (streams .service)))) (svFrame 0 0x4001)).map fun x => x.2.cfg.flags % 4) = some 1 ∧
    (operational (stored (streams .maint)) = true ∧ chDefined (stored (streams .maint)) 25 = true ∧ (storeCh (stored (streams .maint)) 25).final 1 = false ∧
      deadlineAt (atTime 10000000000 (stored (streams .maint))) 25 1 ≤ 10000000000 ∧
      (storeCh (stored (streams .maint)) 25).since < deadlineAt (atTime 10000000000 (stored (streams .maint))) 25 1 ∧ (storeCh (stored (streams .maint)) 25).before 1 = some (7#32, 0#16) ∧
      (storeCh (stored (streams .maint)) 25).missed 1 + 1 ≤ substMax (stored (streams .maint)) 25) ∧
    ((tget (tmod (streams .maint).sve.subs 0 fun u => { u with st := .running, lastAt := some 0 }) 0).any fun u => u.st == .running && decide (0 + tenFrames u.cfg ≤ 2500000)) = true ∧
    (bit 1#32 0 = true ∧ bit 0#32 0 = false ∧ (streams .maint).pwr.gated = false) ∧
    (dark (stored (streams .maint)) = false ∧ chDefined (stored (streams .maint)) (bits 25#32 12 0) = true ∧ (storeCh (stored (streams .maint)) 25).slots.head?.isSome = true) := by
  decide +kernel

theorem met_SampledValueFrameTakenIn :
    ((svMatch (streams .maint) (svFrame 0 0x4001)).any fun x => x.1 == 0 && tget (streams .maint).sve.subs 0 == some x.2 && !x.2.simulated &&
      macAccepts (streams .maint) x.2.cfg.macReq x.2.cfg.keyA x.2.cfg.keyB attrSvMac none [] && (svCheck x.2.cfg (svFrame 0 0x4001)).isNone) = true := by decide +kernel

/-- A frame of GOOSE subscription 127. -/
def gooseFrame (stNum : Nat) : GooseFrame := ⟨⟨0, 0x010CCD010001, 0, none, none, [0, 0, 0, 0], []⟩, 1, ascii "GCB", [], false, 1000, 1, false, stNum, 0, [.bool true], none⟩

/-- A frame of subscription 127 with the PRP trailer of LAN A, and its copy on PB with that of LAN B. -/
def copied : GooseFrame := { gooseFrame 1 with link := { (gooseFrame 1).link with rct := some (9, 0xA) } }

def other : GooseFrame := { gooseFrame 1 with link := { (gooseFrame 1).link with port := 1, rct := some (9, 0xB) } }

/-- The module in PRP after the first of them. -/
def again : State := (gooseStage (atTime 0 (prp (streams .maint))) copied).2

/-- GOOSE subscription 127 after a frame whose TAL has run out at 0. -/
def heard (s : State) : State := { s with sve := { s.sve with gsubs := tmod s.sve.gsubs 127 fun g => { g with seen := true, stNum := 1, sqNum := 5, talEnd := some 0 } } }

/-- Publication 31 in the table. -/
def publishing (values : List GooseOut) (s : State) : State := { s with sve := { s.sve with gpubs := [(31, publication values)] } }

theorem met_GooseRowsComplete :
    (portReceives (streams .maint) 0 = true ∧ pairAdmits (streams .maint) 0 = true ∧ (gooseStage (atTime 0 (streams .maint)) (gooseFrame 1)).1 = true ∧
      ((gooseMatch (atTime 0 (streams .maint)) (gooseFrame 1)).any fun x => x.1 == 127 && gooseAccepts (atTime 0 (streams .maint)) x.2 (gooseFrame 1)) = true ∧
      ((gooseMatch (atTime 0 (heard (streams .maint))) (gooseFrame 1)).any fun x => !gooseAccepts (atTime 0 (heard (streams .maint))) x.2 (gooseFrame 1)) = true) ∧
    (operational again = true ∧ portReceives again 1 = true ∧ pairAdmits again 1 = true ∧ (gooseStage (atTime 0 again) other).1 = false) ∧
    ((tget (heard (streams .service)).sve.gsubs 127).any fun g => !g.talExpired && g.talEnd == some 0) = true ∧
    ((tget (publishing [⟨false, none⟩] (streams .maint)).sve.gpubs 31).any fun g => g.running && g.next == some 0 && !g.gatedOff && !gooseGated (streams .maint) g &&
      g.cfg.members.map (gooseMember (atTime 0 (publishing [⟨false, none⟩] (streams .maint)))) == g.values) = true ∧
    ((tget (publishing [⟨true, none⟩] (streams .maint)).sve.gpubs 31).any fun g => g.running && !gooseGated (streams .maint) g &&
      g.cfg.members.map (gooseMember (atTime 0 (publishing [⟨true, none⟩] (streams .maint)))) != g.values) = true := by decide +kernel

/-- Zone 3 alone with eight unused slots, so every sample is there. -/
theorem met_ZoneRowsComplete :
    ((tget (withZone (up .service)).prt.zones 3).any fun z => zoneReady (atTime 1000000000 (withZone (up .service))) z 1) = true ∧
    ((tget (withZone (up .service)).prt.zones 3).any fun z => ({ z with test := some ⟨0, 0, []⟩ } : Zone).testReq.isNone &&
      decide (600000000000 ≤ baseNs (atTime 600000000001 (withZone (up .service))) (zoneBase (withZone (up .service)) z.cfg))) = true ∧
    { inst5 with bqSince := some 0 }.bqSince = some 0 := by decide +kernel

/-- R20: after index 5 the next is 6 alone; where evaluation resumes it is any above 5. -/
theorem test_zone_index_order :
    let z := { Zone.fresh zoneDef 0 with doneK := [(0, 5)], resume := false }
    let at5 (r : Bool) (k : Nat) : Bool := zoneReady (atTime 1000000000 (withZone (up .service))) { z with resume := r } k
    (at5 false 5 = false ∧ at5 false 6 = true ∧ at5 false 7 = false) ∧ (at5 true 5 = false ∧ at5 true 6 = true ∧ at5 true 7 = true) := by decide +kernel

/-- Row 15 accepted at 0, its input gone. -/
def accepted (s : State) : State := { s with trp := { s.trp with rows := lmod s.trp.rows 15 fun r => { r with active := true }, mismatch := 0x80#8 } }

theorem met_TripRowsComplete :
    releasable (atTime 1000000000 (accepted (up .service))) (rowOf (accepted (up .service)) 15) = true ∧
    ((up .service).trp.bi[15]?.any fun b => !b.invalid && b.val != true) = true ∧
    ((lmod (up .service).trp.bi 15 fun b => { b with invalid := true })[15]?.any fun b => b.invalid && decide (b.rawAt + 10000000000 ≤ 10000000000)) = true ∧
    bit (up .service).trp.mismatch 7 = false ∧ toSince (up .service) 7 + fbTime (up .service) < 2000001 ∧
    bit (accepted (up .service)).trp.mismatch 7 = true := by decide +kernel

/-- A cycle of no work. -/
def cycle : Cycle := 
  { s := 0, due := 0, started := 0, k := 0, pc := 6, cr := false, stack := [], snap := [], edges := [], writes := [], flags := 0, chans := [], inCall := none, call := none
    ended := false, aborted := false }

/-- Task 63 of class 3 and task 6 of class 2 in SERVICE, changed by f. -/
def withTasks (f : Task → Task) : State :=
  let s := withTask (up .service)
  { s with cyc := { s.cyc with tasks := [(63, f (Task.fresh s ⟨63, 1, 3, 15, 1, 3, 0, 0, 0, 0, 0⟩))] } }

/-- Task 63 at the instant 0, changed by f, and a property of it there. -/
def task63 (f : Task → Task) (cond : State → Task → Bool) : Bool :=
  (tget (tasksNow 0 (withTasks f)).cyc.tasks 63).any fun k => cond (tasksNow 0 (withTasks f)) k

theorem met_TaskRowsComplete :
    inService (withTasks id) = true ∧
    task63 (fun k => { k with due := some (0, 0, 0) }) (fun u k => k.run.isNone && !k.suspended && served u 63 k && k.due == some (0, 0, 0)) = true ∧
    task63 id (fun u k => k.run.isNone && !k.suspended && served u 63 k && k.due.isNone && k.cfg.cls == 3) = true ∧
    task63 (fun k => { k with run := some { cycle with inCall := some 1 } }) (fun u k => (k.run.any fun c => c.inCall == some 1) && callRuns u 63 k) = true ∧
    task63 (fun k => { k with run := some { cycle with ended := true } }) (fun u k => (k.run.any fun c => c.ended) && !preempted u 63 k) = true := by decide +kernel

/-- A program with a jump to its last instruction, and one with a jump to itself. -/
def jumper (n : Nat) : Image := { endOnly with prog := [⟨0x18, 0, n⟩, ⟨29, 0, 0⟩] }

theorem met_LogicProgramsEnd :
    imgFault (jumper 1) = none ∧ (jumper 1).prog[0]? = some ⟨0x18, 0, 1⟩ ∧ imgFault (jumper 0) ≠ none ∧ imgFault (jumper 2) ≠ none ∧ imgFault endOnly = none ∧
    endOnly.prog[0]? = some ⟨29, 0, 0⟩ := by decide +kernel

/-- The first table of 08_cyclic_logic.md: a TON of 2,500 µs whose IN is 1 from the first cycle on. -/
theorem test_ton :
    (timerStep 0 2500 0 true ⟨false, 0, false, false⟩).q = false ∧ (timerStep 0 2500 1000000 true ⟨true, 0, true, false⟩).q = false ∧
    (timerStep 0 2500 3000000 true ⟨true, 0, true, false⟩).q = true := by decide +kernel

theorem met_TimersAndCounters :
    (⟨true, 0, true, true⟩ : TimerSt).inp = true ∧ (⟨false, 0, true, true⟩ : TimerSt).running = false ∧ min (((999000 : Int) - 0) / 1000).toNat 0xFFFFFFFF < 1000 ∧
    (⟨0xFFFFFFFF, false⟩ : CounterSt).cv ≤ 0xFFFFFFFF ∧ (counterStep false true ⟨0xFFFFFFFF, false⟩).cv = 0xFFFFFFFF ∧ (counterStep true true ⟨0, false⟩).cv = 0 := by
  decide +kernel

/-- The Shutter with one record, changed by f. -/
def recording (f : ShtRec → ShtRec) (st : ModState) : State := { up st with trg := { Trg.reset with ctl := 0x71#32, records := [f record] } }

theorem met_ShutterRowsComplete :
    ((lset Trg.reset.xout 1 ⟨0, 0, true, []⟩)[1]?.any fun p => p.on && decide (p.to' ≤ 0)) = true ∧
    recEnded { record with phase := .opened } (baseNs (atTime 2000000000 (recording (fun r => { r with phase := .opened }) .service)) 0) = true ∧ record.chain = none ∧
    { record with chain := some ⟨1200000000, record.info, 0xFFFF, 1300000000, 1, false⟩ }.chain ≠ none ∧
    (storeRuns (recording (fun r => { r with phase := .closed, written := 0 }) .maint) = true ∧
      ((recording (fun r => { r with phase := .closed, written := 0 }) .maint).trg.records.find? (blockReady (atTime 0 (recording (fun r => { r with phase := .closed, written := 0 }) .maint)))).isSome = true ∧
      (nextFree (recording (fun r => { r with phase := .closed, written := 0 }) .maint)).isSome = true) ∧
    ((recording (fun r => { r with phase := .closed, written := 1000 }) .maint).trg.records.find? (allWritten (recording (fun r => { r with phase := .closed, written := 1000 }) .maint))).isSome = true ∧
    ((up .service).pwr.gated = false ∧ operational (up .service) = true ∧ (0x71#32 ^^^ (up .service).trg.ctl) &&& 0xFE#32 = 0#32) ∧
    (dark (recording id .service) = false ∧ bit 3#32 0 = true ∧ shtRuns (recording id .service) = true) := by decide +kernel

/-- R222: FORCE_N is low while a force is active, and released otherwise. -/
theorem test_force_n :
    forceNPin (up .service) = .undriven ∧ forceNPin { up .service with cyc := { (up .service).cyc with forces := [⟨0, 0, true, none, 0⟩] } } = .low ∧
    forceNPin (up .start) = .undriven := by decide +kernel

/-- Port SB linked up, TB3 a PTP instance on it with domain 5. -/
def ptpUp (f : Base → Base) (g : PtpPort → PtpPort) : State :=
  let s := linked .maint
  { s with tbs := { Tbs.reset with base := lmod Tbs.reset.base 3 fun b => f { b with cfg := { b.cfg with src := 1, ports := 8, domain := 5 } }
                                   ports := lmod Tbs.reset.ports 3 g } }

/-- The header of a message on it. -/
def ptpHdr : PtpHdr := ⟨3, false, 5, 65535, 9, 1, 0, [0, 0, 0, 0]⟩

/-- TB3 changed by f. -/
def base3 (f : Base → Base) : State := { up .maint with tbs := { Tbs.reset with base := lmod Tbs.reset.base 3 f } }

theorem met_PtpRowsComplete :
    (instanceOf (ptpUp id id) 3 false 5 = some 3 ∧ linkUp (ptpUp id id) 3 = true) ∧
    ((ptpOf (ptpUp id fun q => { q with waits := [⟨3, 65535, 9, 1, 0, 0, 3, 0⟩] }) 3).waits.find?
      (followsUp (atTime 1000000000 (ptpUp id fun q => { q with waits := [⟨3, 65535, 9, 1, 0, 0, 3, 0⟩] })) ⟨ptpHdr, 0⟩)).isSome = true ∧
    ((baseOf (ptpUp (fun b => { b with slavePort := some 3 }) id) 3).slavePort = some 3 ∧ (baseOf (ptpUp (fun b => { b with slavePort := some 3 }) id) 3).cfg.src = 1 ∧
      portBest (atTime 0 (ptpUp (fun b => { b with slavePort := some 3 }) id)) 3 5 = none ∧
      (baseOf (bmca 3 (atTime 0 (ptpUp (fun b => { b with slavePort := some 3 }) id))) 3).st ≠ .locked) ∧
    ((baseOf (bmca 3 (atTime 0 (ptpUp (fun b => { b with slavePort := some 3, st := .locked }) id))) 3).st = .locked ∧
      (baseOf (bmca 3 (atTime 0 (ptpUp (fun b => { b with slavePort := some 3, st := .locked }) id))) 3).slavePort = none) ∧
    (isMaster (ptpUp (fun b => { b with pp := lmod b.pp 3 fun q => { q with portState := psMaster } }) id) 3 3 = true ∧ (ptpUp id id).sys.st ≠ .off) ∧
    (ptpOf (ptpUp id fun q => { q with pdelay := some ⟨65535, 0, some (10, 20, 0)⟩ }) 3).pdelay = some ⟨65535, 0, some (10, 20, 0)⟩ := by decide +kernel

/-- HO_ERR of R255 from E_LOCK, the larger of the two rates, the change in 1/640 K and the seconds. -/
def hoFormula (e d n : Nat) : Nat := e + cdiv ((2 * 640 + d) * n) 640

theorem met_TimeBaseRowsComplete :
    (∀ q l, { Tbs.reset with irigPrev := some (59, 0) }.irigPrev = some (q, l) → (60 : Int) = q + 1) ∧
    ({ Tbs.reset with irigPrev := some (59, 0) }.irigPrev = some (59, 0) ∧ (61 : Int) ≠ 59 + 1 ∧ max 0 1000000000 < 0 + 3000000000) ∧
    ((baseOf (base3 fun b => { b with st := .locked, lastAccept := some 0 }) 3).st = .locked ∧
      (baseOf (base3 fun b => { b with st := .locked, lastAccept := some 0 }) 3).lastAccept = some 0 ∧ 0 + 3000000000 ≤ max 0 3000000000) ∧
    ((baseOf (base3 fun b => { b with st := .holdover, ho := some ⟨0, 0, 38, true, 0, 0⟩ }) 3).ho = some ⟨0, 0, 38, true, 0, 0⟩ ∧
      max 0 3600000000001 > 0 + (baseOf (base3 id) 3).cfg.hoLimit * 1000000000) ∧
    hoFormula 38 (max 0 (tBoard (base3 id) - 0).natAbs) (30000000000 / 1000000000) ≤ min (baseOf (base3 id) 3).cfg.hoErrMax 0xFFFFFFFF ∧
    (baseOf (base3 id) 3).cfg.hoErrMax < hoFormula 38 (max 0 (tBoard (base3 id) - 0).natAbs) (10000000000000000 / 1000000000) ∧
    (0 ≤ baseNs (atTime 0 (base3 fun b => { b with pend := some ⟨0, -5, none⟩ })) 3 ∧ (baseOf (base3 fun b => { b with pend := some ⟨0, -5, none⟩ }) 3).pend.isSome = true) ∧
    ((tegOf { base3 id with tbs := { Tbs.reset with teg := lmod Tbs.reset.teg 15 fun x => { x with next := some 0 } } } 15).next = some 0 ∧ 0 ≤ baseNs (atTime 0 (base3 id)) 0) ∧
    ((base3 id).pwr.gated = false ∧ operational (base3 id) = true) ∧
    ((baseOf (base3 fun b => { b with leap61 := true, utcOffset := 0 }) 3).leap61 = true ∧
      (secOf (baseNs (atTime 0 (base3 fun b => { b with leap61 := true, utcOffset := 0 })) 3) - 0) % 86400 = 0) ∧
    ((baseOf (base3 fun b => { b with leap59 := true, utcOffset := 0 }) 3).leap61 = false ∧
      (secOf (baseNs (atTime 86399000000000 (base3 fun b => { b with leap59 := true, utcOffset := 0 })) 3) - 0) % 86400 = 86399) ∧
    dark (base3 id) = false := by
  refine ⟨?_, by decide +kernel⟩
  intro q l h
  cases h
  rfl

theorem met_BaseStatesAndTime :
    ((base3 fun b => { b with st := .locked }).tbs.base[3]?.any fun x => x.st != .free) = true ∧ -32768000000 ≤ (Base.reset 3).rate ∧ (0 : Nat) ≤ 1000000000 := by decide +kernel

theorem met_CalendarCounts : civilOk ⟨2000, 1, 1, 0, 0, 0⟩ = true ∧ civilOk ⟨2399, 12, 31, 23, 59, 59⟩ = true ∧ civilOk ⟨2000, 2, 29, 23, 59, 59⟩ = true ∧
    civilOk ⟨2100, 2, 29, 0, 0, 0⟩ = false := by decide +kernel

/-- The backup domain changed by f. -/
def clock (f : Rtc → Rtc) : State := { up .service with rtc := f Rtc.reset }

theorem met_ClockRowsComplete :
    (disciplines (clock fun r => { r with discEn := false }) = false ∧ uts { clock id with rtc := { Rtc.reset with cal := nextSecond Civil.epoch2000 } } % 1024 ≠ 0) ∧
    ((clock fun r => { r with commits := [⟨Civil.epoch2000, 2, false, none⟩] }).rtc.commits.find? (fun c => !c.atTop)).isSome = true ∧
    ((clock fun r => { r with commits := [⟨⟨2000, 1, 1, 0, 0, 0⟩, 2, true, none⟩] }).rtc.commits.find? (fun c => c.atTop) = some ⟨⟨2000, 1, 1, 0, 0, 0⟩, 2, true, none⟩ ∧
      ((secondsOf ⟨2000, 1, 1, 0, 0, 0⟩ : Nat) : Int) * 1000000000 ≤ utcNow (atTime 946684900000000000 (clock id))) ∧
    (clock id).tbs.seed = false ∧ ((3249 : Nat) + 50 < 3300 ∨ 3249 < 2700) ∧ ((2850 : Nat) < 2851 ∧ (2800 : Nat) + 50 < 2851) ∧ ((2750 : Nat) ≤ 2700 + 50 ∧ (2700 : Nat) ≤ 2700) ∧
    (dark (clock id) = false ∧ (clock fun r => { r with capture := true }).rtc.capture = true) ∧
    (civilOk (stagedDate Rtc.reset (59#32 &&& 0x3F#32)) = true ∧ civilOk (stagedDate Rtc.reset (60#32 &&& 0x3F#32)) = false) := by decide +kernel

/-- The worked example of 10_time_bases.md R255: E_LOCK 38 ns and a change of 1 K give 99.6 ns after 28 s and 101.8 ns after 29 s, in whole nanoseconds rounded up. -/
def hoErrAfter (seconds : Nat) : Option Nat :=
  match exec (.holdoverErrorUpdate (seconds * 1000000000) 3) (base3 fun b => { b with st := .holdover, ho := some ⟨0, 0, 38, true, tBoard (base3 id), 128⟩ }) with
  | .next u => some (baseOf u 3).hoErr
  | _ => none

theorem test_holdover_error : hoErrAfter 28 = some 100 ∧ hoErrAfter 29 = some 102 := by decide +kernel

/-- Port SB changed by f, in MAINT. -/
def port3 (f : MacPort → MacPort) : State := { up .maint with mac := lmod State.reset.mac 3 f }

/-- A frame of n octets without its FCS on port SB. -/
def rxFrame (n etype : Nat) : RxFrame := ⟨3, [1#8, 128#8, 0xC2#8, 0#8, 0#8, 1#8] ++ zeros 6 ++ be 2 etype ++ be 2 1 ++ be 2 65535 ++ zeros (n - 18), true, 0, [0, 0, 0, 0]⟩

/-- Conditions with which a port links up, and with which it does not. -/
def linkGood : LinkCond := ⟨true, false, false, false, true, none⟩

def linkBad : LinkCond := ⟨false, false, false, false, false, none⟩

theorem met_PortRowsComplete :
    (portPowered (port3 fun m => { m with ctl := 0x10005#32 }) 3 = true ∧
      ((port3 fun m => { m with ctl := 0x10005#32 }).mac[3]?.any fun m => !m.link && condOk 3 m linkGood && decide (0 + m.linkHold ≤ 1000000)) = true) ∧
    ((port3 fun m => { m with ctl := 0x10005#32, link := true }).mac[3]?.any fun m => m.link && condOk 3 m linkGood) = true ∧
    ((port3 fun m => { m with link := true }).mac[3]?.any fun m => m.link && !condOk 3 m linkBad) = true ∧
    (linkUp (port3 fun m => { m with link := true, ctl := 0x10#32 }) 3 = true ∧ ((port3 fun m => { m with link := true, ctl := 0x10#32 }).mac[3]?.any fun m =>
      bit m.ctl 4 && m.pauseEnd.isNone) = true) ∧
    ((port3 fun m => { m with pauseEnd := some 0 }).mac[3]?.any fun m => m.pauseEnd == some 0) = true ∧
    (let s := port3 fun m => { m with xoffSent := some 0, ctl := 0x20#32, xon := 0 }
     let u := swcSettle (atTime 0 { s with swc := { s.swc with frames := [⟨0, parseFrame (rxFrame 60 0).octets, 3, 0, 0, 1, 0, 0, [0], [], 3, .switched⟩] } })
     (u.mac[3]?.any fun m => m.xoffSent == some 0 && bit m.ctl 5 && decide (cellsPort u 3 > m.xon)) = true) ∧
    ((swcSettle (atTime 0 (port3 fun m => { m with xoffSent := some 0, ctl := 0x20#32, xon := 0 }))).mac[3]?.any fun m =>
      m.xoffSent == some 0 && bit m.ctl 5 && decide (cellsPort (swcSettle (atTime 0 (port3 fun m => { m with xoffSent := some 0, ctl := 0x20#32, xon := 0 }))) 3 ≤ m.xon)) = true ∧
    (portPowered (port3 fun m => { m with link := true }) 3 = true ∧ (rxFrame 59 0).octets.length + 4 < 64 ∧ 64 ≤ (rxFrame 60 0x88BA).octets.length + 4 ∧
      (rxFrame 60 0x88BA).octets.length + 4 ≤ (macOf (port3 fun m => { m with link := true }) 3).lenMax ∧ (parseFrame (rxFrame 60 0x88BA).octets).etype ≠ 0x8808 ∧
      (port3 id).sys.st ≠ .safelight ∧
      (parseFrame (rxFrame 60 0x8808).octets).etype = 0x8808 ∧ unbe (slice ((rxFrame 60 0x8808).octets.drop 14) 0 2) = 1 ∧
      (parseFrame (rxFrame 60 0x8808).octets).dst = pauseMac) := by decide +kernel

theorem met_SwitchRowsComplete :
    ((up .service).sys.st ≠ .off ∧ (up .service).sys.st ≠ .safelight) ∧ ageTime (up .service) ≠ 0 ∧ dark (up .service) = false := by decide +kernel

/-- Pair S changed by f. -/
def pair1 (f : Pair → Pair) : State := { up .maint with red := { Red.reset with pair := lmod Red.reset.pair 1 f } }

/-- Pair P in Bracket with a stream on both ports, changed by f. -/
def bracketWith (f : Pair → Pair) : State :=
  let s := streams .maint
  { s with red := { Red.reset with pair := lmod Red.reset.pair 0 f } }

theorem met_RedundancyRowsComplete :
    ((pairOf (pair1 fun p => { p with cfg := { p.cfg with mode := 1 }, nextLife := 0 }) 1).cfg.mode = 1 ∧
      (pairOf (pair1 fun p => { p with cfg := { p.cfg with mode := 1 }, nextLife := 0 }) 1).nextLife ≤ 0 ∧ (pair1 id).pwr.gated = false) ∧
    ((pairOf (bracketWith fun p => { p with cfg := { p.cfg with mode := 2 }, waits := [⟨0, 3999, 1, 0⟩] }) 0).waits.find?
      (missDue (atTime 1000000000 (bracketWith fun p => { p with cfg := { p.cfg with mode := 2 }, waits := [⟨0, 3999, 1, 0⟩] })) 0 0 3999)).isSome = true ∧
    ((tget (bracketWith id).sve.subs 0).isSome = true ∧ ((bracketWith id).red.pair[0]?.any fun p => p.revert.isNone && (0 != p.active || 1 != p.active)) = true) ∧
    ((pair1 fun p => { p with stbyFault := true }).red.pair[1]?.any fun p => p.stbyFault && decide (p.lastMissStby + 10000000000 ≤ 10000000000)) = true ∧
    ((pairOf (bracketWith fun p => { p with holdFrom := some 0 }) 0).holdFrom = some 0 ∧ 0 + (pairOf (bracketWith id) 0).cfg.revertHoldS * 1000000000 ≤ 3600000000000) ∧
    (pairStreams { bracketWith id with sve := { (bracketWith id).sve with subs := tmod (bracketWith id).sve.subs 0 fun u => { u with cfg := { u.cfg with flags := 3 } } } } 0).isEmpty = false ∧
    (pairStreams (bracketWith id) 1).isEmpty = true := by decide +kernel

/-- Zone 63 owned by unit 1, changed by f. -/
def zone63 (f : OwnZone → OwnZone) : State :=
  let s := linked .service
  { s with red := { s.red with own := { s.red.own with unitId := 1, ownEn := BitVec.ofNat 64 (2 ^ 63) }, zones := lmod s.red.zones 63 f, silentFrom := some 0 } }

/-- A beacon of unit 2 for zone 63. -/
def beacon (epoch : Nat) : Beacon := ⟨1, 2, none, 63, epoch, 2, true, none, 0, [], []⟩

/-- Pair P in a mode. -/
def inPair (mode : Nat) (s : State) : State := { s with red := { s.red with pair := lmod s.red.pair 0 fun p => { p with cfg := { p.cfg with mode := mode } } } }

theorem met_OwnershipRowsComplete :
    (zoneOwnOf (zone63 fun z => { z with lastSent := some (0, 41) }) 63).lastSent = some (0, 41) ∧
    (linkUp (zone63 id) 1 = true ∧ (beaconStage { beacon 0 with wellFormed := false } (atTime 0 (zone63 id))).1 = true ∧ { beacon 0 with wellFormed := false }.wellFormed = false) ∧
    (let s := inPair 1 (zone63 id)
     (beaconStage { beacon 0 with rct := some (9, 0xB) } (atTime 0 (beaconStage { beacon 0 with port := 0, rct := some (9, 0xA) } (atTime 0 s)).2)).1 = false) ∧
    (beaconStage (beacon 0) (atTime 0 (inPair 2 (zone63 id)))).1 = false ∧ (beaconStage (beacon 42) (atTime 0 (zone63 id))).1 = true ∧
    ((beacon 42).wellFormed = true ∧ (beacon 42).unit ≠ (zone63 id).red.own.unitId ∧ (zone63 id).red.own.macalg = 0 ∧ ownEff (zone63 id) 63 = true ∧
      ((zone63 fun z => { z with st := .owner, epoch := 41 }).red.zones[63]?.any fun x => x.claim.isNone && x.st == .owner && decide ((beacon 42).epoch > x.epoch) &&
        (beacon 41).epoch == x.epoch) = true) ∧
    ((zone63 fun z => { z with st := .listening, listened := 300000000, heardNow := some (1, 2) }).red.zones[63]?.any fun x => x.st == .listening && x.claim.isNone && decide (1 > x.epoch)) = true ∧
    ((zone63 fun z => { z with st := .listening, listened := 300000000, epoch := 3, heardNow := some (1, 2) }).red.zones[63]?.any fun x => x.st == .listening && x.claim.isNone && decide (1 < x.epoch)) = true ∧
    ((zone63 fun z => { z with st := .listening, claim := some (0, none), epoch := 2 ^ 32 - 1 }).red.zones[63]?.any fun x => x.claim.isSome && decide (2 ^ 32 ≤ max x.epoch x.heard + 1)) = true ∧
    300000000 ≤ listenedFor (atTime 0 (zone63 fun z => { z with st := .listening, listened := 300000000 })) 63 ∧
    ((zone63 fun z => { z with st := .listening, epoch := 1, heardNow := some (1, 2) }).red.zones[63]?.any fun x => x.heardNow == some (1, 2) && x.epoch == 1) = true ∧
    ((zone63 id).red.zones[63]?.any fun x => x.heardNow.isNone) = true ∧ (zone63 id).red.silentFrom = some 0 ∧
    ((zone63 fun z => { z with st := .listening, claim := some (0, none), epoch := 41 }).red.zones[63]?.any fun x => x.claim.isSome && decide (max x.epoch x.heard + 1 < 2 ^ 32)) = true := by
  decide +kernel

/-- VF 1024 of 1,024 enabled VFs, changed by f. -/
def withVf (f : Vf → Vf) : State :=
  let s := up .service
  { s with vfm := { Vfm.reset with perst := false, linkUp := true, vfEnable := true, numVfs := 1024, pfBusMaster := true
                                   vfs := [(1024, f { Vf.reset with busMaster := true, memEn := true })] } }

theorem met_HostInterfaceRowsComplete :
    ((withVf id).vfm.perst = false ∧ (withVf id).vfm.linkUp ≠ false) ∧
    (vfReady (atTime 0 (withVf id)) 1024 = true ∧ pciReady (atTime 0 (withVf id)) = true ∧ (vfOf (withVf id) 1024).stop = none ∧ (withVf id).vfm.vfEnable = true) ∧
    (pciReady (atTime 100000000 { withVf id with vfm := { (withVf id).vfm with pciAt := 100000000 } }) = true ∧
      pciReady (atTime 99999999 { withVf id with vfm := { (withVf id).vfm with pciAt := 100000000 } }) = false) ∧
    (pciReady (atTime 0 { withVf id with vfm := { (withVf id).vfm with vfEnable := false } }) = true ∧ { (withVf id).vfm with vfEnable := false }.vfEnable = false ∧ (1024 : Nat) ≤ 1024) ∧
    ((vfOf (withVf fun f => { f with stop := some ⟨0, 0, [], 0, true, false⟩ }) 1024).stop.any fun b => b.replies.isEmpty && !b.all) = true ∧
    (vfOf (withVf fun f => { f with stop := some ⟨0, 0, [], 0, true, false⟩ }) 1024).txStage = [] ∧
    (vfOf (withVf fun f => { f with stop := some ⟨0, 0, [], 0, true, false⟩ }) 1024).waiting = [] := by decide +kernel

/-- A ring of 64 entries, EN and the interrupt set, HEAD 63. -/
def ring : Ring := { Ring.reset with ctl := 0x56#32, head := 63, tail := 0, coal := 1#32, unsig := 1 }

/-- The event queue is that ring, with one record waiting. -/
def withEvq (r : Ring) : State := { withVf id with vfm := { (withVf id).vfm with evq := r, evqStage := [zeros 64] } }

theorem met_RingRowsComplete :
    (RingId.ok (.rx 1024) = true ∧ RingId.ok .evq = true ∧ bit 0x10#32 4 = true ∧ (ringOf (withVf id) (.rx 1024)).en = false ∧
      (ringOf (withVf fun f => { f with rxq := ring }) (.rx 1024)).en = true) ∧
    (dark (withVf id) = false ∧ vfReady (atTime 0 (withVf id)) 1024 = true ∧ (vfOf (withVf id) 1024).memEn = true ∧ (vfOf (withVf fun f => { f with rxq := ring }) 1024).stop = none ∧ bits 63#32 13 0 < (vfOf (withVf fun f => { f with rxq := ring }) 1024).rxq.size ∧
      (vfOf (withVf fun f => { f with rxq := ring }) 1024).rxq.size ≤ bits 64#32 13 0) ∧
    ((ringOf (withVf fun f => { f with txq := ring }) (.tx 1024)).irqEn = true ∧ 0 < ring.unsig ∧ 0 < ring.coalUs ∧ ring.unsigFrom + ring.coalUs * 1000 ≤ 1000 ∧
      ringStopped (withVf fun f => { f with txq := ring }) (.tx 1024) = false) ∧
    (ringUsable (withVf fun f => { f with rxq := ring, lossless := [⟨1, 0, [1#8], 0⟩] }) (.rx 1024) = true ∧
      (vfOf (withVf fun f => { f with rxq := ring, lossless := [⟨1, 0, [1#8], 0⟩] }) 1024).stalled = false ∧ RxEntry.ok ⟨64, 4096⟩ = true ∧ RxEntry.ok ⟨65, 0⟩ = false) ∧
    (ringUsable (withVf fun f => { f with rxq := ring, bulk := [⟨1, 0, [1#8], 0⟩] }) (.rx 1024) = true ∧
      (vfOf (withVf fun f => { f with rxq := ring, bulk := [⟨1, 0, [1#8], 0⟩] }) 1024).lossless = [] ∧ losslessWaits (withVf fun f => { f with rxq := ring, bulk := [⟨1, 0, [1#8], 0⟩] }) = false) ∧
    ringUsable (withEvq ring) .evq = true ∧ (withEvq ring).vfm.evqStage ≠ [] ∧
    (ringUsable (withVf fun f => { f with txq := ring }) (.tx 1024) = true ∧ (vfOf (withVf fun f => { f with txq := ring }) 1024).stop = none ∧
      (vfOf (withVf fun f => { f with txq := ring }) 1024).txStage = [] ∧ ringUsable (txDrain 1024 16 (atTime 0 (withVf fun f => { f with txq := ring }))) (.tx 1024) = true ∧
      (withVf id).pwr.shed < 4 ∧ (vfOf (withVf id) 1024).acksUsed < 16 ∧
      tripResult (atTime 0 (withVf fun f => { f with txq := ring })) 1024 255 15 0 ≠ 0) := by decide +kernel

/-- A packet without AUTH that passes the first checks. -/
def bare : Env := { plain 0x0100 0 with src := 3, hdr := { (plain 0x0100 0).hdr with authSlot := 0, nonce := 0 } }

/-- The module with the interpreter running and every mailbox as f leaves it. -/
def mail (f : Mbx → Mbx) : State := { withVf id with mbx := f Mbx.reset, cmd := { Cmd.reset with interp := true } }

theorem met_MailboxRowsComplete :
    (coreSlotOk 16 15 = true ∧ coreSlotOk 15 7 = true ∧ reaches (.qc 15) (0xF2000 + 0x100 * 15 + 4 * 7) = true ∧ (coreMail (mail id) 16 15).full = false ∧
      (coreMail (mail fun m => { m with core := [(271, ⟨7#32, true, 0, 0⟩)] }) 16 15).full = true ∧
      (coreMail (mail fun m => { m with core := [(247, ⟨7#32, true, 0, 0⟩)] }) 15 7).full = true ∧ dark (mail id) = false) ∧
    ((tgetD (mail id).mbx.vfTx 1024 Mail.empty).full = false ∧ (tgetD (mail fun m => { m with vfTx := [(1024, ⟨7#32, true, 0, 0⟩)] }).mbx.vfTx 1024 Mail.empty).full = true ∧
      (tgetD (mail fun m => { m with vfRx := [(1024, ⟨7#32, true, 0, 1024⟩)] }).mbx.vfRx 1024 Mail.empty).full = true ∧
      (tgetD (mail id).mbx.vfRx 1024 Mail.empty).full = false ∧ vfBarOk (mail id) 1024 = true) ∧
    ((pmbOf (mail id) 3).full = false ∧ (pmbOf (mail fun m => { m with pmb := lmod m.pmb 3 fun p => { p with full := true } }) 3).full = true ∧
      queuedOn (mail id) 3 < 16 ∧ (mail id).cmd.interp = true) ∧
    (bare.hdr.auth = false ∧ unreplyable bare = false ∧ headerFault bare false = none ∧ bare.payload.length = bare.hdr.plen ∧ bare.trailer = []) ∧
    (lset Mbx.reset.held 3 [0x1000])[3]? = some [0x1000] ∧
    (reaches .svc (0x100 + 4 * 63) = true ∧ tget (mail id).mbx.sem 63 = none ∧ tget (mail fun m => { m with sem := [(63, 1)] }).mbx.sem 63 ≠ none) ∧
    (reaches .host 0xF0008 = true ∧ tget (mail fun m => { m with sem := [(63, Master.id .host)] }).mbx.sem (bits 63#32 5 0) = some (Master.id .host) ∧
      tget (mail fun m => { m with sem := [(63, 1)] }).mbx.sem (bits 63#32 5 0) ≠ some (Master.id .host)) := by decide +kernel

/-- A packet that passes the first checks with its key and a fresh NONCE; they leave the keys as they are. -/
theorem packetChecks_keeps {e : Env} {s : State} {k : Bytes} (hu : unreplyable e = false) (hh : headerFault e false = none) (hp : e.payload.length = e.hdr.plen)
    (ht : e.trailer.length = 32) (ha : e.hdr.auth = true) (hs : s.pwr.shed = 0) (hk : cmdKey s e.hdr.authSlot = some k) (hm : cmdTrailer k e = e.trailer)
    (hr : (replayOf s e.hdr.authSlot).ok e.hdr.nonce = true) : ∃ w, packetChecks e false s = (some ⟨e, some k⟩, w) ∧ w.key = s.key := by
  simp [packetChecks, hu, hh, hp, ht, ha, hs, hk, hm, hr]

theorem packetChecks_passes {e : Env} {s : State} {k : Bytes} (hu : unreplyable e = false) (hh : headerFault e false = none) (hp : e.payload.length = e.hdr.plen)
    (ht : e.trailer.length = 32) (ha : e.hdr.auth = true) (hs : s.pwr.shed = 0) (hk : cmdKey s e.hdr.authSlot = some k) (hm : cmdTrailer k e = e.trailer)
    (hr : (replayOf s e.hdr.authSlot).ok e.hdr.nonce = true) : ∃ w, packetChecks e false s = (some ⟨e, some k⟩, w) :=
  (packetChecks_keeps hu hh hp ht ha hs hk hm hr).imp fun _ h => h.1

/-- The header of a datagram signed with slot 2. -/
def udpHdr (op flags plen : Nat) : CmdHdr := ⟨op, flags, 7, plen, 0, 2, 0, 0, 1⟩

/-- A datagram with that header and payload from 10.0.0.1, port 5000, at SB, signed with a key of 32 ones. -/
def datagram (op flags : Nat) (payload : Bytes) : UdpDatagram :=
  let h := udpHdr op flags payload.length
  ⟨1, 0x0A000001, 5000, h.octets ++ payload ++ Config.kmac256 (List.replicate 32 1#8) (h.octets ++ payload) 32 (ascii "MQ16-CMD"), true⟩

/-- SB serves UDP, and slot 2 holds the key. -/
def served (s : State) : State :=
  { s with cmd := { s.cmd with ip := [⟨0#32, 0#32, 0#32, 0#2⟩, ⟨0x0A000002#32, 0#32, 0#32, 3#2⟩] }, key := { s.key with slots := [(2, ⟨3, 0x31#8, 5#32, List.replicate 32 1#8⟩)] } }

/-- An output of that sender's EVR_READ. -/
def output : UdpOut := ⟨⟨0x21, (0x0A000001, 5000), udpHdr 0x0A00 1 8, none⟩, zeros 2000, 0⟩

/-- SYS_GET_STATE for the console, and its line. -/
def lineOctets : Bytes := { udpHdr 0x0101 0 4 with authSlot := 0, nonce := 0 }.octets ++ zeros 4

def hexDigit (n : Nat) : Char := Char.ofNat (if n < 10 then 48 + n else 87 + n)

def line : List Char := lineOctets.flatMap fun b => [hexDigit (b.toNat / 16), hexDigit (b.toNat % 16)]

theorem met_DatagramRowsComplete :
    (udpServed (served (up .service)) 1 = true ∧ udpWaiting (served (up .service)) < 32 ∧
      (∃ w, packetChecks (datagram 0x0101 1 (zeros 4)).env false (atTime 0 (served (up .service))) = (some ⟨(datagram 0x0101 1 (zeros 4)).env, some (List.replicate 32 1#8)⟩, w)) ∧
      (datagram 0x0101 1 (zeros 4)).env.hdr.cont = false) ∧
    ((∃ w, packetChecks (datagram 0x0500 9 (zeros 16)).env false (atTime 0 (served (up .service))) = (some ⟨(datagram 0x0500 9 (zeros 16)).env, some (List.replicate 32 1#8)⟩, w)) ∧
      (datagram 0x0500 9 (zeros 16)).env.hdr.cont = true ∧
      pieceFault ⟨(datagram 0x0500 9 (zeros 16)).env, some (List.replicate 32 1#8)⟩ (served (up .service)) = none) ∧
    ((∃ w, packetChecks (datagram 0x8A00 1 (zeros 8)).env false (atTime 0 (served (up .service))) = (some ⟨(datagram 0x8A00 1 (zeros 8)).env, some (List.replicate 32 1#8)⟩, w)) ∧
      output.rt.src = (datagram 0x8A00 1 (zeros 8)).env.src ∧ output.rt.remote = (datagram 0x8A00 1 (zeros 8)).env.remote ∧
      output.rt.hdr.tag = (datagram 0x8A00 1 (zeros 8)).env.hdr.tag ∧ output.rt.hdr.opcode + 0x8000 = (datagram 0x8A00 1 (zeros 8)).env.hdr.opcode) ∧
    (ipServed (served (up .service)) 1 = true ∧ (ipOf (served (up .service)) 1).addr.toNat = 0x0A000002 ∧ (ipOf (served (up .service)) 1).ctl.getLsbD 1 = true) ∧
    (line ≠ [] ∧ line.length ≤ 8192 ∧ hexOctets line = some lineOctets ∧ consoleBusy (up .service) = false ∧ (envOf 0x10 (0, 0) lineOctets).hdr.auth = false ∧
      headerFault (envOf 0x10 (0, 0) lineOctets) false = none ∧ (envOf 0x10 (0, 0) lineOctets).payload.length = (envOf 0x10 (0, 0) lineOctets).hdr.plen ∧
      (envOf 0x10 (0, 0) lineOctets).trailer = []) := by
  refine ⟨⟨by decide +kernel, by decide +kernel, packetChecks_passes ?_ ?_ ?_ ?_ ?_ ?_ ?_ ?_ ?_, by decide +kernel⟩, ⟨packetChecks_passes ?_ ?_ ?_ ?_ ?_ ?_ ?_ ?_ ?_, by decide +kernel, by decide +kernel⟩, ⟨packetChecks_passes ?_ ?_ ?_ ?_ ?_ ?_ ?_ ?_ ?_, by decide +kernel⟩, by decide +kernel, by decide +kernel⟩
  all_goals first | decide +kernel | rfl

/-- The slot that signs a data request carries CMD_AUTH. -/
theorem met_DatagramRowsComplete_data : ∃ w, packetChecks (datagram 0x8A00 1 (zeros 8)).env false (atTime 0 (served (up .service))) =
    (some ⟨(datagram 0x8A00 1 (zeros 8)).env, some (List.replicate 32 1#8)⟩, w) ∧ cmdAuthAttr w 2 = true := by
  obtain ⟨w, h, hk⟩ := packetChecks_keeps (e := (datagram 0x8A00 1 (zeros 8)).env) (s := atTime 0 (served (up .service))) (k := List.replicate 32 1#8)
    (by decide +kernel) (by decide +kernel) rfl (by first | decide +kernel | rfl) (by decide +kernel) (by decide +kernel) (by first | decide +kernel | rfl)
    (by first | decide +kernel | rfl) (by decide +kernel)
  refine ⟨w, h, ?_⟩
  rw [cmdAuthAttr, hk]
  decide +kernel

/-- A piece that comes again after its answer: its sequence holds it as the latest. -/
theorem met_DatagramRowsComplete_again (d : UdpDatagram) (b : Bytes) :
    [(⟨d.env.src, d.env.remote, d.env.hdr, b, d.octets, 0⟩ : UdpSeq)].find? (fun q => q.of d.env && q.latest == d.octets) = some ⟨d.env.src, d.env.remote, d.env.hdr, b, d.octets, 0⟩ := by
  simp [UdpSeq.of]

theorem met_KeyRowsComplete :
    ((up .maint).key.tampLatched = false ∧ nbit (0x30 % 32) 4 = true ∧ tamperEnabled (up .maint) 4 = true ∧ (up .maint).key.attest = none) ∧
    ({ Key.reset with attest := some ⟨⟨0, (0, 0), udpHdr 0x0904 0 52, none⟩, [], 0⟩ }.attest).isSome = true := by decide +kernel

/-- A record of the log, and the recorder with it waiting. -/
def evrec : EvRec := ⟨0x0101, zeros 12, 0#16, 0x0810, 0#32, 0#32, 0⟩

def writing : State := { up .service with evr := { Evr.reset with ready := true, stage := [evrec], blocks := [(0, ⟨1, .used, [⟨41, evrec⟩]⟩)], cur := 0, nextSeq := 42 } }

/-- The same with the sheet of channel 0 being copied, and a clear that runs. -/
def copying : State := { writing with evr := { writing.evr with snaps := [some { sheet with copying := some ⟨0, (0, 0), udpHdr 0x0A00 0 32, none⟩ }, none] } }

def clearing : State := { writing with evr := { writing.evr with clearing := some ⟨⟨0, (0, 0), udpHdr 0x0A01 0 16, none⟩, 0, true⟩ } }

theorem met_RecorderRowsComplete :
    (writingRuns writing = true ∧ writing.evr.stage = [evrec] ∧ tget writing.evr.blocks writing.evr.cur = some ⟨1, .used, [⟨41, evrec⟩]⟩ ∧
      LogBlk.used ⟨1, .used, [⟨41, evrec⟩]⟩ + evrec.stored ≤ blkRoom ∧ writing.evr.stageFull = false) ∧
    (dark writing = false ∧ bit 1#32 0 = true) ∧ ((sheetOf copying 0).any fun h => h.copying.isSome) = true ∧
    ((sheetOf (withSheet (up .maint)) 0).any fun h => h.copying.isNone && decide (h.last + 60000000000 ≤ 60000000000)) = true ∧
    ((clearing.evr.clearing.any fun j => j.run) = true ∧ clearing.evr.ready = true ∧ clearing.evr.cur < 160 ∧ (blkOf clearing.evr clearing.evr.cur).st ≠ .bad) := by decide +kernel

/-- The supply changed by f. -/
def supplied (st : ModState) (f : Pwr → Pwr) : State := { up st with pwr := f Pwr.reset }

theorem met_SupplyRowsComplete :
    ((supplied .service id).pwr.shed = 0 ∧ 0 < (supplied .service id).pwr.floor) ∧
    ((supplied .service fun p => { p with shed := 4 }).pwr.shed ≤ 4 ∧ 0 < (supplied .service fun p => { p with shed := 4 }).pwr.thr.getD 3 0) ∧
    ((supplied .service id).pwr.recoverAt < 110000 ∧ (supplied .service id).pwr.vinOver = false) ∧
    ((supplied .service fun p => { p with shed := 5, recovered := true }).pwr.recoverAt < 110000 ∧ (supplied .service fun p => { p with shed := 5, recovered := true }).pwr.recovered = true ∧
      (supplied .service id).pwr.leftAt = none ∧ leaveAt (supplied .service fun p => { p with shed := 5 }).pwr 5 ≤ 48000) ∧
    (supplied .service fun p => { p with onBank := true }).pwr.onBank = true ∧ 18000 ≤ (supplied .service fun p => { p with vhu := 48000 }).pwr.vhu ∧
    ((supplied .service id).pwr.htAuto ≠ 0 ∧ (supplied .service id).pwr.ht = none ∧ (supplied .service id).pwr.htReply = none) ∧
    { Pwr.reset with ht := some ⟨0, none⟩ }.ht = some ⟨0, none⟩ := by decide +kernel

theorem met_SafelightRowsComplete :
    ((supplied .safelight fun p => { p with entry := some ⟨0⟩ }).pwr.entry = some ⟨0⟩ ∧ (supplied .safelight id).sys.st = .safelight) ∧
    (wakeEnabled (supplied .safelight fun p => { p with wakeBi := 0x8000#16, gated := true }) ⟨2, 15⟩ = true ∧ (supplied .safelight id).pwr.waking = none ∧
      (supplied .safelight id).pwr.entry = none ∧ (supplied .safelight id).pwr.shed < 2) ∧
    ((supplied .safelight fun p => { p with entry := some ⟨0⟩ }).pwr.entry ≠ none ∧ (supplied .safelight fun p => { p with entry := some ⟨0⟩ }).pwr.wakeHeld = none) ∧
    { Pwr.reset with waking := some ⟨⟨2, 15⟩, 0, 0, 0⟩ }.waking = some ⟨⟨2, 15⟩, 0, 0, 0⟩ := by decide +kernel

theorem met_SpeedRowsComplete :
    ((List.replicate 22 6000).length = 22 ∧ siRef (up .service) ≤ (lowestMon (List.replicate 22 7500)).1 ∧ (lowestMon (List.replicate 22 4799)).1 < siRef (up .service) ∧
      (up .service).pwr.gated = false) ∧
    ({ Spd.reset with belowPlan := true }.belowPlan = true ∧ (up .service).spd.fastAt = none ∧ (up .service).pwr.shed < 4) ∧
    (let d := { Spd.reset with siCount := 6180, fastSteps := 1, highSince := some 0 }
     d.belowPlan = false ∧ 515 * d.siPlan ≤ 100 * d.siCount ∧ 0 < d.fastSteps ∧ d.highSince = some 0 ∧ 0 + 10000000000 ≤ max 0 10000000000 ∧ d.fastAt = none) ∧
    (planDue { up .service with spd := { Spd.reset with deferred := true } } = true ∧ planBarred { up .service with spd := { Spd.reset with deferred := true } } = false) ∧
    (baseOf { up .service with tbs := { Tbs.reset with base := lmod Tbs.reset.base 0 fun b => { b with traceSince := some 0 } } } 0).traceSince = some 0 ∧
    (dark (up .maint) = false ∧ (up .maint).sys.st = .maint ∧ bit 0x100#32 8 = true ∧ (up .service).sys.st ≠ .maint) := by decide +kernel

theorem met_RegisterAccessesComplete :
    (dark (up .service) = false ∧ 0x10004 < cfgWindow ∧ reaches .host 0x10004 = true ∧ (regAt 0x10004).isSome = true ∧ keyRefused .host 0x10004 = false) ∧
    (reaches .host 0x10FFC = true ∧ (regAt 0x10FFC).isNone = true) ∧ (0x030000 < cfgWindow ∧ reaches (.qc 0) 0x030000 = false) ∧
    (up .service).sys.st ≠ .maint ∧ (up .maint).sys.st = .maint := by decide +kernel

theorem met_StepExecutesTheFront : State.reset.pending = [] := rfl

theorem met_KeyCoreChangesByItsRowsAlone :
    keyRow (.hkConvert 0 none) = false ∧ (∃ u, exec (.hkConvert 0 none) State.reset = .next u) ∧ (∀ t, Instr.hkConvert 0 none ≠ .backupDomainRestart t) :=
  ⟨rfl, ⟨_, rfl⟩, fun _ h => nomatch h⟩

theorem met_KeyInvariantIsKept : ∃ u, step State.reset = .next u := ⟨_, rfl⟩

/-- The packet begins its turn, and the first check that fails. -/
def failing (p : Env) (q : CmdReq) (s : State) : Option (Nat × Nat) :=
  match turn p q.opcode (atTime 0 (queued p s)) with
  | (some x, u) => pktFault q x (touchTxn x.env u)
  | (none, _) => none

theorem met_FirstFailingCheckDecides :
    failing (packet 0x0102 4 0) ⟨0x0102, true, plenIs 4, 0, [.service, .maint]⟩ (up .safeService) = some (stConflict, ModState.safeService.code) ∧
    failing (packet 0x0102 8 0) ⟨0x0102, true, plenIs 4, 0, [.service, .maint]⟩ (up .service) = some (stBadLength, 0) ∧
    failing (plain 0x0102 4) ⟨0x0102, true, plenIs 4, 0, [.service, .maint]⟩ (up .service) = some (stNotAuthorised, 1) ∧
    failing { packet 0x0102 4 0 with hdr := { (packet 0x0102 4 0).hdr with authSlot := 9 } } ⟨0x0102, true, plenIs 4, 0, [.service, .maint]⟩ (up .service) = some (stNotAuthorised, 3) ∧
    failing { packet 0x0200 4 0 with hdr := { (packet 0x0200 4 0).hdr with flags := 5 } } ⟨0x0200, false, plenIs 4, 4, [.service, .maint]⟩ (up .service) = some (stBadParam, 2) ∧
    failing { packet 0x0500 16 0 with src := 0x10 } ⟨0x0500, false, plenIs 16, 8, [.service, .maint]⟩ (up .service) = some (stNotAuthorised, 2) ∧
    failing (packet 0x0200 8 0) ⟨0x0200, false, plenIs 4, 4, [.service, .maint]⟩ (up .service) = some (stBadLength, 0) ∧
    failing (packet 0x0902 8 0) ⟨0x0902, true, plenIs 4, 0, [.start, .service, .maint, .safeService]⟩ (up .service) = some (stBadLength, 0) := by decide +kernel

theorem met_SpdGetPlanReadsTheRecord :
    meets (packet 0x0B02 4 0) ⟨0x0B02, false, plenIs 4, 64, [.service, .maint, .safeService]⟩ { up .maint with spd := { Spd.reset with plans := [planOf 1 1 (up .maint)] } }
      (fun _ u => u.spd.plans[0]?.isSome && u.spd.plans[1]?.isNone) = true ∧ (planOf 1 1 (up .maint)).vhu.length = 4 := by decide +kernel

theorem met_KeyDeriveFormsTheKey :
    meets (packet 0x0901 268 0) ⟨0x0901, true, plenIs (12 + 256), 0, [.service, .maint]⟩ (withKey (up .service))
      (fun _ u => !u.key.tampLatched && (keyLen 3).isSome && attrOk 255 3 0x20#8 && (tget u.key.slots 2).any (fun k => k.attr.getLsbD 4) && (tget u.key.slots 9).isNone) = true ∧
    meets (packet 0x0901 12 0) ⟨0x0901, true, plenIs (12 + 0), 0, [.service, .maint]⟩ (up .maint)
      (fun _ u => (tget u.key.slots 1).any (fun k => !k.attr.getLsbD 4)) = true := by decide +kernel

theorem met_SkewTopValue : dark (up .maint) = false ∧ (up .maint).acq.ch[23]?.isSome = true ∧ bits 0xFFF#32 11 0 = 4095 := by decide +kernel

theorem met_MessagesSurviveResets : isReset (.perstAssert 0) = true ∧ (up .service).sys.st ≠ .start ∧ off.sys.st = .off := by decide

/-- No command or event with an operand outside its range is well-formed: one for each check. -/
theorem test_ill_formed :
    ([.warmStart 0 0, .warmStart 0 4, .watchdogExpire 0 256, .adcStrobe 0 [], .ckSlotConvert 0 4 none, .urgentConversionComplete 0 5 none, .slotDeadline 0 4120 0,
      .svFrameReceive 0 (svFrame 4 0), .gooseFrameReceive 0 { gooseFrame 1 with link := { (gooseFrame 1).link with port := 4 } }, .svStreamLostTimeout 0 512, .gooseTalExpire 0 128,
      .gooseRetransmit 0 32, .zoneEvaluate 0 64 0, .ownListenExpire 0 64, .tripRowRelease 0 16, .blockedQHoldExpire 0 2048, .flashSuppressSummary 0 24 0,
      .flashSuppressSummary 0 0 2, .biDebouncedChange 0 16 true, .biChatterRecover 0 16, .toFeedbackMismatch 0 8, .taskCycleStart 0 64 [], .nativeCallAbort 0 64 0 0,
      .taskCycleCommit 0 64, .trigEdgeQualify 0 6 true [0, 0, 0, 0], .trigEdgeQualify 0 0 true [], .xlinePulseEnd 0 2,
      .ptpSyncReceive 0 ⟨{ ptpHdr with port := 4 }, false, 0⟩, .ptpFollowUpReceive 0 ⟨{ ptpHdr with port := 4 }, 0⟩, .pdelayMessageReceive 0 ⟨{ ptpHdr with port := 4 }, .req, false, 0⟩,
      .ptpAnnounceReceive 0 ⟨{ ptpHdr with port := 4 }, 0, 0, 0, 0, 0, 0, 0, false, 0, false, false, false, none⟩, .followUpTimeout 0 4, .ptpMessageTransmit 0 4 (.sync 0), .ptpMessageTransmit 0 0 (.announce 4),
      .sourceLossTimeout 0 4, .ppsInEdge 0 [], .tegFire 0 16, .linkUp 0 4 ⟨LinkCond.reset, 0⟩, .frameReceive 0 { rxFrame 60 0 with port := 4 }, .pauseReceive 0 4 0,
      .pauseReceive 0 0 65536] : List Instr).all (fun i => !i.wf) = true := by decide +kernel

theorem test_ill_formed_host :
    ([.swcFrameTransmit 0 8, .fdbAgeOut 0 (2 ^ 48) 0, .fdbAgeOut 0 0 4095, .prpSupervisionTransmit 0 2, .prpNodeForget 0 2 0, .bracketMissDecide 0 2 0 0,
      .bracketMissDecide 0 0 512 0, .ownBeaconReceive 0 { beacon 0 with port := 4 }, .vfFlr 0 0, .vfFlr 0 1025, .vfEnableWrite 0 true 65536 true, .doorbellRx 0 0 0#32,
      .txEntryFetch 0 1025 .nop, .qCtlWrite 0 (.rx 0) 0#32, .rxDeliveryWrite 0 (.tx 1025) ⟨0, 0⟩, .msixCoalesceExpire 0 (.rx 1025), .completionTimeout 0 1025,
      .mbxCorePost 0 (.qc 16) 0 0 0#32, .mbxCorePost 0 .host 17 0 0#32, .mbxCoreDataRead 0 (.vf 0) 0 0, .mbxCoreDataRead 0 .host 0 16, .pmbPost 0 4 0#32, .cmdFetch 0 4 none,
      .cmdFetch 0 0 (some { bare with src := 4 }), .replyNoticePost 0 4, .semRead 0 .host 64, .semRelease 0 (.vf 1025) 0#32, .tbsCapture 0 (.qc 16),
      .udpCommandReceive 0 { datagram 0 0 [] with port := 2 }, .udpDataRequest 0 { datagram 0 0 [] with udpPort := 65536 }, .udpOutputExpire 0 0x22 (0, 0) 0,
      .arpRequestReceive 0 2 0 0, .icmpEchoReceive 0 0 (2 ^ 32) 0 [], .consoleLineReceive 0 ['\n'], .tamperDetect 0 5 0 false, .snapshotTimeout 0 2, .safelightWake 0 ⟨5, 0⟩,
      .safelightWake 0 ⟨0, 256⟩, .speedMeasurement 0 []] : List Instr).all (fun i => !i.wf) = true := by decide +kernel

theorem test_ill_formed_registers :
    ([.registerWrite 0 .host 2 0#32, .registerRead 0 .host 3, .acqCkSeqWrite 0 .host 4 false 0#32, .fltDetClr 0 .host 24 0#32, .fltScaleEofsWrite 0 .host 24 false 0#32,
      .tegCtlWrite 0 .host 16 0#32] : List Instr).all (fun i => !i.wf) = true := by decide +kernel

theorem test_ill_formed_packets :
    ([.sysIdentify 0 { bare with version := 256 }, .sysGetState 0 { bare with hdr := { bare.hdr with opcode := 65536 } }, .cfgAbort 0 { bare with hdr := { bare.hdr with flags := 256 } },
      .trgArm 0 { bare with hdr := { bare.hdr with tag := 2 ^ 32 } }, .rtcGet 0 { bare with hdr := { bare.hdr with plen := 2 ^ 32 } },
      .evrStatus 0 { bare with hdr := { bare.hdr with scope := 65536 } }, .vfmReset 0 { bare with hdr := { bare.hdr with authSlot := 65536 } },
      .sysSelftest 0 { bare with hdr := { bare.hdr with replyAddr := 2 ^ 64 } } 0#32, .acqCalibrate 0 { bare with hdr := { bare.hdr with replyMax := 2 ^ 32 } } 0#32,
      .trgDisarm 0 { bare with hdr := { bare.hdr with nonce := 2 ^ 32 } }, .sysSetState 0 bare 256, .cfgBegin 0 bare 65536, .cfgCommit 0 bare 256 0,
      .cfgCommit 0 bare 0 (2 ^ 32), .cfgRead 0 bare 256 0 0, .cfgRead 0 bare 0 (2 ^ 64) 0, .cfgRead 0 bare 0 0 (2 ^ 32), .acqUrgentConvert 0 bare 256 0,
      .prtSetGroup 0 bare 0 256, .logOnlineChange 0 bare 0 256, .logForceSet 0 bare 0 (2 ^ 24) 0, .logForceClear 0 bare 256 0 0,
      .pwrSafelight 0 { bare with src := 0x11 } ⟨0#16, 0#16, 0⟩] : List Instr).all (fun i => !i.wf) = true := by decide +kernel

/-- Operands at the ends of their ranges are well-formed. -/
theorem test_well_formed :
    ([.warmStart 0 3, .adcStrobe 0 codes, .slotDeadline 0 4119 0, .vfFlr 0 1024, .qCtlWrite 0 (.tx 1) 0#32, .safelightWake 0 ⟨4, 255⟩, .fdbAgeOut 0 (2 ^ 48 - 1) 4094,
      .sysSetState 0 bare 255, .cmdFetch 0 3 (some bare), .registerRead 0 (.vf 1024) 0x3FFFFC, .logForceSet 0 bare 1 (2 ^ 24 - 1) 255] : List Instr).all Instr.wf = true := by decide +kernel

/-- Sample instants at 96,000 /s (00_scope.md R12): k = 1 to 5. -/
theorem test_sample_stamps : [1, 2, 3, 4, 5].map (sampleStamp 96000) = [10417, 20833, 31250, 41667, 52083] := by decide +kernel

/-- The worked example of 18_power_start_sleep.md R437: C_HU 640 µF gives 22.7, 28.7, 34.7 and 40.7 V. -/
theorem test_shed_thresholds : shedThr (supplied .service fun p => { p with cHu := 640000#32, capValid := true }) = [40700, 34700, 28700, 22700] := by decide +kernel

/-- The worked example of 11_rtc_backup.md R280: TRIM after each measurement of e, in ns. -/
theorem test_trim : [(-12258000, 30000), (-8921000, -12258000), (-6561000, -8921000), (-5177000, -6561000)].map (fun (p : Int × Int) =>
    rdivEven (4 * (p.1 - p.2) + p.1) 3906250) = [-16, 1, 1, 0] := by decide +kernel

end Sys2Proof.Tests
end

/-! ## Register accesses: what a refusal leaves, and the two ways an access goes (R35 to R38) -/

namespace Sys2Proof.Machine

/-- What every application of an operation keeps, its repetition over a list keeps. -/
theorem foldOver_keeps {α β γ : Type} (g : β → γ) {f : α → β → β} (hf : ∀ a b, g (f a b) = g b) (l : List α) (b : β) :
    g (foldOver l f b) = g b := by
  induction l generalizing b with
  | nil => rfl
  | cons a l ih => exact (ih (f a b)).trans (hf a b)

/-! ### A refused access -/

@[simp] theorem busViolate_busViol (m off s) : (busViolate m off s).sys.busViol = satInc s.sys.busViol := by
  unfold busViolate
  dsimp only
  split
  · rw [ev_frame.sys (by decide)]
  · rfl

@[simp] theorem busViolate_busViolAddr (m off s) : (busViolate m off s).sys.busViolAddr = wd (0x40000000 + off) := by
  unfold busViolate
  dsimp only
  split
  · rw [ev_frame.sys (by decide)]
  · rfl

@[simp] theorem busViolate_key (m off s) : (busViolate m off s).key = s.key := busViolate_frame.key (by decide)

@[simp] theorem busViolate_out (m off s) : (busViolate m off s).out = s.out := busViolate_frame.out (by decide)

/-- A row that ends in a refused access changes the counters of SYS and the record alone. -/
theorem busViolate_atTime_frame (m off t s) : Frame [.sys, .evr, .now, .out] s (busViolate m off (atTime t s)) :=
  (atTime_frame.mono rfl).app busViolate_frame rfl

/-! ### The ways of an access to PF BAR0 -/

@[simp] theorem dark_atTime (t s) : dark (atTime t s) = dark s := rfl

section
variable {t addr : Nat} {m : Master} {s : State}

theorem exec_registerWrite_refused (hd : dark s = false) (ha : addr < cfgWindow) (hr : reaches m addr = false ∨ keyRefused m addr = true) (v : Word) :
    exec (.registerWrite t m addr v) s = .next (busViolate m addr (atTime t s)) := by
  have hr' : (!reaches m addr || keyRefused m addr) = true := by simpa using hr
  simp [exec, execRegisterWrite, hd, Nat.not_le.2 ha, hr']

theorem exec_registerWrite_reached (hd : dark s = false) (ha : addr < cfgWindow) (hr : reaches m addr = true) (hk : keyRefused m addr = false) (v : Word) :
    exec (.registerWrite t m addr v) s = writeReg t m addr (regAt addr) v (atTime t s) := by
  simp [exec, execRegisterWrite, hd, Nat.not_le.2 ha, hr, hk]

theorem exec_registerRead_refused (hd : dark s = false) (ha : addr < cfgWindow) (hr : reaches m addr = false) :
    exec (.registerRead t m addr) s = .next (emit (.readData 0#32) (busViolate m addr (atTime t s))) := by
  simp [exec, execRegisterRead, hd, Nat.not_le.2 ha, hr]

theorem exec_registerRead_reached (hd : dark s = false) (ha : addr < cfgWindow) (hr : reaches m addr = true) :
    exec (.registerRead t m addr) s = readReg t m addr (regAt addr) (atTime t s) := by
  simp [exec, execRegisterRead, hd, Nat.not_le.2 ha, hr]

end

/-- A plain register's read (R9, R10): its value goes out, and the high word of a pair is latched. -/
theorem readReg_plain {r : Reg} (hr : r.read = none) (t m addr s) : ∃ u, readReg t m addr (some r) s = .next u ∧
    .readData (r.get s) ∈ u.out ∧ ∀ h, r.hi s = some h → tget u.hiLatch addr = some h := by
  cases hh : r.hi s with
  | none => exact ⟨emit (.readData (r.get s)) (r.clear s), by simp [readReg, hr, hh], by simp, nofun⟩
  | some w =>
    refine ⟨{ emit (.readData (r.get s)) (r.clear s) with hiLatch := tset (r.clear s).hiLatch addr w }, by simp [readReg, hr, hh], by simp, ?_⟩
    rintro h ⟨⟩
    simp [tget_tset]

/-! ### A write of a configuration register -/

theorem cfgWrite_host_refused {s : State} (hd : dark s = false) (hm : s.sys.st ≠ .maint) (off f) :
    cfgWrite .host off f s = busViolate .host off s := by
  simp [cfgWrite, hd, mayConfigure, hm]

theorem cfgWrite_host_maint {s : State} (hd : dark s = false) (hm : s.sys.st = .maint) (off f) :
    cfgWrite .host off f s = setDirty (f s) := by
  simp [cfgWrite, hd, reaches, mayConfigure, hm]

/-! ### ACQ_PLAUS_CTL -/

/-- The effect of a write of ACQ_PLAUS_CTL (R60 to R62). -/
def plausCtlWrite (v : Word) (s : State) : State :=
  acqClamp (decide (bits v 23 16 < 4)) (implMask (modAcq (fun a => { a with plausCtl := v &&& 0x1FFFFFF#32 }) s))

theorem regAt_plausCtl : regAt 0x03000C = some (.cfg (fun s => s.acq.plausCtl) plausCtlWrite) := rfl

/-- Outside MAINT the host's write of ACQ_PLAUS_CTL is refused (R37). -/
theorem exec_plausCtlWrite_refused {s : State} (hd : dark s = false) (hm : s.sys.st ≠ .maint) (t : Nat) (v : Word) :
    exec (.registerWrite t .host 0x03000C v) s = .next (busViolate .host 0x03000C (atTime t s)) := by
  rw [exec_registerWrite_reached hd (by decide) rfl rfl, regAt_plausCtl, ← cfgWrite_host_refused (s := atTime t s) hd hm _ (plausCtlWrite v)]
  rfl

/-- In MAINT the host's write of ACQ_PLAUS_CTL takes effect and sets DIRTY (R382). -/
theorem exec_plausCtlWrite_maint {s : State} (hd : dark s = false) (hm : s.sys.st = .maint) (t : Nat) (v : Word) :
    exec (.registerWrite t .host 0x03000C v) s = .next (setDirty (plausCtlWrite v (atTime t s))) := by
  rw [exec_registerWrite_reached hd (by decide) rfl rfl, regAt_plausCtl, ← cfgWrite_host_maint (s := atTime t s) hd hm 0x03000C]
  rfl

theorem implClear_plausCtl (n cause s) : (implClear n cause s).acq.plausCtl = s.acq.plausCtl := by
  unfold implClear
  split
  · rw [ev_frame.acq (by decide), modAcq_acq]
  · rfl

theorem implMask_plausCtl (s) : (implMask s).acq.plausCtl = s.acq.plausCtl := by
  refine foldOver_keeps (fun s : State => s.acq.plausCtl) (fun n s => ?_) _ s
  dsimp only
  split
  · rfl
  · split
    · rfl
    · rw [implClear_plausCtl, modAcqCh_acq, modAcqCh_acq]

theorem plausCtlWrite_plausCtl (v s) : (plausCtlWrite v s).acq.plausCtl = v &&& 0x1FFFFFF#32 := by
  rw [plausCtlWrite, acqClamp, modAcq_acq]
  exact implMask_plausCtl _

theorem plausCtlWrite_frame (v s) : Frame [.acq, .evr] s (plausCtlWrite v s) :=
  ((modAcq_frame.mono rfl).app implMask_frame rfl).app acqClamp_frame rfl

/-! ### The obligations -/

/-- Settles O44, by the two ways of an access: it is refused, or it goes to the register of its address. -/
theorem registerAccessesComplete : Obligations.RegisterAccessesComplete := by
  unfold Obligations.RegisterAccessesComplete Becomes
  refine ⟨fun t m addr s hd ha hr => ⟨fun r hreg hread => ?_, fun hreg => ?_, fun v hk => ⟨fun r hreg => ?_, fun hreg => ?_⟩⟩,
    fun t m addr s hd ha hr => ⟨fun v => ?_, ?_⟩, fun t v s hd => ?_, fun t v s hd => ⟨fun hm => ?_, fun hm => ?_⟩⟩
  · rw [exec_registerRead_reached hd ha hr, hreg]
    exact readReg_plain hread t m addr _
  · rw [exec_registerRead_reached hd ha hr, hreg]
    rfl
  · rw [exec_registerWrite_reached hd ha hr hk, hreg]
    rfl
  · rw [exec_registerWrite_reached hd ha hr hk, hreg]
    rfl
  · exact ⟨_, exec_registerWrite_refused hd ha (.inl hr) v, by simp, by simp, busViolate_atTime_frame ..⟩
  · exact ⟨_, exec_registerRead_refused hd ha hr, by simp, by simp, (busViolate_atTime_frame ..).app emit_frame rfl⟩
  · exact ⟨_, exec_registerWrite_refused hd (by decide) (.inr rfl) v, by simp, by simp⟩
  · exact ⟨_, exec_plausCtlWrite_refused hd hm t v, by simp, busViolate_atTime_frame ..⟩
  · exact ⟨_, exec_plausCtlWrite_maint hd hm t v, plausCtlWrite_plausCtl .., rfl,
      ((atTime_frame.mono rfl).app (plausCtlWrite_frame ..) rfl).app setDirty_frame rfl⟩

/-- Settles O52, by reading each register of the list in the reset state. -/
theorem registersReadTheirResetValues : Obligations.RegistersReadTheirResetValues := by
  unfold Obligations.RegistersReadTheirResetValues
  exact ⟨by decide +kernel, rfl, rfl, rfl, rfl, by decide +kernel, rfl, rfl, rfl⟩

end Sys2Proof.Machine

/-! ## Changes of the module state, starts and their ends (R32, R33, R39, R40, R441 to R446) -/

namespace Sys2Proof.Machine
-- In order, not in parallel: each thread reserves memory, of which the check of the whole text has little left.
set_option Elab.async false

@[simp] theorem settle_sys (s : State) : (settle s).sys = s.sys := settle_frame.sys (by decide)

/-! ### Changes of the module state -/

/-- A change of state writes the state alone of the SYS block (R32). -/
theorem changeState_sys (st : ModState) (c : Nat) (s : State) : (changeState st c s).sys = { s.sys with st := st } := by
  unfold changeState
  dsimp only
  split
  · next h => rw [← h]
  · rw [storesFollow_frame.sys (by decide), evBy_frame.sys (by decide), txnAbort_frame.sys (by decide)]

theorem txnAbort_txn (c : Nat) (s : State) : (txnAbort c s).cmd.txn = none := by
  unfold txnAbort
  split
  · rfl
  · next h => simpa using h

/-- A change of state aborts the open transaction (R385 cause 3). -/
theorem changeState_txn {st : ModState} {s : State} (h : s.sys.st ≠ st) (c : Nat) : (changeState st c s).cmd.txn = none := by
  rw [changeState, if_neg h, storesFollow_frame.cmd (by decide), evBy_frame.cmd (by decide)]
  exact txnAbort_txn ..

theorem ovrClear_ovrEn (s : State) : (ovrClear s).spd.ovrEn = false := by
  unfold ovrClear
  split
  · rw [vcoreOvrEvent_frame.spd (by decide)]
    rfl
  · next h => simpa using h

section
variable (c : Nat) (s : State)

/-- What entering SERVICE does after the change of state: zones resume, tasks start, the matrix decides (R32, R204). -/
theorem enterService_change_frame : Frame [.trg, .sve, .prt, .trp, .cyc, .tbs, .mac, .red, .swc, .vfm, .evr, .out]
    (changeState .service c (ovrClear (modPwr (fun p => { p with shed1Seen := false }) s))) (enterService c s) :=
  ((zonesStart_frame.mono rfl).app tasksStart_frame rfl).app settle_frame rfl

theorem enterService_sys : (enterService c s).sys = { s.sys with st := .service } := by
  rw [(enterService_change_frame c s).sys (by decide), changeState_sys, ovrClear_frame.sys (by decide), modPwr_sys]

theorem enterService_ovrEn : (enterService c s).spd.ovrEn = false := by
  rw [(enterService_change_frame c s).spd (by decide), changeState_frame.spd (by decide), ovrClear_ovrEn]

theorem enterService_txn (h : s.sys.st ≠ .service) : (enterService c s).cmd.txn = none := by
  rw [(enterService_change_frame c s).cmd (by decide), changeState_txn]
  rwa [ovrClear_frame.sys (by decide), modPwr_sys]

end

/-! ### The steps of a start -/

@[simp] theorem startRun_sys (s : State) : (startRun s).sys = s.sys := startRun_frame.sys (by decide)

@[simp] theorem startRun_pending (s : State) : (startRun s).pending = s.pending := startRun_frame.pending (by decide)

theorem startRun_of_not_start {s : State} (h : s.sys.st ≠ .start) : startRun s = s := by
  simp [startRun, h]

/-- The steps of a start run to their end when MRST_N is high, below SHED4, and a bank boots (R441, R444, R405). -/
theorem startRun_startPending {s : State} (hst : s.sys.st = .start) (hp : s.pwr.startPending = true) (hm : s.pwr.mrst = false)
    (hshed : s.pwr.shed < 4) (hb : bkp s 56 ≠ 3) (hboot : (bootImage s).isSome = true) : (startRun s).pwr.startPending = false := by
  obtain ⟨v, hv⟩ := Option.isSome_iff_exists.1 hboot
  have hrun : ¬(s.sys.st ≠ .start ∨ !s.pwr.startPending ∨ s.pwr.mrst ∨ s.pwr.shed ≥ 4) := by simp [hst, hp, hm, hshed]
  have hsafe : ¬((!safeStart s) = true ∧ bkp s 56 = 3) := fun h => hb h.2
  rw [startRun, if_neg hrun]
  simp only [if_neg hsafe, hv]
  rw [settle_frame.pwr (by decide), modPwr_pwr]

/-! ### The beginning of a start -/

/-- The scope of a start (R40): the wider one of two that meet, but a watchdog in START starts warm (R445). -/
def startWide (b : Nat) (cold : Bool) (x : Sys) : Bool := cold || (x.st == .start && x.startCold && b != 2)

/-- SYS_RST_CAUSE of a start (R39, R40). -/
def startCause (b : Nat) (cold : Bool) (x : Sys) : Word :=
  (if x.st == .start then x.rstCause &&& ~~~0x100#32 else 0#32) ||| wd (2 ^ b) ||| (if cold then 0#32 else 0x100#32)

/-- The state of a cold start by the source of bit b: that of coldState, its cause and the records of the START that it meets. -/
def startColdState (b : Nat) (cause : Word) (s w : State) : State :=
  { coldState w with
    sys := { (coldState w).sys with
      rstCause := cause, rstHist := if s.sys.st == .start then s.sys.rstHist ||| wd (2 ^ b) else wd (2 ^ b), startCold := true }
    evr := { (coldState w).evr with stage := if s.sys.st == .start then entryRecords s.evr else [] } }

/-- The state of a warm start by the source of bit b: its cause and its count, and then warmState. -/
def startWarmState (b : Nat) (cause : Word) (s w : State) : State :=
  warmState { w with sys := { w.sys with
    rstCause := cause, rstHist := s.sys.rstHist ||| wd (2 ^ b), warmCount := s.sys.warmCount + 1, startCold := false } }

/-- The first part of a start: every block is reset, and the module is in START. -/
def startReset (b : Nat) (cold : Bool) (s : State) : State :=
  let wide := startWide b cold s.sys
  let cause := startCause b wide s.sys
  let w := cmdStart wide (txnAbort 4 s)
  let u := if wide then startColdState b cause s w else startWarmState b cause s w
  { u with
    hiLatch := [], sys := { u.sys with st := .start, leaving := none }
    pwr := { u.pwr with resetAt := if b = 1 ∨ b = 2 then s.pwr.resetAt else none, startPending := true } }

/-- EV_STATE_CHANGE and EV_SYS_START of a start that does not meet START (R35). -/
def startNotes (s u : State) : State :=
  let merge := s.sys.st == .start
  let (code, u) := stateCode s.sys.st u
  let u := if merge then u else evBy srcSvc 0x0101 (u8 code ++ u8 ModState.start.code ++ u16 causeReset) u
  if merge then u else evBy srcSvc 0x0102 (w32 u.sys.rstCause ++ w32 u.sys.warmCount) u

/-- The records of the links that a start clears (R287). -/
def startLinks (s u : State) : State :=
  foldOver ((List.range 4).filter fun p => (macOf s p).link)
    (fun p u => ev 0x0801 (u8 p ++ u8 0 ++ u8 ((s.mac.map MacPort.speed).getD p 0) ++ u8 0) u) u

/-- The second part of a start that the state s met: its records, and the matrix settles. -/
def startRecord (s u : State) : State :=
  settle (if s.spd.ovrEn && s.sys.st != .off then vcoreOvrEvent s.spd.ovrCode 0 (startLinks s (startNotes s u)) else startLinks s (startNotes s u))

theorem startBegin_eq (b : Nat) (cold : Bool) (s : State) : startBegin b cold s = startRecord s (startReset b cold s) := rfl

theorem startNotes_frame {s u : State} : Frame [.evr, .freeCtr] u (startNotes s u) := by
  unfold startNotes
  cases s.sys.st == .start with
  | true => exact stateCode_frame.mono rfl
  | false => exact ((stateCode_frame.mono rfl).app evBy_frame rfl).app evBy_frame rfl

theorem startLinks_frame {s u : State} : Frame [.evr] u (startLinks s u) := .foldOver (fun _ _ => ev_frame) _ _

theorem startRecord_frame {s u : State} : Frame [.trg, .sve, .trp, .cyc, .tbs, .mac, .red, .swc, .vfm, .evr, .out, .freeCtr] u (startRecord s u) := by
  have hrec : Frame [.evr, .freeCtr] u (startLinks s (startNotes s u)) := startNotes_frame.app startLinks_frame rfl
  exact Frame.app (.ite ((hrec.mono rfl).app vcoreOvrEvent_frame rfl) (hrec.mono rfl)) settle_frame rfl

/-! ### What a warm start resets in SYS, the key core and the supply -/

/-- The part of a warm start that follows the plain resets leaves SYS, the key core and the supply alone. -/
theorem warmTail_frame {s : State} :
    Frame [.acq, .trg, .prt, .trp, .cyc, .red, .swc, .vfm, .mbx, .evr, .out] s
      (loadCoefs (mbxWarm (vfmWarm (swcReload (redWarm (cycWarm (trpWarm (prtWarm (trgWarm s))))))))) :=
  ((((((((trgWarm_frame.mono rfl).app prtWarm_frame rfl).app trpWarm_frame rfl).app cycWarm_frame rfl).app redWarm_frame rfl).app swcReload_frame rfl).app
    vfmWarm_frame rfl).app mbxWarm_frame rfl).app loadCoefs_frame rfl

theorem warmState_sys (s : State) : (warmState s).sys = { s.sys with busViolLast := none, busViolNew := 0, busViolAddr := 0#32 } := by
  refine (warmTail_frame.sys (by decide)).trans ?_
  rw [flashWarm_frame.sys (by decide)]

theorem warmState_key (s : State) : (warmState s).key = { s.key with ready := false, attest := none } := by
  refine (warmTail_frame.key (by decide)).trans ?_
  rw [flashWarm_frame.key (by decide)]

theorem warmState_pwr (s : State) : (warmState s).pwr = pwrWarm s.pwr := by
  refine (warmTail_frame.pwr (by decide)).trans ?_
  rw [flashWarm_frame.pwr (by decide)]

/-! ### What a start leaves in SYS and the supply -/

theorem cmdStart_txnAbort_frame {cold : Bool} {s : State} : Frame [.cmd] s (cmdStart cold (txnAbort 4 s)) :=
  txnAbort_frame.app cmdStart_frame rfl

/-- The SYS block after a start by the source of bit b: the cold scope's own, the warm scope's, or that of a restart of START (R39, R40). -/
def startSys (b : Nat) (cold : Bool) (x : Sys) : Sys :=
  if x.st = .start then restartSys b (startWide b cold x) x
  else if cold then { Sys.reset with rstCause := wd (2 ^ b), rstHist := wd (2 ^ b) }
  else warmSys b x

theorem startColdState_sys (b : Nat) (cause : Word) (s w : State) : (startColdState b cause s w).sys =
    { Sys.reset with st := w.sys.st, rstCause := cause, rstHist := if s.sys.st == .start then s.sys.rstHist ||| wd (2 ^ b) else wd (2 ^ b) } := rfl

theorem startWarmState_sys (b : Nat) (cause : Word) (s w : State) : (startWarmState b cause s w).sys =
    { w.sys with
      rstCause := cause, rstHist := s.sys.rstHist ||| wd (2 ^ b), warmCount := s.sys.warmCount + 1, startCold := false
      busViolLast := none, busViolNew := 0, busViolAddr := 0#32 } := warmState_sys _

theorem startReset_sys (b : Nat) (cold : Bool) (s : State) : (startReset b cold s).sys = startSys b cold s.sys := by
  unfold startReset
  dsimp only
  split
  · next hw =>
    rw [startColdState_sys]
    by_cases hst : s.sys.st = .start
    · simp [startSys, hst, hw, restartSys, startCause, Sys.reset]
    · obtain rfl : cold = true := by simpa [startWide, hst] using hw
      simp [startSys, hst, hw, startCause, Sys.reset]
  · next hw =>
    rw [startWarmState_sys, cmdStart_txnAbort_frame.sys (by decide)]
    by_cases hst : s.sys.st = .start
    · simp [startSys, hst, hw, restartSys, warmSys, startCause]
    · obtain rfl : cold = false := by simpa [startWide, hst] using hw
      simp [startSys, hst, hw, warmSys, startCause]

theorem startReset_startPending (b : Nat) (cold : Bool) (s : State) : (startReset b cold s).pwr.startPending = true := rfl

theorem startColdState_mrst (b : Nat) (cause : Word) (s w : State) : (startColdState b cause s w).pwr.mrst = w.pwr.mrst := rfl

theorem startWarmState_mrst (b : Nat) (cause : Word) (s w : State) : (startWarmState b cause s w).pwr.mrst = w.pwr.mrst := by
  rw [startWarmState, warmState_pwr]
  rfl

theorem startReset_mrst (b : Nat) (cold : Bool) (s : State) : (startReset b cold s).pwr.mrst = s.pwr.mrst := by
  unfold startReset
  dsimp only
  split
  · rw [startColdState_mrst, cmdStart_txnAbort_frame.pwr (by decide)]
  · rw [startWarmState_mrst, cmdStart_txnAbort_frame.pwr (by decide)]

@[simp] theorem startBegin_sys (b : Nat) (cold : Bool) (s : State) : (startBegin b cold s).sys = startSys b cold s.sys := by
  rw [startBegin_eq, startRecord_frame.sys (by decide), startReset_sys]

@[simp] theorem startBegin_startPending (b : Nat) (cold : Bool) (s : State) : (startBegin b cold s).pwr.startPending = true := by
  rw [startBegin_eq, startRecord_frame.pwr (by decide), startReset_startPending]

@[simp] theorem startBegin_mrst (b : Nat) (cold : Bool) (s : State) : (startBegin b cold s).pwr.mrst = s.pwr.mrst := by
  rw [startBegin_eq, startRecord_frame.pwr (by decide), startReset_mrst]

@[simp] theorem startBegin_pending (b : Nat) (cold : Bool) (s : State) : (startBegin b cold s).pending = s.pending :=
  startBegin_frame.pending (by decide)

@[simp] theorem orderlyStore_sys (s : State) : (orderlyStore s).sys = s.sys := orderlyStore_frame.sys (by decide)

@[simp] theorem orderlyStore_pending (s : State) : (orderlyStore s).pending = s.pending := orderlyStore_frame.pending (by decide)

@[simp] theorem supply_sys (vin vhu : Nat) (s : State) : (supply vin vhu s).sys = s.sys := supply_frame.sys (by decide)

@[simp] theorem supply_pending (vin vhu : Nat) (s : State) : (supply vin vhu s).pending = s.pending := supply_frame.pending (by decide)

@[simp] theorem startFailed_sys (step : Nat) (s : State) : (startFailed step s).sys = s.sys := startFailed_frame.sys (by decide)

section
variable {b : Nat} {cold : Bool} {x : Sys}

theorem startSys_start (h : x.st = .start) : startSys b cold x = restartSys b (startWide b cold x) x := by simp [startSys, h]

theorem startSys_cold (h : x.st ≠ .start) : startSys b true x = { Sys.reset with rstCause := wd (2 ^ b), rstHist := wd (2 ^ b) } := by simp [startSys, h]

theorem startSys_warm (h : x.st ≠ .start) : startSys b false x = warmSys b x := by simp [startSys, h]

theorem startWide_start (h : x.st = .start) (hb : b ≠ 2) : startWide b false x = x.startCold := by simp [startWide, h, hb]

end

/-! ### The rows that begin a start -/

section
variable {t vin vhu step a : Nat} {s : State}

/-- The state in which VIN above the start threshold finds the module: off, with its supply as at a first start (R33). -/
def vinApplied (s : State) : State :=
  { s with sys := { s.sys with st := .off }, pwr := { s.pwr with onBank := false, charging := true, shed := 0, interruption := none, excursion := none } }

theorem exec_coldStart_por (h : s.sys.st = .off ∨ (s.sys.st = .start ∧ s.pwr.startPending = true ∧ s.sys.startCold = true)) (hv : 16000 ≤ vin) :
    exec (.coldStart t true vin vhu) s = .next (startRun (supply vin vhu (startBegin 0 true
      (modEvr (fun e => { e with pwrcyc := e.pwrcyc + 1 }) (vinApplied (atTime t s)))))) := by
  have hon : (s.sys.st == .off || (s.sys.st == .start && s.pwr.startPending && s.sys.startCold)) = true := by
    rcases h with h | ⟨h, hp, hc⟩ <;> simp [*]
  simp [exec, execColdStart, Nat.not_lt.2 hv, hon, vinApplied]

theorem exec_coldStart_reset (hoff : s.sys.st ≠ .off) (hr : s.pwr.resetAt = some (a, true)) (ha : a ≤ max s.now t) :
    exec (.coldStart t false vin vhu) s = .next (startRun (startBegin 4 true (orderlyStore (atTime t s)))) := by
  simp [exec, execColdStart, hr, hoff, Nat.not_lt.2 ha]

theorem exec_warmStart_mrst (hoff : s.sys.st ≠ .off) : exec (.warmStart t 1) s = .next (startRun (startBegin 1 false (atTime t s))) := by
  simp [exec, execWarmStart, hoff]

theorem exec_warmStart_watchdog (hoff : s.sys.st ≠ .off) (hst : s.sys.st ≠ .start) (hsl : s.sys.st ≠ .safelight) :
    exec (.warmStart t 2) s = .next (startRun (startBegin 2 false (atTime t s))) := by
  simp [exec, execWarmStart, hoff, hst, hsl]

theorem exec_warmStart_reset (hoff : s.sys.st ≠ .off) (hr : s.pwr.resetAt = some (a, false)) (ha : a ≤ max s.now t) :
    exec (.warmStart t 3) s = .next (startRun (startBegin 3 false (orderlyStore (atTime t s)))) := by
  simp [exec, execWarmStart, hr, hoff, Nat.not_lt.2 ha]

theorem exec_mrstAssert (hoff : s.sys.st ≠ .off) :
    exec (.mrstAssert t) s = .next (startBegin 1 false (modPwr (fun p => { p with mrst := true }) (atTime t s))) := by
  simp [exec, execMrstAssert, hoff]

theorem exec_mrstAssert_off (hoff : s.sys.st = .off) : exec (.mrstAssert t) s = .next { atTime t s with pwr := { s.pwr with mrst := true } } := by
  simp [exec, execMrstAssert, hoff]
  rfl

theorem exec_watchdogExpire (hoff : s.sys.st ≠ .off) (hsl : s.sys.st ≠ .safelight) : exec (.watchdogExpire t step) s =
    .next (startRun (startBegin 2 false (if s.sys.st = .start then startFailed step (atTime t s) else atTime t s))) := by
  simp [exec, execWatchdogExpire, hoff, hsl]
  rfl

end

/-- Settles O9: by what a start leaves in the SYS block, and the source and scope of each row. -/
theorem startRowsBegin : Obligations.StartRowsBegin := by
  unfold Obligations.StartRowsBegin
  refine ⟨fun t vin vhu s hon hv => ?_, fun t vin vhu s a hoff hst hr ha => ?_, fun t s hoff hst => ?_, fun t s hoff hst hsl => ?_,
    fun t s a hoff hst hr ha => ?_, fun t s hoff hst => ?_, fun t step s hoff hst hsl => ?_, fun t s hst => ?_, fun t s hoff => exec_mrstAssert_off hoff⟩
  · exact ⟨_, exec_coldStart_por hon hv, by simp [vinApplied, startSys_cold]; rfl, by simp [vinApplied]⟩
  · exact ⟨_, exec_coldStart_reset hoff hr ha, by simp [startSys_cold hst, wd], by simp⟩
  · exact ⟨_, exec_warmStart_mrst hoff, by simp [startSys_warm hst]⟩
  · exact ⟨_, exec_warmStart_watchdog hoff hst hsl, by simp [startSys_warm hst]⟩
  · exact ⟨_, exec_warmStart_reset hoff hr ha, by simp [startSys_warm hst]⟩
  · exact ⟨_, exec_mrstAssert hoff, by simp [startSys_warm hst]⟩
  · exact ⟨_, exec_watchdogExpire hoff hsl, by simp [startSys_warm hst, hst]⟩
  · have hoff : s.sys.st ≠ .off := by simp [hst]
    have hsl : s.sys.st ≠ .safelight := by simp [hst]
    refine ⟨fun vin vhu a hr ha => ?_, ?_, fun a hr ha => ?_, ?_, fun step => ?_⟩
    · exact ⟨_, exec_coldStart_reset hoff hr ha, by simp [startSys_start hst, startWide]⟩
    · exact ⟨_, exec_warmStart_mrst hoff, by simp [startSys_start hst, startWide_start hst]⟩
    · exact ⟨_, exec_warmStart_reset hoff hr ha, by simp [startSys_start hst, startWide_start hst]⟩
    · exact ⟨_, exec_mrstAssert hoff, by simp [startSys_start hst, startWide_start hst]⟩
    · exact ⟨_, exec_watchdogExpire hoff hsl, by simp [startSys_start hst, hst, startWide]⟩

/-! ### The end of a start -/

@[simp] theorem bkp_setBkp_zero (i : Nat) (s : State) : bkp (setBkp i 0 s) i = 0 := by
  simp [bkp, List.getD_eq_getElem?_getD, List.getElem?_set]
  split <;> simp

theorem bkp_setBkp_ne {i j : Nat} (h : i ≠ j) (v : Nat) (s : State) : bkp (setBkp i v s) j = bkp s j := by
  simp [bkp, List.getD_eq_getElem?_getD, h]

theorem bkp_congr {s u : State} (h : u.rtc = s.rtc) (i : Nat) : bkp u i = bkp s i := by
  simp [bkp, h]

/-- The state in which a start's end is decided (R233): the plan's outcome is stored or recorded, and the failed-start count is 0. -/
def startAdmitted (w : State) : State :=
  setBkp 56 0 (match admitFault w with
    | some f => admitRefused srcSvc 0 f w
    | none => admitStore w)

theorem startAdmitted_frame {w : State} : Frame [.cyc, .spd, .rtc, .evr] w (startAdmitted w) := by
  refine Frame.app ?_ setBkp_frame rfl
  split
  · exact admitRefused_frame.mono rfl
  · exact admitStore_frame.mono rfl

@[simp] theorem bkp_startAdmitted (w : State) : bkp (startAdmitted w) 56 = 0 := bkp_setBkp_zero ..

theorem bkp_startAdmitted_autostart (w : State) : bkp (startAdmitted w) 57 = bkp w 57 := by
  rw [startAdmitted, bkp_setBkp_ne (by decide)]
  split
  · exact bkp_congr (admitRefused_frame.rtc (by decide)) _
  · exact bkp_congr (admitStore_frame.rtc (by decide)) _

/-- The start may end: its steps have run, the calibration has ended and the plan is made (R442, R443). -/
def startEnds (s : State) : Prop :=
  s.sys.st = .start ∧ s.pwr.startPending = false ∧ s.pwr.mrst = false ∧ s.pwr.shed < 4 ∧ s.acq.calBusy = false ∧ s.spd.deferred = false

/-- The state whose plan START_COMPLETE admits: a warm start that a supply interruption preceded seeds the time bases. -/
def startSeeded (s : State) : State := if s.sys.startCold = false ∧ s.pwr.shed1Seen = true then seedBegin s else s

theorem startSeeded_frame {s : State} : Frame [.tbs] s (startSeeded s) := .ite seedBegin_frame (.refl _ _)

section
variable {t : Nat} {s : State}

theorem exec_startComplete_safe (h : startEnds s) (hsafe : safeStart s = true) :
    exec (.startComplete t) s = .next (interruptedReplies (settle (changeState .safeService causeFailed (atTime t s)))) := by
  obtain ⟨hst, hp, hm, hshed, hcal, hdef⟩ := h
  have hs : safeStart (atTime t s) = true := hsafe
  simp [exec, execStartComplete, hst, hp, hm, hshed, hcal, hdef, hs]

/-- Otherwise the state of the module after START is decided by the stored configuration, its admission and AUTOSTART (R33, R233). -/
theorem exec_startComplete_planned (h : startEnds s) (hsafe : safeStart s = false) :
    exec (.startComplete t) s = .next (interruptedReplies (
      if s.cmd.cfgSeq ≠ 0#32 ∧ admitFault (startSeeded (atTime t s)) = none ∧ nbit (bkp s 57) 0 = true
      then enterService causeStart (startAdmitted (startSeeded (atTime t s)))
      else settle (changeState .maint causeStart (startAdmitted (startSeeded (atTime t s)))))) := by
  obtain ⟨hst, hp, hm, hshed, hcal, hdef⟩ := h
  have hs : safeStart (atTime t s) = false := hsafe
  have hseeded : (if (!(atTime t s).sys.startCold) = true ∧ (atTime t s).pwr.shed1Seen = true then seedBegin (atTime t s) else atTime t s) =
      startSeeded (atTime t s) := by
    simp only [Bool.not_eq_true']
    rfl
  have hseq : s.cmd.cfgSeq = (startSeeded (atTime t s)).cmd.cfgSeq := by
    rw [startSeeded_frame.cmd (by decide), atTime_cmd]
  have hauto : bkp s 57 = bkp (startSeeded (atTime t s)) 57 := by
    rw [bkp_congr (startSeeded_frame.rtc (by decide)), bkp_congr (atTime_rtc t s)]
  simp only [exec, execStartComplete]
  rw [if_neg (by simp [hst, hp, hm, hshed, hcal, hdef]), if_neg (by simp [hs]), hseeded, hseq, hauto]
  generalize startSeeded (atTime t s) = w
  cases hf : admitFault w with
  | some f => simp [startAdmitted, hf]
  | none =>
    have hstore : (admitStore w).cmd = w.cmd := admitStore_frame.cmd (by decide)
    have hbkp := bkp_startAdmitted_autostart w
    simp only [startAdmitted, hf] at hbkp ⊢
    simp [hstore, hbkp]

end

@[simp] theorem interruptedReplies_sys (s : State) : (interruptedReplies s).sys = s.sys := interruptedReplies_frame.sys (by decide)

@[simp] theorem interruptedReplies_rtc (s : State) : (interruptedReplies s).rtc = s.rtc := interruptedReplies_frame.rtc (by decide)

/-- The end of a start in SERVICE or MAINT: the state alone of the SYS block changes, and the failed-start count is 0 (R33, R445). -/
theorem interruptedReplies_enterService_admitted (t : Nat) (s : State) :
    (interruptedReplies (enterService causeStart (startAdmitted (startSeeded (atTime t s))))).sys = { s.sys with st := .service } ∧
      bkp (interruptedReplies (enterService causeStart (startAdmitted (startSeeded (atTime t s))))) 56 = 0 := by
  constructor
  · rw [interruptedReplies_sys, enterService_sys, startAdmitted_frame.sys (by decide), startSeeded_frame.sys (by decide), atTime_sys]
  · rw [bkp_congr (interruptedReplies_rtc _), bkp_congr (enterService_frame.rtc (by decide)), bkp_startAdmitted]

theorem interruptedReplies_maint_admitted (t : Nat) (s : State) :
    (interruptedReplies (settle (changeState .maint causeStart (startAdmitted (startSeeded (atTime t s)))))).sys = { s.sys with st := .maint } ∧
      bkp (interruptedReplies (settle (changeState .maint causeStart (startAdmitted (startSeeded (atTime t s)))))) 56 = 0 := by
  constructor
  · rw [interruptedReplies_sys, settle_sys, changeState_sys, startAdmitted_frame.sys (by decide), startSeeded_frame.sys (by decide), atTime_sys]
  · rw [bkp_congr (interruptedReplies_rtc _), bkp_congr (settle_frame.rtc (by decide)), bkp_congr (changeState_frame.rtc (by decide)), bkp_startAdmitted]

/-- Settles O10: by the three ends of a start. -/
theorem startRowsEnd : Obligations.StartRowsEnd := by
  unfold Obligations.StartRowsEnd
  refine ⟨fun t s h => ?_, fun t s hst hp hshed hb hboot => ?_, fun t s hst hp hm hshed hcal hdef => ⟨fun hsafe => ?_, ?_⟩⟩
  · exact congrArg Host.Outcome.next (startRun_of_not_start h)
  · exact ⟨_, rfl, startRun_sys _, startRun_startPending hst hp rfl hshed hb hboot⟩
  · exact ⟨_, exec_startComplete_safe ⟨hst, hp, hm, hshed, hcal, hdef⟩ hsafe, by simp [changeState_sys]⟩
  · rintro w hsafe rfl
    have hexec := exec_startComplete_planned (t := t) ⟨hst, hp, hm, hshed, hcal, hdef⟩ hsafe
    refine ⟨fun hseq hadm hauto => ?_, fun hno => ?_⟩
    · rw [if_pos ⟨hseq, hadm, hauto⟩] at hexec
      exact ⟨_, hexec, interruptedReplies_enterService_admitted t s⟩
    · have hneg : ¬(s.cmd.cfgSeq ≠ 0#32 ∧ admitFault (startSeeded (atTime t s)) = none ∧ nbit (bkp s 57) 0 = true) := by
        rintro ⟨hseq, hadm, hauto⟩
        rcases hno with h | h | h
        · exact hseq h
        · exact Option.isSome_iff_ne_none.1 h hadm
        · exact Bool.false_ne_true (h.symm.trans hauto)
      rw [if_neg hneg] at hexec
      exact ⟨_, hexec, interruptedReplies_maint_admitted t s⟩

end Sys2Proof.Machine

/-! ## ADC_STROBE: the ways of a strobe (R32, R43, R69) -/

namespace Sys2Proof.Machine
-- In order, not in parallel: each thread reserves memory, of which the check of the whole text has little left.
set_option Elab.async false

section
variable {t : Nat} {codes : List (Option Int)} {s : State}

theorem strobeSamples_state : (strobeSamples codes s).sys.st = s.sys.st := by rw [strobeSamples_frame.sys (by decide)]

/-- In SAFE_SERVICE the samples are taken and the chains rest (R32). -/
theorem exec_adcStrobe_safeService (h : s.sys.st = .safeService) : exec (.adcStrobe t codes) s = .next (strobeSamples codes (atTime t s)) := by
  simp [exec, execAdcStrobe, strobeSamples_state, h]

theorem exec_adcStrobe_chains (hoff : s.sys.st ≠ .off) (hsafe : s.sys.st ≠ .safeService) {changed : Bool} {u : State}
    (hu : foldOver (List.range 24) (strobeChain (strobeIdx s)) (false, strobeSamples codes (atTime t s)) = (changed, u)) :
    exec (.adcStrobe t codes) s = .next (commitReplies (if changed then settle u else u)) := by
  have hidx : strobeIdx (atTime t s) = strobeIdx s := rfl
  simp [exec, execAdcStrobe, strobeSamples_state, hoff, hsafe, hidx, hu]

end

/-- Settles O11, by the two ways of a strobe outside OFF. -/
theorem strobeCompletes : Obligations.StrobeCompletes := by
  unfold Obligations.StrobeCompletes
  exact ⟨fun t codes s h => exec_adcStrobe_safeService h, fun t codes s hoff hsafe => ⟨_, _, rfl, exec_adcStrobe_chains hoff hsafe rfl⟩⟩

end Sys2Proof.Machine

/-! ## The key core changes by its rows alone (R37, R272, R402) -/

namespace Sys2Proof.Machine
-- In order, not in parallel: each thread reserves memory, of which the check of the whole text has little left.
set_option Elab.async false

/-- Every row answers a next state and changes the blocks of its row alone (R136, R375): each row by the lemma of its meaning. -/
theorem exec_frame : ∀ (i : Instr) (s : State), Frames (writes i) s (exec i s)
  | .coldStart .., _ => execColdStart_frame
  | .warmStart .., _ => execWarmStart_frame
  | .startComplete .., _ => execStartComplete_frame
  | .mrstAssert .., _ => execMrstAssert_frame
  | .watchdogExpire .., _ => execWatchdogExpire_frame
  | .adcStrobe .., _ => execAdcStrobe_frame
  | .ckSlotConvert .., _ => execCkSlotConvert_frame
  | .hkConvert .., _ => execHkConvert_frame
  | .calibrationComplete .., _ => execCalibrationComplete_frame
  | .urgentConversionComplete .., _ => execUrgentConversionComplete_frame
  | .cd5LockLost .., _ => execCd5LockLost_frame
  | .cd5LockAcquired .., _ => execCd5LockAcquired_frame
  | .slotDeadline .., _ => execSlotDeadline_frame
  | .svFrameReceive .., _ => execSvFrameReceive_frame
  | .svStreamLostTimeout .., _ => execSvStreamLostTimeout_frame
  | .gooseFrameReceive .., _ => execGooseFrameReceive_frame
  | .gooseTalExpire .., _ => execGooseTalExpire_frame
  | .gooseRetransmit .., _ => execGooseRetransmit_frame
  | .zoneEvaluate .., _ => execZoneEvaluate_frame
  | .tripRowRelease .., _ => execTripRowRelease_frame
  | .testModeExpire .., _ => execTestModeExpire_frame
  | .blockedQHoldExpire .., _ => execBlockedQHoldExpire_frame
  | .flashSuppressSummary .., _ => execFlashSuppressSummary_frame
  | .biDebouncedChange .., _ => execBiDebouncedChange_frame
  | .biChatterRecover .., _ => execBiChatterRecover_frame
  | .toFeedbackMismatch .., _ => execToFeedbackMismatch_frame
  | .toMismatchClear .., _ => execToMismatchClear_frame
  | .taskCycleStart .., _ => execTaskCycleStart_frame
  | .nativeCallAbort .., _ => execNativeCallAbort_frame
  | .taskCycleCommit .., _ => execTaskCycleCommit_frame
  | .shutterDecisionInterval .., _ => execShutterDecisionInterval_frame
  | .trigEdgeQualify .., _ => execTrigEdgeQualify_frame
  | .xlinePulseEnd .., _ => execXlinePulseEnd_frame
  | .shutterRecordClose .., _ => execShutterRecordClose_frame
  | .shutterDataBlockWrite .., _ => execShutterDataBlockWrite_frame
  | .shutterCommitComplete .., _ => execShutterCommitComplete_frame
  | .ptpSyncReceive .., _ => execPtpSyncReceive_frame
  | .ptpFollowUpReceive .., _ => execPtpFollowUpReceive_frame
  | .followUpTimeout .., _ => execFollowUpTimeout_frame
  | .ptpAnnounceReceive .., _ => execPtpAnnounceReceive_frame
  | .announceReceiptTimeout .., _ => execAnnounceReceiptTimeout_frame
  | .pdelayMessageReceive .., _ => execPdelayMessageReceive_frame
  | .ptpMessageTransmit .., _ => execPtpMessageTransmit_frame
  | .sourceLossTimeout .., _ => execSourceLossTimeout_frame
  | .holdoverErrorUpdate .., _ => execHoldoverErrorUpdate_frame
  | .holdoverLimitExpire .., _ => execHoldoverLimitExpire_frame
  | .irigFrameReceive .., _ => execIrigFrameReceive_frame
  | .ppsInEdge .., _ => execPpsInEdge_frame
  | .timStepApply .., _ => execTimStepApply_frame
  | .tegFire .., _ => execTegFire_frame
  | .leapSecondApply .., _ => execLeapSecondApply_frame
  | .ocxoDailyValue .., _ => execOcxoDailyValue_frame
  | .backupSupplySwitch .., _ => execBackupSupplySwitch_frame
  | .vbatSample .., _ => execVbatSample_frame
  | .rtcSecondRollover .., _ => execRtcSecondRollover_frame
  | .rtcDisciplineStep .., _ => execRtcDisciplineStep_frame
  | .rtcCommitLoad .., _ => execRtcCommitLoad_frame
  | .rtcCaptureComplete .., _ => execRtcCaptureComplete_frame
  | .linkUp .., _ => execLinkUp_frame
  | .linkDown .., _ => execLinkDown_frame
  | .frameReceive .., _ => execFrameReceive_frame
  | .pauseRefresh .., _ => execPauseRefresh_frame
  | .pauseReceive .., _ => execPauseReceive_frame
  | .pauseExpire .., _ => execPauseExpire_frame
  | .swcFrameTransmit .., _ => execSwcFrameTransmit_frame
  | .fdbAgeOut .., _ => execFdbAgeOut_frame
  | .prpSupervisionTransmit .., _ => execPrpSupervisionTransmit_frame
  | .prpNodeForget .., _ => execPrpNodeForget_frame
  | .bracketMissDecide .., _ => execBracketMissDecide_frame
  | .standbyFaultClear .., _ => execStandbyFaultClear_frame
  | .revertHoldExpire .., _ => execRevertHoldExpire_frame
  | .ownBeaconTransmit .., _ => execOwnBeaconTransmit_frame
  | .ownBeaconReceive .., _ => execOwnBeaconReceive_frame
  | .ownListenExpire .., _ => execOwnListenExpire_frame
  | .ownSilenceDetect .., _ => execOwnSilenceDetect_frame
  | .ownClaimComplete .., _ => execOwnClaimComplete_frame
  | .hostLinkChange .., _ => execHostLinkChange_frame
  | .perstAssert .., _ => execPerstAssert_frame
  | .perstDeassert .., _ => execPerstDeassert_frame
  | .vfFlr .., _ => execVfFlr_frame
  | .pfFlr .., _ => execPfFlr_frame
  | .vfEnableWrite .., _ => execVfEnableWrite_frame
  | .pfPowerStateChange .., _ => execPfPowerStateChange_frame
  | .stopBathComplete .., _ => execStopBathComplete_frame
  | .doorbellRx .., _ => execDoorbellRx_frame
  | .doorbellTx .., _ => execDoorbellTx_frame
  | .qCtlWrite .., _ => execQCtlWrite_frame
  | .txEntryFetch .., _ => execTxEntryFetch_frame
  | .rxDeliveryWrite .., _ => execRxDeliveryWrite_frame
  | .msixCoalesceExpire .., _ => execMsixCoalesceExpire_frame
  | .completionTimeout .., _ => execCompletionTimeout_frame
  | .mbxCorePost .., _ => execMbxCorePost_frame
  | .mbxCoreDataRead .., _ => execMbxCoreDataRead_frame
  | .mbxVfTxPost .., _ => execMbxVfTxPost_frame
  | .mbxVfRxDataRead .., _ => execMbxVfRxDataRead_frame
  | .mbTxPost .., _ => execMbTxPost_frame
  | .mbRxDataRead .., _ => execMbRxDataRead_frame
  | .pmbPost .., _ => execPmbPost_frame
  | .cmdFetch .., _ => execCmdFetch_frame
  | .replyNoticePost .., _ => execReplyNoticePost_frame
  | .pmbReplyRead .., _ => execPmbReplyRead_frame
  | .semRead .., _ => execSemRead_frame
  | .semRelease .., _ => execSemRelease_frame
  | .udpCommandReceive .., _ => execUdpCommandReceive_frame
  | .udpDataRequest .., _ => execUdpDataRequest_frame
  | .udpSequenceIdleExpire .., _ => execUdpSequenceIdleExpire_frame
  | .udpOutputExpire .., _ => execUdpOutputExpire_frame
  | .arpRequestReceive .., _ => execArpRequestReceive_frame
  | .icmpEchoReceive .., _ => execIcmpEchoReceive_frame
  | .consoleLineReceive .., _ => execConsoleLineReceive_frame
  | .cfgTransactionTimeout .., _ => execCfgTransactionTimeout_frame
  | .tamperDetect .., _ => execTamperDetect_frame
  | .attestSignComplete .., _ => execAttestSignComplete_frame
  | .evrRecordWrite .., _ => execEvrRecordWrite_frame
  | .snapshotCopyComplete .., _ => execSnapshotCopyComplete_frame
  | .snapshotTimeout .., _ => execSnapshotTimeout_frame
  | .optimeStore .., _ => execOptimeStore_frame
  | .shed1Enter .., _ => execShed1Enter_frame
  | .shedLevelEnter .., _ => execShedLevelEnter_frame
  | .supplyRecovered .., _ => execSupplyRecovered_frame
  | .shedLevelLeave .., _ => execShedLevelLeave_frame
  | .powerDown .., _ => execPowerDown_frame
  | .vinOvervoltageDisconnect .., _ => execVinOvervoltageDisconnect_frame
  | .vinExcursionEnd .., _ => execVinExcursionEnd_frame
  | .holdupTestDue .., _ => execHoldupTestDue_frame
  | .holdupTestComplete .., _ => execHoldupTestComplete_frame
  | .holdShortDisconnect .., _ => execHoldShortDisconnect_frame
  | .safelightPowerGate .., _ => execSafelightPowerGate_frame
  | .safelightWake .., _ => execSafelightWake_frame
  | .wakeComplete .., _ => execWakeComplete_frame
  | .speedMeasurement .., _ => execSpeedMeasurement_frame
  | .vcoreFastLoopStep .., _ => execVcoreFastLoopStep_frame
  | .marginPlan .., _ => execMarginPlan_frame
  | .registerWrite .., _ => execRegisterWrite_frame
  | .tbsCapture .., _ => execTbsCapture_frame
  | .rtcCapture .., _ => execRtcCapture_frame
  | .rtcStgSecWrite .., _ => execRtcStgSecWrite_frame
  | .acqUrgWrite .., _ => execAcqUrgWrite_frame
  | .acqImplClear .., _ => execAcqImplClear_frame
  | .acqCkSeqWrite .., _ => execAcqCkSeqWrite_frame
  | .fltDetClr .., _ => execFltDetClr_frame
  | .fltDcbFreezeWrite .., _ => execFltDcbFreezeWrite_frame
  | .fltScaleEofsWrite .., _ => execFltScaleEofsWrite_frame
  | .trgForceWrite .., _ => execTrgForceWrite_frame
  | .trgArmedWrite .., _ => execTrgArmedWrite_frame
  | .sveSimWrite .., _ => execSveSimWrite_frame
  | .sveCsSelWrite .., _ => execSveCsSelWrite_frame
  | .swcVoqSelWrite .., _ => execSwcVoqSelWrite_frame
  | .spdSiPlanWrite .., _ => execSpdSiPlanWrite_frame
  | .spdVcoreOvrWrite .., _ => execSpdVcoreOvrWrite_frame
  | .tegCtlWrite .., _ => execTegCtlWrite_frame
  | .vfVreqSet .., _ => execVfVreqSet_frame
  | .vfVreqClr .., _ => execVfVreqClr_frame
  | .evrRdSelect .., _ => execEvrRdSelect_frame
  | .evrRdNext .., _ => execEvrRdNext_frame
  | .sysIdentify .., _ => execSysIdentify_frame
  | .sysGetState .., _ => execSysGetState_frame
  | .sysSetState .., _ => execSysSetState_frame
  | .sysReset .., _ => execSysReset_frame
  | .sysSelftest .., _ => execSysSelftest_frame
  | .sysGetHealth .., _ => execSysGetHealth_frame
  | .cfgBegin .., _ => execCfgBegin_frame
  | .cfgCommit .., _ => execCfgCommit_frame
  | .cfgAbort .., _ => execCfgAbort_frame
  | .cfgRead .., _ => execCfgRead_frame
  | .acqSetChannel .., _ => execAcqSetChannel_frame
  | .acqSetSequence .., _ => execAcqSetSequence_frame
  | .acqCalibrate .., _ => execAcqCalibrate_frame
  | .acqUrgentConvert .., _ => execAcqUrgentConvert_frame
  | .fltSetChain .., _ => execFltSetChain_frame
  | .fltGetDelay .., _ => execFltGetDelay_frame
  | .trgDisarm .., _ => execTrgDisarm_frame
  | .trgArm .., _ => execTrgArm_frame
  | .trgArmLoadProfile .., _ => execTrgArmLoadProfile_frame
  | .trgEraseRecords .., _ => execTrgEraseRecords_frame
  | .trgSetSources .., _ => execTrgSetSources_frame
  | .trgForce .., _ => execTrgForce_frame
  | .trgExportRecord .., _ => execTrgExportRecord_frame
  | .sveSubscribe .., _ => execSveSubscribe_frame
  | .sveUnsubscribe .., _ => execSveUnsubscribe_frame
  | .svePublish .., _ => execSvePublish_frame
  | .sveGooseSubscribe .., _ => execSveGooseSubscribe_frame
  | .sveGoosePublish .., _ => execSveGoosePublish_frame
  | .prtDefineZone .., _ => execPrtDefineZone_frame
  | .prtSetElement .., _ => execPrtSetElement_frame
  | .prtGetElement .., _ => execPrtGetElement_frame
  | .prtSetGroup .., _ => execPrtSetGroup_frame
  | .prtTripMatrix .., _ => execPrtTripMatrix_frame
  | .prtTestInject .., _ => execPrtTestInject_frame
  | .prtOwnershipRead .., _ => execPrtOwnershipRead_frame
  | .prtOwnershipClaim .., _ => execPrtOwnershipClaim_frame
  | .prtOwnershipRelease .., _ => execPrtOwnershipRelease_frame
  | .logLoad .., _ => execLogLoad_frame
  | .logActivate .., _ => execLogActivate_frame
  | .logOnlineChange .., _ => execLogOnlineChange_frame
  | .logForceSet .., _ => execLogForceSet_frame
  | .logForceClear .., _ => execLogForceClear_frame
  | .logGetStatus .., _ => execLogGetStatus_frame
  | .timConfigBase .., _ => execTimConfigBase_frame
  | .timStep .., _ => execTimStep_frame
  | .timGetStatus .., _ => execTimGetStatus_frame
  | .rtcSet .., _ => execRtcSet_frame
  | .rtcGet .., _ => execRtcGet_frame
  | .netPortConfig .., _ => execNetPortConfig_frame
  | .netRedundancy .., _ => execNetRedundancy_frame
  | .netFilter .., _ => execNetFilter_frame
  | .netWakePattern .., _ => execNetWakePattern_frame
  | .netCounters .., _ => execNetCounters_frame
  | .swcTableRead .., _ => execSwcTableRead_frame
  | .swcTableWrite .., _ => execSwcTableWrite_frame
  | .swcTableDelete .., _ => execSwcTableDelete_frame
  | .swcTableFlush .., _ => execSwcTableFlush_frame
  | .swcBufferPolicy .., _ => execSwcBufferPolicy_frame
  | .vfmSetShare .., _ => execVfmSetShare_frame
  | .vfmBindZone .., _ => execVfmBindZone_frame
  | .vfmGrantTrip .., _ => execVfmGrantTrip_frame
  | .vfmReset .., _ => execVfmReset_frame
  | .keyLoad .., _ => execKeyLoad_frame
  | .keyDerive .., _ => execKeyDerive_frame
  | .keyDestroySlot .., _ => execKeyDestroySlot_frame
  | .keyFogNow .., _ => execKeyFogNow_frame
  | .keyTamperClear .., _ => execKeyTamperClear_frame
  | .keySetTampEn .., _ => execKeySetTampEn_frame
  | .keyChallenge .., _ => execKeyChallenge_frame
  | .keyAttestPubkey .., _ => execKeyAttestPubkey_frame
  | .keyAttestQuote .., _ => execKeyAttestQuote_frame
  | .fwUpdateWrite .., _ => execFwUpdateWrite_frame
  | .fwUpdateVerify .., _ => execFwUpdateVerify_frame
  | .fwUpdateActivate .., _ => execFwUpdateActivate_frame
  | .fwUpdateCommit .., _ => execFwUpdateCommit_frame
  | .fwUpdateRevert .., _ => execFwUpdateRevert_frame
  | .evrSnapshotOpen .., _ => execEvrSnapshotOpen_frame
  | .evrSnapshotRead .., _ => execEvrSnapshotRead_frame
  | .evrSnapshotClose .., _ => execEvrSnapshotClose_frame
  | .evrClear .., _ => execEvrClear_frame
  | .evrStatus .., _ => execEvrStatus_frame
  | .pwrSetThresholds .., _ => execPwrSetThresholds_frame
  | .pwrSafelight .., _ => execPwrSafelight_frame
  | .spdGetPlan .., _ => execSpdGetPlan_frame
  | .pwrHoldupTest .., _ => execPwrHoldupTest_frame
  | .registerRead .., _ => execRegisterRead_frame
  | .mrstRelease .., _ => execMrstRelease_frame
  | .vinUndervoltage .., _ => execVinUndervoltage_frame
  | .backupDomainRestart .., _ => execBackupDomainRestart_frame
  | .selftestComplete .., _ => execSelftestComplete_frame
  | .evrClearComplete .., _ => execEvrClearComplete_frame

/-! ### FOG_COUNT -/

/-- FOG_COUNT is not lowered from s to u. -/
structure FogLe (s u : State) : Prop where
  le : s.key.fogCount.toNat ≤ u.key.fogCount.toNat

/-- FOG_COUNT is not lowered by a meaning. -/
def FogKept (s : State) (r : Res) : Prop := ∀ u, r = .next u → FogLe s u

section
variable {l m : List Block} {s u v : State}

theorem FogLe.refl (s : State) : FogLe s s := ⟨Nat.le_refl _⟩

theorem FogLe.trans (h : FogLe s u) (k : FogLe u v) : FogLe s v := ⟨Nat.le_trans h.le k.le⟩

theorem FogLe.of_eq (h : u.key.fogCount = s.key.fogCount) : FogLe s u := ⟨by rw [h]⟩

theorem Frame.fogLe (h : Frame m s u) (hm : Block.key ∉ m) : FogLe s u := .of_eq (by rw [h.key hm])

/-- An operation outside the key core, applied last. -/
theorem FogLe.app (h : FogLe s u) (k : Frame m u v) (hm : Block.key ∉ m) : FogLe s v := h.trans (k.fogLe hm)

theorem FogLe.modKey {f : Key → Key} (h : FogLe s u) (hf : u.key.fogCount.toNat ≤ (f u.key).fogCount.toNat) : FogLe s (modKey f u) :=
  ⟨Nat.le_trans h.le hf⟩

theorem atTime_fogLe (t : Nat) (s : State) : FogLe s (atTime t s) := .of_eq rfl

theorem FogLe.kept (h : FogLe s u) : FogKept s (.next u) := by
  rintro _ ⟨⟩
  exact h

theorem FogLe.thenKept {r : Res} (h : FogLe s u) (k : FogKept u r) : FogKept s r := fun v hv => h.trans (k v hv)

theorem Frames.of_next {r : Res} (h : Frames m s r) (hr : r = .next u) : Frame m s u := by
  obtain ⟨v, hv, hframe⟩ := h.after
  cases hv.symm.trans hr
  exact hframe

theorem Frames.fogKept {r : Res} (h : Frames m s r) (hm : Block.key ∉ m) : FogKept s r := fun _ hu => (h.of_next hu).fogLe hm

end

/-! ### The key core's commands -/

section
variable {e : Env} {q : CmdReq} {rt : ReplyTo} {s : State}

/-- A command's row lowers FOG_COUNT only where its own part does (R375). -/
theorem runCmd_fogLe {body : ReplyTo → State → State} (h : ∀ rt u, FogLe u (body rt u)) : FogLe s (runCmd e q body s) := by
  unfold runCmd
  have hturn : FogLe s (turn e q.opcode s).2 := turn_frame.fogLe (by decide)
  split
  · next p u hp =>
    rw [hp] at hturn
    refine .app ?_ flushUnknown_frame (by decide)
    refine (hturn.app (touchTxn_frame (a0 := p.env)) (by decide)).trans ?_
    unfold execPkt
    split
    · exact refuse_frame.fogLe (by decide)
    · exact h _ _
  · next u hp => rwa [hp] at hturn

theorem checked_fogLe {c : Option (Nat × Nat)} {f : State → State} (h : ∀ u, FogLe u (f u)) : FogLe s (checked e rt c f s) := by
  unfold checked
  repeat' split
  all_goals first | exact refuse_frame.fogLe (by decide) | exact h _

theorem checked8_fogLe {pre c : Option (Nat × Nat)} {f : State → State} (h : ∀ u, FogLe u (f u)) : FogLe s (checked8 e rt pre c f s) := by
  unfold checked8
  split
  · exact refuse_frame.fogLe (by decide)
  · exact checked_fogLe h

/-- A row of KEY_DESTROY lowers FOG_COUNT only where its operation does. -/
theorem keyDestroyCmd_fogKept {need0 : Bool} {pre : State → Option (Nat × Nat)} {c : Option (Nat × Nat)} {f : ReplyTo → State → State}
    (h : ∀ rt u, FogLe u (f rt u)) : FogKept s (keyDestroyCmd e need0 pre c f s) := by
  unfold keyDestroyCmd
  refine (runCmd_fogLe fun rt u => ?_).kept
  split
  · exact refuse_frame.fogLe (by decide)
  · exact checked8_fogLe fun u => (h rt u).app reply_frame (by decide)

end

theorem putSlot_fogLe (n : Nat) (k : Option KeySlot) (s : State) : FogLe s (putSlot n k s) := .of_eq rfl

theorem satInc_ge (w : Word) : w.toNat ≤ (satInc w).toNat := by
  unfold satInc
  split
  · exact Nat.le_refl _
  · bv_omega

theorem attestAbort_fogLe (s : State) : FogLe s (attestAbort s) := by
  unfold attestAbort
  split
  · exact ((FogLe.refl s).modKey (Nat.le_refl _)).app finish_frame (by decide)
  · exact .refl s

/-- Fogging counts itself once, unless the tamper latch is set already (R400). -/
theorem fogging_fogLe (src : Nat) (onVbat : Bool) (s : State) : FogLe s (fogging src onVbat s) := by
  have hlatch := (FogLe.refl s).modKey (f := fun x => { x with latched := x.latched ||| BitVec.ofNat 6 (2 ^ src) }) (Nat.le_refl _)
  have hcount := hlatch.modKey (f := fun x => { x with tampLatched := true, rkValid := false, fogCount := satInc x.fogCount }) (satInc_ge _)
  unfold fogging
  dsimp only
  split
  · exact hlatch
  · split
    · exact hcount.modKey (Nat.le_refl _)
    · exact ((hcount.modKey (Nat.le_refl _)).trans (attestAbort_fogLe _)).app evKsc_frame (by decide)

section
variable {t : Nat} {e : Env} {s : State}

theorem execTamperDetect_fogKept {src active : Nat} {onVbat : Bool} : FogKept s (execTamperDetect t src active onVbat s) := by
  have hactive := (atTime_fogLe t s).modKey (f := fun x => { x with active := BitVec.ofNat 6 (active % 32) }) (Nat.le_refl _)
  unfold execTamperDetect
  refine FogLe.kept ?_
  split
  · exact hactive.trans (fogging_fogLe ..)
  · exact hactive

theorem execAttestSignComplete_fogKept : FogKept s (execAttestSignComplete t s) := by
  have hend {type : Nat} {payload : Bytes} : FogLe s (evKsc type payload (modKey (fun x => { x with attest := none }) (atTime t s))) :=
    ((atTime_fogLe t s).modKey (Nat.le_refl _)).app evKsc_frame (by decide)
  unfold execAttestSignComplete
  dsimp only
  split
  · exact (atTime_fogLe t s).kept
  · split
    · exact ((hend.app modCmd_frame (by decide)).app replyWithOutput_frame (by decide)).kept
    · exact hend.kept

theorem execKeyLoad_fogKept {p : KeyLoad} : FogKept s (execKeyLoad t e p s) := by
  unfold execKeyLoad
  refine ((atTime_fogLe t s).trans (runCmd_fogLe fun rt u => ?_)).kept
  split
  · exact refuse_frame.fogLe (by decide)
  · refine checked8_fogLe fun u => ?_
    split
    · exact refuse_frame.fogLe (by decide)
    · exact ((putSlot_fogLe ..).app evCmd_frame (by decide)).app reply_frame (by decide)

theorem execKeyDerive_fogKept {p : KeyDerive} : FogKept s (execKeyDerive t e p s) := by
  unfold execKeyDerive
  refine ((atTime_fogLe t s).trans (runCmd_fogLe fun rt u => checked8_fogLe fun u => ?_)).kept
  split
  · exact ((putSlot_fogLe ..).app evCmd_frame (by decide)).app reply_frame (by decide)
  · exact refuse_frame.fogLe (by decide)

theorem execKeyDestroySlot_fogKept {p : KeyDestroy} : FogKept s (execKeyDestroySlot t e p s) :=
  (atTime_fogLe t s).thenKept (keyDestroyCmd_fogKept fun _ _ => (putSlot_fogLe ..).app evCmd_frame (by decide))

theorem execKeyFogNow_fogKept {p : KeyDestroy} : FogKept s (execKeyFogNow t e p s) :=
  (atTime_fogLe t s).thenKept (keyDestroyCmd_fogKept fun _ _ => fogging_fogLe ..)

theorem execKeyTamperClear_fogKept {p : KeyDestroy} : FogKept s (execKeyTamperClear t e p s) :=
  (atTime_fogLe t s).thenKept (keyDestroyCmd_fogKept fun _ u => ((FogLe.refl u).modKey (Nat.le_refl _)).app evCmd_frame (by decide))

theorem execKeySetTampEn_fogKept {p : KeyDestroy} : FogKept s (execKeySetTampEn t e p s) :=
  (atTime_fogLe t s).thenKept (keyDestroyCmd_fogKept fun _ u => ((FogLe.refl u).modKey (Nat.le_refl _)).app evCmd_frame (by decide))

theorem execKeyChallenge_fogKept {p : KeyChallenge} : FogKept s (execKeyChallenge t e p s) := by
  unfold execKeyChallenge
  refine ((atTime_fogLe t s).trans (runCmd_fogLe fun rt u => checked8_fogLe fun u => ?_)).kept
  split
  · exact refuse_frame.fogLe (by decide)
  · exact ((FogLe.refl u).modKey (Nat.le_refl _)).app reply_frame (by decide)

theorem execKeyAttestQuote_fogKept {p : KeyAttest} : FogKept s (execKeyAttestQuote t e p s) :=
  ((atTime_fogLe t s).trans (runCmd_fogLe fun _ _ => checked8_fogLe fun u =>
    ((FogLe.refl u).modKey (Nat.le_refl _)).app holdReply_frame (by decide))).kept

theorem execFwUpdateWrite_fogKept {p : FwUpdate} : FogKept s (execFwUpdateWrite t e p s) :=
  ((atTime_fogLe t s).trans (runCmd_fogLe fun _ _ => checked8_fogLe fun u =>
    ((FogLe.refl u).modKey (Nat.le_refl _)).app reply_frame (by decide))).kept

/-- A command that writes the key core without lowering FOG_COUNT, records it and replies. -/
theorem reply_evCmd_modKey_fogLe {rt : ReplyTo} {type st d : Nat} {o p : Bytes} {f : Key → Key} {u : State}
    (hf : u.key.fogCount.toNat ≤ (f u.key).fogCount.toNat) : FogLe u (reply rt st d p (evCmd rt type o (modKey f u))) :=
  (((FogLe.refl u).modKey hf).app evCmd_frame (by decide)).app reply_frame (by decide)

theorem execFwUpdateVerify_fogKept {p : FwUpdate} : FogKept s (execFwUpdateVerify t e p s) := by
  unfold execFwUpdateVerify
  refine ((atTime_fogLe t s).trans (runCmd_fogLe fun rt u => checked_fogLe fun u => ?_)).kept
  dsimp only
  split
  · exact (((FogLe.refl u).modKey (Nat.le_refl _)).app evCmd_frame (by decide)).app refuse_frame (by decide)
  · exact reply_evCmd_modKey_fogLe (Nat.le_refl _)

theorem execFwUpdateActivate_fogKept {p : FwUpdate} : FogKept s (execFwUpdateActivate t e p s) :=
  ((atTime_fogLe t s).trans (runCmd_fogLe fun _ _ => checked8_fogLe fun _ =>
    reply_evCmd_modKey_fogLe (Nat.le_refl _))).kept

theorem execFwUpdateCommit_fogKept {p : FwUpdate} : FogKept s (execFwUpdateCommit t e p s) :=
  ((atTime_fogLe t s).trans (runCmd_fogLe fun _ _ => checked8_fogLe fun _ =>
    reply_evCmd_modKey_fogLe (Nat.le_refl _))).kept

theorem execFwUpdateRevert_fogKept {p : FwUpdate} : FogKept s (execFwUpdateRevert t e p s) :=
  ((atTime_fogLe t s).trans (runCmd_fogLe fun _ _ => checked_fogLe fun _ =>
    reply_evCmd_modKey_fogLe (Nat.le_refl _))).kept

end

/-! ### Starts -/

section
variable {s u : State}

theorem bootBank_fogLe (b mode : Nat) (trial : Bool) (m : Manifest) (s : State) : FogLe s (bootBank b mode trial m s) :=
  ((FogLe.refl s).modKey (Nat.le_refl _)).app evKsc_frame (by decide)

theorem bootCommitted_fogLe (h : bootCommitted s = some u) : FogLe s u := by
  unfold bootCommitted at h
  dsimp only at h
  split at h
  · cases h
    exact bootBank_fogLe ..
  · split at h
    · cases h
      exact bootBank_fogLe ..
    · cases h

theorem bootCold_fogLe (h : bootCold s = some u) : FogLe s u := by
  unfold bootCold at h
  dsimp only at h
  split at h
  · exact bootCommitted_fogLe h
  · split at h
    · cases h
      exact bootBank_fogLe ..
    · exact ((FogLe.refl s).modKey (Nat.le_refl _)).trans (bootCommitted_fogLe h)

theorem bootImage_fogLe (h : bootImage s = some u) : FogLe s u := by
  unfold bootImage bootWarm at h
  dsimp only at h
  split at h
  · exact bootCold_fogLe h
  · split at h
    · cases h
      exact bootBank_fogLe ..
    · exact bootCold_fogLe h

theorem slotsRestore_fogLe (s : State) : FogLe s (slotsRestore s) :=
  ((FogLe.refl s).modKey (Nat.le_refl _)).app (.foldOver (m := [.evr]) (fun _ _ => evKsc_frame) _ _) (by decide)

theorem rkStart_fogLe (s : State) : FogLe s (rkStart s) := by
  unfold rkStart
  split
  · exact .refl s
  · exact .modKey (.app (.refl s) evKsc_frame (by decide)) (Nat.le_refl _)

theorem keysStart_fogLe (s : State) : FogLe s (keysStart s) := by
  unfold keysStart
  dsimp only
  refine .app (.trans (.trans (.modKey ?_ (Nat.le_refl _)) (rkStart_fogLe _)) (slotsRestore_fogLe _)) replayStart_frame (by decide)
  split
  · exact ((FogLe.refl s).modKey (Nat.le_refl _)).app evKsc_frame (by decide)
  · exact .refl s

/-- The steps of a start after the boot and the key core's own leave the key core alone. -/
theorem startRun_fogLe (s : State) : FogLe s (startRun s) := by
  unfold startRun
  split
  · exact .refl s
  · extract_lets safe cold w
    have hw : FogLe s w := Frame.fogLe (.ite setBkp_frame (.refl _ _)) (by decide)
    split
    · exact hw
    · next v hboot =>
      refine ((hw.trans (bootImage_fogLe hboot)).trans (keysStart_fogLe v)).app
        (m := [.acq, .flt, .trg, .sve, .prt, .trp, .cyc, .spd, .tbs, .rtc, .mac, .red, .swc, .vfm, .mbx, .cmd, .evr, .pwr, .out, .freeCtr]) ?_ (by decide)
      repeat' first
        | with_reducible exact Frame.refl _ _
        | exact rfl
        | with_reducible apply Frame.ite
        | with_reducible apply Frame.app (k := setBkp_frame)
        | with_reducible apply Frame.app (k := modCmd_frame)
        | with_reducible apply Frame.app (k := timeLostStart_frame)
        | with_reducible apply Frame.app (k := shutterCold_frame)
        | with_reducible apply Frame.app (k := configStart_frame)
        | with_reducible apply Frame.app (k := indexStart_frame)
        | with_reducible apply Frame.app (k := modPwr_frame)
        | with_reducible apply Frame.app (k := seedBegin_frame)
        | with_reducible apply Frame.app (k := tegArm_frame)
        | with_reducible apply Frame.app (k := loadCoefs_frame)
        | with_reducible apply Frame.app (k := strobeAlign_frame)
        | with_reducible apply Frame.app (k := redStart_frame)
        | with_reducible apply Frame.app (k := modSpd_frame)
        | with_reducible apply Frame.app (k := calStart_frame)
        | with_reducible apply Frame.app (k := settle_frame)

theorem startColdState_fogCount (b : Nat) (cause : Word) (s w : State) : (startColdState b cause s w).key.fogCount = w.key.fogCount := rfl

theorem startWarmState_fogCount (b : Nat) (cause : Word) (s w : State) : (startWarmState b cause s w).key.fogCount = w.key.fogCount := by
  rw [startWarmState, warmState_key]

theorem startReset_fogCount (b : Nat) (cold : Bool) (s : State) : (startReset b cold s).key.fogCount = s.key.fogCount := by
  unfold startReset
  dsimp only
  split
  · rw [startColdState_fogCount, cmdStart_txnAbort_frame.key (by decide)]
  · rw [startWarmState_fogCount, cmdStart_txnAbort_frame.key (by decide)]

theorem startBegin_fogLe (b : Nat) (cold : Bool) (s : State) : FogLe s (startBegin b cold s) := by
  rw [startBegin_eq]
  exact (FogLe.of_eq (startReset_fogCount b cold s)).app startRecord_frame (by decide)

/-- A start lowers no FOG_COUNT (R402). -/
theorem start_fogLe (b : Nat) (cold : Bool) (s : State) : FogLe s (startRun (startBegin b cold s)) :=
  (startBegin_fogLe b cold s).trans (startRun_fogLe _)

end

section
variable {t : Nat} {s : State}

theorem execColdStart_fogKept {por : Bool} {vin vhu : Nat} : FogKept s (execColdStart t por vin vhu s) := by
  have hgo := (atTime_fogLe t s).kept
  have hvin : FogLe s (modEvr (fun e => { e with pwrcyc := e.pwrcyc + 1 }) (vinApplied (atTime t s))) := .of_eq rfl
  have hpor := ((hvin.trans (startBegin_fogLe 0 true _)).app (supply_frame (a0 := vin) (a1 := vhu)) (by decide)).trans (startRun_fogLe _)
  unfold execColdStart
  dsimp only
  split
  · split
    · exact hgo
    · exact hpor.kept
  · split
    · split
      · exact hgo
      · exact (((atTime_fogLe t s).app orderlyStore_frame (by decide)).trans (start_fogLe ..)).kept
    · exact hgo

theorem execWarmStart_fogKept {src : Nat} : FogKept s (execWarmStart t src s) := by
  unfold execWarmStart
  dsimp only
  have hgo := (atTime_fogLe t s).kept
  split
  · exact hgo
  · split
    · split
      · split
        · exact hgo
        · exact (((atTime_fogLe t s).app orderlyStore_frame (by decide)).trans (start_fogLe ..)).kept
      · exact hgo
    · split
      · exact ((atTime_fogLe t s).trans (start_fogLe ..)).kept
      · exact hgo

theorem execMrstAssert_fogKept : FogKept s (execMrstAssert t s) := by
  have hmrst : FogLe s (modPwr (fun p => { p with mrst := true }) (atTime t s)) := (atTime_fogLe t s).app modPwr_frame (by decide)
  unfold execMrstAssert
  dsimp only
  split
  · exact hmrst.kept
  · exact (hmrst.trans (startBegin_fogLe ..)).kept

theorem execMrstRelease_fogKept : FogKept s (execMrstRelease t s) :=
  (((atTime_fogLe t s).app modPwr_frame (by decide)).trans (startRun_fogLe _)).kept

theorem trialFailed_fogLe (s : State) : FogLe s (trialFailed s) := by
  unfold trialFailed
  split
  · exact .refl s
  · exact ((FogLe.refl s).modKey (Nat.le_refl _)).app evKsc_frame (by decide)

theorem startFailed_fogLe (step : Nat) (s : State) : FogLe s (startFailed step s) := by
  unfold startFailed
  extract_lets n first u w
  have hw : Frame [.rtc] s w := .ite (((((Frame.refl _ _).app setBkp_frame rfl).app setBkp_frame rfl).app setBkp_frame rfl).app setBkp_frame rfl |>.app setBkp_frame rfl) setBkp_frame
  exact ((hw.fogLe (by decide)).trans (trialFailed_fogLe w)).app evBy_frame (by decide)

theorem execWatchdogExpire_fogKept {step : Nat} : FogKept s (execWatchdogExpire t step s) := by
  unfold execWatchdogExpire
  dsimp only
  split
  · exact (atTime_fogLe t s).kept
  · refine FogLe.kept (.trans ?_ (start_fogLe ..))
    split
    · exact (atTime_fogLe t s).trans (startFailed_fogLe ..)
    · exact atTime_fogLe t s

theorem unshedAct_fogLe (l : Nat) (s : State) : FogLe s (unshedAct l s) := by
  unfold unshedAct
  split
  · exact setBkp_frame.fogLe (by decide)
  · exact (tasksShed_frame.fogLe (by decide)).trans (startRun_fogLe _)
  · exact pubsShed_frame.fogLe (by decide)
  · split
    · exact wakeStart_frame.fogLe (by decide)
    · exact .refl s
  · exact (interruptionEnd_frame.fogLe (by decide)).app tasksShed_frame (by decide)

theorem execShedLevelLeave_fogKept {vin vhu : Nat} : FogKept s (execShedLevelLeave t vin vhu s) := by
  have hsupply : FogLe s (supply vin vhu (atTime t s)) := (atTime_fogLe t s).app supply_frame (by decide)
  unfold execShedLevelLeave
  dsimp only
  split
  · exact hsupply.kept
  · exact ((((hsupply.app modPwr_frame (by decide)).app setShed_frame (by decide)).trans (unshedAct_fogLe ..)).app settle_frame (by decide)).kept

end

/-- No row but the loss of the backup rail lowers FOG_COUNT: the rows of the key core one by one, the others by their frames (R272, R402). -/
theorem exec_fogKept {i : Instr} {s : State} (hi : ∀ t, i ≠ .backupDomainRestart t) : FogKept s (exec i s) := by
  by_cases hrow : keyRow i = true
  case neg => exact (exec_frame i s).fogKept (by simpa [keyRow] using hrow)
  cases i
  case coldStart => exact execColdStart_fogKept
  case warmStart => exact execWarmStart_fogKept
  case mrstAssert => exact execMrstAssert_fogKept
  case mrstRelease => exact execMrstRelease_fogKept
  case watchdogExpire => exact execWatchdogExpire_fogKept
  case shedLevelLeave => exact execShedLevelLeave_fogKept
  case backupDomainRestart t => exact absurd rfl (hi t)
  case tamperDetect => exact execTamperDetect_fogKept
  case attestSignComplete => exact execAttestSignComplete_fogKept
  case keyLoad => exact execKeyLoad_fogKept
  case keyDerive => exact execKeyDerive_fogKept
  case keyDestroySlot => exact execKeyDestroySlot_fogKept
  case keyFogNow => exact execKeyFogNow_fogKept
  case keyTamperClear => exact execKeyTamperClear_fogKept
  case keySetTampEn => exact execKeySetTampEn_fogKept
  case keyChallenge => exact execKeyChallenge_fogKept
  case keyAttestQuote => exact execKeyAttestQuote_fogKept
  case fwUpdateWrite => exact execFwUpdateWrite_fogKept
  case fwUpdateVerify => exact execFwUpdateVerify_fogKept
  case fwUpdateActivate => exact execFwUpdateActivate_fogKept
  case fwUpdateCommit => exact execFwUpdateCommit_fogKept
  case fwUpdateRevert => exact execFwUpdateRevert_fogKept
  all_goals exact absurd hrow Bool.false_ne_true

/-- A row whose frame leaves the key core out does not change it. -/
theorem exec_key {i : Instr} {s u : State} (h : exec i s = .next u) (hi : keyRow i = false) : u.key = s.key :=
  ((exec_frame i s).of_next h).key (by simpa [keyRow] using hi)

/-- Settles O53: by the frames of the rows outside the key core, and row by row inside it. -/
theorem keyCoreChangesByItsRowsAlone : Obligations.KeyCoreChangesByItsRowsAlone := by
  unfold Obligations.KeyCoreChangesByItsRowsAlone
  exact ⟨fun _ _ _ => exec_key, fun _ _ _ _ => ⟨rfl, rfl⟩, fun _ _ _ h hi => (exec_fogKept hi _ h).le⟩

end Sys2Proof.Machine

/-! ## SYS_SET_STATE (R33, R34, R385, R477) -/

namespace Sys2Proof.Machine
-- In order, not in parallel: each thread reserves memory, of which the check of the whole text has little left.
set_option Elab.async false

/-! ### What a reply leaves alone -/

@[simp] theorem sendReply_txn (rt : ReplyTo) (o : Bytes) (s : State) : (sendReply rt o s).cmd.txn = s.cmd.txn := by
  unfold sendReply
  dsimp only
  split
  · rfl
  · split
    · rw [postNotice_frame.cmd (by decide), emit_cmd]
    · rw [emit_cmd]

@[simp] theorem reply_txn (rt : ReplyTo) (st d : Nat) (p : Bytes) (s : State) : (reply rt st d p s).cmd.txn = s.cmd.txn := by
  unfold reply
  dsimp only
  split
  · split <;> rfl
  · rw [sendReply_txn]
    split <;> rfl

@[simp] theorem finish_txn (rt : ReplyTo) (st d : Nat) (p : Bytes) (s : State) : (finish rt st d p s).cmd.txn = s.cmd.txn := by
  unfold finish
  split
  · rw [reply_txn]
  · rfl

/-! ### The change out of SERVICE (R34) -/

/-- Its last steps: the state is MAINT, with no transaction open (R34, R385). -/
theorem maintEnter_sys (rt : ReplyTo) (s : State) : (maintEnter rt s).sys = { s.sys with st := .maint } := by
  unfold maintEnter
  dsimp only
  rw [finish_frame.sys (by decide), changeState_sys, settle_sys]

theorem maintEnter_txn (rt : ReplyTo) (s : State) : (maintEnter rt s).cmd.txn = none := by
  unfold maintEnter
  dsimp only
  rw [finish_txn, changeState_txn ModState.noConfusion]

/-- Where the running change stands after leaveStep (R34): it waits for a cycle, it waits for an active row, or it has ended. -/
theorem leaveStep_cases {l : Leave} {s : State} (h : s.sys.leaving = some l) :
    (tasksRun (leaveStep s) = true ∧ (leaveStep s).sys = s.sys) ∨
    ((leaveStep s).trp.rows.any Row.active = true ∧ (leaveStep s).sys = { s.sys with leaving := some { l with stopped := true } }) ∨
    ∃ v, leaveStep s = leaveEnd l v ∧ v.sys = { s.sys with leaving := some { l with stopped := true } } := by
  have hfin : (tasksFinish s).sys = s.sys := tasksFinish_frame.sys (by decide)
  unfold leaveStep
  simp only [h]
  split
  · next hrun => exact .inl ⟨hrun, hfin⟩
  · right
    generalize hv : (if l.stopped = true then tasksFinish s else
      leaveStop { tasksFinish s with sys := { (tasksFinish s).sys with leaving := some { l with stopped := true } } }) = v
    have hsys : v.sys = { s.sys with leaving := some { l with stopped := true } } := by
      rw [← hv]
      split
      · next hstop => rw [hfin, ← hstop, ← h]
      · rw [leaveStop_frame.sys (by decide), hfin]
    split
    · next hrow => exact .inl ⟨hrow, hsys⟩
    · exact .inr ⟨v, rfl, hsys⟩

/-- A change out of SERVICE to MAINT ends in MAINT, or waits in SERVICE (R34). -/
theorem leaveStart_maint {rt : ReplyTo} {u : State} (h : u.sys.st = .service) :
    ((leaveStart rt none u).sys.st = .maint ∧ (leaveStart rt none u).sys.leaving = none ∧ (leaveStart rt none u).cmd.txn = none) ∨
    ((leaveStart rt none u).sys.st = .service ∧ (∃ stopped, (leaveStart rt none u).sys.leaving = some ⟨rt, none, stopped⟩) ∧
      (tasksRun (leaveStart rt none u) = true ∨ (leaveStart rt none u).trp.rows.any Row.active = true)) := by
  unfold leaveStart
  generalize hw : zonesStop (holdReply rt { u with sys := { u.sys with leaving := some ⟨rt, none, false⟩ } }) = w
  have hsys : w.sys = { u.sys with leaving := some ⟨rt, none, false⟩ } := by
    rw [← hw, zonesStop_frame.sys (by decide), holdReply_frame.sys (by decide)]
  rcases leaveStep_cases (s := w) (by rw [hsys]) with ⟨hrun, hst⟩ | ⟨hrow, hst⟩ | ⟨v, hv, hst⟩
  · right
    simp [hst, hsys, h, hrun]
  · right
    simp [hst, hsys, h, hrow]
  · left
    rw [hv]
    simp [leaveEnd, maintEnter_sys, maintEnter_txn]

/-! ### SYS_SET_STATE -/

section
variable {t : Nat} {e : Env} {s u : State} {rt : ReplyTo}

/-- The requirements of SYS_SET_STATE (R387). -/
abbrev setStateReq : CmdReq := ⟨0x0102, true, plenIs 4, 0, [.service, .maint]⟩

theorem exec_sysSetState_leave (hb : begins e setStateReq (atTime t s) = some (rt, u)) (hr : e.resvOk = true) (hst : u.sys.st = .service)
    (hl : u.sys.leaving = none) : exec (.sysSetState t e 3) s = .next (flushUnknown u.cmd.queue.length (leaveStart rt none u)) := by
  simp [exec, execSysSetState, runCmd_begins hb, hst, hl, firstFail_cons, bad, checked8_ok hr]

theorem exec_sysSetState_leaving (hb : begins e setStateReq (atTime t s) = some (rt, u)) (hst : u.sys.st = .service)
    (hl : u.sys.leaving ≠ none) : exec (.sysSetState t e 3) s = .next (flushUnknown u.cmd.queue.length (refuse rt stBusy 0 u)) := by
  simp [exec, execSysSetState, runCmd_begins hb, hst, hl, firstFail_cons, checked8_pre]

theorem exec_sysSetState_service (hb : begins e setStateReq (atTime t s) = some (rt, u)) (hr : e.resvOk = true) (hst : u.sys.st = .maint)
    (hl : u.sys.leaving = none) (ha : admitFault u = none) :
    exec (.sysSetState t e 2) s = .next (answered u.cmd.queue.length rt [] (enterService causeCommand (admitStore u))) := by
  simp [exec, execSysSetState, runCmd_begins hb, hst, hl, firstFail_cons, bad, checked8_ok hr, ha, answered]

theorem exec_sysSetState_refused {f : Nat × Nat} (hb : begins e setStateReq (atTime t s) = some (rt, u)) (hr : e.resvOk = true) (hst : u.sys.st = .maint)
    (ha : admitFault u = some f) : exec (.sysSetState t e 2) s = .next (flushUnknown u.cmd.queue.length
      (if u.sys.leaving = none then refuseBudget rt f u else refuse rt stBusy 0 u)) := by
  by_cases hl : u.sys.leaving = none
  · simp [exec, execSysSetState, runCmd_begins hb, hst, hl, firstFail_cons, bad, checked8_ok hr, ha]
  · simp [exec, execSysSetState, runCmd_begins hb, hst, hl, firstFail_cons, checked8_pre]

end

/-- Settles O2: by where the change out of SERVICE stands after its steps, and what entering SERVICE does. -/
theorem setStateChangesTheState : Obligations.SetStateChangesTheState := by
  unfold Obligations.SetStateChangesTheState
  refine ⟨fun t e s rt u hb hr hst => ⟨exec_sysSetState_leave hb hr hst, exec_sysSetState_leaving hb hst⟩, fun rt u => leaveStart_maint,
    fun t e s rt u hb hr hst hl ha => ⟨_, exec_sysSetState_service hb hr hst hl ha, ?_⟩,
    fun t e s rt u f hb hr hst ha => ⟨_, exec_sysSetState_refused hb hr hst ha, ?_⟩⟩
  · have hadm : (admitStore u).sys = u.sys := admitStore_frame.sys (by decide)
    exact ⟨by rw [enterService_sys], enterService_txn _ _ (by simp [hadm, hst]), enterService_ovrEn ..⟩
  · rw [flushUnknown_frame.sys (by decide)]
    split
    · rw [refuseBudget_frame.sys (by decide), hst]
    · rw [refuse_frame.sys (by decide), hst]

end Sys2Proof.Machine

/-! ## Zones: evaluation, group and test requests, BLOCKED_Q (R20, R142, R143, R169, R194) -/

namespace Sys2Proof.Machine
-- In order, not in parallel: each thread reserves memory, of which the check of the whole text has little left.
set_option Elab.async false

/-! ### Instances leave the zones alone -/

@[simp] theorem modInst_zones (n : Nat) (f : Inst → Inst) (s : State) : (modInst n f s).prt.zones = s.prt.zones := rfl

@[simp] theorem modZone_zones (n : Nat) (f : Zone → Zone) (s : State) : (modZone n f s).prt.zones = tmod s.prt.zones n f := rfl

/-- What leaves the protection block alone leaves the zones alone. -/
theorem Frame.zones {m : List Block} {s u : State} (h : Frame m s u) (hm : Block.prt ∉ m) : u.prt.zones = s.prt.zones := by rw [h.prt hm]

theorem ite_zones {c : Prop} [Decidable c] {a b : State} {z : Table Zone} (ha : a.prt.zones = z) (hb : b.prt.zones = z) :
    (if c then a else b).prt.zones = z := by
  split <;> assumption

theorem classEvents_zones (z : Zone) (n : Nat) (i : Inst) (old new : ElemState) (t : Int) (base : Nat) (s : State) :
    (classEvents z n i old new t base s).prt.zones = s.prt.zones := by
  unfold classEvents
  dsimp only
  split
  · exact ite_zones rfl (thermalEvent_frame.zones (by decide))
  · have hdraw (a b c : Option Word) : (wordOrFree c (wordOrFree b (wordOrFree a s).2).2).2.prt.zones = s.prt.zones :=
      ((wordOrFree_frame.app wordOrFree_frame rfl).app wordOrFree_frame rfl).zones (by decide)
    split
    · rfl
    · split
      · rw [modInst_zones, zoneEv_frame.zones (by decide), hdraw]
      · rw [zoneEv_frame.zones (by decide), hdraw]
  · have hone : (if new.st && !old.st then zoneEv z.cfg.core base 0x0515 t (u16 n ++ u8 0 ++ u8 0 ++ stampWords base t) s else s).prt.zones = s.prt.zones :=
      ite_zones (zoneEv_frame.zones (by decide)) rfl
    exact ite_zones ((zoneEv_frame.zones (by decide)).trans hone) hone
  · have hrec : (if old.rrec = new.rrec ∧ old.shot = new.shot then s else rrecEvent z.cfg.core n new s).prt.zones = s.prt.zones :=
      ite_zones rfl (rrecEvent_frame.zones (by decide))
    exact ite_zones hrec hrec
  · rfl

theorem evalInst_zones (zn k : Nat) (ftr t : Int) (base n : Nat) (s : State) : (evalInst zn k ftr t base n s).prt.zones = s.prt.zones := by
  unfold evalInst
  split
  · exact ite_zones rfl (classEvents_zones ..)
  · rfl

theorem outputChange_zones (core zone n sig : Nat) (v : Bool) (base : Nat) (t : Int) (s : State) :
    (outputChange core zone n sig v base t s).prt.zones = s.prt.zones := by
  unfold outputChange
  split
  · rfl
  · exact (signalDeliver_frame.zones (by decide)).trans ((srcEdge_frame.zones (by decide)).trans (ite_zones (zoneEv_frame.zones (by decide)) rfl))

theorem deliverInst_zones (core zone base : Nat) (t : Int) (n : Nat) (old : Signals) (s : State) :
    (deliverInst core zone base t n old s).prt.zones = s.prt.zones := by
  unfold deliverInst
  split
  · rfl
  · next i _ =>
    have hstart : (if i.sig.start = old.start then s else outputChange core zone n 0 i.sig.start base t s).prt.zones = s.prt.zones :=
      ite_zones rfl (outputChange_zones ..)
    have hop := ite_zones (c := i.sig.operate = old.operate) hstart ((outputChange_zones core zone n 1 i.sig.operate base t _).trans hstart)
    exact ite_zones hop ((signalDeliver_frame.zones (by decide)).trans hop)

theorem deliverZone_zones (zone core base : Nat) (t : Int) (before : List (Nat × Inst)) (s : State) :
    (deliverZone zone core base t before s).prt.zones = s.prt.zones :=
  foldOver_keeps (fun s : State => s.prt.zones) (fun _ _ => deliverInst_zones ..) before s

/-! ### The boundary of an index -/

/-- A request changes the test mode of a zone (R194). -/
def zoneNewTest (z : Zone) : Bool :=
  match z.testReq with
  | some m => m != z.test
  | none => false

/-- The zone y at the boundary of index k, where the zone z was found and group g is wanted (R143, R150, R194). -/
def boundaryZone (z : Zone) (g k : Nat) (y : Zone) : Zone :=
  let y := if z.resume || zoneNewTest z then y.resumeAt k else y
  { y with group := g, groupReq := none, test := if zoneNewTest z then y.testReq.getD none else y.test, testReq := none }

@[simp] theorem boundaryZone_group (z : Zone) (g k : Nat) (y : Zone) : (boundaryZone z g k y).group = g := rfl

@[simp] theorem boundaryZone_groupReq (z : Zone) (g k : Nat) (y : Zone) : (boundaryZone z g k y).groupReq = none := rfl

@[simp] theorem boundaryZone_testReq (z : Zone) (g k : Nat) (y : Zone) : (boundaryZone z g k y).testReq = none := rfl

@[simp] theorem boundaryZone_cfg (z : Zone) (g k : Nat) (y : Zone) : (boundaryZone z g k y).cfg = y.cfg := by
  unfold boundaryZone
  dsimp only
  split <;> rfl

section
variable {zn k : Nat} {s : State} {z : Zone}

theorem zoneBoundary_zones (h : tget s.prt.zones zn = some z) :
    (zoneBoundary zn k s).prt.zones = tmod s.prt.zones zn (boundaryZone z (wantedGroup s z).1 k) := by
  have hinst (lock forget : Bool) (p : Nat × Inst) (s : State) :
      (let e := p.2.reinit
       let e := if forget then e.forget else e
       let e' := if lock then p.2.lock e else e
       let s := modInst p.1 (fun i => { i with es := e' }) s
       if e'.rrec = p.2.es.rrec then s else rrecEvent z.cfg.core p.1 e' s).prt.zones = s.prt.zones :=
    ite_zones rfl (rrecEvent_frame.zones (by decide))
  unfold zoneBoundary
  simp only [h]
  refine ite_zones ((claimsOfZone_frame.zones (by decide)).trans ((evBy_frame.zones (by decide)).trans ?_)) ?_ <;>
  refine ite_zones (ite_zones ((shutterTest_frame.zones (by decide)).trans ((evBy_frame.zones (by decide)).trans ?_)) ((evBy_frame.zones (by decide)).trans ?_)) ?_ <;>
  refine ite_zones ((foldOver_keeps (fun s : State => s.prt.zones) (hinst _ _) _ _).trans ?_) ?_ <;> rfl

/-- The zone after the boundary of an index (R143, R194). -/
theorem zoneBoundary_zone (h : tget s.prt.zones zn = some z) : tget (zoneBoundary zn k s).prt.zones zn = some (boundaryZone z (wantedGroup s z).1 k z) := by
  rw [zoneBoundary_zones h, tget_tmod, if_pos rfl, h, Option.map_some]

/-! ### An index -/

/-- The samples of an index move the zone's histories and its tracker, in place (R142). -/
theorem zoneSamples_zone {base : Nat} (h : tget s.prt.zones zn = some z) : ∃ y, tget (zoneSamples zn k base s).2.prt.zones zn = some y := by
  have hset (y : Zone) : tget (modZone zn (fun _ => y) s).prt.zones zn = some y := by simp [tget_tmod, h]
  unfold zoneSamples
  simp only [h]
  split
  · exact ⟨_, hset _⟩
  · rw [evBy_frame.zones (by decide)]
    exact ⟨_, hset _⟩

/-- The index that a zone evaluates is its latest (R20, R142). -/
theorem zoneEval_lastK (h : tget s.prt.zones zn = some z) : ∃ y, tget (zoneEval zn k s).prt.zones zn = some y ∧ y.lastK = some k := by
  obtain ⟨y, hy⟩ := zoneSamples_zone (k := k) (base := zoneBase s z.cfg) (zoneBoundary_zone (k := k) h)
  unfold zoneEval
  simp only [h]
  rw [zoneTasksDue_frame.zones (by decide), settle_frame.zones (by decide), deliverZone_zones, modZone_zones,
    foldOver_keeps (fun s : State => s.prt.zones) (fun _ _ => evalInst_zones ..), tget_tmod, if_pos rfl, hy]
  exact ⟨_, rfl, rfl⟩

end

/-! ### The zone rows -/

section
variable {t zone k inst : Nat} {s : State}

theorem exec_zoneEvaluate {z : Zone} (h : tget s.prt.zones zone = some z) (hs : inService s = true) (hr : zoneReady (atTime t s) z k = true) :
    exec (.zoneEvaluate t zone k) s = .next (zoneEval zone k (atTime t s)) := by
  have hs' : inService (atTime t s) = true := hs
  simp [exec, execZoneEvaluate, h, hs', hr]

theorem endTestMode_inService {z : Zone} (h : tget s.prt.zones zone = some z) (hs : inService s = true) :
    endTestMode zone s = modZone zone (fun z => { z with testReq := some none }) s := by
  simp [endTestMode, h, hs]

theorem exec_testModeExpire {z : Zone} {m : TestMode} (h : tget s.prt.zones zone = some z) (ht : z.test = some m) (hq : z.testReq = none)
    (hs : inService s = true) (hdue : m.t1 + (m.durMs : Int) * 1000000 + 600000000000 ≤ baseNs (atTime t s) (zoneBase s z.cfg)) :
    exec (.testModeExpire t zone) s = .next (settle (modZone zone (fun z => { z with testReq := some none }) (atTime t s))) := by
  have hend := endTestMode_inService (s := atTime t s) h hs
  have hdue' : m.t1 + (m.durMs : Int) * 1000000 + 600 * (NS : Int) ≤ baseNs (atTime t s) (zoneBase (atTime t s) z.cfg) := hdue
  simp only [exec, execTestModeExpire, atTime_prt, h, ht]
  rw [if_pos ⟨hdue', by simp [hq]⟩, hend]

theorem exec_blockedQHoldExpire {i : Inst} {f : Nat} (h : tget s.prt.insts inst = some i) (hf : i.bqSince = some f) (hdue : f + 1000000000 ≤ max s.now t) :
    ∃ src, exec (.blockedQHoldExpire t inst) s = .next (evBy src 0x0504 (u16 inst ++ u8 (b2n i.sig.blockedQ) ++ u8 0)
      (modInst inst (fun i => { i with bqRecorded := i.sig.blockedQ, bqSince := none }) (atTime t s))) := by
  have hdue' : f + NS ≤ (atTime t s).now := hdue
  simp only [exec, execBlockedQHoldExpire, atTime_prt, h, hf, hdue', decide_true, Bool.not_true, if_neg Bool.false_ne_true]
  exact ⟨_, rfl⟩

end

/-- Settles O20: by the boundary of an index and what an index leaves of its zone. -/
theorem zoneRowsComplete : Obligations.ZoneRowsComplete := by
  unfold Obligations.ZoneRowsComplete
  refine ⟨fun t zone k s z h hs hr => ?_, fun zn k s z h => ?_, fun t zone s z m h ht hq hs hdue => ?_, fun t inst s i f h hf hdue => ?_⟩
  · exact ⟨_, exec_zoneEvaluate h hs hr, rfl, zoneEval_lastK h⟩
  · exact ⟨_, zoneBoundary_zone h, by simp⟩
  · exact ⟨_, exec_testModeExpire h ht hq hs hdue, (settle_frame.prt (by decide)).trans rfl⟩
  · obtain ⟨src, hexec⟩ := exec_blockedQHoldExpire h hf hdue
    exact ⟨_, hexec, ((atTime_frame.mono rfl).app modInst_frame rfl).app evBy_frame rfl, (evBy_frame.prt (by decide)).trans rfl⟩

end Sys2Proof.Machine

/-! ## Tasks: start, native calls, commit (R34, R200, R201, R204, R216, R219) -/

namespace Sys2Proof.Machine
-- In order, not in parallel: each thread reserves memory, of which the check of the whole text has little left.
set_option Elab.async false

/-! ### A program leaves ABORTED alone -/

@[simp] theorem execWrite_aborted (s : State) (area n : Nat) (v : Bool) (x : Exec) : (execWrite s area n v x).c.aborted = x.c.aborted := by
  unfold execWrite
  split <;> rfl

@[simp] theorem execCr_aborted (x : Exec) (v : Bool) : (x.cr v).c.aborted = x.c.aborted := rfl

@[simp] theorem execReturn_aborted (s : State) (g : Image) (r : NativeRet) (x : Exec) : (execReturn s g r x).c.aborted = x.c.aborted := by
  refine foldOver_keeps (fun x : Exec => x.c.aborted) (f := fun (p : Nat × Nat × Nat) x => match r.out[p.1]? with
    | some v => execWrite s p.2.1 p.2.2 v x
    | none => x) (fun p x => ?_) _ x
  split
  · exact execWrite_aborted ..
  · rfl

@[simp] theorem execInstr_aborted (s : State) (g : Image) (i : Nat) (ins : BlInstr) (x : Exec) : (execInstr s g i ins x).c.aborted = x.c.aborted := by
  unfold execInstr
  dsimp only
  split
  · split <;> rfl
  · split
    · exact execWrite_aborted ..
    · split
      · exact execWrite_aborted ..
      · split
        · rfl
        · exact execWrite_aborted ..
  · split <;> rfl
  · split
    · exact execReturn_aborted ..
    · rfl
  · rfl
  · rfl
  · split <;> rfl
  · rfl
  · split
    · rfl
    · split
      · split <;> rfl
      · split <;> rfl

theorem execProg_aborted (s : State) (g : Image) (n : Nat) (x : Exec) : (execProg s g n x).c.aborted = x.c.aborted := by
  induction n generalizing x with
  | zero => rfl
  | succ n ih =>
    unfold execProg
    split
    · rfl
    · split
      · rfl
      · rw [ih, execInstr_aborted]

/-! ### Tasks in place -/

@[simp] theorem modTask_tasks (n : Nat) (f : Task → Task) (s : State) : (modTask n f s).cyc.tasks = tmod s.cyc.tasks n f := rfl

@[simp] theorem modTask_abortCnt (n : Nat) (f : Task → Task) (s : State) : (modTask n f s).cyc.abortCnt = s.cyc.abortCnt := rfl

theorem tget_modTask {n : Nat} {f : Task → Task} {s : State} {k : Task} (h : tget s.cyc.tasks n = some k) : tget (modTask n f s).cyc.tasks n = some (f k) := by
  rw [modTask_tasks, tget_tmod, if_pos rfl, h, Option.map_some]

@[simp] theorem taskRun_abortCnt (n : Nat) (natives : List NativeRet) (s : State) : (taskRun n natives s).cyc.abortCnt = s.cyc.abortCnt := by
  unfold taskRun
  split
  · rfl
  · split <;> rfl

/-- A cycle that goes on still runs, or has ended, with its ABORTED as it was. -/
theorem taskRun_run {n : Nat} {natives : List NativeRet} {s : State} {k : Task} {c : Cycle} (h : tget s.cyc.tasks n = some k) (hr : k.run = some c) :
    ∃ k' c', tget (taskRun n natives s).cyc.tasks n = some k' ∧ k'.run = some c' ∧ c'.aborted = c.aborted := by
  unfold taskRun
  simp only [h, hr]
  exact ⟨_, _, tget_modTask h, rfl, execProg_aborted ..⟩

theorem setQM_tasks (b : Nat) (st : Int) (key : Nat) (v : Bool) (s : State) : (setQM b st key v s).cyc.tasks = s.cyc.tasks := by
  unfold setQM
  dsimp only
  split
  · rfl
  · split
    · rfl
    · split
      · rfl
      · rw [srcEdge_frame.cyc (by decide), modTrg_cyc]

/-- The tasks stand in u as in s. -/
structure TasksKept (s u : State) : Prop where
  tasks : u.cyc.tasks = s.cyc.tasks

theorem TasksKept.foldOver {α : Type} {step : α → State → State} (h : ∀ x s, TasksKept s (step x s)) (l : List α) (s : State) :
    TasksKept s (foldOver l step s) := ⟨foldOver_keeps (fun s => s.cyc.tasks) (fun x s => (h x s).tasks) l s⟩

theorem setQM_tasksKept (b : Nat) (st : Int) (key : Nat) (v : Bool) (s : State) : TasksKept s (setQM b st key v s) := ⟨setQM_tasks ..⟩

/-- A write of a cycle's commit, which a forced bit does not take (R200, R221). -/
theorem writeDue_tasksKept (b : Nat) (st : Int) (w : Nat × Bool) (s : State) :
    TasksKept s (if (forceVal s (w.1 / 4194304) (w.1 % 4194304)).isSome then s else setQM b st w.1 w.2 s) := by
  split
  · exact ⟨rfl⟩
  · exact setQM_tasksKept b st w.1 w.2 s

theorem TasksKept.trans {s u v : State} (h : TasksKept s u) (h' : TasksKept u v) : TasksKept s v := ⟨h'.tasks.trans h.tasks⟩

theorem forcesDue_tasksKept (g : Image) (started b : Nat) (st : Int) (s : State) : TasksKept s (forcesDue g started b st s) := by
  unfold forcesDue
  dsimp only
  refine .trans ⟨?_⟩ (.foldOver (fun f s => ?_) _ _)
  · rfl
  · exact setQM_tasksKept b st (opKey f.area f.opnd) f.val s

/-- What the commit of a cycle makes of its task (R200, R228): it runs no cycle, has one more behind it, and keeps its configuration. -/
structure Task.Committed (k k' : Task) : Prop where
  run : k'.run = none
  cycles : k'.cycles = k.cycles + 1
  first : k'.first = false
  cfg : k'.cfg = k.cfg

/-- The commit's writes leave the tasks alone; the task is then written once, and once more where its warning is recorded. -/
theorem commitCycle_task {n : Nat} {c : Cycle} {s : State} {k : Task} (h : tget s.cyc.tasks n = some k) :
    ∃ k', tget (commitCycle n c s).cyc.tasks n = some k' ∧ k.Committed k' := by
  unfold commitCycle
  simp -zeta only [h]
  lift_lets
  intro b g s1 s2 _ _ _ _ _ _ s4 s5
  have kept : TasksKept s s2 := (forcesDue_tasksKept g c.started b c.s s).trans (.foldOver (fun w s => writeDue_tasksKept b c.s w s) _ _)
  have h4 : tget s4.cyc.tasks n = some k := (congrArg (tget · n) kept.tasks).trans h
  obtain ⟨k5, h5, hk5⟩ : ∃ k5, tget s5.cyc.tasks n = some k5 ∧ k.Committed k5 := ⟨_, tget_modTask h4, rfl, rfl, rfl, rfl⟩
  clear_value s5
  intro _ s6
  have h6 : tget s6.cyc.tasks n = some k5 := h5
  clear_value s6
  split
  · exact ⟨k5, h5, hk5⟩
  · simp only [h6]
    split
    · rw [evBy_frame.cyc (by decide)]
      exact ⟨_, tget_modTask h6, hk5.run, hk5.cycles, hk5.first, hk5.cfg⟩
    · exact ⟨k5, h6, hk5⟩

/-! ### The task rows -/

theorem inService_congr {s u : State} (h : u.sys = s.sys) : inService u = inService s := by simp [inService, h]

theorem baseNs_congr {s u : State} (ht : u.tbs = s.tbs) (hn : u.now = s.now) (i : Nat) : baseNs u i = baseNs s i := by simp [baseNs, baseOf, ht, hn]

theorem tasksNow_frame {t : Nat} {s : State} : Frame [.cyc, .evr] (atTime t s) (tasksNow t s) := .ite lTasksDue_frame (.refl _ _)

/-- The tasks of now, as a row of a cycle writes them. -/
theorem tasksNow_eq (t : Nat) (s : State) : (if inService (atTime t s) then lTasksDue (atTime t s) else atTime t s) = tasksNow t s := rfl

section
variable {t task : Nat} {s : State} {k : Task} {c : Cycle}

theorem inService_tasksNow (hs : inService s = true) : inService (tasksNow t s) = true := (inService_congr (tasksNow_frame.sys (by decide))).trans hs

/-- A task that runs no cycle, is served and is not suspended starts its due cycle (R200, R201). -/
theorem exec_taskCycleStart_due {natives : List NativeRet} {st : Int} {due idx : Nat} (hs : inService s = true)
    (h : tget (tasksNow t s).cyc.tasks task = some k) (hr : k.run = none) (hsus : k.suspended = false) (hserved : served (tasksNow t s) task k = true)
    (hdue : k.due = some (st, due, idx)) : exec (.taskCycleStart t task natives) s = .next (taskStart task st due idx natives (tasksNow t s)) := by
  simp [exec, execTaskCycleStart, tasksNow_eq, h, hr, hsus, hserved, hdue, inService_tasksNow hs]

/-- A B task in its turn, with no cycle due, starts one at once (R201). -/
theorem exec_taskCycleStart_background {natives : List NativeRet} (hs : inService s = true)
    (h : tget (tasksNow t s).cyc.tasks task = some k) (hr : k.run = none) (hsus : k.suspended = false) (hserved : served (tasksNow t s) task k = true)
    (hdue : k.due = none) (hcls : k.cfg.cls = 3) : exec (.taskCycleStart t task natives) s =
      .next (taskStart task (baseNs (atTime t s) k.cfg.tbsel) (max s.now t) 0 natives (takeTurn task (tasksNow t s))) := by
  have hnow : (tasksNow t s).now = max s.now t := tasksNow_frame.now (by decide)
  have hbase : baseNs (tasksNow t s) k.cfg.tbsel = baseNs (atTime t s) k.cfg.tbsel := baseNs_congr (tasksNow_frame.tbs (by decide)) hnow _
  simp [exec, execTaskCycleStart, tasksNow_eq, h, hr, hsus, hserved, hdue, hcls, inService_tasksNow hs, hnow, hbase]

/-- A native call that its core runs returns with the first result (R216). -/
theorem exec_taskCycleStart_return {n : Nat} (r : NativeRet) (rest : List NativeRet) (h : tget (tasksNow t s).cyc.tasks task = some k) (hr : k.run = some c)
    (hc : c.inCall = some n) (hruns : callRuns (tasksNow t s) task k = true) :
    exec (.taskCycleStart t task (r :: rest)) s = .next (taskReturn task (r :: rest) (tasksNow t s)) := by
  simp [exec, execTaskCycleStart, tasksNow_eq, h, hr, hc, hruns]

/-- A cycle at its end that nothing preempts commits (R200, R201). -/
theorem exec_taskCycleCommit_ended (h : tget (tasksNow t s).cyc.tasks task = some k) (hr : k.run = some c) (hend : c.ended = true)
    (hpre : preempted (tasksNow t s) task k = false) :
    exec (.taskCycleCommit t task) s = .next (leaveStep (settle (cycleBoundary task (commitCycle task c (tasksNow t s))))) := by
  simp [exec, execTaskCycleCommit, tasksNow_eq, h, hr, hend, hpre]

/-- The task whose cycle c goes on without its call, with ABORTED set (R219). -/
def Task.callAborted (c : Cycle) (k : Task) : Task := { k with run := some { c with inCall := none, call := none, aborted := true } }

/-- A call that is aborted is counted, and its cycle goes on with ABORTED set (R219). -/
theorem exec_nativeCallAbort {cause n : Nat} {mcause : Word} (h : tget s.cyc.tasks task = some k) (hr : k.run = some c) (hc : c.inCall = some n)
    (hruns : callRuns (atTime t s) task k = true) :
    Becomes (.nativeCallAbort t task cause mcause) s fun u => u.cyc.abortCnt = satInc s.cyc.abortCnt ∧
      ∃ k' c', tget u.cyc.tasks task = some k' ∧ k'.run = some c' ∧ c'.aborted = true := by
  change ∃ u, execNativeCallAbort t task cause mcause s = .next u ∧ _
  unfold execNativeCallAbort
  lift_lets
  intro s0 cyc s1
  have h0 : tget s0.cyc.tasks task = some k := h
  have hruns0 : callRuns s0 task k = true := hruns
  simp -zeta only [h0, hr, hc, hruns0]
  lift_lets
  intro s2
  obtain ⟨k2, h2, hcnt⟩ : ∃ k2, tget s2.cyc.tasks task = some k2 ∧ s2.cyc.abortCnt = satInc s.cyc.abortCnt := by
    dsimp only [s2]
    split
    · rw [evBy_frame.cyc (by decide)]
      exact ⟨_, tget_modTask (s := s1) h, rfl⟩
    · exact ⟨k, h, rfl⟩
  refine ⟨_, rfl, ?_, ?_⟩
  · rw [taskRun_abortCnt, modTask_abortCnt, hcnt]
  · exact taskRun_run (tget_modTask (f := Task.callAborted c) h2) rfl

end

/-- Settles O22: each row by its equation, and the commit by what it makes of its task. -/
theorem taskRowsComplete : Obligations.TaskRowsComplete := by
  unfold Obligations.TaskRowsComplete
  refine ⟨?_, ?_, ?_, ?_, ?_, ?_⟩
  · intro t task natives s k st due idx hs h hr hsus hserved hdue
    exact exec_taskCycleStart_due hs h hr hsus hserved hdue
  · intro t task natives s k hs h hr hsus hserved hdue hcls
    exact exec_taskCycleStart_background hs h hr hsus hserved hdue hcls
  · intro t task r rest s k c n h hr hc hruns
    exact exec_taskCycleStart_return r rest h hr hc hruns
  · intro t task cause mcause s k c n h hr hc hruns
    obtain ⟨u, hu, hcnt, hrun⟩ := exec_nativeCallAbort h hr hc hruns
    exact ⟨u, hu, hcnt, execNativeCallAbort_frame.of_next hu, hrun⟩
  · intro t task s k c h hr hend hpre
    exact exec_taskCycleCommit_ended h hr hend hpre
  · intro n c s k h
    obtain ⟨k', hk', hc⟩ := commitCycle_task h
    exact ⟨k', hk', hc.run, hc.cycles, hc.first, hc.cfg⟩

end Sys2Proof.Machine

/-! ## Converters: shared facts (R46, R48, R59 to R61) -/

namespace Sys2Proof.Machine
-- In order, not in parallel: each thread reserves memory, of which the check of the whole text has little left.
set_option Elab.async false

/-! ### Lists and words in place -/

/-- A change in place that e does not see. -/
theorem lmod_map {α β : Type} {e : α → β} {f : α → α} (hf : ∀ a, e (f a) = e a) (l : List α) (i : Nat) : (lmod l i f).map e = l.map e := by
  refine List.ext_getElem? fun j => ?_
  rw [List.getElem?_map, List.getElem?_map, lmod_get]
  split
  · cases l[j]? <;> simp [hf]
  · rfl

/-- Two changes in place, the later one outside. -/
theorem lmod_lmod {α : Type} (l : List α) (i : Nat) (f g : α → α) : lmod (lmod l i f) i g = lmod l i fun a => g (f a) := by
  refine List.ext_getElem? fun j => ?_
  simp only [lmod_get]
  split
  · cases l[j]? <;> rfl
  · rfl

/-- A change in place of an entry that is known. -/
theorem lmod_get_self {α : Type} {l : List α} {i : Nat} {a : α} (h : l[i]? = some a) (f : α → α) : (lmod l i f)[i]? = some (f a) := by
  rw [lmod_get, if_pos rfl, h, Option.map_some]

theorem lmod_get_ne {α : Type} {i j : Nat} (h : i ≠ j) (l : List α) (f : α → α) : (lmod l i f)[j]? = l[j]? := by
  rw [lmod_get, if_neg h]

/-- Lists that e does not tell apart have, place by place, entries that e does not tell apart. -/
theorem getElem?_of_map_eq {α β : Type} {e : α → β} {l l' : List α} (h : l'.map e = l.map e) {i : Nat} {a : α} (ha : l[i]? = some a) :
    ∃ a', l'[i]? = some a' ∧ e a' = e a := by
  have hi := congrArg (·[i]?) h
  simpa only [List.getElem?_map, ha, Option.map_some, Option.map_eq_some_iff] using hi

/-- An operation over a list in which a comes once: what holds until the turn of a, what that turn makes of it, and what holds from there. -/
theorem foldOver_once {α β : Type} {f : α → β → β} {P Q : β → Prop} {l : List α} {a : α} (hl : l.Nodup) (ha : a ∈ l)
    (before : ∀ x ≠ a, ∀ b, P b → P (f x b)) (turn : ∀ b, P b → Q (f a b)) (after : ∀ x ≠ a, ∀ b, Q b → Q (f x b)) {b : β} (hb : P b) :
    Q (foldOver l f b) := by
  obtain ⟨l₁, l₂, rfl⟩ := List.append_of_mem ha
  obtain ⟨-, hl₂, hne⟩ := List.nodup_append.1 hl
  have h₁ : P (l₁.foldl (fun b x => f x b) b) := List.foldlRecOn l₁ _ hb fun b h x hx => before x (hne x hx a (by simp)) b h
  rw [foldOver, List.foldl_append, List.foldl_cons]
  exact List.foldlRecOn l₂ _ (turn _ h₁) fun b h x hx => after x (fun e => (List.nodup_cons.1 hl₂).1 (e ▸ hx)) b h

theorem getLsbD_ofNat_two_pow (i j : Nat) : (BitVec.ofNat 32 (2 ^ i)).getLsbD j = (decide (j < 32) && decide (i = j)) := by
  rw [BitVec.getLsbD_ofNat, Nat.testBit_two_pow]

theorem bit_setBit_self {i : Nat} (hi : i < 32) (w : Word) (b : Bool) : bit (setBit w i b) i = b := by
  unfold bit setBit
  cases b
  · rw [if_neg Bool.false_ne_true, BitVec.getLsbD_and, BitVec.getLsbD_not, getLsbD_ofNat_two_pow]
    simp [hi]
  · rw [if_pos rfl, BitVec.getLsbD_or, getLsbD_ofNat_two_pow]
    simp [hi]

theorem bit_setBit_ne {i j : Nat} (h : i ≠ j) (w : Word) (b : Bool) : bit (setBit w i b) j = bit w j := by
  unfold bit setBit
  cases b
  · rw [if_neg Bool.false_ne_true, BitVec.getLsbD_and, BitVec.getLsbD_not, getLsbD_ofNat_two_pow]
    by_cases hj : j < 32
    · simp [h, hj]
    · simp [BitVec.getLsbD_of_ge w j (Nat.le_of_not_lt hj)]
  · rw [if_pos rfl, BitVec.getLsbD_or, getLsbD_ofNat_two_pow]
    simp [h]

/-! ### Records -/

@[simp] theorem ev_acq (type : Nat) (p : Bytes) (s : State) : (ev type p s).acq = s.acq := ev_frame.acq (by decide)

@[simp] theorem ev_optime (type : Nat) (p : Bytes) (s : State) : (ev type p s).evr.optime = s.evr.optime := by
  unfold ev evFull
  dsimp only
  split <;> rfl

theorem acqOf_eq {s : State} {n : Nat} {c : AcqCh} (h : s.acq.ch[n]? = some c) : acqOf s n = c := by
  simp [acqOf, List.getD_eq_getElem?_getD, h]

theorem ckOf_eq {s : State} {n : Nat} {k : CkConv} (h : s.acq.ck[n]? = some k) : ckOf s n = k := by
  simp [ckOf, List.getD_eq_getElem?_getD, h]

/-! ### What a change of IMPL leaves alone (R59 to R61) -/

/-- A channel without what decides its IMPL. -/
def AcqCh.sansImpl (c : AcqCh) : AcqCh := { c with viol := 0, recov := 0, implSetAt := none, implClrAt := none }

/-- The converters without the IMPL of their channels. -/
def Acq.sansImpl (a : Acq) : Acq := { a with impl := 0#32, ch := a.ch.map AcqCh.sansImpl }

theorem modAcqCh_sansImpl {f : AcqCh → AcqCh} (hf : ∀ c, (f c).sansImpl = c.sansImpl) (n : Nat) (s : State) :
    (modAcqCh n f s).acq.sansImpl = s.acq.sansImpl := by
  simp only [modAcqCh_acq, Acq.sansImpl, lmod_map hf]

@[simp] theorem implClear_sansImpl (n cause : Nat) (s : State) : (implClear n cause s).acq.sansImpl = s.acq.sansImpl := by
  unfold implClear
  split
  · rw [ev_acq]
    rfl
  · rfl

@[simp] theorem implClear_optime (n cause : Nat) (s : State) : (implClear n cause s).evr.optime = s.evr.optime := by
  unfold implClear
  split
  · rw [ev_optime, modAcq_evr]
  · rfl

@[simp] theorem implMask_sansImpl (s : State) : (implMask s).acq.sansImpl = s.acq.sansImpl := by
  refine foldOver_keeps (fun s : State => s.acq.sansImpl) (fun n s => ?_) _ s
  dsimp only
  split
  · rfl
  · split
    · exact modAcqCh_sansImpl (by exact fun _ => rfl) n s
    · rw [implClear_sansImpl]
      exact (modAcqCh_sansImpl (by exact fun _ => rfl) n _).trans (modAcqCh_sansImpl (by exact fun _ => rfl) n s)

@[simp] theorem implMask_optime (s : State) : (implMask s).evr.optime = s.evr.optime := by
  refine foldOver_keeps (fun s : State => s.evr.optime) (fun n s => ?_) _ s
  dsimp only
  split
  · rfl
  · split
    · rfl
    · rw [implClear_optime, modAcqCh_evr, modAcqCh_evr]

@[simp] theorem implDue_sansImpl (n : Nat) (s : State) : (implDue n s).acq.sansImpl = s.acq.sansImpl := by
  unfold implDue
  lift_lets
  intro c u
  have hu : u.acq.sansImpl = s.acq.sansImpl := by
    dsimp only [u]
    split
    · split
      · rw [ev_acq]
        exact modAcqCh_sansImpl (by exact fun _ => rfl) n _
      · rfl
    · rfl
  clear_value u
  split
  · split
    · rw [implClear_sansImpl, ← hu]
      exact modAcqCh_sansImpl (by exact fun _ => rfl) n u
    · exact hu
  · exact hu

@[simp] theorem implMask_ck (s : State) : (implMask s).acq.ck = s.acq.ck := (congrArg Acq.ck (implMask_sansImpl s) :)

@[simp] theorem implMask_hk (s : State) : (implMask s).acq.hk = s.acq.hk := (congrArg Acq.hk (implMask_sansImpl s) :)

/-- A channel keeps all but what decides its IMPL. -/
theorem ch_of_sansImpl {s u : State} (h : u.acq.sansImpl = s.acq.sansImpl) {n : Nat} {c : AcqCh} (hc : s.acq.ch[n]? = some c) :
    ∃ c', u.acq.ch[n]? = some c' ∧ c'.sansImpl = c.sansImpl :=
  getElem?_of_map_eq (congrArg Acq.ch h) hc

/-! ### RESYNC (R46) -/

/-- A channel that is resynchronised carries RESYNC for 2,016 strobes, and nothing else of it changes. -/
theorem resync_ch {cause n : Nat} {chs : List Nat} (hd : chs.Nodup) (hn : n ∈ chs) {s : State} {c : AcqCh} (h : s.acq.ch[n]? = some c) :
    (resync cause chs s).acq.ch[n]? = some { c with resync := 2016 } := by
  have hne : chs.isEmpty = false := by simpa using List.ne_nil_of_mem hn
  unfold resync
  rw [if_neg (by simp [hne]), ev_acq]
  refine foldOver_once (P := fun u : State => u.acq.ch[n]? = some c) (Q := fun u : State => u.acq.ch[n]? = some { c with resync := 2016 })
    hd hn (fun m hm u hu => ?_) (fun u hu => ?_) (fun m hm u hu => ?_) h
  · exact (lmod_get_ne hm ..).trans hu
  · exact lmod_get_self hu _
  · exact (lmod_get_ne hm ..).trans hu

/-- The converters without their channels. -/
def Acq.sansCh (a : Acq) : Acq := { a with ch := [] }

theorem resync_sansCh (cause : Nat) (chs : List Nat) (s : State) : (resync cause chs s).acq.sansCh = s.acq.sansCh := by
  unfold resync
  split
  · rfl
  · rw [ev_acq]
    exact foldOver_keeps (fun s : State => s.acq.sansCh) (by exact fun _ _ => rfl) chs s

end Sys2Proof.Machine

/-! ## ACQ_SKEW (R45) -/

namespace Sys2Proof.Machine
-- In order, not in parallel: each thread reserves memory, of which the check of the whole text has little left.
set_option Elab.async false

/-- A channel takes the SKEW it is given, held to 4,094 (R45). -/
theorem setSkew_skew {n : Nat} {s : State} {c : AcqCh} (h : s.acq.ch[n]? = some c) (v : Nat) :
    ∃ c', (setSkew n v s).acq.ch[n]? = some c' ∧ c'.skew = min v 4094 := by
  unfold setSkew
  dsimp only
  generalize hu : (if min v 4094 ≠ v then modAcq (fun a => { a with cfgClamp := true }) s else s) = u
  have hc : u.acq.ch[n]? = some c := by
    rw [← hu]
    split <;> exact h
  rw [acqOf_eq hc]
  split
  · next hskew => exact ⟨c, hc, hskew⟩
  · exact ⟨_, resync_ch (List.nodup_singleton n) (List.mem_singleton_self n) (lmod_get_self hc _), rfl⟩

theorem regAt_skew {n : Nat} (hn : n < 24) :
    regAt (0x030100 + 4 * n) = some (.cfg (fun s => wd (acqOf s n).skew) fun v => setSkew n (bits v 11 0)) := by
  interval_cases n <;> rfl

/-- In MAINT the host's write of ACQ_SKEW takes effect and sets DIRTY (R37, R382). -/
theorem exec_skewWrite {n : Nat} (hn : n < 24) {s : State} (hd : dark s = false) (hm : s.sys.st = .maint) (t : Nat) (v : Word) :
    exec (.registerWrite t .host (0x030100 + 4 * n) v) s = .next (setDirty (setSkew n (bits v 11 0) (atTime t s))) := by
  have hkey : keyRefused .host (0x030100 + 4 * n) = false := by
    have hblock : blockOf (0x030100 + 4 * n) = 3 := by simp only [blockOf]; omega
    simp [keyRefused, hblock]
  rw [exec_registerWrite_reached hd (by simp only [cfgWindow]; omega) rfl hkey, regAt_skew hn,
    ← cfgWrite_host_maint (s := atTime t s) hd hm (0x030100 + 4 * n)]
  rfl

/-- Settles O59: by the register of the address, and what SKEW takes. -/
theorem skewTopValue : Obligations.SkewTopValue := by
  unfold Obligations.SkewTopValue
  intro t n v s c hn hd hm hc
  obtain ⟨c', hc', hskew⟩ := setSkew_skew (s := atTime t s) hc (bits v 11 0)
  have hlt : bits v 11 0 < 4096 := Nat.mod_lt _ (by decide)
  refine ⟨_, exec_skewWrite hn hd hm t v, c', hc', ?_⟩
  rw [hskew]
  split <;> omega

end Sys2Proof.Machine

/-! ## The lock of CD5 (R43, R46) -/

namespace Sys2Proof.Machine
-- In order, not in parallel: each thread reserves memory, of which the check of the whole text has little left.
set_option Elab.async false

theorem strobeAlign_idx (s : State) : strobeIdx (strobeAlign s) = (nAtOrAfter 2016000 (baseNs s s.acq.tbsel)).toNat :=
  Nat.div_add_mod' _ _

theorem exec_cd5LockLost {s : State} (h : s.acq.locked = true) (t : Nat) :
    exec (.cd5LockLost t) s = .next (resync 4 (List.range 24) (modAcq (fun a => { a with locked := false }) (atTime t s))) := by
  simp [exec, execCd5LockLost, h]

theorem exec_cd5LockAcquired {s : State} (h : s.acq.locked = false) (hoff : s.sys.st ≠ .off) (t : Nat) :
    exec (.cd5LockAcquired t) s = .next (if s.sys.st = .start
      then chainsRestart (strobeAlign (modAcq (fun a => { a with locked := true }) (atTime t s)))
      else strobeAlign (modAcq (fun a => { a with locked := true }) (atTime t s))) := by
  have hst : (strobeAlign (modAcq (fun a => { a with locked := true }) (atTime t s))).sys = s.sys := rfl
  simp [exec, execCd5LockAcquired, h, hoff, hst]

/-- Settles O15: by RESYNC of every channel, and the index to which the strobes align. -/
theorem strobeClockLock : Obligations.StrobeClockLock := by
  unfold Obligations.StrobeClockLock
  refine ⟨fun t s h => ?_, fun t s h hoff => ?_⟩
  · have hrest := resync_sansCh 4 (List.range 24) (modAcq (fun a => { a with locked := false }) (atTime t s))
    refine ⟨_, exec_cd5LockLost h t, (congrArg Acq.locked hrest :), fun n c hn hc => ?_, (congrArg Acq.strobes hrest :)⟩
    exact resync_ch List.nodup_range (List.mem_range.2 hn) hc
  · have hidx := strobeAlign_idx (modAcq (fun a => { a with locked := true }) (atTime t s))
    refine ⟨_, exec_cd5LockAcquired h hoff t, ?_⟩
    split <;> exact ⟨rfl, hidx, rfl⟩

end Sys2Proof.Machine

/-! ## The samples of a strobe (R43, R47 to R49) -/

namespace Sys2Proof.Machine
-- In order, not in parallel: each thread reserves memory, of which the check of the whole text has little left.
set_option Elab.async false

/-! ### One channel's sample -/

/-- The converters without what a strobe's samples write: IMPL, faults, overranges and the channels. -/
def Acq.sansSamples (a : Acq) : Acq := { a with impl := 0#32, fault := 0#32, ovr := 0#32, ovrNew := 0#32, ovrLast := none, ch := [] }

theorem counts_of_sansSamples {a b : Acq} (h : a.sansSamples = b.sansSamples) : a.strobes = b.strobes ∧ a.j = b.j ∧ a.sec = b.sec :=
  ⟨(congrArg Acq.strobes h :), (congrArg Acq.j h :), (congrArg Acq.sec h :)⟩

/-- What the sample of channel n makes of the converters (R47 to R49). -/
structure Sampled (n : Nat) (code : Option Int) (s u : State) : Prop where
  rest : u.acq.sansSamples = s.acq.sansSamples
  others : ∀ m ≠ n, (u.acq.ch[m]?).map AcqCh.sansImpl = (s.acq.ch[m]?).map AcqCh.sansImpl
  faults : ∀ m ≠ n, bit u.acq.fault m = bit s.acq.fault m
  /-- a channel that is neither under calibration nor faulty has its code corrected -/
  own : ∀ c x, s.acq.ch[n]? = some c → c.cal = false → bit s.acq.fault n = false → code = some x →
    ∃ c', u.acq.ch[n]? = some c' ∧ c'.code = correct c.offs c.gain x ∧ c'.missRun = 0 ∧ c'.sampleAt = s.acq.strobes

theorem sampled_takeSample (n : Nat) (code : Option Int) (s : State) : Sampled n code s (takeSample n code s) := by
  unfold takeSample
  lift_lets
  intro s1 c miss newFault s2 s3 faulty y ovr rs flags s4
  have himpl : s1.acq.sansImpl = s.acq.sansImpl := implDue_sansImpl n s
  have hfault1 : s1.acq.fault = s.acq.fault := (congrArg Acq.fault himpl :)
  have hstrobes1 : s1.acq.strobes = s.acq.strobes := (congrArg Acq.strobes himpl :)
  have h3 : s3.acq = { s1.acq with fault := if newFault then setBit s1.acq.fault n true else s1.acq.fault } := by
    dsimp only [s3, s2]
    split
    · rw [ev_acq, modAcq_acq]
    · rfl
  have h4 : ∃ o o', (if (ovr && !bit s4.acq.ovr n) = true then
      modAcq (fun a => { a with ovr := setBit a.ovr n true, ovrNew := setBit a.ovrNew n true }) s4 else s4).acq =
        { s4.acq with ovr := o, ovrNew := o' } := by
    split <;> exact ⟨_, _, rfl⟩
  obtain ⟨o, o', h4⟩ := h4
  refine ⟨?_, fun m hm => ?_, fun m hm => ?_, fun c₀ x hc₀ hcal hfault hx => ?_⟩
  · rw [h4]
    exact (congrArg Acq.sansSamples h3).trans (congrArg Acq.sansSamples himpl :)
  · have hch : s1.acq.ch[m]?.map AcqCh.sansImpl = s.acq.ch[m]?.map AcqCh.sansImpl := by
      simpa only [Acq.sansImpl, List.getElem?_map] using (congrArg (fun a : Acq => a.ch[m]?) himpl :)
    have hch3 : s3.acq.ch = s1.acq.ch := (congrArg Acq.ch h3 :)
    rw [h4, ← hch, ← hch3]
    exact congrArg (Option.map _) (lmod_get_ne hm.symm ..)
  · rw [h4, ← hfault1]
    refine (congrArg (fun a : Acq => bit a.fault m) h3).trans ?_
    dsimp only
    split
    · exact bit_setBit_ne hm.symm ..
    · rfl
  · obtain ⟨c₁, hc₁, he⟩ := ch_of_sansImpl himpl hc₀
    have hc : c = c₁ := acqOf_eq hc₁
    have hmiss : miss = 0 := by simp [miss, hx]
    have hnew : newFault = false := by simp [newFault, hmiss]
    have hfaulty : faulty = false := by simp [faulty, h3, hnew, hfault1, hfault, hx]
    have hcal₁ : c₁.cal = false := (congrArg AcqCh.cal he :).trans hcal
    have hoffs : c₁.offs = c₀.offs := (congrArg AcqCh.offs he :)
    have hgain : c₁.gain = c₀.gain := (congrArg AcqCh.gain he :)
    have hy : y = correct c₀.offs c₀.gain x := by simp [y, hc, hcal₁, hfaulty, hx, hoffs, hgain]
    have hc₃ : s3.acq.ch[n]? = some c₁ := (congrArg (fun a : Acq => a.ch[n]?) h3).trans hc₁
    have hstrobes₃ : s3.acq.strobes = s.acq.strobes := (congrArg Acq.strobes h3).trans hstrobes1
    rw [h4]
    exact ⟨_, lmod_get_self hc₃ _, hy, hmiss, hstrobes₃⟩

/-! ### The strobe -/

theorem ovrEvent_sansSamples (s : State) : (ovrEvent s).acq.sansSamples = s.acq.sansSamples := by
  unfold ovrEvent
  split
  · rw [ev_acq]
    rfl
  · rfl

theorem ovrEvent_ch (s : State) : (ovrEvent s).acq.ch = s.acq.ch := by
  unfold ovrEvent
  split
  · rw [ev_acq]
    rfl
  · rfl

/-- The state in which a strobe's samples are taken: it is counted, and a second that begins has no flash records (R87). -/
def strobeCounted (s : State) : State :=
  modAcq (fun a => { a with strobes := a.strobes + 1 }) (if s.acq.j = 0 then flashSecond s else s)

theorem strobeCounted_acq (s : State) : (strobeCounted s).acq = { s.acq with strobes := s.acq.strobes + 1 } := by
  unfold strobeCounted
  split <;> rfl

/-- The samples of all channels, with their overranges. -/
def strobeTaken (codes : List (Option Int)) (s : State) : State :=
  ovrEvent (foldOver (List.range 24) (fun n s => takeSample n (codes.getD n none) s) (strobeCounted s))

theorem strobeTaken_counts (codes : List (Option Int)) (s : State) : (strobeTaken codes s).acq.strobes = s.acq.strobes + 1 ∧
    (strobeTaken codes s).acq.j = s.acq.j ∧ (strobeTaken codes s).acq.sec = s.acq.sec := by
  have hrest : (strobeTaken codes s).acq.sansSamples = (strobeCounted s).acq.sansSamples :=
    (ovrEvent_sansSamples _).trans (foldOver_keeps (fun s : State => s.acq.sansSamples) (fun n s => (sampled_takeSample n _ s).rest) _ _)
  have hcounts := counts_of_sansSamples hrest
  rwa [strobeCounted_acq] at hcounts

/-- The next strobe of the base: after 2,016,000 of them a second begins (R43). -/
def Acq.nextStrobe (a : Acq) : Acq := if a.j + 1 = 2016000 then { a with j := 0, sec := a.sec + 1 } else { a with j := a.j + 1 }

theorem strobeSamples_eq (codes : List (Option Int)) (s : State) : strobeSamples codes s = modAcq Acq.nextStrobe (strobeTaken codes s) := rfl

theorem Acq.nextStrobe_idx (a : Acq) : a.nextStrobe.sec * 2016000 + a.nextStrobe.j = a.sec * 2016000 + a.j + 1 := by
  unfold Acq.nextStrobe
  split
  · dsimp only
    omega
  · exact (Nat.add_assoc ..).symm

theorem Acq.nextStrobe_strobes (a : Acq) : a.nextStrobe.strobes = a.strobes := by
  unfold Acq.nextStrobe
  split <;> rfl

theorem Acq.nextStrobe_ch (a : Acq) : a.nextStrobe.ch = a.ch := by
  unfold Acq.nextStrobe
  split <;> rfl

theorem strobeSamples_idx (codes : List (Option Int)) (s : State) : strobeIdx (strobeSamples codes s) = strobeIdx s + 1 := by
  obtain ⟨-, hj, hsec⟩ := strobeTaken_counts codes s
  rw [strobeSamples_eq, strobeIdx, modAcq_acq, Acq.nextStrobe_idx, hj, hsec, strobeIdx]

theorem strobeSamples_strobes (codes : List (Option Int)) (s : State) : (strobeSamples codes s).acq.strobes = s.acq.strobes + 1 := by
  rw [strobeSamples_eq, modAcq_acq, Acq.nextStrobe_strobes, (strobeTaken_counts codes s).1]

theorem strobeSamples_ch (codes : List (Option Int)) (s : State) : (strobeSamples codes s).acq.ch = (strobeTaken codes s).acq.ch := by
  rw [strobeSamples_eq, modAcq_acq, Acq.nextStrobe_ch]

/-- Until its turn in the strobe, channel n is as c but for its IMPL, and not faulty. -/
structure BeforeSample (n k : Nat) (c : AcqCh) (s : State) : Prop where
  ch : (s.acq.ch[n]?).map AcqCh.sansImpl = some c.sansImpl
  fault : bit s.acq.fault n = false
  strobes : s.acq.strobes = k

/-- From its turn on, channel n has the code y of strobe k. -/
def AfterSample (n k : Nat) (y : Int) (s : State) : Prop :=
  ∃ c', s.acq.ch[n]? = some c' ∧ c'.code = y ∧ c'.missRun = 0 ∧ c'.sampleAt = k

theorem AfterSample.of_ch {n k : Nat} {y : Int} {s u : State} (hu : u.acq.ch = s.acq.ch) (h : AfterSample n k y s) : AfterSample n k y u := by
  unfold AfterSample
  rwa [hu]

theorem BeforeSample.other {m n k : Nat} {code : Option Int} {c : AcqCh} {s u : State} (hs : Sampled m code s u) (hm : m ≠ n)
    (h : BeforeSample n k c s) : BeforeSample n k c u :=
  ⟨(hs.others n hm.symm).trans h.ch, (hs.faults n hm.symm).trans h.fault, (congrArg Acq.strobes hs.rest :).trans h.strobes⟩

theorem BeforeSample.turn {n k : Nat} {x : Int} {c : AcqCh} {s u : State} (hs : Sampled n (some x) s u) (hcal : c.cal = false)
    (h : BeforeSample n k c s) : AfterSample n k (correct c.offs c.gain x) u := by
  obtain ⟨c', hc', he⟩ := Option.map_eq_some_iff.1 h.ch
  obtain ⟨c'', hc'', hcode, hmiss, hat⟩ := hs.own c' x hc' ((congrArg AcqCh.cal he :).trans hcal) h.fault rfl
  have hoffs : c'.offs = c.offs := (congrArg AcqCh.offs he :)
  have hgain : c'.gain = c.gain := (congrArg AcqCh.gain he :)
  exact ⟨c'', hc'', by rw [hcode, hoffs, hgain], hmiss, hat.trans h.strobes⟩

theorem AfterSample.other {m n k : Nat} {y : Int} {code : Option Int} {s u : State} (hs : Sampled m code s u) (hm : m ≠ n)
    (h : AfterSample n k y s) : AfterSample n k y u := by
  obtain ⟨c, hc, hcode, hmiss, hat⟩ := h
  obtain ⟨c', hc', he⟩ := Option.map_eq_some_iff.1 ((hs.others n hm.symm).trans (congrArg _ hc))
  exact ⟨c', hc', (congrArg AcqCh.code he :).trans hcode, (congrArg AcqCh.missRun he :).trans hmiss, (congrArg AcqCh.sampleAt he :).trans hat⟩

/-- The channel's code after the strobe (R47, R49). -/
theorem strobeTaken_ch {codes : List (Option Int)} {s : State} {n : Nat} {c : AcqCh} {x : Int} (hn : n < 24) (hc : s.acq.ch[n]? = some c)
    (hcal : c.cal = false) (hfault : bit s.acq.fault n = false) (hx : codes[n]? = some (some x)) :
    AfterSample n (s.acq.strobes + 1) (correct c.offs c.gain x) (strobeTaken codes s) := by
  have hcode : codes.getD n none = some x := by simp [List.getD_eq_getElem?_getD, hx]
  have hbefore : BeforeSample n (s.acq.strobes + 1) c (strobeCounted s) := by
    constructor <;> rw [strobeCounted_acq]
    · exact congrArg (Option.map _) hc
    · exact hfault
  unfold strobeTaken
  refine AfterSample.of_ch (ovrEvent_ch _) ?_
  refine foldOver_once (P := BeforeSample n _ c) (Q := AfterSample n _ _) List.nodup_range (List.mem_range.2 hn)
    (fun m hm u hu => ?_) (fun u hu => ?_) (fun m hm u hu => ?_) hbefore
  · exact hu.other (sampled_takeSample m _ u) hm
  · rw [hcode]
    exact hu.turn (sampled_takeSample n _ u) hcal
  · exact hu.other (sampled_takeSample m _ u) hm

/-- Settles O12: by what one channel's sample writes, over the 24 channels of the strobe. -/
theorem strobeTakesSamples : Obligations.StrobeTakesSamples := by
  unfold Obligations.StrobeTakesSamples
  refine fun codes s => ⟨strobeSamples_idx codes s, strobeSamples_strobes codes s, strobeSamples_frame, fun n c x hn hc hcal hfault hx => ?_⟩
  rw [strobeSamples_ch]
  exact strobeTaken_ch hn hc hcal hfault hx

end Sys2Proof.Machine

/-! ## Check converters and HK: conversions (R54 to R58, R64, R65) -/

namespace Sys2Proof.Machine
-- In order, not in parallel: each thread reserves memory, of which the check of the whole text has little left.
set_option Elab.async false

/-! ### Averages -/

/-- A conversion of an averaged input ends its average when it is the last of the N (R57). -/
theorem AvgSum.add_result (a : AvgSum) (y : Int) (log2 shift : Nat) :
    (a.add y log2 shift).2 = if a.count + 1 ≥ 2 ^ log2 then some (rdivEven (a.sum + y) (2 ^ shift)) else none := by
  unfold AvgSum.add
  dsimp only
  split <;> rfl

/-! ### What a self-check and a plausibility check leave alone (R58, R61) -/

/-- A check converter without its running sums, its self-check and the instant of its previous conversion. -/
def CkConv.sansSums (k : CkConv) : CkConv :=
  { k with prev := none, sums := [], self := [], selfViol := [], selfGood := (none, none), selfRec := 0 }

/-- HK without its running sums, its means and its self-check. -/
def HkConv.sansSums (k : HkConv) : HkConv :=
  { k with sums := [], mean := [], self := [], selfViol := [], selfGood := (none, none), selfRec := 0 }

@[simp] theorem selfAct_ck (conv mux : Nat) (m : Int) (r : Bool × Bool) (s : State) : (selfAct conv mux m r s).acq.ck = s.acq.ck := by
  unfold selfAct selfFail selfRecover
  split
  · rw [implMask_ck, ev_acq, modAcq_acq]
  · split
    · rw [ev_acq, modAcq_acq]
    · rfl

@[simp] theorem selfAct_hk (conv mux : Nat) (m : Int) (r : Bool × Bool) (s : State) : (selfAct conv mux m r s).acq.hk = s.acq.hk := by
  unfold selfAct selfFail selfRecover
  split
  · rw [implMask_hk, ev_acq, modAcq_acq]
  · split
    · rw [ev_acq, modAcq_acq]
    · rfl

theorem modCk_sansSums {f : CkConv → CkConv} (hf : ∀ k, (f k).sansSums = k.sansSums) (c : Nat) (s : State) :
    (modCk c f s).acq.ck.map CkConv.sansSums = s.acq.ck.map CkConv.sansSums := lmod_map hf ..

theorem ckSelf_sansSums (c i : Nat) (y : Int) (s : State) : (ckSelf c i y s).acq.ck.map CkConv.sansSums = s.acq.ck.map CkConv.sansSums := by
  unfold ckSelf
  dsimp only
  split
  · exact modCk_sansSums (by exact fun _ => rfl) ..
  · rw [selfAct_ck]
    exact (modCk_sansSums (by exact fun _ => rfl) ..).trans (modCk_sansSums (by exact fun _ => rfl) ..)

theorem hkSelf_sansSums (i : Nat) (y : Int) (s : State) : (hkSelf i y s).acq.hk.sansSums = s.acq.hk.sansSums := by
  unfold hkSelf
  dsimp only
  split
  · rfl
  · rw [selfAct_hk]
    rfl

@[simp] theorem plausD_ck (n : Nat) (y : Int) (log2 : Nat) (s : State) : (plausD n y log2 s).acq.ck = s.acq.ck := by
  unfold plausD checkDone
  dsimp only
  split
  · rfl
  · split <;> rfl

/-! ### A slot of a check converter -/

/-- The averages of a check converter after the code x of mux code m (R57). -/
def CkConv.avgNext (k : CkConv) (m : Nat) (x : Int) : List Int :=
  if (k.sums.getD m ⟨0, 0⟩).count + 1 ≥ 2 ^ avgLog2 k.ctl
  then lset k.avg m (rdivEven ((k.sums.getD m ⟨0, 0⟩).sum + correct k.offs k.gain x) (2 ^ avgShift k.ctl)) else k.avg

/-- Check converter ck takes the code x of mux code m: its average, and the check of the channel or of the converter itself (R57, R58, R61). -/
def ckTake (ck m : Nat) (k : CkConv) (x : Int) (s : State) : State :=
  let y := correct k.offs k.gain x
  let p := (k.sums.getD m ⟨0, 0⟩).add y (avgLog2 k.ctl) (avgShift k.ctl)
  let s := modCk ck (fun k => { k with sums := lset k.sums m p.1, avg := match p.2 with
    | some v => lset k.avg m v
    | none => k.avg }) s
  if m < 6 then plausD (6 * ck + m) y (avgLog2 k.ctl) s else ckSelf ck (m - 6) y s

theorem ckTake_ck {ck m : Nat} {k : CkConv} {x : Int} {s : State} {k₁ : CkConv} (h : s.acq.ck[ck]? = some k₁) (havg : k₁.avg = k.avg) :
    ∃ k', (ckTake ck m k x s).acq.ck[ck]? = some k' ∧ k'.sansSums = { k₁ with avg := k.avgNext m x }.sansSums := by
  unfold ckTake
  lift_lets
  intro y p s'
  have hs' : ∃ k', s'.acq.ck[ck]? = some k' ∧ k'.sansSums = { k₁ with avg := k.avgNext m x }.sansSums := by
    refine ⟨_, lmod_get_self h _, ?_⟩
    have havg' : (match p.2 with | some v => lset k₁.avg m v | none => k₁.avg) = k.avgNext m x := by
      simp only [p, AvgSum.add_result, CkConv.avgNext, havg]
      split_ifs <;> rfl
    simp only [CkConv.sansSums, havg']
  obtain ⟨k', hk', he⟩ := hs'
  split
  · exact ⟨k', by rwa [plausD_ck], he⟩
  · obtain ⟨k'', hk'', he'⟩ := getElem?_of_map_eq (ckSelf_sansSums ck (m - 6) y s') hk'
    exact ⟨k'', hk'', he'.trans he⟩

/-- A check converter at the start of a new sequence (R56). -/
def CkConv.restarted (k : CkConv) : CkConv :=
  { k with run := k.named, newSeq := false, slot := 0, sums := List.replicate 8 ⟨0, 0⟩, self := List.replicate 2 ⟨0, 0⟩
           selfViol := [0, 0], selfGood := (none, none), selfRec := 0 }

theorem seqRestart_ck (c : Nat) (s : State) : (seqRestart c s).acq.ck = lmod s.acq.ck c CkConv.restarted := by
  unfold seqRestart
  dsimp only
  rw [implMask_ck]
  exact foldOver_keeps (fun s : State => s.acq.ck) (by exact fun _ _ => rfl) _ (modCk c CkConv.restarted s)

/-- The end of a slot of check converter ck, which was as k before: the next slot of the pass, or a new sequence, and a waiting urgent request (R55, R56, R64). -/
def ckSlotEnd (ck : Nat) (k : CkConv) (s : State) : State :=
  let last := decide (k.slot ≥ k.run.1)
  let s := modCk ck (fun k => { k with slot := if last then 0 else k.slot + 1 }) s
  modCk ck CkConv.serve (if last && k.newSeq then seqRestart ck s else s)

theorem ckSlotEnd_ck {ck : Nat} {k k₁ : CkConv} {s : State} (h : s.acq.ck[ck]? = some k₁) (hslot : k₁.slot = k.slot) (hrun : k₁.urgRun = none) :
    ∃ k', (ckSlotEnd ck k s).acq.ck[ck]? = some k' ∧ k'.slot = (if k.slot ≥ k.run.1 then 0 else k.slot + 1) ∧
      k'.urgRun = k₁.urg ∧ k'.urg = none ∧ k'.avg = k₁.avg := by
  unfold ckSlotEnd
  lift_lets
  intro last s'
  have hs' : s'.acq.ck[ck]? = some { k₁ with slot := if k.slot ≥ k.run.1 then 0 else k.slot + 1 } := by
    refine (lmod_get_self h _).trans ?_
    simp [last, hslot]
  split
  · next hlast =>
    have hge : k.slot ≥ k.run.1 := by simpa [last] using (Bool.and_eq_true_iff.1 hlast).1
    refine ⟨_, lmod_get_self ((congrArg (·[ck]?) (seqRestart_ck ck s')).trans (lmod_get_self hs' _)) _, ?_⟩
    simp [CkConv.serve, CkConv.restarted, hrun, hge]
  · refine ⟨_, lmod_get_self hs' _, ?_⟩
    simp [CkConv.serve, hrun]

/-- A slot that R55 places at the latest strobe of its input converts. -/
theorem exec_ckSlotConvert {t ck : Nat} {s : State} {k : CkConv} (code : Option Int) (hck : ck < 4) (hoff : s.sys.st ≠ .off)
    (h : s.acq.ck[ck]? = some k) (hcal : k.cal = false) (hrun : k.urgRun = none)
    (hplaced : ckPlaced s ck ((seqSlots k.run).getD k.slot 7) = true) :
    exec (.ckSlotConvert t ck code) s = .next (ckSlotEnd ck k (match code with
      | none => ckPlace ck ((seqSlots k.run).getD k.slot 7) (atTime t s)
      | some x => ckTake ck ((seqSlots k.run).getD k.slot 7) k x (ckPlace ck ((seqSlots k.run).getD k.slot 7) (atTime t s)))) := by
  have hk : ckOf (atTime t s) ck = k := ckOf_eq h
  have hplaced' : ckPlaced (atTime t s) ck ((seqSlots k.run).getD k.slot 7) = true := hplaced
  have hgo : ¬(ck ≥ 4 ∨ (atTime t s).sys.st = .off ∨ k.cal = true ∨ k.urgRun.isSome = true ∨
      (!ckPlaced (atTime t s) ck ((seqSlots k.run).getD k.slot 7)) = true) := by
    rw [hplaced']
    simp [Nat.not_le.2 hck, hoff, hcal, hrun]
  simp only [exec, execCkSlotConvert]
  rw [hk, if_neg hgo]
  cases code <;> rfl

/-! ### HK -/

/-- The results of HK after the code x of input h (R57, R65). -/
def HkConv.resNext (k : HkConv) (h : Nat) (x : Int) : List Int :=
  if (k.sums.getD h ⟨0, 0⟩).count + 1 ≥ 2 ^ avgLog2 k.ctl
  then lset k.res h (rdivEven ((k.sums.getD h ⟨0, 0⟩).sum + correct k.offs k.gain x) (2 ^ avgShift k.ctl)) else k.res

/-- HK takes the code x of its input: its average, what reads that average, and the check of HK itself (R57, R61, R65). -/
def hkTake (k : HkConv) (x : Int) (s : State) : State :=
  let y := correct k.offs k.gain x
  let sum := k.sums.getD k.pos ⟨0, 0⟩
  let p := sum.add y (avgLog2 k.ctl) (avgShift k.ctl)
  let m := rdivEven (sum.sum + y) (2 ^ avgLog2 k.ctl)
  let s := modHk (fun k' => { k' with sums := lset k'.sums k.pos p.1 }) s
  let s := match p.2 with
    | some v => (if k.pos = 9 then noteDie m else if k.pos = 7 then boardTemp else id)
        (modHk (fun k' => { k' with res := lset k'.res k.pos v, mean := lset k'.mean k.pos (some m) }) s)
    | none => s
  if k.pos ≥ 11 then hkSelf (k.pos - 11) y s else s

theorem hkTake_hk {k : HkConv} {s : State} (h : s.acq.hk = k) (x : Int) :
    (hkTake k x s).acq.hk.sansSums = { k with res := k.resNext k.pos x }.sansSums := by
  unfold hkTake
  lift_lets
  intro y sum p m s₁ s₂
  have hread (u : State) : ((if k.pos = 9 then noteDie m else if k.pos = 7 then boardTemp else id) u).acq = u.acq := by
    split
    · exact noteDie_frame.acq (by decide)
    · split
      · exact boardTemp_frame.acq (by decide)
      · rfl
  have hs₂ : s₂.acq.hk.sansSums = { k with res := k.resNext k.pos x }.sansSums := by
    unfold HkConv.resNext
    by_cases hN : sum.count + 1 ≥ 2 ^ avgLog2 k.ctl
    · have hp : p.2 = some (rdivEven (sum.sum + y) (2 ^ avgShift k.ctl)) := (AvgSum.add_result ..).trans (if_pos hN)
      rw [if_pos hN]
      simp only [s₂, hp, hread, modHk_acq, s₁, h]
      rfl
    · have hp : p.2 = none := (AvgSum.add_result ..).trans (if_neg hN)
      rw [if_neg hN]
      simp only [s₂, hp, modHk_acq, s₁, h]
      rfl
  split
  · exact (hkSelf_sansSums ..).trans hs₂
  · exact hs₂

/-- The end of HK's conversion: the next input of the scan, and a waiting urgent request (R64, R65). -/
def hkSlotEnd (k : HkConv) (s : State) : State :=
  modHk (fun k' =>
    let k' := { k' with pos := if k.pos ≥ 12 then 0 else k.pos + 1 }
    if k'.urgRun.isNone then { k' with urgRun := k'.urg, urg := none } else k') s

theorem exec_hkConvert {s : State} (t : Nat) (code : Option Int) (hoff : s.sys.st ≠ .off) (hcal : s.acq.hk.cal = false) (hrun : s.acq.hk.urgRun = none) :
    exec (.hkConvert t code) s = .next (hkSlotEnd s.acq.hk (match code with
      | none => atTime t s
      | some x => hkTake s.acq.hk x (atTime t s))) := by
  have hgo : ¬((atTime t s).sys.st = .off ∨ (atTime t s).acq.hk.cal = true ∨ (atTime t s).acq.hk.urgRun.isSome = true) := by
    simp [hoff, hcal, hrun]
  simp only [exec, execHkConvert]
  rw [if_neg hgo]
  cases code <;> rfl

theorem hkSlotEnd_hk {k : HkConv} {s : State} (hrun : s.acq.hk.urgRun = none) : (hkSlotEnd k s).acq.hk =
    { s.acq.hk with pos := if k.pos ≥ 12 then 0 else k.pos + 1, urgRun := s.acq.hk.urg, urg := none } := by
  simp [hkSlotEnd, hrun]

/-! ### The scan rows -/

/-- A slot of a check converter that R55 places: the next slot of the pass, the averages, and the urgent slot (R55 to R57, R64). -/
theorem ckSlotConvert_becomes {t ck : Nat} {s : State} {k : CkConv} (code : Option Int) (hck : ck < 4) (hoff : s.sys.st ≠ .off)
    (h : s.acq.ck[ck]? = some k) (hcal : k.cal = false) (hrun : k.urgRun = none)
    (hplaced : ckPlaced s ck ((seqSlots k.run).getD k.slot 7) = true) :
    Becomes (.ckSlotConvert t ck code) s fun u => ∃ k', u.acq.ck[ck]? = some k' ∧ k'.slot = (if k.slot ≥ k.run.1 then 0 else k.slot + 1) ∧
      k'.urgRun = k.urg ∧ k'.urg = none ∧ ∀ x, code = some x → k'.avg = k.avgNext ((seqSlots k.run).getD k.slot 7) x := by
  refine ⟨_, exec_ckSlotConvert code hck hoff h hcal hrun hplaced, ?_⟩
  generalize (seqSlots k.run).getD k.slot 7 = m
  have hplace : (ckPlace ck m (atTime t s)).acq.ck[ck]? = some { k with prev := some (strobeLatest (atTime t s) ck m) } := lmod_get_self h _
  cases code with
  | none =>
    obtain ⟨k', hk', hslot, hurgRun, hurg, -⟩ := ckSlotEnd_ck (k := k) hplace rfl hrun
    exact ⟨k', hk', hslot, hurgRun, hurg, nofun⟩
  | some x =>
    obtain ⟨k₁, hk₁, he⟩ := ckTake_ck (k := k) (x := x) (m := m) hplace rfl
    have hslot₁ : k₁.slot = k.slot := (congrArg CkConv.slot he :)
    have hrun₁ : k₁.urgRun = k.urgRun := (congrArg CkConv.urgRun he :)
    have hurg₁ : k₁.urg = k.urg := (congrArg CkConv.urg he :)
    have havg₁ : k₁.avg = k.avgNext m x := (congrArg CkConv.avg he :)
    obtain ⟨k', hk', hslot, hurgRun, hurg, havg⟩ := ckSlotEnd_ck hk₁ hslot₁ (hrun₁.trans hrun)
    refine ⟨k', hk', hslot, hurgRun.trans hurg₁, hurg, ?_⟩
    rintro _ ⟨⟩
    exact havg.trans havg₁

/-- HK's next input: the scan goes on, with the results and the urgent slot (R57, R64, R65). -/
theorem hkConvert_becomes {t : Nat} {s : State} (code : Option Int) (hoff : s.sys.st ≠ .off) (hcal : s.acq.hk.cal = false)
    (hrun : s.acq.hk.urgRun = none) :
    Becomes (.hkConvert t code) s fun u => u.acq.hk.pos = (if s.acq.hk.pos ≥ 12 then 0 else s.acq.hk.pos + 1) ∧
      u.acq.hk.urgRun = s.acq.hk.urg ∧ u.acq.hk.urg = none ∧ ∀ x, code = some x → u.acq.hk.res = s.acq.hk.resNext s.acq.hk.pos x := by
  refine ⟨_, exec_hkConvert t code hoff hcal hrun, ?_⟩
  cases code with
  | none =>
    dsimp only
    rw [hkSlotEnd_hk (s := atTime t s) hrun]
    exact ⟨rfl, rfl, rfl, nofun⟩
  | some x =>
    have he := hkTake_hk (s := atTime t s) rfl x
    rw [atTime_acq] at he
    dsimp only
    generalize hkTake s.acq.hk x (atTime t s) = v at he ⊢
    have hrun₁ : v.acq.hk.urgRun = s.acq.hk.urgRun := (congrArg HkConv.urgRun he :)
    have hurg₁ : v.acq.hk.urg = s.acq.hk.urg := (congrArg HkConv.urg he :)
    have hres₁ : v.acq.hk.res = s.acq.hk.resNext s.acq.hk.pos x := (congrArg HkConv.res he :)
    rw [hkSlotEnd_hk (hrun₁.trans hrun)]
    refine ⟨rfl, hurg₁, rfl, ?_⟩
    rintro _ ⟨⟩
    exact hres₁

/-- Settles O13: by what a code makes of its converter, and the end of its slot. -/
theorem scanRowsConvert : Obligations.ScanRowsConvert := by
  unfold Obligations.ScanRowsConvert
  refine ⟨fun t ck code s k hck hoff h hcal hrun hplaced => ?_, fun t code s hoff hcal hrun => ?_⟩
  · obtain ⟨u, hu, k', hk', hslot, hurgRun, hurg, havg⟩ := ckSlotConvert_becomes (t := t) code hck hoff h hcal hrun hplaced
    refine ⟨u, hu, k', hk', hslot, hurgRun, hurg, ?_⟩
    rintro x m hx rfl
    exact havg x hx
  · obtain ⟨u, hu, hpos, hurgRun, hurg, hres⟩ := hkConvert_becomes (t := t) code hoff hcal hrun
    refine ⟨u, hu, hpos, hurgRun, hurg, ?_⟩
    rintro x m hx rfl
    exact hres x hx

end Sys2Proof.Machine

/-! ## The end of a calibration and of an urgent conversion (R50 to R53, R64) -/

namespace Sys2Proof.Machine
-- In order, not in parallel: each thread reserves memory, of which the check of the whole text has little left.
set_option Elab.async false

/-- A change in place of an entry that is known writes it. -/
theorem lmod_eq_lset {α : Type} {l : List α} {i : Nat} {a : α} (h : l[i]? = some a) (f : α → α) : lmod l i f = lset l i (f a) := by
  refine List.ext_getElem? fun j => ?_
  rw [lmod_get, lset_get]
  split
  · next hij => rw [← hij, h, Option.map_some, Option.map_some]
  · rfl

/-! ### One target -/

/-- The only target of a map with one bit. -/
theorem ones_two_pow {i : Nat} (hi : i < 24) : ones 29 (wd (2 ^ i)).toNat = [i] := by
  interval_cases i <;> decide

theorem setBit_zero_true (i : Nat) : setBit 0#32 i true = wd (2 ^ i) := BitVec.zero_or

section
variable {results : List CalResult} {i : Nat} {s : State} {o : Int} {g : Nat}

/-- A main converter whose solution is accepted: its coefficients, in force and stored, and no fault (R50, R52). -/
theorem calTarget_solved (hi : i < 24) (h : (results.find? fun r => r.conv == i).bind (calSolve i) = some (o, g)) :
    (calTarget results i s).acq = { s.acq with
      fault := setBit s.acq.fault i false
      ch := lmod s.acq.ch i fun c => { c with cal := false, missRun := 0, offs := o, gain := g }
      stored := lset s.acq.stored i ⟨o, g, tAfe s, s.evr.optime.toNat⟩ } := by
  simp only [calTarget, h, setCal, setCoef, if_pos hi, modAcq_acq, modAcqCh_acq, lmod_lmod]
  rfl

/-- A main converter whose solution is not: it is faulty and failed, with its coefficients kept (R48, R50). -/
theorem calTarget_failed (hi : i < 24) (h : (results.find? fun r => r.conv == i).bind (calSolve i) = none) :
    (calTarget results i s).acq = { s.acq with
      fault := setBit s.acq.fault i true
      calFail := setBit s.acq.calFail i true
      ch := lmod s.acq.ch i fun c => { c with cal := false } } := by
  simp only [calTarget, h, setCal, if_pos hi, modAcq_acq, modAcqCh_acq]

end

/-! ### The end of the run -/

@[simp] theorem finish_acq (rt : ReplyTo) (st d : Nat) (p : Bytes) (s : State) : (finish rt st d p s).acq = s.acq := finish_frame.acq (by decide)

@[simp] theorem finish_evr (rt : ReplyTo) (st d : Nat) (p : Bytes) (s : State) : (finish rt st d p s).evr = s.evr := finish_frame.evr (by decide)

/-- T_AFE as read with a calibration changes the mean of HK's input alone. -/
theorem takeAfe_acq (v : Int) (s : State) : ∃ mean, (takeAfe v s).acq = { s.acq with hk := { s.acq.hk with mean := mean } } := by
  unfold takeAfe
  split <;> exact ⟨_, rfl⟩

theorem takeAfe_atTime_acq (v : Int) (t : Nat) (s : State) : (takeAfe v (atTime t s)).acq = (takeAfe v s).acq := by
  unfold takeAfe
  rw [atTime_acq]
  split <;> rfl

theorem tAfe_congr {s u : State} (h : u.acq.hk = s.acq.hk) : tAfe u = tAfe s := by
  simp [tAfe, hkMean, h]

/-- The state in which a run's results are taken: T_AFE is read, and no target has failed (R50, R52). -/
def calRead (t : Nat) (r : CalEnd) (s : State) : State := modAcq (fun a => { a with calFail := 0#32 }) (takeAfe r.afe (atTime t s))

theorem calRead_acq (t : Nat) (r : CalEnd) (s : State) :
    ∃ mean, (calRead t r s).acq = { s.acq with calFail := 0#32, hk := { s.acq.hk with mean := mean } } := by
  obtain ⟨mean, hacq⟩ := takeAfe_acq r.afe (atTime t s)
  exact ⟨mean, congrArg (fun a : Acq => { a with calFail := 0#32 }) hacq⟩

/-- The state after the result of every target, and the IMPL that goes with them. -/
def calTaken (t : Nat) (r : CalEnd) (s : State) : State :=
  implMask (foldOver (ones 29 (calRead t r s).acq.calTargets.toNat) (calTarget r.results) (calRead t r s))

/-- The converters after the run, with the date and temperature of the latest full calibration (R52). -/
def Acq.calClosed (optime temp : Word) (a : Acq) : Acq :=
  { a with calBusy := false, calTargets := 0#32, calReply := none, calOptime := optime, calTemp := temp }

/-- The end of a run closes it, dates a full calibration of the main converters, records it and replies (R52, R53). -/
theorem exec_calibrationComplete {s : State} (h : s.acq.calBusy = true) (t : Nat) (r : CalEnd) :
    Becomes (.calibrationComplete t r) s fun u => u.evr.optime = (calTaken t r s).evr.optime ∧
      ∃ optime temp, u.acq = (calTaken t r s).acq.calClosed optime temp := by
  change ∃ u, execCalibrationComplete t r s = .next u ∧ _
  unfold execCalibrationComplete
  lift_lets
  intro s₁ targets rt before s₂ s₃ s₄ s₅ n s₆
  have hbusy : s₁.acq.calBusy = true := by
    obtain ⟨mean, hacq⟩ := takeAfe_acq r.afe (atTime t s)
    dsimp only [s₁]
    rw [hacq]
    exact h
  obtain ⟨optime, temp, ho₄, ha₄⟩ : ∃ optime temp, s₄.evr.optime = s₂.evr.optime ∧ s₄.acq = s₂.acq.calClosed optime temp := by
    dsimp only [s₄]
    split <;> exact ⟨_, _, rfl, rfl⟩
  have h₅ : s₅.evr.optime = s₄.evr.optime ∧ s₅.acq = s₄.acq := by
    dsimp only [s₅]
    split <;> simp
  have h₆ : s₆.evr.optime = s₅.evr.optime ∧ s₆.acq = s₅.acq := by
    dsimp only [s₆]
    split <;> simp
  have ho : s₆.evr.optime = s₂.evr.optime := h₆.1.trans (h₅.1.trans ho₄)
  have ha : s₆.acq = s₂.acq.calClosed optime temp := h₆.2.trans (h₅.2.trans ha₄)
  rw [if_neg (by simp [hbusy])]
  clear_value rt
  cases rt with
  | none => exact ⟨_, rfl, ho, optime, temp, ha⟩
  | some d => exact ⟨_, rfl, (congrArg Evr.optime (finish_evr ..)).trans ho, optime, temp, (finish_acq ..).trans ha⟩

section
variable {t i : Nat} {r : CalEnd} {s : State} {c : AcqCh}

/-- The run's results where main converter i is its one target. -/
theorem calTaken_single (hi : i < 24) (ht : s.acq.calTargets = wd (2 ^ i)) :
    calTaken t r s = implMask (calTarget r.results i (calRead t r s)) := by
  obtain ⟨mean, hacq⟩ := calRead_acq t r s
  rw [calTaken, hacq]
  dsimp only
  rw [ht, ones_two_pow hi]
  rfl

theorem calTaken_sansImpl (hi : i < 24) (ht : s.acq.calTargets = wd (2 ^ i)) :
    (calTaken t r s).acq.sansImpl = (calTarget r.results i (calRead t r s)).acq.sansImpl := by
  rw [calTaken_single hi ht, implMask_sansImpl]

theorem calTaken_optime (hi : i < 24) (ht : s.acq.calTargets = wd (2 ^ i)) : (calTaken t r s).evr.optime = (calRead t r s).evr.optime := by
  rw [calTaken_single hi ht, implMask_optime, calTarget_frame.evr (by decide)]

theorem calTaken_solved {o : Int} {g : Nat} (hi : i < 24) (ht : s.acq.calTargets = wd (2 ^ i)) (hc : s.acq.ch[i]? = some c)
    (h : (r.results.find? fun r => r.conv == i).bind (calSolve i) = some (o, g)) :
    (∃ c', (calTaken t r s).acq.ch[i]? = some c' ∧ c'.cal = false ∧ c'.offs = o ∧ c'.gain = g ∧ c'.missRun = 0) ∧
    (calTaken t r s).acq.stored = lset s.acq.stored i ⟨o, g, tAfe (takeAfe r.afe s), (calTaken t r s).evr.optime.toNat⟩ ∧
    bit (calTaken t r s).acq.fault i = false ∧ (calTaken t r s).acq.calFail = 0#32 := by
  obtain ⟨mean, hread⟩ := calRead_acq t r s
  have hafe : tAfe (calRead t r s) = tAfe (takeAfe r.afe s) := tAfe_congr (congrArg Acq.hk (takeAfe_atTime_acq r.afe t s) :)
  have hmask := calTaken_sansImpl (t := t) (r := r) hi ht
  have htarget := calTarget_solved (s := calRead t r s) hi h
  rw [hafe, ← calTaken_optime hi ht, hread] at htarget
  generalize calTarget r.results i (calRead t r s) = v at hmask htarget
  have hv : v.acq.ch[i]? = some { c with cal := false, missRun := 0, offs := o, gain := g } := by
    rw [htarget]
    exact lmod_get_self hc _
  obtain ⟨c', hc', he⟩ := ch_of_sansImpl hmask hv
  have hfault : (calTaken t r s).acq.fault = v.acq.fault := (congrArg Acq.fault hmask :)
  refine ⟨⟨c', hc', (congrArg AcqCh.cal he :), (congrArg AcqCh.offs he :), (congrArg AcqCh.gain he :), (congrArg AcqCh.missRun he :)⟩,
    (congrArg Acq.stored hmask :).trans (congrArg Acq.stored htarget :), ?_, (congrArg Acq.calFail hmask :).trans (congrArg Acq.calFail htarget :)⟩
  rw [hfault, htarget]
  exact bit_setBit_self (by omega) ..

theorem calTaken_failed (hi : i < 24) (ht : s.acq.calTargets = wd (2 ^ i)) (hc : s.acq.ch[i]? = some c)
    (h : (r.results.find? fun r => r.conv == i).bind (calSolve i) = none) :
    (∃ c', (calTaken t r s).acq.ch[i]? = some c' ∧ c'.cal = false ∧ c'.offs = c.offs ∧ c'.gain = c.gain) ∧
    bit (calTaken t r s).acq.fault i = true ∧ (calTaken t r s).acq.calFail = wd (2 ^ i) := by
  obtain ⟨mean, hread⟩ := calRead_acq t r s
  have hmask := calTaken_sansImpl (t := t) (r := r) hi ht
  have htarget := calTarget_failed (s := calRead t r s) hi h
  rw [hread] at htarget
  generalize calTarget r.results i (calRead t r s) = v at hmask htarget
  have hv : v.acq.ch[i]? = some { c with cal := false } := by
    rw [htarget]
    exact lmod_get_self hc _
  obtain ⟨c', hc', he⟩ := ch_of_sansImpl hmask hv
  have hfault : (calTaken t r s).acq.fault = v.acq.fault := (congrArg Acq.fault hmask :)
  refine ⟨⟨c', hc', (congrArg AcqCh.cal he :), (congrArg AcqCh.offs he :), (congrArg AcqCh.gain he :)⟩, ?_,
    (congrArg Acq.calFail hmask :).trans ((congrArg Acq.calFail htarget :).trans (setBit_zero_true i))⟩
  rw [hfault, htarget]
  exact bit_setBit_self (by omega) ..

end

/-! ### Urgent conversions (R64) -/

/-- OFFS and GAIN of a check converter, or of HK (conv 4). -/
def urgentCoef (s : State) (conv : Nat) : Int × Nat :=
  if conv = 4 then (s.acq.hk.offs, s.acq.hk.gain) else ((ckOf s conv).offs, (ckOf s conv).gain)

/-- The urgent slot of a converter is free again; on a check converter the conversion took place at its input's strobe (R55, R64). -/
def urgentFreed (conv input : Nat) (s : State) : State :=
  if conv = 4 then modHk (fun k => { k with urgRun := none }) s else modCk conv (fun k => { k with urgRun := none }) (ckPlace conv input s)

/-- A code of an urgent conversion that is due: its corrected value is the result, counted, and the slot is free. The record and the reply change nothing of the converters. -/
theorem exec_urgentConversionComplete {t conv : Nat} {s : State} {r : UrgReq} (h : urgentDue (atTime t s) conv = some r) (x : Int) :
    Becomes (.urgentConversionComplete t conv (some x)) s fun u => ∃ ns sec, u.acq = (urgentFreed conv r.input (modAcq (fun a => { a with
      urgRes := correct (urgentCoef s conv).1 (urgentCoef s conv).2 x, urgNs := ns, urgSec := sec, urgDone := a.urgDone + 1 }) (atTime t s))).acq := by
  change ∃ u, execUrgentConversionComplete t conv (some x) s = .next u ∧ _
  unfold execUrgentConversionComplete
  dsimp only
  rw [h]
  obtain ⟨input, reply, record⟩ := r
  let stamp := urgentStamp (atTime t s) conv input
  cases reply with
  | none => cases record <;> exact ⟨_, rfl, stampNsWord s.acq.tbsel stamp, secLo stamp, rfl⟩
  | some d => cases record <;> exact ⟨_, rfl, stampNsWord s.acq.tbsel stamp, secLo stamp, finish_acq ..⟩

section
variable {t : Nat} {s : State} {r : UrgReq}

theorem urgentDue_ck {conv : Nat} {k : CkConv} (hconv : conv < 4) (hk : s.acq.ck[conv]? = some k) (hr : k.urgRun = some r)
    (hplaced : ckPlaced s conv r.input = true) : urgentDue (atTime t s) conv = some r := by
  have hck : ckOf (atTime t s) conv = k := ckOf_eq hk
  have hplaced' : ckPlaced (atTime t s) conv r.input = true := hplaced
  rw [urgentDue, if_neg (by omega), if_pos hconv, hck, hr, Option.filter_some, if_pos hplaced']

theorem urgentConversionComplete_ck {conv : Nat} {k : CkConv} (x : Int) (hconv : conv < 4) (hk : s.acq.ck[conv]? = some k) (hr : k.urgRun = some r)
    (hplaced : ckPlaced s conv r.input = true) : Becomes (.urgentConversionComplete t conv (some x)) s fun u =>
      u.acq.urgRes = correct k.offs k.gain x ∧ u.acq.urgDone = s.acq.urgDone + 1 ∧
      u.acq.ck = lset s.acq.ck conv { k with urgRun := none, prev := some (strobeLatest s conv r.input) } ∧ u.acq.ch = s.acq.ch := by
  obtain ⟨u, hu, ns, sec, hacq⟩ := exec_urgentConversionComplete (t := t) (urgentDue_ck hconv hk hr hplaced) x
  have hne : conv ≠ 4 := by omega
  rw [urgentCoef, if_neg hne, ckOf_eq hk, urgentFreed, if_neg hne] at hacq
  refine ⟨u, hu, ?_⟩
  dsimp only
  rw [hacq]
  refine ⟨rfl, rfl, (lmod_lmod ..).trans (lmod_eq_lset hk _), rfl⟩

theorem urgentConversionComplete_hk (x : Int) (hr : s.acq.hk.urgRun = some r) : Becomes (.urgentConversionComplete t 4 (some x)) s fun u =>
    u.acq.urgRes = correct s.acq.hk.offs s.acq.hk.gain x ∧ u.acq.urgDone = s.acq.urgDone + 1 ∧
    u.acq.hk = { s.acq.hk with urgRun := none } ∧ u.acq.ck = s.acq.ck ∧ u.acq.ch = s.acq.ch := by
  obtain ⟨u, hu, ns, sec, hacq⟩ := exec_urgentConversionComplete (t := t) (conv := 4) (s := s) hr x
  rw [urgentCoef, if_pos rfl, urgentFreed, if_pos rfl] at hacq
  refine ⟨u, hu, ?_⟩
  dsimp only
  rw [hacq]
  exact ⟨rfl, rfl, rfl, rfl, rfl⟩

end

/-- Settles O14: by the results of a run with one target, and the slot that an urgent conversion frees. -/
theorem calibrationAndUrgentComplete : Obligations.CalibrationAndUrgentComplete := by
  unfold Obligations.CalibrationAndUrgentComplete
  refine ⟨fun t results afe s hbusy => ?_, fun t conv x s k r hconv hk hr hplaced => urgentConversionComplete_ck x hconv hk hr hplaced,
    fun t x s r hr => urgentConversionComplete_hk x hr⟩
  obtain ⟨u, hu, hopt, optime, temp, hacq⟩ := exec_calibrationComplete hbusy t ⟨results, afe⟩
  refine ⟨u, hu, ?_⟩
  dsimp only
  rw [hacq, hopt]
  refine ⟨rfl, rfl, rfl, fun i c hi ht hc => ⟨fun o g h => ?_, fun h => ?_⟩⟩
  · exact calTaken_solved (r := ⟨results, afe⟩) hi ht hc h
  · exact calTaken_failed (r := ⟨results, afe⟩) hi ht hc h

end Sys2Proof.Machine

/-! ## Registers of the filter chains and the flash summary (R74, R78, R87, R88) -/

namespace Sys2Proof.Machine
-- In order, not in parallel: each thread reserves memory, of which the check of the whole text has little left.
set_option Elab.async false

/-! ### What a record and a change of a chain leave -/

@[simp] theorem ev_flt (type : Nat) (p : Bytes) (s : State) : (ev type p s).flt = s.flt := ev_frame.flt (by decide)

@[simp] theorem cfgErrEvent_flt (before : Nat) (s : State) : (cfgErrEvent before s).flt = s.flt := cfgErrEvent_frame.flt (by decide)

/-- A write of FLT_CTL sets the fields that it has; the records of R87 change nothing of the chains. -/
@[simp] theorem setFltCtl_flt (n : Nat) (v : Word) (s : State) :
    (setFltCtl n v s).flt = { s.flt with ch := lmod s.flt.ch n fun c => { c with ctl := v &&& 0x1F3F03FF#32 } } := by
  unfold setFltCtl
  dsimp only
  rw [cfgErrEvent_flt]
  split
  · rfl
  · exact ev_flt ..

/-! ### The ways of a write by the host -/

theorem regWrite_host {s : State} (hd : dark s = false) (off : Nat) (f : State → State) : regWrite .host off f s = f s := by
  simp [regWrite, hd, reaches]

/-- A register of the fabric answers in SERVICE and MAINT while the fabric has power (R32, R447). -/
theorem dark_of_operational {s : State} (hg : s.pwr.gated = false) (ho : operational s = true) : dark s = false := by
  have hst : s.sys.st = .service ∨ s.sys.st = .maint := by simpa [operational] using ho
  rcases hst with hst | hst <;> simp [dark, hg, hst]

/-- The host's write of FLT_CTL that keeps the configuration fields is taken in SERVICE and MAINT (R88). -/
theorem fltCtlWrite_host_unmoved {n : Nat} {v : Word} {s : State} (ho : operational s = true)
    (hv : v &&& 0x1F3F01FF#32 = (fltOf s n).ctl &&& 0x1F3F01FF#32) : fltCtlWrite .host n v s = setFltCtl n v s := by
  simp [fltCtlWrite, hv, reaches, ho]

/-! ### The rows -/

section
variable {t ch : Nat} {s : State}

/-- The second ends for a stage that has suppressed records (R87). -/
theorem exec_flashSuppressSummary {stage : Nat} (hch : ch < 24) (hst : stage < 2)
    (hf : ((fltOf s ch).fs.getD stage FlashStage.reset).suppressed ≠ 0) :
    exec (.flashSuppressSummary t ch stage) s =
      .next (ev 0x0213 (u8 (2 * ch + stage) ++ zeros 3 ++ u32 ((fltOf s ch).fs.getD stage FlashStage.reset).suppressed)
        (modFlt ch (fun c => { c with fs := lmod c.fs stage fun f => { f with recs := 0, suppressed := 0 } }) (atTime t s))) := by
  have hgo : ¬(ch ≥ 24 ∨ stage ≥ 2 ∨ ((fltOf (atTime t s) ch).fs.getD stage FlashStage.reset).suppressed = 0) := by
    rintro (h | h | h)
    · omega
    · omega
    · exact hf h
  exact if_neg hgo

theorem exec_fltDetClr_host {v : Word} (hch : ch < 24) (hd : dark s = false) (hv : bit v 0 = true) :
    exec (.fltDetClr t .host ch v) s =
      .next (modFlt ch (fun c => { c with hold := none, holdMax := 0#32, holdMin := 0#32 }) (atTime t s)) := by
  have hd' : dark (atTime t s) = false := hd
  simp [exec, execFltDetClr, Nat.not_le.2 hch, regWrite_host hd', hv]

theorem exec_fltDcbFreezeWrite_host {v : Word} (hch : ch < 24) (hg : s.pwr.gated = false) (ho : operational s = true)
    (hv : v &&& 0x1F3F01FF#32 = (fltOf s ch).ctl &&& 0x1F3F01FF#32) :
    exec (.fltDcbFreezeWrite t .host ch v) s = .next (setFltCtl ch v (atTime t s)) := by
  have hw : fltCtlWrite .host ch v (atTime t s) = setFltCtl ch v (atTime t s) := fltCtlWrite_host_unmoved ho hv
  simp [exec, execFltDcbFreezeWrite, Nat.not_le.2 hch, dark_of_operational hg ho, hw]

theorem exec_fltScaleEofsWrite_host {eofs : Bool} {v : Word} (hch : ch < 24) (hd : dark s = false) (hm : s.sys.st = .maint) :
    exec (.fltScaleEofsWrite t .host ch eofs v) s = .next (setDirty (setScale ch eofs v (atTime t s))) := by
  have hd' : dark (atTime t s) = false := hd
  simp [exec, execFltScaleEofsWrite, Nat.not_le.2 hch, cfgWrite_host_maint hd' hm]

end

/-- Settles O16: each row by its equation, and what a record and a write of FLT_CTL leave of the chains. -/
theorem filterRowsComplete : Obligations.FilterRowsComplete := by
  unfold Obligations.FilterRowsComplete
  refine ⟨fun t ch stage s hch hst hf => ⟨_, exec_flashSuppressSummary hch hst hf, ?_, ev_flt ..⟩,
    fun t ch v s hch hd hv => exec_fltDetClr_host hch hd hv,
    fun t ch v s hch hg ho hv => ⟨_, exec_fltDcbFreezeWrite_host hch hg ho hv, ?_, setFltCtl_flt ..⟩,
    fun t ch eofs v s hch hd hm => exec_fltScaleEofsWrite_host hch hd hm⟩
  · exact ((atTime_frame.mono rfl).app modFlt_frame rfl).app ev_frame rfl
  · exact (atTime_frame.mono rfl).app setFltCtl_frame rfl

end Sys2Proof.Machine

/-! ## Commands of the Shutter: arming, erasing, forcing, COMTRADE files (R91, R96, R107 to R109) -/

namespace Sys2Proof.Machine
-- In order, not in parallel: each thread reserves memory, of which the check of the whole text has little left.
set_option Elab.async false

/-! ### The requirements of the rows -/

/-- The requirements of TRG_ARM and TRG_DISARM (R108). -/
abbrev armReq : CmdReq := ⟨0x0320, false, fun n => decide (n ≥ 1), 0, [.service, .maint]⟩

/-- The requirements of TRG_FORCE (R108). -/
abbrev forceReq : CmdReq := ⟨0x0322, false, plenIs 20, 8, [.service, .maint]⟩

/-- The requirements of TRG_EXPORT_RECORD (R108). -/
abbrev exportReq : CmdReq := ⟨0x0323, false, plenIs 24, 24, [.service, .maint, .safeService]⟩

/-! ### The rows -/

section
variable {t : Nat} {e : Env} {s u : State} {rt : ReplyTo}

theorem exec_trgDisarm (hb : begins e armReq (atTime t s) = some (rt, u)) :
    exec (.trgDisarm t e) s = .next (answered u.cmd.queue.length rt [] (setArmed false u)) := by
  simp [exec, execTrgDisarm, runCmd_begins hb, answered]

theorem exec_trgArm (hb : begins e armReq (atTime t s) = some (rt, u)) (hop : armOp e < 4) :
    exec (.trgArm t e) s = .next (answered u.cmd.queue.length rt [] (setArmed true u)) := by
  simp [exec, execTrgArm, runCmd_begins hb, firstFail_cons, bad, hop, answered]

theorem exec_trgArm_badOp (hb : begins e armReq (atTime t s) = some (rt, u)) (hop : 4 ≤ armOp e) :
    exec (.trgArm t e) s = .next (flushUnknown u.cmd.queue.length (refuse rt stBadParam 0 u)) := by
  simp [exec, execTrgArm, runCmd_begins hb, firstFail_cons, bad, Nat.not_lt.2 hop]

theorem exec_trgEraseRecords (hb : begins e ⟨0x0320, true, fun n => decide (n ≥ 1), 0, [.maint]⟩ (atTime t s) = some (rt, u)) :
    exec (.trgEraseRecords t e) s = .next (answered u.cmd.queue.length rt []
      (evCmd rt 0x0308 (u32 u.trg.records.length) (modTrg (fun g => { g with records := [] }) u))) := by
  simp [exec, execTrgEraseRecords, runCmd_begins hb, answered]

/-- A trigger of TRG_FORCE as it waits in the queue: no entry fired it, and its reply waits with it (R96, R108). -/
def forcedTrigger (p : TrgForceCmd) (rt : ReplyTo) (stamp : Int) : Trigger := ⟨stamp, 0xFFFF, none, nbit p.flags 1, false, none, some rt⟩

/-- A stamp of the command's own, which is not ahead of the Shutter's base (R91, R108). -/
theorem exec_trgForce_stamped {p : TrgForceCmd} (hb : begins e forceReq (atTime t s) = some (rt, u)) (hr : e.resvOk = true) (hf : p.flags < 4)
    (hn : p.ns < NS) (hs : nbit p.flags 0 = true) (ha : bit u.trg.ctl 0 = true) (ht : ((p.sec * NS + p.ns : Nat) : Int) ≤ shtNow u) :
    exec (.trgForce t e p) s = .next (flushUnknown u.cmd.queue.length
      (holdReply rt (modTrg (fun g => { g with queue := g.queue ++ [forcedTrigger p rt (p.sec * NS + p.ns : Nat)] }) u))) := by
  have hnow : ¬(((p.sec * NS + p.ns : Nat) : Int) > shtNow u) := not_lt.2 ht
  simp only [exec, execTrgForce, runCmd_begins hb, hs, ha, if_true, firstFail_cons, firstFail_nil, bad, hf, hn, decide_true, Bool.true_or,
    checked8_ok hr, if_neg hnow, forcedTrigger]

/-- Without one, the trigger is stamped at its acceptance (R91). -/
theorem exec_trgForce_now {p : TrgForceCmd} (hb : begins e forceReq (atTime t s) = some (rt, u)) (hr : e.resvOk = true) (hf : p.flags < 4)
    (hn : p.ns = 0) (hz : p.sec = 0) (hs : nbit p.flags 0 = false) (ha : bit u.trg.ctl 0 = true) :
    exec (.trgForce t e p) s = .next (flushUnknown u.cmd.queue.length
      (holdReply rt (modTrg (fun g => { g with queue := g.queue ++ [forcedTrigger p rt (shtNow u)] }) u))) := by
  simp [exec, execTrgForce, runCmd_begins hb, hs, ha, firstFail_cons, bad, hf, hn, hz, checked8_ok hr, forcedTrigger]

/-- The COMTRADE files of a part that is not empty, when the buffer holds them (R107, R378). -/
theorem exec_trgExportRecord {p : TrgExport} {r : ShtRec} {c : Comtrade} (hb : begins e exportReq (atTime t s) = some (rt, u)) (hr : e.resvOk = true)
    (hpart : p.part ≤ 4) (hformat : p.format ≤ 1) (hx : exportOf u p = some (r, c))
    (ho : outputFault rt p.bufAddr p.bufLen ((Config.comtrade c).1 ++ (Config.comtrade c).2).length = none) :
    exec (.trgExportRecord t e p) s = .next (flushUnknown u.cmd.queue.length
      (replyWithOutput rt p.bufAddr ((Config.comtrade c).1 ++ (Config.comtrade c).2)
        (u32 ((Config.comtrade c).1 ++ (Config.comtrade c).2).length ++ u32 (Config.comtrade c).1.length ++ u64 (secOf r.trig).toNat ++ u32 (nsOf r.trig)
          ++ u32 (r.trig - sampleStamp (rateHz r.rate) (lastAtOrBefore (rateHz r.rate) r.trig)).toNat) u)) := by
  simp only [exec, execTrgExportRecord, runCmd_begins hb, hx, hpart, hformat, decide_true, Option.isSome_some, firstFail_cons, firstFail_nil, bad,
    if_true, checked_ok hr, ho]

end

/-- Settles O6: each row by its equation. That a PLEN of 1 or more is accepted, and that OP 1 checks nothing else, are the model's choices (log entries 59, 186). -/
theorem shutterCommandsComplete : Obligations.ShutterCommandsComplete := by
  unfold Obligations.ShutterCommandsComplete
  refine ⟨fun t e s rt u hb _ _ => exec_trgDisarm hb, fun t e s rt u hb _ hop => exec_trgArm hb (Nat.lt_succ_of_le hop),
    fun t e s rt u hb hop => exec_trgArm_badOp hb hop, fun t e s rt u hb _ _ => exec_trgEraseRecords hb, ?_, ?_, ?_⟩
  · intro p hf hn hs t e s rt u hb hr ⟨ha, ht⟩
    exact exec_trgForce_stamped hb hr hf hn hs ha ht
  · intro p hf hn hz hs t e s rt u hb hr ha
    exact exec_trgForce_now hb hr hf hn hz hs ha
  · intro p r c hpart hformat t e s rt u hb hr ⟨hx, ho⟩
    exact exec_trgExportRecord hb hr hpart hformat hx ho

end Sys2Proof.Machine

/-! ## The Shutter: decisions, edges, pulses, records, data blocks (R91, R92, R95, R96, R100, R102, R103, R110) -/

namespace Sys2Proof.Machine
-- In order, not in parallel: each thread reserves memory, of which the check of the whole text has little left.
set_option Elab.async false

/-! ### The order of the triggers of an interval (R96) -/

/-- Stamps that do not fall along a list. -/
abbrev ByStamp (l : List Trigger) : Prop := l.Pairwise fun a b => a.t ≤ b.t

theorem le_of_trigBefore {a b : Trigger} (h : trigBefore a b = true) : a.t ≤ b.t := by
  simp only [trigBefore, Bool.or_eq_true, Bool.and_eq_true, decide_eq_true_eq] at h
  omega

theorem le_of_not_trigBefore {a b : Trigger} (h : trigBefore a b = false) : b.t ≤ a.t := by
  simp only [trigBefore, Bool.or_eq_false_iff, decide_eq_false_iff_not] at h
  omega

theorem insertTrig_perm (x : Trigger) (l : List Trigger) : (insertTrig x l).Perm (x :: l) := by
  induction l with
  | nil => exact .refl _
  | cons y l ih =>
    rw [insertTrig]
    split
    · exact (ih.cons y).trans (.swap x y l)
    · exact .refl _

theorem insertTrig_byStamp {x : Trigger} {l : List Trigger} (h : ByStamp l) : ByStamp (insertTrig x l) := by
  induction l with
  | nil => exact List.pairwise_singleton _ x
  | cons y l ih =>
    obtain ⟨hy, hl⟩ := List.pairwise_cons.1 h
    rw [insertTrig]
    split
    · next hyx =>
      refine List.pairwise_cons.2 ⟨fun z hz => ?_, ih hl⟩
      rcases List.mem_cons.1 ((insertTrig_perm x l).mem_iff.1 hz) with rfl | hz
      · exact le_of_trigBefore hyx
      · exact hy z hz
    · next hyx =>
      have hxy : x.t ≤ y.t := le_of_not_trigBefore (by simpa using hyx)
      refine List.pairwise_cons.2 ⟨fun z hz => ?_, h⟩
      rcases List.mem_cons.1 hz with rfl | hz
      · exact hxy
      · exact hxy.trans (hy z hz)

theorem foldl_insertTrig_perm (l acc : List Trigger) : (l.foldl (fun acc x => insertTrig x acc) acc).Perm (l ++ acc) := by
  induction l generalizing acc with
  | nil => exact .refl _
  | cons x l ih => exact (ih _).trans (((insertTrig_perm x acc).append_left l).trans List.perm_middle)

theorem sortTrigs_perm (l : List Trigger) : (sortTrigs l).Perm l := by
  simpa [sortTrigs] using foldl_insertTrig_perm l []

theorem sortTrigs_byStamp (l : List Trigger) : ByStamp (sortTrigs l) :=
  List.foldlRecOn l _ List.Pairwise.nil fun _ h _ _ => insertTrig_byStamp h

/-! ### What a qualified edge leaves of the levels (R92) -/

theorem fireEntries_pins (src : Nat) (any level : Bool) (t : Int) (at' : Nat) (ok : Nat → Word → State → Bool) (s : State) :
    (fireEntries src any level t at' ok s).trg.pins = s.trg.pins := by
  unfold fireEntries
  split
  · rfl
  · refine foldOver_keeps (fun u : State => u.trg.pins) (fun p u => ?_) _ s
    dsimp only
    split <;> rfl

/-- An edge of a TRIG pin sets the pin's level, whatever fires on it (R14, R92). -/
theorem pinEdge_pins {line : Nat} (hl : line < 4) (level : Bool) (ts : Int) (s : State) :
    (pinEdge line level ts s).trg.pins = setBit s.trg.pins line level := by
  have hown : ownPulse s line ts = false := if_pos hl
  simp only [pinEdge, hown, Bool.false_eq_true, if_false, if_pos hl, modTrg_trg, fireEntries_pins]
  split <;> rfl

/-! ### The store of records -/

@[simp] theorem ev_trg (type : Nat) (p : Bytes) (s : State) : (ev type p s).trg = s.trg := ev_frame.trg (by decide)

/-- Block b is taken: the search for the next one goes on behind it (R100). -/
def blockTaken (b : Nat) (s : State) : State := modTrg (fun g => { g with cursor := (b + 1) % 3584 }) s

theorem takeBlock_free {s : State} {b : Nat} (h : nextFree s = some b) : takeBlock s = (some b, blockTaken b s) := by
  unfold takeBlock
  generalize nextFree s = n at h ⊢
  subst h
  rfl

/-- A field is told by its bits. -/
theorem bits_congr {v w : Word} {hi lo : Nat} (h : ∀ i, lo ≤ i → i ≤ hi → v.getLsbD i = w.getLsbD i) : bits v hi lo = bits w hi lo := by
  refine Nat.eq_of_testBit_eq fun i => ?_
  simp only [bits, Nat.testBit_mod_two_pow, Nat.testBit_shiftRight, BitVec.testBit_toNat]
  by_cases hi' : i < hi + 1 - lo
  · rw [h (lo + i) (by omega) (by omega)]
  · simp [hi']

/-- TRG_CTL written without a change of its configuration fields: the base is the same, and the rings go on (R89, R110). -/
theorem setTrgCtl_unmoved {v : Word} {s : State} (hv : (v ^^^ s.trg.ctl) &&& 0xFE#32 = 0#32) :
    setTrgCtl v s = modTrg (fun g => { g with ctl := v &&& 0xFF#32 }) s := by
  have hbase : bits (v &&& 0xFF#32) 2 1 = bits s.trg.ctl 2 1 := by
    refine bits_congr fun i hlo hhi => ?_
    have hbit : ((v ^^^ s.trg.ctl) &&& 0xFE#32).getLsbD i = false := by simp [hv]
    interval_cases i <;> simpa using hbit
  exact if_pos hbase

/-! ### The rows -/

section
variable {t : Nat} {s : State}

theorem exec_trigEdgeQualify {line : Nat} (hl : line < 6) (level : Bool) (stamp : List Int) :
    exec (.trigEdgeQualify t line level stamp) s = .next (settle (pinEdge line level (stamp.getD (shtBase s) 0) (atTime t s))) :=
  if_neg (Nat.not_le.2 hl)

theorem exec_xlinePulseEnd {line : Nat} {p : XPulse} (hp : s.trg.xout[line]? = some p) (hon : p.on = true) (ht : p.to' ≤ max s.now t) :
    exec (.xlinePulseEnd t line) s = .next (modTrg (fun g => { g with xout := lset g.xout line { p with on := false } }) (atTime t s)) := by
  simp [exec, execXlinePulseEnd, hp, hon, ht]

/-- The one record there is closes, when it is open and its windows have ended (R95). -/
theorem exec_shutterRecordClose {r : ShtRec} (hrec : s.trg.records = [r]) (failing : List Nat) :
    exec (.shutterRecordClose ⟨t, failing⟩) s = .next (closeEnded failing r (atTime t s)) := by
  change go (foldOver s.trg.records (closeEnded failing) (atTime t s)) = _
  rw [hrec]
  rfl

theorem closeEnded_unchained {r : ShtRec} (ho : r.phase = .opened) (he : recEnded r (baseNs s r.tb) = true) (hc : r.chain = none) (failing : List Nat) :
    closeEnded failing r s = closeRec r.recno s := by
  simp [closeEnded, ho, he, hc]

theorem closeEnded_chained {r : ShtRec} {c : Chain} (ho : r.phase = .opened) (he : recEnded r (baseNs s r.tb) = true) (hc : r.chain = some c)
    (failing : List Nat) : closeEnded failing r s = openChain failing r c (closeRec r.recno s) := by
  simp [closeEnded, ho, he, hc]

theorem closeRec_single {r : ShtRec} (hrec : s.trg.records = [r]) :
    closeRec r.recno s = { s with trg := { s.trg with records := [{ r with phase := .closed, chain := none }] } } := by
  simp [closeRec, modRec, modTrg, hrec]

theorem exec_shutterDataBlockWrite {r : ShtRec} (ok : Bool) (hs : storeRuns s = true)
    (hr : s.trg.records.find? (blockReady (atTime t s)) = some r) :
    exec (.shutterDataBlockWrite t ok) s = .next (writeBlock r ok (atTime t s)) := by
  have hs' : storeRuns (atTime t s) = true := hs
  simp [exec, execShutterDataBlockWrite, hs', hr]

/-- The block that is next is taken, and written or found bad (R100, R102, R103). -/
theorem writeBlock_free {b : Nat} (h : nextFree s = some b) (r : ShtRec) (ok : Bool) :
    writeBlock r ok s =
      if ok then modRec r.recno (fun x => { x with written := x.written + 1, blocks := x.blocks ++ [b] }) (blockTaken b s)
      else storeFault b r.recno (blockTaken b s) := by
  unfold writeBlock
  rw [takeBlock_free h]

/-- The header of a record with all its blocks is written again, and the record is committed (R102). -/
theorem exec_shutterCommitComplete_ok {r : ShtRec} (hs : storeRuns s = true) (hr : s.trg.records.find? (allWritten s) = some r) :
    exec (.shutterCommitComplete ⟨t, true⟩) s = .next (committedEvent { r.flag rfCommitted with phase := .committed } r.blocks.length
      (modRec r.recno (fun _ => { r.flag rfCommitted with phase := .committed }) (atTime t s))) := by
  have hs' : storeRuns (atTime t s) = true := hs
  have hr' : s.trg.records.find? (allWritten (atTime t s)) = some r := hr
  simp [exec, execShutterCommitComplete, hs', hr', ShtRec.flag]

/-- The header moves from a block that fails (R103). -/
theorem exec_shutterCommitComplete_failed {r : ShtRec} (hs : storeRuns s = true) (hr : s.trg.records.find? (allWritten s) = some r) :
    exec (.shutterCommitComplete ⟨t, false⟩) s = .next (headerMoves r (atTime t s)) := by
  have hs' : storeRuns (atTime t s) = true := hs
  have hr' : s.trg.records.find? (allWritten (atTime t s)) = some r := hr
  simp [exec, execShutterCommitComplete, hs', hr']

theorem exec_trgArmedWrite_host {v : Word} (hg : s.pwr.gated = false) (ho : operational s = true) (hv : (v ^^^ s.trg.ctl) &&& 0xFE#32 = 0#32) :
    exec (.trgArmedWrite t .host v) s = .next (modTrg (fun g => { g with ctl := v &&& 0xFF#32 }) (atTime t s)) := by
  have ho' : operational (atTime t s) = true := ho
  have hd : dark (atTime t s) = false := dark_of_operational hg ho
  simp [exec, execTrgArmedWrite, hv, ho', regWrite_host hd, setTrgCtl_unmoved (s := atTime t s) hv]

theorem exec_trgForceWrite_host {v : Word} (hd : dark s = false) (hv : bit v 0 = true) (hrun : shtRuns s = true) :
    exec (.trgForceWrite t .host v) s = .next (modTrg (fun g => { g with
      queue := g.queue ++ [⟨shtNow (atTime t s), 0xFFFF, none, bit v 1, false, none, none⟩] }) (atTime t s)) := by
  have hd' : dark (atTime t s) = false := hd
  have hrun' : shtRuns (atTime t s) = true := hrun
  simp [exec, execTrgForceWrite, regWrite_host hd', hv, hrun']

end

/-- Settles O25: each row by its equation, and the order of the triggers by insertion. That a header moves from a block that fails is the model's choice (log entry 188). -/
theorem shutterRowsComplete : Obligations.ShutterRowsComplete := by
  unfold Obligations.ShutterRowsComplete
  refine ⟨fun _ _ _ => rfl, fun l => ⟨sortTrigs_perm l, sortTrigs_byStamp l⟩, fun t line level stamp s hl => exec_trigEdgeQualify hl level stamp,
    fun line level ts s hl => pinEdge_pins hl level ts s, fun t line s p hp hon ht => exec_xlinePulseEnd hp hon ht, ?_, ?_, ?_,
    fun t s r hs hr => exec_shutterCommitComplete_failed hs hr, ?_, fun t v s hg ho hv => exec_trgArmedWrite_host hg ho hv,
    fun t v s hd hv hrun => exec_trgForceWrite_host hd hv hrun⟩
  · intro t failing s r hrec ho he
    have hclosed := closeRec_single (s := atTime t s) hrec
    refine ⟨_, rfl, fun hc => ?_, fun c hc => ?_⟩
    · rw [exec_shutterRecordClose hrec, closeEnded_unchained ho he hc, hclosed]
      rfl
    · rw [exec_shutterRecordClose hrec, closeEnded_chained ho he hc, hclosed]
      rfl
  · intro t s r b hs hr hb
    rw [exec_shutterDataBlockWrite true hs hr, writeBlock_free (s := atTime t s) hb]
    simp [modRec, modTrg, blockTaken]
  · intro t s r b hs hr hb
    have hu := exec_shutterDataBlockWrite false hs hr
    rw [writeBlock_free (s := atTime t s) hb] at hu
    exact ⟨_, hu, execShutterDataBlockWrite_frame.of_next hu, ev_trg ..⟩
  · intro t s r hs hr
    have hu := exec_shutterCommitComplete_ok (t := t) hs hr
    exact ⟨_, hu, execShutterCommitComplete_frame.of_next hu, ev_trg ..⟩

end Sys2Proof.Machine

/-! ## Every row's frame and the queue (R136, R375) -/

namespace Sys2Proof.Machine
-- In order, not in parallel: each thread reserves memory, of which the check of the whole text has little left.
set_option Elab.async false

/-- No row's blocks hold the queue: only a step takes from it (R375). -/
theorem pending_notMem_writes (i : Instr) : Block.pending ∉ writes i := by
  unfold writes
  split <;> decide

/-- A row answers a next state, changes its blocks alone and leaves the queue (R136, R375). -/
theorem exec_becomes_frame (i : Instr) (s : State) : Becomes i s fun u => Frame (writes i) s u ∧ u.pending = s.pending := by
  obtain ⟨u, hu, hframe⟩ := (exec_frame i s).after
  exact ⟨u, hu, hframe, hframe.pending (pending_notMem_writes i)⟩

/-- A step answers a next state and takes the front of the queue alone (R375). -/
theorem step_pending (s : State) : ∃ u, step s = .next u ∧ u.pending = s.pending.tail := by
  cases hq : s.pending with
  | nil => exact ⟨s, by simp [step, hq], hq⟩
  | cons i rest =>
    obtain ⟨u, hu, -, hpending⟩ := exec_becomes_frame i { s with pending := rest }
    exact ⟨u, by simpa [step, hq] using hu, hpending⟩

/-- Settles O51: by the frame of every row, in which the queue never stands. That every row completes in every state is the model's choice (log entries 1, 2). -/
theorem everyRowHasItsFrame : Obligations.EveryRowHasItsFrame := by
  unfold Obligations.EveryRowHasItsFrame
  exact ⟨exec_becomes_frame, step_pending⟩

end Sys2Proof.Machine

/-! ## Sampled values: frames, deadlines, loss, simulation, CS_SEL (R116, R121 to R124, R138, R297, R300) -/

namespace Sys2Proof.Machine
-- In order, not in parallel: each thread reserves memory, of which the check of the whole text has little left.
set_option Elab.async false

/-! ### What an operation leaves of the module state and of the engine -/

@[simp] theorem operational_atTime (t : Nat) (s : State) : operational (atTime t s) = operational s := rfl
@[simp] theorem linkUp_atTime (p t : Nat) (s : State) : linkUp (atTime t s) p = linkUp s p := rfl
@[simp] theorem pairMode_atTime (p t : Nat) (s : State) : pairMode (atTime t s) p = pairMode s p := rfl
@[simp] theorem storeCh_atTime (ch t : Nat) (s : State) : storeCh (atTime t s) ch = storeCh s ch := rfl
@[simp] theorem chDefined_atTime (ch t : Nat) (s : State) : chDefined (atTime t s) ch = chDefined s ch := rfl

theorem operational_congr {s u : State} (h : u.sys = s.sys) : operational u = operational s := by simp [operational, h]

theorem prpReceive_operational (row p src : Nat) (rct : Option (Nat × Nat)) (sup : Bool) (s : State) :
    operational (prpReceive row p src rct sup s).2 = operational s :=
  operational_congr (prpReceive_frame.sys (by decide))

@[simp] theorem ev_sve (type : Nat) (p : Bytes) (s : State) : (ev type p s).sve = s.sve := ev_frame.sve (by decide)

/-! ### The store at a deadline (R124) -/

/-- Only a channel that the table holds has a sample before an index: one that holds nothing has no slot and no written value. -/
theorem tget_chans_of_before {s : State} {ch k : Nat} {x : Word × Quality} (h : (storeCh s ch).before k = some x) :
    ∃ c, tget s.sve.chans ch = some c := by
  cases hc : tget s.sve.chans ch with
  | some c => exact ⟨c, rfl⟩
  | none =>
    have hempty : (storeCh s ch).before k = none := by
      unfold storeCh
      rw [hc]
      dsimp only
      split
      · rfl
      · split <;> rfl
    simp [hempty] at h

/-- A channel that the table holds is read from the table. -/
theorem storeCh_of_tget {s : State} {ch : Nat} {c : StoreCh} (h : tget s.sve.chans ch = some c) : storeCh s ch = c := by
  simp [storeCh, h]

theorem countMiss_chans (ch : Nat) (s : State) : (countMiss ch s).sve.chans = s.sve.chans := by
  unfold countMiss
  dsimp only
  split <;> rfl

/-- A remote channel's final slot is in its store, its kept deadline gone (R111, R123): publications carry local channels alone. -/
theorem storeCh_finalise_remote {ch : Nat} (h : 24 ≤ ch) (x : Slot) (s : State) :
    storeCh (finalise ch x s) ch = { (storeCh s ch).insert x with kept := (storeCh s ch).kept.filter fun y => y.1 != x.k } := by
  apply storeCh_of_tget
  simp only [finalise, Nat.not_lt.2 h, if_false]
  rw [blocksForm_frame.sve (by decide), ringPush_frame.sve (by decide)]
  simp [modCh, tget_tset, StoreCh.insert]

/-- The slot that a deadline fills within SUBST_MAX holds the last written value, marked SUBST (R124). -/
theorem storeCh_substitute_held {s : State} {ch k : Nat} {v : Word} {q : Quality} (h : 24 ≤ ch) (hb : (storeCh s ch).before k = some (v, q))
    (hn : (storeCh s ch).missed k + 1 ≤ substMax s ch) :
    storeCh (substitute ch k s) ch =
      { (storeCh s ch).insert ⟨k, v, q ||| 0x0400#16, false⟩ with kept := (storeCh s ch).kept.filter fun y => y.1 != k } := by
  obtain ⟨c, hc⟩ := tget_chans_of_before hb
  have hmiss : tget (countMiss ch s).sve.chans ch = some c := by rw [countMiss_chans, hc]
  simp only [substitute, hb, if_pos hn]
  rw [storeCh_finalise_remote h]
  have hkept : ∀ u : State, u.sve = (countMiss ch s).sve → storeCh u ch = storeCh s ch := fun u hu => by
    rw [storeCh_of_tget (hu ▸ hmiss), storeCh_of_tget hc]
  rw [hkept]
  split
  · exact ev_sve ..
  · rfl

/-- The row of a deadline that has passed for an index not yet final (R123, R124). -/
theorem exec_slotDeadline {t ch k : Nat} {s : State} (ho : operational s = true) (hd : chDefined s ch = true) (hf : (storeCh s ch).final k = false)
    (hdue : deadlineAt (atTime t s) ch k ≤ max s.now t) (hsince : (storeCh s ch).since < deadlineAt (atTime t s) ch k) :
    exec (.slotDeadline t ch k) s = .next (substitute ch k (atTime t s)) := by
  simp [exec, execSlotDeadline, deadlinePassed, ho, hd, hf, hdue, hsince]

/-! ### A frame of a stream (R116, R297, R300) -/

section
variable {t : Nat} {f : SvFrame} {s u : State}

/-- The port takes frames of streams: it is PA or PB, its link is up, and the module has power (R111, R116). -/
theorem svPort_receives (hp : f.link.port < 2) (hl : linkUp s f.link.port = true) (ho : operational s = true) :
    ¬(2 ≤ f.link.port ∨ linkUp s f.link.port = false ∨ s.sys.st = .off ∨ s.sys.st = .safelight) := by
  have hst : s.sys.st = .service ∨ s.sys.st = .maint := by simpa [operational] using ho
  rcases hst with hst | hst <;> simp [hl, hst, hp]

/-- Where the pair is neither in PRP nor in Bracket, every frame is taken in (R296). -/
theorem exec_svFrameReceive_independent (hp : f.link.port < 2) (hl : linkUp s f.link.port = true) (ho : operational s = true)
    (hprp : pairMode s 0 ≠ 1) (hbracket : pairMode s 0 ≠ 2) : exec (.svFrameReceive t f) s = .next (svIntake f (atTime t s)) := by
  simp [exec, execSvFrameReceive, svPort_receives hp hl ho, hprp, hbracket, ho, foldOver]

/-- In PRP the duplicate discard lets the first copy through (R297). -/
theorem exec_svFrameReceive_prp {pass : Bool} (hp : f.link.port < 2) (hl : linkUp s f.link.port = true) (ho : operational s = true)
    (hmode : pairMode s 0 = 1) (hstage : prpReceive prpSv f.link.port f.link.src f.link.rct false (atTime t s) = (pass, u)) :
    exec (.svFrameReceive t f) s = .next (if pass then svIntake f u else u) := by
  have hu : operational u = true := by
    have hkeep := prpReceive_operational prpSv f.link.port f.link.src f.link.rct false (atTime t s)
    rw [hstage] at hkeep
    exact hkeep.trans ho
  cases pass <;> simp [exec, execSvFrameReceive, svPort_receives hp hl ho, hmode, hstage, hu, foldOver]

/-- In Bracket the stage of a stream that admits both ports decides (R300, R303). -/
theorem exec_svFrameReceive_bothPorts {n : Nat} {x : SvSub} {l : List SvFrame} (hp : f.link.port < 2) (hl : linkUp s f.link.port = true)
    (ho : operational s = true) (hmode : pairMode s 0 = 2) (hm : svMatch (atTime t s) f = some (n, x)) (hboth : x.cfg.flags % 4 = 3)
    (hstage : svBracket n x f (atTime t s) = (l, u)) (hu : operational u = true) : exec (.svFrameReceive t f) s = .next (foldOver l svIntake u) := by
  simp [exec, execSvFrameReceive, svPort_receives hp hl ho, hmode, hm, hboth, hstage, hu]

/-- In Bracket a frame of any other stream, or of none, passes on the active port (R300). -/
theorem exec_svFrameReceive_activePort (hp : f.link.port < 2) (hl : linkUp s f.link.port = true) (ho : operational s = true)
    (hmode : pairMode s 0 = 2) (hone : ∀ n x, svMatch (atTime t s) f = some (n, x) → x.cfg.flags % 4 ≠ 3) :
    exec (.svFrameReceive t f) s = .next (if activePort (atTime t s) 0 = some f.link.port then svIntake f (atTime t s) else atTime t s) := by
  have hpassed : exec (.svFrameReceive t f) s =
      .next (foldOver (if activePort (atTime t s) 0 = some f.link.port then [f] else []) svIntake (atTime t s)) := by
    cases hm : svMatch (atTime t s) f with
    | none => simp [exec, execSvFrameReceive, svPort_receives hp hl ho, hmode, hm, ho]
    | some p => simp [exec, execSvFrameReceive, svPort_receives hp hl ho, hmode, hm, hone p.1 p.2 hm, ho]
  rw [hpassed]
  split <;> rfl

/-- A frame of no subscription is counted (R116 step 2). -/
theorem svIntake_unmatched (h : svMatch s f = none) : svIntake f s = { s with sve := { s.sve with unmatched := satInc s.sve.unmatched } } := by
  simp [svIntake, h, modSve]

end

/-! ### Loss, simulation and CS_SEL (R121, R122, R138) -/

section
variable {t : Nat} {s : State}

/-- A stream that has been silent for ten frame periods is LOST (R122). -/
theorem exec_svStreamLostTimeout {sub l : Nat} {u : SvSub} (h : tget s.sve.subs sub = some u) (hrun : u.st = .running) (hlast : u.lastAt = some l)
    (hsilent : l + tenFrames u.cfg ≤ max s.now t) :
    exec (.svStreamLostTimeout t sub) s =
      .next (ev 0x0401 (u16 sub ++ u16 0 ++ u32 u.lastCnt) (modSub sub (fun x => { x with st := .lost, lastK := none }) (atTime t s))) := by
  simp [exec, execSvStreamLostTimeout, h, hrun, hlast, hsilent]

/-- Subscriptions taken out of simulation, and those of GOOSE marked as normal (R121). -/
def simulationEnded (s : State) : State :=
  modSve (fun x => { x with gsubs := x.gsubs.map fun g => (g.1, { g.2 with simulated := false }) })
    (foldOver ((s.sve.subs.filter fun p => p.2.simulated).map Prod.fst) (fun n s => setSimulated n false s) s)

/-- The host's write of SVE_SIM in SERVICE and MAINT (R121, R138). -/
theorem exec_sveSimWrite_host {v : Word} (hg : s.pwr.gated = false) (ho : operational s = true) :
    exec (.sveSimWrite t .host v) s =
      .next (if bit v 0 then modSve (fun x => { x with sim := true }) (atTime t s)
        else simulationEnded (modSve (fun x => { x with sim := false }) (atTime t s))) := by
  have hd : dark (atTime t s) = false := dark_of_operational hg ho
  cases hv : bit v 0 <;> simp [exec, execSveSimWrite, hd, ho, regWrite_host hd, hv, simulationEnded]

theorem emptyCh_sim (ch tb rate : Nat) (s : State) : (emptyCh ch tb rate s).sve.sim = s.sve.sim := by
  rw [emptyCh, ringDrop_frame.sve (by decide), modSve_sve]

theorem setSimulated_sim (n : Nat) (on : Bool) (s : State) : (setSimulated n on s).sve.sim = s.sve.sim := by
  unfold setSimulated
  split
  · rfl
  · rw [ev_sve, zonesResume_frame.sve (by decide)]
    exact foldOver_keeps (fun s : State => s.sve.sim) (fun c s => emptyCh_sim c _ _ s) _ _

theorem simulationEnded_sim (s : State) : (simulationEnded s).sve.sim = s.sve.sim :=
  foldOver_keeps (fun s : State => s.sve.sim) (fun n s => setSimulated_sim n false s) _ s

theorem simulationEnded_gsubs (s : State) : ∀ g ∈ (simulationEnded s).sve.gsubs, g.2.simulated = false := by
  intro g hg
  obtain ⟨x, -, rfl⟩ := List.mem_map.1 hg
  rfl

/-- The host's selection of a channel that holds a slot shows the latest one (R138). -/
theorem exec_sveCsSelWrite_host {v : Word} {x : Slot} (hd : dark s = false) (hc : chDefined s (bits v 12 0) = true)
    (hx : (storeCh s (bits v 12 0)).slots.head? = some x) :
    exec (.sveCsSelWrite t .host v) s = .next (modSve (fun z => { z with
      csSel := bits v 12 0, csVal := x.v, csQ := wd (x.q.toNat + (condOf false x.q).code * 65536)
      csK := (kToN (atTime t s) (storeCh s (bits v 12 0)).tb (storeCh s (bits v 12 0)).rate x.k % rateHz (storeCh s (bits v 12 0)).rate).toNat })
        (atTime t s)) := by
  simp [exec, execSveCsSelWrite, regWrite_host (s := atTime t s) hd, hc, hx]

end

/-- Settles O17: each row by its equation, and what a deadline and the end of simulation leave. That a write of SIM = 0 ends simulation of every subscription at once is the model's choice (log entry 79). -/
theorem sampledValueRowsComplete : Obligations.SampledValueRowsComplete := by
  unfold Obligations.SampledValueRowsComplete
  refine ⟨?_, fun t f s hp hl ho hprp hbr => exec_svFrameReceive_independent hp hl ho hprp hbr,
    fun t f s pass u hp hl ho hmode hstage => exec_svFrameReceive_prp hp hl ho hmode hstage,
    fun t f s n x l u hp hl ho hmode hm hboth hstage hu => exec_svFrameReceive_bothPorts hp hl ho hmode hm hboth hstage hu,
    fun t f s hp hl ho hmode hone => exec_svFrameReceive_activePort hp hl ho hmode hone,
    fun t ch k s ho hd hf hdue hsince => ⟨exec_slotDeadline ho hd hf hdue hsince, fun v q hch hb hn => ?_⟩,
    fun t sub s u l hsub hrun hlast hsilent => ⟨_, exec_svStreamLostTimeout hsub hrun hlast hsilent, ?_, ev_sve ..⟩, ?_, ?_,
    fun t v s x hd hc hx => exec_sveCsSelWrite_host hd hc hx⟩
  · intro t f s hp hl ho hprp hbr hm
    rw [exec_svFrameReceive_independent hp hl ho hprp hbr, svIntake_unmatched hm]
    rfl
  · exact storeCh_substitute_held (s := atTime t s) hch hb hn
  · exact ((atTime_frame.mono rfl).app modSub_frame rfl).app ev_frame rfl
  · intro t v s hg ho hv
    rw [exec_sveSimWrite_host hg ho, if_pos hv]
    rfl
  · intro t v s hg ho hv
    refine ⟨_, exec_sveSimWrite_host hg ho, ?_⟩
    rw [hv]
    exact ⟨simulationEnded_sim _, simulationEnded_gsubs _⟩

end Sys2Proof.Machine

/-! ## GOOSE: reception, TAL, retransmission, G bits (R132 to R134, R297) -/

namespace Sys2Proof.Machine
-- In order, not in parallel: each thread reserves memory, of which the check of the whole text has little left.
set_option Elab.async false

@[simp] theorem portReceives_atTime (p t : Nat) (s : State) : portReceives (atTime t s) p = portReceives s p := rfl
@[simp] theorem pairAdmits_atTime (p t : Nat) (s : State) : pairAdmits (atTime t s) p = pairAdmits s p := rfl

section
variable {t : Nat} {f : GooseFrame} {s u : State}

/-- A frame that the redundancy stage drops does nothing (R297). -/
theorem exec_gooseFrameReceive_dropped (ho : operational s = true) (hp : portReceives s f.link.port = true) (ha : pairAdmits s f.link.port = true)
    (hstage : gooseStage (atTime t s) f = (false, u)) : exec (.gooseFrameReceive t f) s = .next u := by
  simp [exec, execGooseFrameReceive, ho, hp, ha, hstage]

/-- A frame that passes and matches is taken in, or counted as refused (R132). -/
theorem exec_gooseFrameReceive_matched {n : Nat} {g : Gsub} (ho : operational s = true) (hp : portReceives s f.link.port = true)
    (ha : pairAdmits s f.link.port = true) (hstage : gooseStage (atTime t s) f = (true, u)) (hm : gooseMatch u f = some (n, g)) :
    exec (.gooseFrameReceive t f) s =
      .next (if gooseAccepts u g f then gooseTake n g f u else modGsub n (fun x => { x with err := satInc x.err }) u) := by
  cases hacc : gooseAccepts u g f <;> simp [exec, execGooseFrameReceive, ho, hp, ha, hstage, hm, hacc]

/-- The Shutter's time is that of its base, which neither a record nor a subscription's state moves. -/
theorem shtNow_ev_modGsub (type : Nat) (p : Bytes) (n : Nat) (h : Gsub → Gsub) (s : State) : shtNow (ev type p (modGsub n h s)) = shtNow s := by
  simp only [shtNow, shtBase, baseNs, baseOf, ev_trg, ev_frame.tbs (by decide), ev_frame.now (by decide), modGsub_trg, modGsub_tbs, modGsub_now]

/-- TALEXP of a subscription that still waits for a frame (R133). -/
theorem exec_gooseTalExpire {gsub e : Nat} {g : Gsub} (h : tget s.sve.gsubs gsub = some g) (hx : g.talExpired = false) (he : g.talEnd = some e)
    (hdue : e ≤ max s.now t) (ho : operational s = true) :
    exec (.gooseTalExpire t gsub) s = .next (setGBits (g.cfg.bits.map fun m => (m.gbit, m.subst == 1, false)) (shtNow (atTime t s))
      (ev 0x040A (u8 gsub ++ zeros 3 ++ u32 g.stNum) (modGsub gsub (fun x => { x with valid := false, talExpired := true, talEnd := none }) (atTime t s)))) := by
  simp [exec, execGooseTalExpire, h, hx, he, hdue, ho, shtNow_ev_modGsub]

/-- A publication whose interval is over and whose gate is open goes out again, anew where a member has changed (R134). -/
theorem exec_gooseRetransmit {gpub n : Nat} {g : Gpub} (h : tget s.sve.gpubs gpub = some g) (hrun : g.running = true) (hnext : g.next = some n)
    (hdue : n ≤ max s.now t) (ho : operational s = true) (hgate : gooseGated (atTime t s) g = false) :
    exec (.gooseRetransmit t gpub) s = .next (if g.gatedOff || g.cfg.members.map (gooseMember (atTime t s)) != g.values then gooseChange gpub (atTime t s)
      else gooseSend gpub (modSve (fun v => { v with gpubs := tmod v.gpubs gpub fun x =>
        { x with sqNum := (x.sqNum + 1) % 2 ^ 32, interval := min (2 * x.interval) x.cfg.maxtimeMs } }) (atTime t s))) := by
  rw [apply_ite Host.Outcome.next]
  simp [exec, execGooseRetransmit, h, hnext, hrun, hdue, ho, hgate]

end

/-- A G bit takes its value and its validity (R132); a change of value goes to the Shutter alone (R90). -/
theorem setGBit_bits {n : Nat} (hn : n < 1024) (v valid : Bool) (ts : Int) (s : State) :
    (setGBit n v valid ts s).sve.gbits = setBit s.sve.gbits n v ∧ (setGBit n v valid ts s).sve.gvalid = setBit s.sve.gvalid n valid := by
  have hsve : (setGBit n v valid ts s).sve = { s.sve with gbits := setBit s.sve.gbits n v, gvalid := setBit s.sve.gvalid n valid } := by
    unfold setGBit
    rw [if_neg (Nat.not_le.2 hn)]
    dsimp only
    split
    · rfl
    · exact srcEdge_frame.sve (by decide)
  exact ⟨congrArg Sve.gbits hsve, congrArg Sve.gvalid hsve⟩

/-- Settles O19: each row by its equation, and what a G bit's change leaves. -/
theorem gooseRowsComplete : Obligations.GooseRowsComplete := by
  unfold Obligations.GooseRowsComplete
  refine ⟨fun t f s u ho hp ha hstage => exec_gooseFrameReceive_dropped ho hp ha hstage,
    fun t f s u n g ho hp ha hstage hm => ⟨fun hacc => ?_, fun hacc => ?_⟩,
    fun t gsub s g e h hx he hdue ho => exec_gooseTalExpire h hx he hdue ho,
    fun t gpub s g n h hrun hnext hdue ho hgate => ⟨fun hopen hsame => ?_, fun hchanged => ?_⟩,
    fun n v valid ts s hn => ⟨(setGBit_bits hn v valid ts s).1, (setGBit_bits hn v valid ts s).2, setGBit_frame⟩⟩
  · rw [exec_gooseFrameReceive_matched ho hp ha hstage hm, if_pos hacc]
  · rw [exec_gooseFrameReceive_matched ho hp ha hstage hm, hacc]
    rfl
  · rw [exec_gooseRetransmit h hrun hnext hdue ho hgate, hopen, hsame]
    simp [modSve]
  · rw [exec_gooseRetransmit h hrun hnext hdue ho hgate, if_pos (by simp [hchanged])]

end Sys2Proof.Machine

/-! ## PRT_OWNERSHIP OP 0 of a zone whose ownership is not in force (R195, R304, R371) -/

namespace Sys2Proof.Machine
-- In order, not in parallel: each thread reserves memory, of which the check of the whole text has little left.
set_option Elab.async false

/-! ### A reply shows its payload -/

/-- Payloads of one length that make the same reply packet are the same (R371). -/
theorem replyOctets_payload_inj {s : State} {rt : ReplyTo} {data : Bool} {st d : Nat} {p q : Bytes} (hl : p.length = q.length)
    (h : replyOctets s rt data st d p = replyOctets s rt data st d q) : p = q := by
  unfold replyOctets at h
  rw [hl] at h
  cases hk : rt.key with
  | none =>
    rw [hk] at h
    exact List.append_cancel_left h
  | some k =>
    rw [hk] at h
    exact List.append_cancel_left (List.append_inj h (by simp [hl])).1

theorem postNotice_out (n addr : Nat) (s : State) : ∃ l, (postNotice n addr s).out = s.out ++ l := by
  unfold postNotice
  dsimp only
  split
  · exact ⟨_, rfl⟩
  · exact ⟨[], (List.append_nil _).symm⟩

/-- A reply that does not go over UDP goes out first, and then its notice (R366). -/
theorem sendReply_out {rt : ReplyTo} (hu : isUdp rt.src = false) (o : Bytes) (s : State) :
    ∃ l, (sendReply rt o s).out = s.out ++ .reply rt.src rt.remote rt.hdr.replyAddr o :: l := by
  simp only [sendReply, hu, Bool.false_eq_true, if_false]
  split
  · obtain ⟨l, hl⟩ := postNotice_out rt.src rt.hdr.replyAddr (emit (.reply rt.src rt.remote rt.hdr.replyAddr o) s)
    exact ⟨l, by simp [hl]⟩
  · exact ⟨[], rfl⟩

theorem sendReply_octets_inj {rt : ReplyTo} (hu : isUdp rt.src = false) {o o' : Bytes} {s : State} (h : sendReply rt o s = sendReply rt o' s) : o = o' := by
  obtain ⟨l, hl⟩ := sendReply_out hu o s
  obtain ⟨l', hl'⟩ := sendReply_out hu o' s
  have hout : Out.reply rt.src rt.remote rt.hdr.replyAddr o :: l = .reply rt.src rt.remote rt.hdr.replyAddr o' :: l' :=
    List.append_cancel_left (hl.symm.trans ((congrArg State.out h).trans hl'))
  injection hout with hreply
  injection hreply

/-- What a command without NOREPLY answers on a channel or the console tells payloads of one length apart. -/
theorem reply_payload_inj {rt : ReplyTo} (hn : rt.hdr.noreply = false) (hu : isUdp rt.src = false) {st d : Nat} {p q : Bytes} {s : State}
    (hl : p.length = q.length) (h : reply rt st d p s = reply rt st d q s) : p = q := by
  simp only [reply, hn, Bool.false_eq_true, if_false] at h
  exact replyOctets_payload_inj hl (sendReply_octets_inj hu h)

/-! ### The row -/

/-- The requirements of PRT_OWNERSHIP with OP 0 (R195). -/
abbrev ownReadReq : CmdReq := ⟨0x0406, false, plenIs 4, 16, [.service, .maint]⟩

@[simp] theorem ownReply_length (s : State) (z : Nat) : (ownReply s z).length = 16 := by simp [ownReply]

theorem exec_prtOwnershipRead {t : Nat} {e : Env} {s u : State} {rt : ReplyTo} {zone : Nat} (hb : begins e ownReadReq (atTime t s) = some (rt, u))
    (hr : e.resvOk = true) (hz : zone < 64) :
    exec (.prtOwnershipRead t e zone) s = .next (answered u.cmd.queue.length rt (ownReply u zone) u) := by
  simp [exec, execPrtOwnershipRead, runCmd_begins hb, firstFail_cons, bad, hz, checked_ok hr, answered]

/-- A reply of PRT_OWNERSHIP begins with the epoch as R304 has it reported. -/
theorem ownReply_head_epoch {s : State} {z : Nat} {a b : Bytes} (ha : a.length = 4) (h : a ++ b <+: ownReply s z) : a = u32 (ownEpoch s z) := by
  obtain ⟨r, hr⟩ := h
  simp only [ownReply, List.append_assoc] at hr
  exact (List.append_inj hr (by simp [ha])).1

/-- The epoch of a zone whose ownership is not in force is reported as 0 (R304). -/
theorem ownEpoch_not_ownEff {s : State} {z : Nat} (h : ownEff s z = false) : ownEpoch s z = 0 := by simp [ownEpoch, h]

/-! ### The counterexample -/

/-- A module in MAINT that has held zone 3 with epoch 41, and in which ownership is no longer in force: UNIT_ID is 0. -/
def ownWithdrawn : State :=
  { State.reset with
    sys := { Sys.reset with st := .maint }
    cmd := { Cmd.reset with interp := true }
    red := { Red.reset with zones := lmod Red.reset.zones 3 fun z => { z with epoch := 41 } } }

/-- PRT_OWNERSHIP OP 0 of zone 3 on channel 0, without AUTH and without NOREPLY. -/
def ownReadPacket : Env := ⟨0, (0, 0), 1, ⟨0x0406, 0, 7, 4, 0, 0, 0x1000, 64, 0⟩, [3#8, 0#8, 0#8, 0#8], [], true⟩

theorem begins_ownReadPacket :
    begins ownReadPacket ownReadReq (atTime 0 ownWithdrawn) = some (replyToOf ownReadPacket none, atTime 0 ownWithdrawn) := rfl

/-- Refutes O7: its clause on PRT_OWNERSHIP OP 0 promises the stored epoch of every zone, and by R304 the reply holds epoch 0 where ownership is not in force. `ownWithdrawn` stores 41 for zone 3 and replies 0. -/
theorem not_protectionCommandsComplete : ¬ Obligations.ProtectionCommandsComplete := by
  unfold Obligations.ProtectionCommandsComplete
  rintro ⟨-, -, -, -, -, hread, -⟩
  obtain ⟨p, hlen, hhead, hexec⟩ := hread 3 (by decide) 0 ownReadPacket ownWithdrawn _ _ begins_ownReadPacket rfl trivial
  rw [exec_prtOwnershipRead begins_ownReadPacket rfl (by decide)] at hexec
  injection hexec with hanswer
  have hp : ownReply (atTime 0 ownWithdrawn) 3 = p :=
    reply_payload_inj (rt := replyToOf ownReadPacket none) (st := stOk) (d := 0) (s := atTime 0 ownWithdrawn) rfl rfl ((ownReply_length ..).trans hlen.symm) hanswer
  rw [← hp] at hhead
  have hepoch := ownReply_head_epoch (le_length ..) hhead
  rw [ownEpoch_not_ownEff rfl] at hepoch
  exact absurd hepoch (by decide)

end Sys2Proof.Machine

/-! ## Programs of the Pedin BL: jumps go forward, so every program ends (R209, R210) -/

namespace Sys2Proof.Machine
-- In order, not in parallel: each thread reserves memory, of which the check of the whole text has little left.
set_option Elab.async false

/-! ### What an image without a fault holds -/

/-- A fold whose every step finds something finds nothing only in the empty list. -/
theorem eq_nil_of_foldl_eq_none {α : Type} {f : Option α → α → Option α} (hf : ∀ m x, (f m x).isSome = true) {l : List α}
    (h : l.foldl f none = none) : l = [] := by
  rcases l.eq_nil_or_concat' with rfl | ⟨r, x, rfl⟩
  · rfl
  · rw [List.foldl_concat] at h
    simpa [h] using hf (r.foldl f none) x

/-- In an image without a fault every instruction obeys R207 to R209. -/
theorem instrOk_of_imgFault_none {g : Image} (hg : imgFault g = none) {i : Nat} {ins : BlInstr} (h : g.prog[i]? = some ins) :
    instrOk g i ins = true := by
  have hbad := eq_nil_of_foldl_eq_none (fun m x => by cases m <;> rfl) hg
  simp only [List.append_eq_nil_iff, List.filterMap_eq_nil_iff] at hbad
  obtain ⟨⟨⟨heach, -⟩, -⟩, -⟩ := hbad
  have hmem : (i, ins) ∈ imap (fun i x => (i, x)) g.prog := List.mem_iff_getElem?.2 ⟨i, by simp [imap, h]⟩
  by_contra hno
  simpa [hno] using heach _ hmem

theorem opKind_of_jump {op : Nat} (h : op = 0x18 ∨ op = 0x19 ∨ op = 0x1A) : opKind op = some 3 := by
  rcases h with rfl | rfl | rfl <;> rfl

/-- A jump that obeys R209 goes forward, and stays inside the program. -/
theorem jump_target {g : Image} {i : Nat} {ins : BlInstr} (hk : opKind ins.op = some 3) (h : instrOk g i ins = true) :
    i < ins.opnd ∧ ins.opnd < g.prog.length := by
  simp only [instrOk, hk, Bool.and_eq_true, decide_eq_true_eq] at h
  exact ⟨h.1.2, h.2⟩

/-! ### An instruction moves the program counter forward -/

@[simp] theorem execWrite_pc (s : State) (area n : Nat) (v : Bool) (x : Exec) : (execWrite s area n v x).c.pc = x.c.pc := by
  unfold execWrite
  split <;> rfl

theorem execReturn_pc (s : State) (g : Image) (r : NativeRet) (x : Exec) : (execReturn s g r x).c.pc = x.c.pc := by
  refine foldOver_keeps (fun x : Exec => x.c.pc) (f := fun (p : Nat × Nat × Nat) x => match r.out[p.1]? with
    | some v => execWrite s p.2.1 p.2.2 v x
    | none => x) (fun p x => ?_) _ x
  split
  · exact execWrite_pc ..
  · rfl

/-- Only a jump sets the program counter, and to its operand (R208). -/
theorem execInstr_pc (s : State) (g : Image) (i : Nat) (ins : BlInstr) (x : Exec) :
    (execInstr s g i ins x).c.pc = x.c.pc ∨ opKind ins.op = some 3 ∧ (execInstr s g i ins x).c.pc = ins.opnd := by
  unfold execInstr
  dsimp only
  split
  case h_1 =>
    left
    split <;> rfl
  case h_2 =>
    left
    split
    · exact execWrite_pc ..
    · split
      · exact execWrite_pc ..
      · split
        · rfl
        · exact execWrite_pc ..
  case h_3 hk =>
    split
    · exact .inr ⟨hk, rfl⟩
    · exact .inl rfl
  case h_4 =>
    left
    split
    · exact execReturn_pc ..
    · rfl
  case h_5 => exact .inl rfl
  case h_6 => exact .inl rfl
  case h_7 =>
    left
    split <;> rfl
  case h_8 => exact .inl rfl
  case h_9 =>
    left
    split
    · rfl
    · split
      · split <;> rfl
      · split <;> rfl

/-- R209: the next instruction of an image without a fault has a greater index. -/
theorem execInstr_pc_forward {g : Image} (hg : imgFault g = none) (s : State) {x : Exec} {ins : BlInstr} (h : g.prog[x.c.pc]? = some ins) :
    x.c.pc < (execInstr s g x.c.pc ins { x with c := { x.c with pc := x.c.pc + 1 } }).c.pc := by
  rcases execInstr_pc s g x.c.pc ins { x with c := { x.c with pc := x.c.pc + 1 } } with hpc | ⟨hk, hpc⟩
  · rw [hpc]
    exact Nat.lt_succ_self _
  · rw [hpc]
    exact (jump_target hk (instrOk_of_imgFault_none hg h)).1

/-! ### The program ends -/

/-- The cycle has ended, or waits for a native call. -/
def Exec.Halted (x : Exec) : Prop := x.c.ended = true ∨ x.c.inCall.isSome = true

/-- Steps for the instructions that are left, and one for the end, are enough. -/
theorem execProg_halted {g : Image} (hg : imgFault g = none) (s : State) (n : Nat) (x : Exec) (hn : g.prog.length ≤ x.c.pc + n) :
    (execProg s g (n + 1) x).Halted := by
  induction n generalizing x with
  | zero =>
    unfold execProg
    split
    · rename_i h
      simpa [Exec.Halted] using h
    · rw [List.getElem?_eq_none (i := x.c.pc) hn]
      exact .inl rfl
  | succ n ih =>
    unfold execProg
    split
    · rename_i h
      simpa [Exec.Halted] using h
    · split
      · exact .inl rfl
      · rename_i ins h
        have hpc := execInstr_pc_forward hg s h
        exact ih _ (by omega)

/-- Settles O23: in an image without a fault the program counter rises with every instruction, and so runs out of the program. -/
theorem logicProgramsEnd : Obligations.LogicProgramsEnd := by
  unfold Obligations.LogicProgramsEnd
  intro s g
  have htarget (i : Nat) (ins : BlInstr) (h : g.prog[i]? = some ins) (hj : ins.op = 0x18 ∨ ins.op = 0x19 ∨ ins.op = 0x1A) (hg : imgFault g = none) :
      i < ins.opnd ∧ ins.opnd < g.prog.length := jump_target (opKind_of_jump hj) (instrOk_of_imgFault_none hg h)
  refine ⟨htarget, fun i ins h hj hout => ?_, fun x ins hg h => execInstr_pc_forward hg s h,
    fun x hg => execProg_halted hg s g.prog.length x (Nat.le_add_left ..)⟩
  by_contra hg
  have ⟨hforward, hinside⟩ := htarget i ins h hj (by simpa using hg)
  omega

end Sys2Proof.Machine

/-! ## Timers and counters of the Pedin BL (R212 to R214) -/

namespace Sys2Proof.Machine
-- In order, not in parallel: each thread reserves memory, of which the check of the whole text has little left.
set_option Elab.async false

section
variable (pt : Nat) (st : Int) (x : TimerSt)

theorem timerStep_ton_q (inp : Bool) :
    (timerStep 0 pt st inp x).q = (inp && decide (pt ≤ if x.running then timerEt st x else 0)) := by
  cases inp with
  | false => rfl
  | true => cases hr : x.running <;> simp [timerStep, timerEt, hr]

/-- A TON without a preset follows its input (R213). -/
theorem timerStep_ton_zero (inp : Bool) : (timerStep 0 0 st inp x).q = inp := by simp [timerStep_ton_q]

theorem timerStep_tof_on : (timerStep 1 pt st true x).q = true ∧ (timerStep 1 pt st true x).running = false := ⟨rfl, rfl⟩

/-- The fall of IN starts a TOF (R212). -/
theorem timerStep_tof_falls (hin : x.inp = true) (hrun : x.running = false) :
    (timerStep 1 pt st false x).running = true ∧ (timerStep 1 pt st false x).t0 = st ∧ (timerStep 1 pt st false x).q = decide (0 < pt) := by
  simp [timerStep, timerEt, hin, hrun]

/-- A TP that runs takes no further edge until its preset is over (R212). -/
theorem timerStep_tp_runs (inp : Bool) (hrun : x.running = true) (het : timerEt st x < pt) :
    (timerStep 2 pt st inp x).q = true ∧ (timerStep 2 pt st inp x).t0 = x.t0 := by
  have hgo : ¬ pt ≤ timerEt st x := Nat.not_le.2 het
  simpa [timerStep, hgo, hrun] using het

/-- The rise of IN starts a TP (R212). -/
theorem timerStep_tp_rises (hin : x.inp = false) (hrun : x.running = false) (hpt : 0 < pt) :
    (timerStep 2 pt st true x).q = true ∧ (timerStep 2 pt st true x).t0 = st := by
  simp [timerStep, timerEt, hin, hrun, hpt]

end

/-- CTU counts a rising CR, up to the top of a u32 (R214). -/
theorem counterStep_up_cv (cr : Bool) (c : CounterSt) :
    (counterStep false cr c).cv = if cr ∧ c.prev = false then min (c.cv + 1) 0xFFFFFFFF else c.cv := by simp [counterStep]

/-- CTD counts a rising CR, down to 0 (R214). -/
theorem counterStep_down_cv (cr : Bool) (c : CounterSt) : (counterStep true cr c).cv = if cr ∧ c.prev = false then c.cv - 1 else c.cv := by
  simp [counterStep]

theorem counterStep_up_le {c : CounterSt} (h : c.cv ≤ 0xFFFFFFFF) (cr : Bool) : (counterStep false cr c).cv ≤ 0xFFFFFFFF := by
  rw [counterStep_up_cv]
  split
  · exact Nat.min_le_right ..
  · exact h

/-- Settles O24, by the cases of each timer and of a counter. -/
theorem timersAndCounters : Obligations.TimersAndCounters := by
  unfold Obligations.TimersAndCounters
  exact ⟨fun pt st inp x => timerStep_ton_q pt st x inp, fun st inp x => timerStep_ton_zero st x inp, timerStep_tof_on, timerStep_tof_falls,
    fun pt st inp x => timerStep_tp_runs pt st x inp, timerStep_tp_rises,
    fun cr c => ⟨rfl, rfl, fun h => ⟨counterStep_up_cv cr c, counterStep_up_le h cr, counterStep_down_cv cr c⟩⟩⟩

end Sys2Proof.Machine

/-! ## Logic commands: load, on-line change, forces, status (R210, R221 to R223, R226) -/

namespace Sys2Proof.Machine
-- In order, not in parallel: each thread reserves memory, of which the check of the whole text has little left.
set_option Elab.async false

/-! ### The force table -/

/-- A force of the bit opnd of an area. -/
abbrev forceOn (area opnd : Nat) (f : Force) : Bool := f.area == area && f.opnd == opnd

theorem forceOn_iff {area opnd : Nat} {f : Force} : forceOn area opnd f = true ↔ f.area = area ∧ f.opnd = opnd := by simp

/-- The table after a bit is forced (R221): its entry takes the new value in place and keeps the value in effect, or a new one joins the end. -/
def forcesSet (area opnd : Nat) (val : Bool) (now : Nat) (l : List Force) : List Force :=
  if l.any (forceOn area opnd) then l.map fun g => if forceOn area opnd g then ⟨area, opnd, val, g.held, now⟩ else g
  else l ++ [⟨area, opnd, val, none, now⟩]

/-- The table after the force of a bit takes effect (R221). -/
def forcesHeld (area opnd : Nat) (l : List Force) : List Force :=
  l.map fun f => if forceOn area opnd f then { f with held := some f.val } else f

/-- What changes entries that a test selects, and leaves them selected, keeps the others. -/
theorem filter_not_map_ite {α : Type} {p : α → Bool} {h : α → α} (hp : ∀ a, p a = true → p (h a) = true) (l : List α) :
    (l.map fun a => if p a then h a else a).filter (fun a => !p a) = l.filter fun a => !p a := by
  induction l with
  | nil => rfl
  | cons a l ih => by_cases ha : p a = true <;> simp_all

theorem forcesHeld_others (area opnd : Nat) (l : List Force) :
    (forcesHeld area opnd l).filter (fun f => !forceOn area opnd f) = l.filter fun f => !forceOn area opnd f :=
  filter_not_map_ite (fun _ hon => by simpa using hon) l

theorem filter_not_forceOn_self {area opnd : Nat} {l : List Force} (h : l.any (forceOn area opnd) = false) :
    l.filter (fun f => !forceOn area opnd f) = l :=
  List.filter_eq_self.2 fun f hf => by rw [Bool.eq_false_of_not_eq_true (List.any_eq_false.1 h f hf), Bool.not_false]

/-- The table l' holds the force of one bit at val, and the other forces of l as they are. -/
structure ForcedIn (area opnd : Nat) (val : Bool) (l l' : List Force) : Prop where
  entry : ∃ f ∈ l', f.area = area ∧ f.opnd = opnd ∧ f.val = val
  others : l'.filter (fun f => !forceOn area opnd f) = l.filter fun f => !forceOn area opnd f

theorem forcesSet_forcedIn (area opnd : Nat) (val : Bool) (now : Nat) (l : List Force) :
    ForcedIn area opnd val l (forcesSet area opnd val now l) := by
  unfold forcesSet
  split
  · rename_i h
    obtain ⟨g, hg, hon⟩ := List.any_eq_true.1 h
    exact ⟨⟨_, List.mem_map.2 ⟨g, hg, if_pos hon⟩, rfl, rfl, rfl⟩, filter_not_map_ite (fun _ _ => by simp) l⟩
  · exact ⟨⟨_, List.mem_append_right _ (List.mem_singleton.2 rfl), rfl, rfl, rfl⟩, by simp⟩

theorem ForcedIn.held {area opnd : Nat} {val : Bool} {l l' : List Force} (h : ForcedIn area opnd val l l') :
    ForcedIn area opnd val l (forcesHeld area opnd l') := by
  obtain ⟨f, hf, harea, hopnd, hval⟩ := h.entry
  exact ⟨⟨_, List.mem_map.2 ⟨f, hf, if_pos (forceOn_iff.2 ⟨harea, hopnd⟩)⟩, harea, hopnd, hval⟩, (forcesHeld_others ..).trans h.others⟩

/-! ### What leaves the force table as it is -/

/-- A Q or M bit is all of the CYC block that a change of it changes (R200). -/
theorem setQM_cyc (b : Nat) (st : Int) (key : Nat) (v : Bool) (s : State) : ∃ q m, (setQM b st key v s).cyc = { s.cyc with q := q, m := m } := by
  unfold setQM
  dsimp only
  split
  · exact ⟨_, _, rfl⟩
  · split
    · exact ⟨_, _, rfl⟩
    · split
      · exact ⟨_, _, rfl⟩
      · exact ⟨_, _, by rw [srcEdge_frame.cyc (by decide), modTrg_cyc]⟩

theorem setQM_forces (b : Nat) (st : Int) (key : Nat) (v : Bool) (s : State) : (setQM b st key v s).cyc.forces = s.cyc.forces := by
  obtain ⟨q, m, h⟩ := setQM_cyc b st key v s
  rw [h]

@[simp] theorem settle_forces (s : State) : (settle s).cyc.forces = s.cyc.forces := by
  have hlatch (s : State) : (latchEdges s).cyc.forces = s.cyc.forces := rfl
  rw [settle, settleWith, gooseCheck_frame.cyc (by decide), hlatch, matrixDecide_frame.cyc (by decide)]

@[simp] theorem forceEvent_cyc (rt : ReplyTo) (code val action : Nat) (s : State) : (forceEvent rt code val action s).cyc = s.cyc :=
  forceEvent_frame.cyc (by decide)

theorem forceNow_forces (area opnd : Nat) (s : State) : (forceNow area opnd s).cyc.forces = forcesHeld area opnd s.cyc.forces := by
  unfold forceNow
  dsimp only
  split
  · split
    · exact setQM_forces ..
    · rfl
  · rfl

/-! ### A force set -/

/-- The table of u with one bit forced. -/
def forceSetIn (area opnd val : Nat) (u : State) : State :=
  { u with cyc := { u.cyc with forces := forcesSet area opnd (val == 1) u.now u.cyc.forces } }

/-- A force that takes effect at once in SERVICE, since no task writes its bit (R221). -/
def forceActs (area opnd : Nat) (u : State) : State :=
  if inService u && !((area == 1 || area == 2) && hasWriter u area opnd) then settle (forceNow area opnd u) else u

/-- The state that LOG_FORCE_SET leaves, its reply apart (R221, R222). -/
def forceSet (rt : ReplyTo) (area opnd val : Nat) (u : State) : State :=
  forceEvent rt (opKey area opnd) val 1 (forceActs area opnd (forceSetIn area opnd val u))

theorem forceSet_forcedIn (rt : ReplyTo) (area opnd val : Nat) (u : State) :
    ForcedIn area opnd (val == 1) u.cyc.forces (forceSet rt area opnd val u).cyc.forces := by
  have hset := forcesSet_forcedIn area opnd (val == 1) u.now u.cyc.forces
  rw [forceSet, forceEvent_cyc, forceActs]
  split
  · rw [settle_forces, forceNow_forces]
    exact hset.held
  · exact hset

/-- Outside SERVICE a force takes no effect, and nothing but the table and the record changes (R221). -/
theorem forceSet_not_inService (rt : ReplyTo) (area opnd val : Nat) {u : State} (h : inService u = false) :
    forceSet rt area opnd val u = forceEvent rt (opKey area opnd) val 1 (forceSetIn area opnd val u) := by
  have h' : inService (forceSetIn area opnd val u) = false := h
  rw [forceSet, forceActs, h']
  rfl

theorem forceSetIn_new {area opnd : Nat} {u : State} (h : u.cyc.forces.any (forceOn area opnd) = false) (val : Nat) :
    (forceSetIn area opnd val u).cyc = { u.cyc with forces := u.cyc.forces ++ [⟨area, opnd, val == 1, none, u.now⟩] } := by
  simp [forceSetIn, forcesSet, h]

theorem forceSetIn_frame {area opnd val : Nat} {u : State} : Frame [.cyc] u (forceSetIn area opnd val u) :=
  (Frame.refl _ u).set_cyc rfl

/-! ### The rows -/

section
variable {t : Nat} {e : Env} {s u : State} {rt : ReplyTo}

/-- The requirements of LOG_LOAD (R226): over UDP the image follows in the packet. -/
abbrev loadReq (e : Env) (p : LogLoad) : CmdReq := ⟨0x0500, false, plenIs (if isUdp e.src then 16 + p.len else 16), 8, [.service, .maint]⟩

theorem exec_logLoad {p : LogLoad} {g : Image} (hb : begins e (loadReq e p) (atTime t s) = some (rt, u)) (hr : e.resvOk = true)
    (hparse : imgParse p.image = some g) (hfault : imgFault g = none) (hslot : p.slot < 32) (hmin : 64 ≤ p.len) (hmax : p.len ≤ 262144)
    (hlen : p.image.length = p.len) (haddr : isUdp e.src = true → p.addr = 0) (hfree : slotUsed u p.slot = false) :
    exec (.logLoad t e p) s = .next (answered u.cmd.queue.length rt (u32 g.id ++ u32 g.cost)
      { u with cyc := { u.cyc with slots := tset u.cyc.slots p.slot g }, cmd := { u.cmd with dirty := true } }) := by
  have hudp : (!isUdp e.src || p.addr == 0) = true := by cases h : isUdp e.src <;> simp_all
  simp only [exec, execLogLoad, runCmd_begins hb, hparse, hfault, hfree, firstFail_cons, firstFail_nil, bad, hslot, hmin, hmax, hlen, hudp, and_self,
    decide_true, Bool.not_false, Option.isNone_none, if_true, checked8_ok hr, answered]

theorem exec_logOnlineChange {task slot : Nat} (hb : begins e ⟨0x0502, true, plenIs 4, 8, [.service, .maint]⟩ (atTime t s) = some (rt, u))
    (hr : e.resvOk = true) (hpre : changePre task u = none) (hcheck : changeCheck task slot u = none) (hadm : admitFault (changedState task slot u) = none) :
    exec (.logOnlineChange t e task slot) s = .next (flushUnknown u.cmd.queue.length
      (changeAccept rt task slot { u with spd := (admitStore (changedState task slot u)).spd })) := by
  simp [exec, execLogOnlineChange, runCmd_begins hb, hpre, hcheck, hadm, checked8_ok hr]

/-- The requirements of LOG_FORCE_SET (R226). -/
abbrev forceSetReq : CmdReq := ⟨0x0503, true, plenIs 8, 4, [.service, .maint]⟩

theorem exec_logForceSet {area opnd val : Nat} (hb : begins e forceSetReq (atTime t s) = some (rt, u)) (hr : e.resvOk = true) (harea : area < 6)
    (hopnd : operandOk area opnd = true) (hval : val < 2) (hroom : u.cyc.forces.length < 256 ∨ u.cyc.forces.any (forceOn area opnd) = true) :
    exec (.logForceSet t e area opnd val) s =
      .next (answered u.cmd.queue.length rt (forceReply (forceSet rt area opnd val u)) (forceSet rt area opnd val u)) := by
  have hroom' : (decide (u.cyc.forces.length < 256) || u.cyc.forces.any (forceOn area opnd)) = true := by simpa using hroom
  simp only [exec, execLogForceSet, runCmd_begins hb, firstFail_cons, firstFail_nil, bad, harea, hopnd, hval, hroom', decide_true, Bool.and_true, if_true,
    checked_ok hr]
  rfl

/-- The requirements of LOG_FORCE_CLEAR (R226). -/
abbrev forceClearReq : CmdReq := ⟨0x0504, true, plenIs 4, 4, [.service, .maint]⟩

/-- The state in which the forces l stand, with the record of a clearing (R222). -/
def forcesCleared (rt : ReplyTo) (code action : Nat) (l : List Force) (u : State) : State :=
  forceEvent rt code 0 action { u with cyc := { u.cyc with forces := l } }

theorem exec_logForceClear_all {all : Nat} (hb : begins e forceClearReq (atTime t s) = some (rt, u)) (hr : e.resvOk = true) (hall : all ≠ 0)
    (area opnd : Nat) :
    exec (.logForceClear t e all area opnd) s =
      .next (answered u.cmd.queue.length rt (forceReply (forcesCleared rt 0xFFFFFFFF 2 [] u)) (settle (forcesCleared rt 0xFFFFFFFF 2 [] u))) := by
  simp [exec, execLogForceClear, runCmd_begins hb, firstFail_cons, bad, hall, checked_ok hr, answered, forcesCleared]

theorem exec_logForceClear_one {area opnd : Nat} (hb : begins e forceClearReq (atTime t s) = some (rt, u)) (hr : e.resvOk = true) (harea : area < 6)
    (hopnd : operandOk area opnd = true) (hany : u.cyc.forces.any (forceOn area opnd) = true) :
    exec (.logForceClear t e 0 area opnd) s = .next (answered u.cmd.queue.length rt
      (forceReply (forcesCleared rt (opKey area opnd) 0 (u.cyc.forces.filter fun f => !forceOn area opnd f) u))
      (settle (forcesCleared rt (opKey area opnd) 0 (u.cyc.forces.filter fun f => !forceOn area opnd f) u))) := by
  simp only [exec, execLogForceClear, runCmd_begins hb, firstFail_cons, firstFail_nil, bad, harea, hopnd, ne_eq, not_true_eq_false, and_self, or_true,
    decide_true, if_true, if_false, checked_ok hr, hany]
  rfl

/-- A bit that is not forced is left as it is (log entry 105). -/
theorem exec_logForceClear_unforced {area opnd : Nat} (hb : begins e forceClearReq (atTime t s) = some (rt, u)) (hr : e.resvOk = true) (harea : area < 6)
    (hopnd : operandOk area opnd = true) (hnone : u.cyc.forces.any (forceOn area opnd) = false) :
    exec (.logForceClear t e 0 area opnd) s = .next (answered u.cmd.queue.length rt (forceReply u) u) := by
  simp only [exec, execLogForceClear, runCmd_begins hb, firstFail_cons, firstFail_nil, bad, harea, hopnd, ne_eq, not_true_eq_false, and_self, or_true,
    decide_true, if_true, if_false, checked_ok hr, hnone]
  rfl

theorem exec_logGetStatus {task : Nat} (hb : begins e ⟨0x0505, false, plenIs 4, 48, [.service, .maint, .safeService]⟩ (atTime t s) = some (rt, u))
    (hr : e.resvOk = true) (htask : task < 64) :
    exec (.logGetStatus t e task) s = .next (answered u.cmd.queue.length rt ((List.range 12).flatMap fun r => w32 (taskReg u task r)) u) := by
  simp [exec, execLogGetStatus, runCmd_begins hb, firstFail_cons, bad, htask, checked_ok hr, answered]

end

/-- Settles O8: each row by its equation, and what a force set or cleared leaves of the table. That LOG_LOAD sets DIRTY, and that a bit that is not forced may be cleared, are the model's choices (log entries 119, 105). -/
theorem logicCommandsComplete : Obligations.LogicCommandsComplete := by
  unfold Obligations.LogicCommandsComplete
  refine ⟨?_, ?_, ?_, ?_, ?_, ?_, fun task htask t e s rt u hb hr _ => exec_logGetStatus hb hr htask⟩
  · intro p g hparse hfault hslot hmin hmax hlen t e s rt u hb hr haddr hfree
    exact exec_logLoad hb hr hparse hfault hslot hmin hmax hlen haddr hfree
  · intro task slot t e s rt u hb hr ⟨hpre, hcheck, hadm⟩
    exact exec_logOnlineChange hb hr hpre hcheck hadm
  · intro area opnd val harea hopnd hval t e s rt u hb hr hmaint hroom hnew
    have hout : inService u = false := by simp [inService, hmaint]
    refine ⟨_, _, exec_logForceSet hb hr harea hopnd hval (.inl hroom), ?_⟩
    rw [forceSet_not_inService _ _ _ _ hout]
    exact ⟨(forceEvent_cyc ..).trans (forceSetIn_new hnew val), (forceSetIn_frame.mono rfl).app forceEvent_frame rfl⟩
  · intro area opnd val harea hopnd hval t e s rt u hb hr hroom
    have hforced := forceSet_forcedIn rt area opnd val u
    exact ⟨_, _, exec_logForceSet hb hr harea hopnd hval hroom, hforced.entry, hforced.others⟩
  · intro t e s rt u all area opnd hb hr hall
    exact ⟨_, _, exec_logForceClear_all hb hr hall area opnd, by simp [forceActive, forcesCleared]⟩
  · intro t e s rt u area opnd hb hr harea hopnd
    cases hany : u.cyc.forces.any (forceOn area opnd) with
    | true => exact ⟨_, _, exec_logForceClear_one hb hr harea hopnd hany, by simp [forcesCleared]⟩
    | false => exact ⟨_, _, exec_logForceClear_unforced hb hr harea hopnd hany, (filter_not_forceOn_self hany).symm⟩

end Sys2Proof.Machine

/-! ## Margin plans and their records (R235, R237, R241 to R243) -/

namespace Sys2Proof.Machine
-- In order, not in parallel: each thread reserves memory, of which the check of the whole text has little left.
set_option Elab.async false

@[simp] theorem ev_spd (type : Nat) (p : Bytes) (s : State) : (ev type p s).spd = s.spd := ev_frame.spd (by decide)

@[simp] theorem ev_pwr (type : Nat) (p : Bytes) (s : State) : (ev type p s).pwr = s.pwr := ev_frame.pwr (by decide)

/-! ### A plan takes effect -/

@[simp] theorem holdupReply_spd (s : State) : (holdupReply s).spd = s.spd := holdupReply_frame.spd (by decide)

@[simp] theorem holdupReply_thr (s : State) : (holdupReply s).pwr.thr = s.pwr.thr := by
  unfold holdupReply
  split
  · rw [finish_frame.pwr (by decide), modPwr_pwr]
  · rfl

/-- All that a plan changes of the speed block: the events and the reply behind it leave the block alone (R237, R241, R242). -/
theorem planApply_spd (p : PlanRec) (a b : Nat) (s : State) : (planApply p a b s).spd =
    { s.spd with
      planCode := p.planCode, planShort := p.planShort, siWcPlan := p.siWcPlan, siWcMax := p.siWcMax, ageF := p.ageF, ageRate := p.ageRate
      planNo := p.no, planOptime := p.optime, plans := (p :: s.spd.plans).take 256, deferred := false, tjMax := none, tjSum := 0, tjN := 0
      mon := s.spd.mon.take 22 ++ [a, b] } := by
  unfold planApply
  dsimp only
  split <;> simp

/-- The thresholds of a plan are in force with it (R437, R440). -/
theorem planApply_thr (p : PlanRec) (a b : Nat) (s : State) : (planApply p a b s).pwr.thr = p.vhu := by
  unfold planApply
  dsimp only
  split <;> simp

/-! ### The record of a plan -/

theorem append_crc32c_length {b : Bytes} {n : Nat} (h : b.length = n) : (b ++ w32 (crc32c b)).length = n + 4 := by
  rw [List.length_append, le_length, h]

theorem PlanRec.octets_length {p : PlanRec} (h : p.vhu.length = 4) : p.octets.length = 64 := by
  have hvhu : (p.vhu.flatMap u16).length = 8 := by rw [flatMap_length (le_length 2), h]
  refine append_crc32c_length (n := 60) ?_
  simp [hvhu]

section
variable {t back : Nat} {e : Env} {s u : State} {rt : ReplyTo}

/-- The requirements of SPD_GET_PLAN (R243). -/
abbrev planReq : CmdReq := ⟨0x0B02, false, plenIs 4, 64, [.service, .maint, .safeService]⟩

theorem exec_spdGetPlan {p : PlanRec} (hb : begins e planReq (atTime t s) = some (rt, u)) (hr : e.resvOk = true) (hp : u.spd.plans[back]? = some p) :
    exec (.spdGetPlan t e back) s = .next (answered u.cmd.queue.length rt p.octets u) := by
  simp only [exec, execSpdGetPlan, runCmd_begins hb, hp, checked_ok hr, answered]

/-- A BACK beyond the records held, or a reserved field that is not 0 (R136, R243). -/
theorem exec_spdGetPlan_refused (hb : begins e planReq (atTime t s) = some (rt, u)) (h : u.spd.plans[back]? = none ∨ e.resvOk = false) :
    exec (.spdGetPlan t e back) s = .next (flushUnknown u.cmd.queue.length (refuse rt stBadParam 0 u)) := by
  cases hp : u.spd.plans[back]? with
  | none => simp only [exec, execSpdGetPlan, runCmd_begins hb, hp]
  | some p =>
    have hr : e.resvOk = false := h.resolve_left (by simp [hp])
    simp [exec, execSpdGetPlan, runCmd_begins hb, hp, checked, hr]

end

/-- Settles O57: by the two answers of the row, the length of a record, and what a plan that takes effect leaves. -/
theorem spdGetPlanReadsTheRecord : Obligations.SpdGetPlanReadsTheRecord := by
  unfold Obligations.SpdGetPlanReadsTheRecord
  refine ⟨fun t e back s rt u hb => ⟨fun p hp hr => exec_spdGetPlan hb hr hp, exec_spdGetPlan_refused hb⟩, fun p => PlanRec.octets_length,
    fun p a b s => ?_⟩
  rw [planApply_spd]

end Sys2Proof.Machine

/-! ## Speed monitors, the fast loop, margin plans, the OCXO's day (R229, R230, R235 to R237, R239, R240) -/

namespace Sys2Proof.Machine
-- In order, not in parallel: each thread reserves memory, of which the check of the whole text has little left.
set_option Elab.async false

/-! ### A set of counts -/

/-- A set of counts is taken in, of which c is the lowest, of monitor m: SI_MEAS and what follows from it, BELOW_PLAN apart (R229, R230). -/
def countsTaken (counts : List Nat) (low : Bool) (c m : Nat) (s : State) : State :=
  modSpd (fun d => { d with
    siCount := c, siMon := m, siMin := min d.siMin (siMilli c), mon := counts ++ d.mon.drop 22
    belowCnt := if low then satInc d.belowCnt else d.belowCnt, okSets := if low then 0 else d.okSets + 1
    highSince := if decide (525 * s.spd.siPlan ≤ 100 * c) then d.highSince.or (some s.now) else none
    belowLow := if d.belowPlan then min d.belowLow c else c, belowMon := if d.belowPlan && decide (d.belowLow ≤ c) then d.belowMon else m }) s

/-- BELOW_PLAN follows the lowest count c of monitor m: low sets it, ten sets in a row that are not low clear it (R230, R244). -/
def belowFollow (low : Bool) (c m : Nat) (s : State) : State :=
  if low && !s.spd.belowPlan then belowEvent c m 1 0 (modSpd (fun d => { d with belowPlan := true, belowSeen := true, belowAt := s.now }) s)
  else if s.spd.belowPlan && decide (10 ≤ s.spd.okSets) then
    belowEvent s.spd.belowLow s.spd.belowMon 0 (min ((s.now - s.spd.belowAt) / 1000) 0xFFFFFFFF) (modSpd (fun d => { d with belowPlan := false }) s)
  else s

/-- The state that a set of counts leaves (R229, R230). -/
def measured (counts : List Nat) (s : State) : State :=
  belowFollow (decide ((lowestMon counts).1 < siRef s)) (lowestMon counts).1 (lowestMon counts).2
    (countsTaken counts (decide ((lowestMon counts).1 < siRef s)) (lowestMon counts).1 (lowestMon counts).2 s)

theorem exec_speedMeasurement {counts : List Nat} {s : State} (hoff : s.sys.st ≠ .off) (hg : s.pwr.gated = false) (hn : counts.length = 22) (t : Nat) :
    exec (.speedMeasurement t counts) s = .next (measured counts (atTime t s)) := by
  have hgo : ¬((atTime t s).sys.st = .off ∨ (atTime t s).pwr.gated ∨ counts.length ≠ 22) := by simp [hoff, hg, hn]
  simp only [exec, execSpeedMeasurement, measured, belowFollow, if_neg hgo, apply_ite Host.Outcome.next]
  rfl

@[simp] theorem belowEvent_spd (low mon st us : Nat) (s : State) : (belowEvent low mon st us s).spd = s.spd := belowEvent_frame.spd (by decide)

/-- Of the speed block BELOW_PLAN follows, with its latch and the instant at which it set; ten sets in a row cannot be complete when the latest is low (R230, R244). -/
theorem belowFollow_spd (low : Bool) (c m : Nat) {s : State} (h : low = true → s.spd.okSets < 10) :
    ∃ seen at', (belowFollow low c m s).spd =
      { s.spd with belowPlan := low || s.spd.belowPlan && decide (s.spd.okSets < 10), belowSeen := seen, belowAt := at' } := by
  unfold belowFollow
  split
  · next hset =>
    obtain ⟨hlow, -⟩ := Bool.and_eq_true_iff.1 hset
    exact ⟨_, _, by rw [belowEvent_spd, modSpd_spd, hlow, Bool.true_or]⟩
  · next hset =>
    split
    · next hclear =>
      have hten : 10 ≤ s.spd.okSets := of_decide_eq_true (Bool.and_eq_true_iff.1 hclear).2
      have hlow : low = false := Bool.eq_false_of_not_eq_true fun hl => Nat.not_lt.2 hten (h hl)
      exact ⟨_, _, by rw [belowEvent_spd, modSpd_spd, hlow, decide_eq_false (Nat.not_lt.2 hten), Bool.and_false, Bool.false_or]⟩
    · next hkeep =>
      have hbelow : (low || s.spd.belowPlan && decide (s.spd.okSets < 10)) = s.spd.belowPlan := by
        cases hb : s.spd.belowPlan <;> simp_all
      exact ⟨_, _, by rw [hbelow]⟩

/-- What a set of counts leaves of the speed block: okSets is 0 after a low one, so BELOW_PLAN clears after none (R230). -/
theorem measured_spd (counts : List Nat) (s : State) : ∃ seen at', (measured counts s).spd =
    let d := (countsTaken counts (decide ((lowestMon counts).1 < siRef s)) (lowestMon counts).1 (lowestMon counts).2 s).spd
    { d with belowPlan := decide ((lowestMon counts).1 < siRef s) || s.spd.belowPlan && decide (d.okSets < 10), belowSeen := seen, belowAt := at' } := by
  unfold measured
  exact belowFollow_spd _ _ _ fun hlow => by simp only [countsTaken, modSpd_spd, hlow, if_true, Nat.ofNat_pos]

theorem belowFollow_frame {low : Bool} {c m : Nat} {s : State} : Frame [.spd, .evr] s (belowFollow low c m s) :=
  .ite ((modSpd_frame.mono rfl).app belowEvent_frame rfl) (.ite ((modSpd_frame.mono rfl).app belowEvent_frame rfl) (.refl ..))

theorem measured_frame {counts : List Nat} {s : State} : Frame [.spd, .evr] s (measured counts s) :=
  (modSpd_frame.mono rfl).trans belowFollow_frame

/-! ### The fast loop -/

section
variable {t : Nat} {s : State}

theorem fastDue_iff {ns : Nat} : fastDue s ns = true ↔ ∀ a, s.spd.fastAt = some a → a + ns ≤ s.now := by
  unfold fastDue
  split <;> simp_all

theorem exec_vcoreFastLoopStep_up (hoff : s.sys.st ≠ .off) (hg : s.pwr.gated = false) (hshed : s.pwr.shed < 4) (hb : s.spd.belowPlan = true)
    (hdue : ∀ a, s.spd.fastAt = some a → a + 1000000 ≤ max s.now t) :
    exec (.vcoreFastLoopStep t) s = .next (modSpd (fun d => { d with fastSteps := min 255 (d.fastSteps + 1), fastAt := some (max s.now t), fastDown := false })
      (atTime t s)) := by
  have hdue' : fastDue (atTime t s) 1000000 = true := fastDue_iff.2 hdue
  simp [exec, execVcoreFastLoopStep, hoff, hg, Nat.not_le.2 hshed, hb, hdue']

/-- Ample speed for 10 s, and 100 ms since the step before (R235). -/
theorem exec_vcoreFastLoopStep_down {a : Nat} (hoff : s.sys.st ≠ .off) (hg : s.pwr.gated = false) (hshed : s.pwr.shed < 4) (hb : s.spd.belowPlan = false)
    (hsi : 515 * s.spd.siPlan ≤ 100 * s.spd.siCount) (hsteps : 0 < s.spd.fastSteps) (hhigh : s.spd.highSince = some a)
    (hample : a + 10000000000 ≤ max s.now t) (hdue : ∀ a, s.spd.fastAt = some a → a + 100000000 ≤ max s.now t) :
    exec (.vcoreFastLoopStep t) s = .next (modSpd (fun d => { d with fastSteps := d.fastSteps - 1, fastAt := some (max s.now t), fastDown := true })
      (atTime t s)) := by
  have hdue' : fastDue (atTime t s) 100000000 = true := fastDue_iff.2 hdue
  have hshort : ¬100 * s.spd.siCount < 505 * s.spd.siPlan := by omega
  simp [exec, execVcoreFastLoopStep, hoff, hg, Nat.not_le.2 hshed, hb, hdue', hshort, hhigh, NS, hample, hsteps, hsi, -le_sup_iff]

/-! ### Plans and the OCXO's day -/

theorem exec_marginPlan {a b : Nat} (hdue : planDue (atTime t s) = true) (hbar : planBarred s = false) :
    exec (.marginPlan t a b) s = .next (planApply (planOf a b (atTime t s)) a b (atTime t s)) := by
  have hbar' : planBarred (atTime t s) = false := hbar
  simp [exec, execMarginPlan, hdue, hbar']

/-- A day of lock has passed since the instant a: its value joins the 30 latest, and the next day begins (R240; log entry 112). -/
theorem exec_ocxoDailyValue {a : Nat} (ha : (baseOf s 0).traceSince = some a) (hday : a + 86400000000000 ≤ max s.now t) :
    exec (.ocxoDailyValue t) s = .next (modSpd (fun d => { d with ocxoDays := d.ocxoDays + 1, ocxo := ((secOf (baseNs (atTime t s) 0),
        satI32 (rdivEven (((baseOf s 0).areaNow (max s.now t) - (baseOf s 0).dayArea) * 100) ((max s.now t - a) * 65536))) :: d.ocxo).take 30 })
      (modBase 0 (fun x => { x with traceSince := some (max s.now t), dayArea := x.areaNow (max s.now t) }) (atTime t s))) := by
  have ha' : (baseOf (atTime t s) 0).traceSince = some a := ha
  have hday' : ¬(atTime t s).now < a + 86400 * NS := Nat.not_lt.2 hday
  simp only [exec, execOcxoDailyValue, ha', hday', if_false]
  rfl

/-! ### SI_PLAN and the override -/

/-- The order of the two bounds of a clamp does not matter. -/
theorem clampN_eq_max_min {lo hi : Nat} (h : lo ≤ hi) (v : Nat) : clampN lo hi v = max lo (min hi v) := by
  rw [clampN]
  omega

/-- The effect of a write of SPD_CTL (R239, R245): SI_PLAN within 0.960 to 1.500, and a plan is due. -/
def siPlanSet (v : Word) (s : State) : State :=
  modSpd (fun d => { d with
    siPlan := clampN 960 1500 (bits v 10 0), cfgClamp := d.cfgClamp || clamped (bits v 10 0) (clampN 960 1500 (bits v 10 0)), deferred := true }) s

theorem exec_spdSiPlanWrite_maint (hd : dark s = false) (hm : s.sys.st = .maint) (v : Word) :
    exec (.spdSiPlanWrite t .host v) s = .next (setDirty (siPlanSet v (atTime t s))) :=
  congrArg Host.Outcome.next (cfgWrite_host_maint (s := atTime t s) hd hm 0x20000 (siPlanSet v))

theorem exec_spdSiPlanWrite_refused (hd : dark s = false) (hm : s.sys.st ≠ .maint) (v : Word) :
    exec (.spdSiPlanWrite t .host v) s = .next (busViolate .host 0x20000 (atTime t s)) :=
  congrArg Host.Outcome.next (cfgWrite_host_refused (s := atTime t s) hd hm 0x20000 (siPlanSet v))

/-- The effect of a write of SPD_VCORE_OVR in MAINT (R236, R244): EN and the code, and a record when the code in force moves. -/
def vcoreOvrSet (v : Word) (s : State) : State :=
  if bit v 8 then
    if !s.spd.ovrEn || s.spd.ovrCode != bits v 7 0 then
      vcoreOvrEvent (bits v 7 0) 1 (modSpd (fun d => { d with ovrCode := bits v 7 0, ovrEn := true }) s)
    else modSpd (fun d => { d with ovrCode := bits v 7 0, ovrEn := true }) s
  else modSpd (fun d => { d with ovrCode := bits v 7 0 }) (ovrClear s)

/-- What a write of SPD_VCORE_OVR does by the module state (R236). -/
theorem exec_spdVcoreOvrWrite_host (hd : dark s = false) (v : Word) :
    exec (.spdVcoreOvrWrite t .host v) s = .next (if s.sys.st ≠ .maint then atTime t s else vcoreOvrSet v (atTime t s)) :=
  congrArg Host.Outcome.next (regWrite_host (s := atTime t s) hd 0x20014 _)

theorem exec_spdVcoreOvrWrite_maint (hd : dark s = false) (hm : s.sys.st = .maint) (v : Word) :
    exec (.spdVcoreOvrWrite t .host v) s = .next (vcoreOvrSet v (atTime t s)) := by
  rw [exec_spdVcoreOvrWrite_host hd, if_neg (not_not.2 hm)]

theorem exec_spdVcoreOvrWrite_ignored (hd : dark s = false) (hm : s.sys.st ≠ .maint) (v : Word) :
    exec (.spdVcoreOvrWrite t .host v) s = .next (atTime t s) := by
  rw [exec_spdVcoreOvrWrite_host hd, if_pos hm]

end

@[simp] theorem vcoreOvrEvent_spd (code st : Nat) (s : State) : (vcoreOvrEvent code st s).spd = s.spd := vcoreOvrEvent_frame.spd (by decide)

@[simp] theorem ovrClear_spd (s : State) : (ovrClear s).spd = { s.spd with ovrEn := false } := by
  unfold ovrClear
  split
  · simp
  · next h => simp [← Bool.eq_false_of_not_eq_true h]

theorem vcoreOvrSet_spd (v : Word) (s : State) : (vcoreOvrSet v s).spd = { s.spd with ovrCode := bits v 7 0, ovrEn := bit v 8 } := by
  unfold vcoreOvrSet
  cases hen : bit v 8 with
  | true =>
    rw [if_pos rfl]
    split <;> simp
  | false => simp

theorem vcoreOvrSet_frame {v : Word} {s : State} : Frame [.spd, .evr] s (vcoreOvrSet v s) :=
  .ite (.ite ((modSpd_frame.mono rfl).app vcoreOvrEvent_frame rfl) (modSpd_frame.mono rfl)) (ovrClear_frame.app modSpd_frame rfl)

/-- In MAINT a write of SPD_VCORE_OVR leaves the override as it is written (R236). -/
theorem becomes_vcoreOvrSet {v : Word} {s : State} (hd : dark s = false) (hm : s.sys.st = .maint) (t : Nat) :
    Becomes (.spdVcoreOvrWrite t .host v) s fun u => u.spd = { s.spd with ovrCode := bits v 7 0, ovrEn := bit v 8 } ∧ Frame [.spd, .evr, .now, .out] s u :=
  ⟨_, exec_spdVcoreOvrWrite_maint hd hm v, vcoreOvrSet_spd .., (atTime_frame.mono rfl).app vcoreOvrSet_frame rfl⟩

/-- Settles O43: each row by its equation, and what each leaves of the speed block. That FAST_STEPS saturates at 255, and that the run of decreases pauses while SI_MEAS is below 1.03 × SI_PLAN, are the model's choices (log entry 110). -/
theorem speedRowsComplete : Obligations.SpeedRowsComplete := by
  unfold Obligations.SpeedRowsComplete
  refine ⟨?_, fun t s hoff hg hshed hb hdue => exec_vcoreFastLoopStep_up hoff hg hshed hb hdue,
    fun t s a hoff hg hshed hb hsi hsteps hhigh hample hdue => exec_vcoreFastLoopStep_down hoff hg hshed hb hsi hsteps hhigh hample hdue, ?_, ?_, ?_⟩
  · intro t counts s hoff hg hn
    refine ⟨_, exec_speedMeasurement hoff hg hn t, ?_⟩
    obtain ⟨seen, at', hspd⟩ := measured_spd counts (atTime t s)
    have href : siRef (atTime t s) = siRef s := rfl
    simp only [hspd, href]
    refine ⟨rfl, rfl, rfl, (atTime_frame.mono rfl).app measured_frame rfl, fun hlow => ?_, fun hhigh => ?_⟩
    · simp [countsTaken, hlow]
    · simp [countsTaken, Nat.not_lt.2 hhigh]
  · intro t a b s hdue hbar
    have hspd := planApply_spd (planOf a b (atTime t s)) a b (atTime t s)
    exact ⟨_, exec_marginPlan hdue hbar, congrArg Spd.planNo hspd, congrArg Spd.deferred hspd, planApply_thr .., congrArg Spd.planCode hspd,
      congrArg Spd.plans hspd, (atTime_frame.mono rfl).app planApply_frame rfl⟩
  · intro t s a ha hday
    exact ⟨_, exec_ocxoDailyValue ha hday, rfl, ((atTime_frame.mono rfl).app modBase_frame rfl).app modSpd_frame rfl⟩
  · intro t v s hd
    refine ⟨fun hm => ⟨_, exec_spdSiPlanWrite_maint hd hm v, ?_⟩, fun hm => ⟨_, exec_spdSiPlanWrite_refused hd hm v, ?_⟩,
      fun hm hv => hv ▸ becomes_vcoreOvrSet hd hm t, fun hm hv => hv ▸ becomes_vcoreOvrSet hd hm t, fun hm => exec_spdVcoreOvrWrite_ignored hd hm v⟩
    · exact ⟨clampN_eq_max_min (by decide) _, rfl, rfl, ((atTime_frame.mono rfl).app modSpd_frame rfl).app setDirty_frame rfl⟩
    · exact ⟨by simp, busViolate_atTime_frame ..⟩

end Sys2Proof.Machine

/-! ## Time and calendar commands (R253, R268, R277, R278, R283) -/

namespace Sys2Proof.Machine
-- In order, not in parallel: each thread reserves memory, of which the check of the whole text has little left.
set_option Elab.async false

/-! ### What the commands reply -/

/-- The octets that TIM_GET_STATUS replies (R268). -/
def timStatus (s : State) (base : Nat) : Bytes :=
  let x := baseOf s base
  let state := match x.slavePort with
    | some p => (instPort s base p).portState
    | none => (((instPorts s base).head?).map fun p => (instPort s base p).portState).getD 0
  u8 x.st.code ++ u8 x.cfg.src ++ u8 (x.slavePort.getD 0xFF) ++ u8 state ++ s16 x.utcOffset
    ++ u8 (fl x.traceable 0 + fl (utcValid x) 1 + fl x.leap61 2 + fl x.leap59 3 + fl (ocxoValid s) 4) ++ u8 x.gmClass
    ++ u64 (secOf (baseNs s base)).toNat ++ u32 (nsOf (baseNs s base)) ++ s32 x.theta ++ u32 ((x.slavePort.bind fun p => (ptpOf s p).mpd).getD 0)
    ++ u32 x.hoErr ++ s64 x.rate ++ u32 (hoTimeOf s x) ++ w32 x.stepCnt ++ be 8 x.gmId.toNat ++ u16 x.stepsRemoved ++ u16 0 ++ u32 0

theorem timStatus_length (s : State) (base : Nat) : (timStatus s base).length = 64 := by simp [timStatus]

theorem timStatus_head (s : State) (base : Nat) : u8 (baseOf s base).st.code ++ u8 (baseOf s base).cfg.src <+: timStatus s base := by
  simp only [timStatus, List.append_assoc, List.prefix_append_right_inj]
  exact List.prefix_append ..

/-- The octets that RTC_GET replies from its copy (R277, R283). -/
def calendarReply (s : State) : Bytes :=
  u16 s.rtc.cal.year ++ u8 s.rtc.cal.mon ++ u8 s.rtc.cal.day ++ u8 s.rtc.cal.hour ++ u8 s.rtc.cal.min ++ u8 s.rtc.cal.sec ++ u8 (weekday s.rtc.cal)
    ++ u16 s.rtc.copy.subsec ++ u16 (rtcStat s) ++ s16 s.rtc.trim ++ u16 0 ++ u64 (uts s)

theorem calendarReply_length (s : State) : (calendarReply s).length = 24 := by simp [calendarReply]

theorem calendarReply_head (s : State) : u16 s.rtc.cal.year ++ u8 s.rtc.cal.mon ++ u8 s.rtc.cal.day ++ u8 s.rtc.cal.hour ++ u8 s.rtc.cal.min
    ++ u8 s.rtc.cal.sec <+: calendarReply s := by
  simp only [calendarReply, List.append_assoc, List.prefix_append_right_inj]
  exact List.prefix_append ..

/-! ### The rows -/

section
variable {t : Nat} {e : Env} {s u : State} {rt : ReplyTo}

/-- The requirements of TIM_STEP (R268). -/
abbrev stepReq : CmdReq := ⟨0x0601, true, plenIs 24, 24, [.service, .maint]⟩

/-- The operands of TIM_STEP that its MODE does not use are 0 (R253, R268). -/
def stepForm (p : TimStepCmd) : Prop := p.mode = 0 ∧ p.ns = 0 ∧ p.sec = 0 ∨ p.mode = 1 ∧ p.delta = 0 ∧ p.ns < 1000000000

/-- The base of TIM_STEP takes steps by command: it has no source, or PPS_IN, whose seconds MODE 1 names whole (R253). -/
def stepTaken (p : TimStepCmd) (s : State) : Prop :=
  (baseOf s p.tb).cfg.src = 0 ∨ (baseOf s p.tb).cfg.src = 3 ∧ p.mode = 1 ∧ p.ns = 0

theorem exec_timStep {p : TimStepCmd} (hb : begins e stepReq (atTime t s) = some (rt, u)) (hr : e.resvOk = true) (htb : p.tb ≤ 3) (hform : stepForm p)
    (hsrc : stepTaken p u) (hpend : (baseOf u p.tb).pend = none) (hlow : 0 ≤ (timStepPlan u p).1 + (timStepPlan u p).2)
    (hhigh : (timStepPlan u p).1 + (timStepPlan u p).2 < ((2 ^ 48 * 1000000000 : Nat) : Int)) :
    exec (.timStep t e p) s = .next (flushUnknown u.cmd.queue.length
      (holdReply rt (modBase p.tb (fun x => { x with pend := some ⟨(timStepPlan u p).1, (timStepPlan u p).2, some rt⟩ }) u))) := by
  have hrange : 0 ≤ (timStepPlan u p).1 + (timStepPlan u p).2 ∧ (timStepPlan u p).1 + (timStepPlan u p).2 < ((2 ^ 48 * NS : Nat) : Int) := ⟨hlow, hhigh⟩
  rcases hform with ⟨hmode, hns, hsec⟩ | ⟨hmode, hdelta, hns⟩
  · have hsrc' : (baseOf u p.tb).cfg.src = 0 := hsrc.resolve_right fun ⟨_, h, _⟩ => absurd (hmode.symm.trans h) (by decide)
    simp only [exec, execTimStep, runCmd_begins hb, firstFail_cons, firstFail_nil, bad, htb, hrange, hmode, hns, hsec, hsrc', hpend]
    simp [checked8_ok hr]
  · simp only [exec, execTimStep, runCmd_begins hb, firstFail_cons, firstFail_nil, bad, htb, hrange, hmode, hns, hdelta, hpend]
    rcases hsrc with hsrc | ⟨hsrc, _, hz⟩
    · simp [hsrc, checked8_ok hr]
    · simp [hsrc, hz, checked8_ok hr]

theorem exec_timGetStatus {base : Nat} (hb : begins e ⟨0x0602, false, plenIs 4, 64, [.service, .maint, .safeService]⟩ (atTime t s) = some (rt, u))
    (hr : e.resvOk = true) (hbase : base ≤ 3) :
    exec (.timGetStatus t e base) s = .next (answered u.cmd.queue.length rt (timStatus u base) u) := by
  simp only [exec, execTimGetStatus, runCmd_begins hb, firstFail_cons, firstFail_nil, bad, hbase, decide_true, if_true, checked_ok hr]
  rfl

/-- A date is set while the discipline does not hold the calendar (R278, R283). -/
theorem exec_rtcSet_date {p : RtcSet} (hb : begins e ⟨0x0603, true, plenIs 12, 8, [.service, .maint, .safeService]⟩ (atTime t s) = some (rt, u))
    (hr : e.resvOk = true) (hmode : p.mode = 0) (hdate : civilOk p.date = true) (hfree : u.rtc.discEn = false ∨ utcValid (baseOf u 0) = false) :
    exec (.rtcSet t e p) s = .next (flushUnknown u.cmd.queue.length
      (holdReply rt (modRtc (fun r => { r with commits := r.commits ++ [⟨p.date, 1, false, some rt⟩] }) u))) := by
  simp [exec, execRtcSet, runCmd_begins hb, firstFail_cons, bad, hmode, hdate, hfree, checked8_ok hr]

theorem exec_rtcGet (hb : begins e ⟨0x0604, false, plenIs 4, 24, [.service, .maint, .safeService]⟩ (atTime t s) = some (rt, u)) (hr : e.resvOk = true) :
    exec (.rtcGet t e) s = .next (answered u.cmd.queue.length rt (calendarReply (takeCopy u)) (takeCopy u)) := by
  simp only [exec, execRtcGet, runCmd_begins hb, checked_ok hr, answered, calendarReply]

end

/-- Settles O45: each row by its equation; a status and a calendar begin with the fields named. That RTC_GET copies and replies at once is the model's choice (log entry 65). -/
theorem timeCommandsComplete : Obligations.TimeCommandsComplete := by
  unfold Obligations.TimeCommandsComplete
  refine ⟨?_, ?_, ?_, ?_, fun back p t e s rt u hb hr hp => exec_spdGetPlan hb hr hp⟩
  · intro p htb hform t e s rt u hb hr ⟨hsrc, hpend, hlow, hhigh⟩
    exact exec_timStep hb hr htb hform hsrc hpend hlow hhigh
  · intro base hbase t e s rt u hb hr _
    exact ⟨timStatus u base, timStatus_length .., timStatus_head .., exec_timGetStatus hb hr hbase⟩
  · intro p hmode hdate t e s rt u hb hr hfree
    exact exec_rtcSet_date hb hr hmode hdate hfree
  · intro t e s rt u hb hr
    exact ⟨calendarReply (takeCopy u), calendarReply_length .., calendarReply_head (takeCopy u), exec_rtcGet hb hr⟩

end Sys2Proof.Machine

/-! ## The states of a time base, and its time (R246, R251, R252, R255) -/

namespace Sys2Proof.Machine
-- In order, not in parallel: each thread reserves memory, of which the check of the whole text has little left. For the same reason helper definitions are noncomputable: none is run.
set_option Elab.async false

/-! ### A base in place -/

@[simp] theorem ev_tbs (type : Nat) (p : Bytes) (s : State) : (ev type p s).tbs = s.tbs := ev_frame.tbs (by decide)

section
variable {s : State} {b : Nat} {x : Base}

theorem baseOf_eq (h : s.tbs.base[b]? = some x) : baseOf s b = x :=
  (List.getD_eq_getElem?_getD ..).trans (congrArg (Option.getD · (Base.reset b)) h)

theorem modBase_base_self (h : s.tbs.base[b]? = some x) (f : Base → Base) : (modBase b f s).tbs.base[b]? = some (f x) := lmod_get_self h f

/-! ### Entry to a state (R251, R255) -/

/-- A base without the notes of its lock to a traceable source (R240). -/
noncomputable def Base.untraced (x : Base) : Base := { x with traceSince := none, dayArea := 0 }

theorem noteTrace_untraced (b : Nat) (s : State) : (noteTrace b s).tbs.base.map Base.untraced = s.tbs.base.map Base.untraced := by
  refine lmod_map (fun x => ?_) s.tbs.base b
  refine iteInduction (motive := fun y : Base => y.untraced = x.untraced) (fun _ => ?_) fun _ => rfl
  cases x.traceSince <;> rfl

/-- A change of state is noted and recorded; nothing else of the base changes with it. -/
theorem timState_base (h : s.tbs.base[b]? = some x) (old new : BaseState) (cause hoErr : Nat) :
    ∃ y, (timState b old new cause hoErr s).tbs.base[b]? = some y ∧ y.untraced = x.untraced :=
  getElem?_of_map_eq ((noteTrace_untraced ..).trans (congrArg (fun x : Tbs => x.base.map Base.untraced) (ev_tbs ..))) h

theorem enterLocked_base (h : s.tbs.base[b]? = some x) :
    ∃ y, (enterLocked b s).tbs.base[b]? = some y ∧ y.st = .locked ∧ y.lockedAt = some s.now ∧ y.hoErr = 0 :=
  (timState_base (modBase_base_self h _) ..).imp fun _ hy => ⟨hy.1, congrArg Base.st hy.2, congrArg Base.lockedAt hy.2, congrArg Base.hoErr hy.2⟩

theorem enterFree_base (h : s.tbs.base[b]? = some x) (hst : x.st ≠ .free) (cause : Nat) :
    ∃ y, (enterFree b cause s).tbs.base[b]? = some y ∧ y.st = .free ∧ y.rate = x.rate ∧ y.hoErr = 0 := by
  have hst' : (baseOf s b).st ≠ .free := by rwa [baseOf_eq h]
  rw [enterFree, if_neg hst']
  refine (timState_base (modBase_base_self h _) ..).imp fun y hy => ⟨hy.1, congrArg Base.st hy.2, ?_, congrArg Base.hoErr hy.2⟩
  exact (congrArg Base.rate hy.2 :)

/-- The base runs on at the rate r from now on. -/
noncomputable def Base.withRate (r : Int) (now : Nat) (x : Base) : Base :=
  { x.endSeg now with val := x.valAt now, ref := now, rate := clampI (-32768000000) 32768000000 r, area := x.areaNow now, areaAt := now }

theorem setRate_base_self (h : s.tbs.base[b]? = some x) (r : Int) : (setRate b r s).tbs.base[b]? = some (x.withRate r s.now) := lmod_get_self h _

/-- HOLDOVER begins with E_LOCK, the largest of the latest 16 accepted measurements, as HO_ERR (R255). -/
theorem enterHoldover_base (h : s.tbs.base[b]? = some x) (cause : Nat) :
    ∃ y k, (enterHoldover b cause s).tbs.base[b]? = some y ∧ y.st = .holdover ∧ y.ho = some k ∧ k.enteredAt = s.now ∧
      k.eLock = (x.recent.take 16).foldl max 0 ∧ y.hoErr = k.eLock ∧ y.lockRun = 0 ∧ y.lockedAt = none := by
  refine (timState_base (modBase_base_self (setRate_base_self h _) _) ..).imp fun y hy => ⟨_, hy.1, congrArg Base.st hy.2, congrArg Base.ho hy.2, rfl, ?_, congrArg Base.hoErr hy.2, congrArg Base.lockRun hy.2, congrArg Base.lockedAt hy.2⟩
  exact congrArg (fun x : Base => (x.recent.take 16).foldl max 0) (baseOf_eq h)

end

/-! ### Time (R246) -/

@[simp] theorem Base.valAt_ref (x : Base) : x.valAt x.ref = x.val := by simp [Base.valAt]

/-- A new rate leaves the value of the instant. -/
theorem Base.withRate_valAt (r : Int) (now : Nat) (x : Base) : (x.withRate r now).valAt now = x.valAt now := (x.withRate r now).valAt_ref

theorem Base.withRate_rate (r : Int) (now : Nat) (x : Base) : -32768000000 ≤ (x.withRate r now).rate ∧ (x.withRate r now).rate ≤ 32768000000 :=
  ⟨le_min (by decide) (le_max_left ..), min_le_left ..⟩

/-- Time does not run backwards at a rate within 500 ppm: each CD6 cycle adds a positive step. -/
theorem Base.valAt_mono {x : Base} (hr : -32768000000 ≤ x.rate) {a b : Nat} (h : a ≤ b) : x.valAt a ≤ x.valAt b := by
  have hc : (cd6 a : Int) ≤ cd6 b := Int.ofNat_le.2 (Nat.div_le_div_right h)
  have hrate : 0 ≤ 65536000000000 + x.rate := le_trans (by decide) (Int.add_le_add_left hr _)
  refine Int.add_le_add_left (Int.ediv_le_ediv (by decide) (mul_le_mul_of_nonneg_right ?_ hrate)) x.val
  exact mul_le_mul_of_nonneg_right (mul_le_mul_of_nonneg_right (Int.sub_le_sub_right hc _) (by decide)) (by decide)

/-- Settles O28: entry to each state by what it leaves of the base, time by the value at a new rate and the step of a CD6 cycle. -/
theorem baseStatesAndTime : Obligations.BaseStatesAndTime := by
  unfold Obligations.BaseStatesAndTime
  exact ⟨fun b s x h => ⟨enterLocked_base h, enterHoldover_base h, fun cause hst => enterFree_base h hst cause,
      fun _ => ⟨enterLocked_frame, enterHoldover_frame, enterFree_frame⟩⟩,
    fun b r s => lmod_map (fun x => x.withRate_valAt r s.now) s.tbs.base b, fun b r s x h => ⟨_, setRate_base_self h r, x.withRate_rate r s.now⟩,
    fun x a b hr h => Base.valAt_mono hr h⟩

end Sys2Proof.Machine

/-! ## The clock and the backup domain (R254, R271, R273, R275, R277 to R280) -/

namespace Sys2Proof.Machine
-- In order, not in parallel: each thread reserves memory, of which the check of the whole text has little left.
set_option Elab.async false

@[simp] theorem ev_rtc (type : Nat) (p : Bytes) (s : State) : (ev type p s).rtc = s.rtc := ev_frame.rtc (by decide)

section
variable {t : Nat} {s : State}

/-- No base waits for the calendar: none is set (R254). -/
theorem seedBases_unseeded (h : s.tbs.seed = false) (n : Nat) : seedBases n s = s := if_pos (congrArg not h)

/-! ### Commits (R278 to R280, R283) -/

/-- The clock with the date of a commit loaded (R278, R280). -/
noncomputable def Rtc.loaded (c : RtcCommit) (now : Nat) (r : Rtc) : Rtc :=
  { r with cal := c.date, rollAt := now, window := 0, timeLost := false, ePrev := if c.cause = 2 then some 0 else none
           stepCnt := if c.cause = 2 then r.stepCnt + 1 else r.stepCnt }

theorem rtcLoad_rtc (c : RtcCommit) (s : State) : (rtcLoad c s).rtc = s.rtc.loaded c s.now := by
  delta rtcLoad
  dsimp only
  cases c.reply with
  | none => exact ev_rtc ..
  | some rt => exact (finish_frame.rtc (by decide)).trans (ev_rtc ..)

/-- The clock after a CD7 edge: a copy that the edge takes shows it (R279). -/
noncomputable def Rtc.copied (s : State) (now : Nat) (r : Rtc) : Rtc :=
  if r.copyAt = some now then { r with copy := rtcCopy { s with rtc := r, now := now } } else r

/-- A commit leaves the list and is loaded, and is shown by a copy of the same edge. -/
theorem commitLoad_rtc (c : RtcCommit) (s : State) :
    (commitLoad c s).rtc = Rtc.copied s s.now (Rtc.loaded c s.now { s.rtc with commits := s.rtc.commits.erase c }) :=
  (apply_ite State.rtc ..).trans (congrArg₂ (Rtc.copied s) (rtcLoad_frame.now (by decide)) (rtcLoad_rtc ..))

/-! ### The supply of the backup rail (R271) -/

theorem toVbat_eq_true {rail vbat : Nat} (h : rail + 50 < vbat ∨ rail < 2700) : toVbat rail vbat = true :=
  Bool.or_eq_true_iff.2 (h.imp decide_eq_true decide_eq_true)

theorem toVbat_eq_false {rail vbat : Nat} (hv : vbat ≤ rail + 50) (hr : 2700 ≤ rail) : toVbat rail vbat = false :=
  Bool.or_eq_false_iff.2 ⟨decide_eq_false (not_lt.2 hv), decide_eq_false (not_lt.2 hr)⟩

theorem backToRail_eq_true {rail vbat : Nat} (hr : 2850 < rail) (hv : vbat + 50 < rail) : backToRail rail vbat = true :=
  Bool.and_eq_true_iff.2 ⟨decide_eq_true hr, decide_eq_true hv⟩

theorem backToRail_eq_false {rail vbat : Nat} (h : rail ≤ 2850 ∨ rail ≤ vbat + 50) : backToRail rail vbat = false :=
  Bool.and_eq_false_iff.2 (h.imp (fun h => decide_eq_false (not_lt.2 h)) fun h => decide_eq_false (not_lt.2 h))

/-- The clock after the supply has switched. -/
theorem exec_backupSupplySwitch {rail vbat : Nat} {r : Rtc} (h : (if !s.rtc.onVbat && toVbat rail vbat then { s.rtc with onVbat := true, swoCnt := satInc s.rtc.swoCnt }
    else if s.rtc.onVbat && backToRail rail vbat then { s.rtc with onVbat := false } else s.rtc) = r) :
    exec (.backupSupplySwitch t ⟨rail, vbat⟩) s = .next { atTime t s with rtc := r } := by
  subst h
  rfl

/-! ### VBAT (R273) -/

/-- VBAT_LOW sets at the second low sample in a row, and stays. -/
theorem vbatLow_sampled (low : Prop) [Decidable low] (n : Nat) (b : Bool) :
    (b || (decide ((if decide low = true then min 2 (n + 1) else 0) ≥ 2) && !b)) = (b || (decide low && decide (1 ≤ n))) := by
  have hlows : ((if decide low = true then min 2 (n + 1) else 0) ≥ 2) ↔ low ∧ 1 ≤ n := by
    by_cases h : low
    · rw [if_pos (decide_eq_true h)]
      exact ⟨fun hn => ⟨h, Nat.le_of_succ_le_succ (le_min_iff.1 hn).2⟩, fun hn => le_min le_rfl (Nat.succ_le_succ hn.2)⟩
    · rw [if_neg (fun hd => h (of_decide_eq_true hd))]
      exact ⟨fun hn => absurd hn (by decide), fun hn => absurd hn.1 h⟩
  rw [decide_eq_decide.2 hlows, Bool.decide_and]
  cases b
  · exact Bool.and_true _
  · rfl

end

/-- Settles O30, row by row: a roll-over without a base that waits, a load by the part of the clock that it writes, and the supply by the voltages of its two switches. -/
theorem clockRowsComplete : Obligations.ClockRowsComplete := by
  unfold Obligations.ClockRowsComplete
  refine ⟨?_, ?_, ?_, ?_, fun t s hd => congrArg Host.Outcome.next (regWrite_host (s := atTime t s) hd ..), fun t s h => if_pos h, ?_, ?_, ?_, ?_⟩
  -- the roll-over of a second (R254, R275, R280), and the same when nothing waits and nothing is due
  · rintro t s w v rfl rfl
    rfl
  · intro t s hseed hd
    refine (congrArg (fun v => Host.Outcome.next (if disciplines v && uts v % 1024 == 0 then rtcMeasure v else v)) (seedBases_unseeded ?_ _)).trans
      (congrArg Host.Outcome.next (if_neg fun h => ?_))
    · exact hseed
    obtain ⟨hdisc, hmod⟩ := Bool.and_eq_true_iff.1 h
    rcases hd with hd | hd
    · delta disciplines baseOf at hd hdisc
      dsimp only [modRtc_tbs, modRtc_sys, modRtc_rtc, atTime_rtc, atTime_tbs, atTime_sys] at hdisc
      exact Bool.noConfusion (hd.symm.trans hdisc)
    · delta uts at hd hmod
      exact hd (eq_of_beq hmod)
  -- a commit is loaded at the CD7 edge (R278, R279)
  · rintro t s c r h rfl
    refine ⟨commitLoad c (atTime t s), ?_, commitLoad_rtc ..⟩
    simp only [exec, execRtcCommitLoad, atTime_rtc, h]
  -- a commit is loaded at its second of TB0 (R280)
  · intro t s c h hnow hc
    refine ⟨commitLoad c (atTime t s), ?_, ?_⟩
    · simp only [exec, execRtcDisciplineStep, atTime_rtc, h]
      exact (if_neg (not_lt.2 hnow)).trans (congrArg Host.Outcome.next (if_pos hc))
    · beta_reduce
      rw [commitLoad_rtc]
      exact iteInduction (motive := fun r : Rtc => r.cal = c.date ∧ r.rollAt = max s.now t ∧ r.window = 0 ∧ r.timeLost = false ∧ r.commits = s.rtc.commits.erase c)
        (fun _ => ⟨rfl, rfl, rfl, rfl, rfl⟩) fun _ => ⟨rfl, rfl, rfl, rfl, rfl⟩
  -- STG_SEC: a date is staged, or refused with BAD_DATE (R278)
  · intro t v s hd hc
    exact (congrArg Host.Outcome.next (regWrite_host (s := atTime t s) hd ..)).trans (congrArg Host.Outcome.next (if_pos hc))
  · intro t v s hd hc
    exact ⟨_, (congrArg Host.Outcome.next (regWrite_host (s := atTime t s) hd ..)).trans (congrArg Host.Outcome.next (if_neg (ne_true_of_eq_false hc))),
      ev_rtc .., (((atTime_frame.mono rfl).app modRtc_frame rfl).app modRtc_frame rfl).app ev_frame rfl⟩
  -- the supply of the backup rail (R271)
  · intro t rail vbat s
    refine ⟨fun hon h => exec_backupSupplySwitch ?_, fun hon hr hv => exec_backupSupplySwitch ?_, fun hon hv hr => exec_backupSupplySwitch ?_,
      fun hon h => exec_backupSupplySwitch ?_⟩
    · rw [hon, toVbat_eq_true h]
      rfl
    · rw [hon, backToRail_eq_true hr hv]
      rfl
    · rw [hon, toVbat_eq_false hv hr]
      rfl
    · rw [hon, backToRail_eq_false h]
      rfl
  -- a sample of VBAT (R273)
  · intro t mv s
    refine ⟨_, rfl, ?_, execVbatSample_frame.of_next rfl⟩
    have hok : (!decide (mv < 2400)) = decide (2400 ≤ mv) := decide_not.symm.trans (decide_eq_decide.2 Nat.not_lt)
    have hlows : (if decide (mv < 2400) = true then min 2 (s.rtc.vbatLows + 1) else 0) = if mv < 2400 then min 2 (s.rtc.vbatLows + 1) else 0 :=
      if_congr decide_eq_true_iff rfl rfl
    rw [apply_ite State.rtc, ev_rtc, ite_self, modRtc_rtc, atTime_rtc, vbatLow_sampled, hok, hlows]

end Sys2Proof.Machine

/-! ## Sources, holdover, steps, generators and captures of the time bases (R247, R248, R251, R253, R255, R263 to R266) -/

namespace Sys2Proof.Machine
-- In order, not in parallel: each thread reserves memory, of which the check of the whole text has little left.
set_option Elab.async false

/-! ### Generators (R265, R266) -/

/-- A generator's instant i sends its trigger, its record and its pulse, then changes the generator: it counts, is periodic or done, and its pulse runs. -/
theorem tegFire_eq (g : Nat) (i : Int) (s : State) : ∃ w f, Frame [.trg, .evr, .out] s w ∧ tegFire g i s = modTeg g f w ∧
    ∀ x, (f x).cnt = x.cnt + 1 ∧ (f x).last = some i ∧ (f x).next = (if x.mode = 2 then some (i + x.period) else none) ∧
      (f x).pulseEnd = if x.outPin = 0 then x.pulseEnd else some (w.now + x.width) := by
  refine ⟨_, _, ?_, rfl, fun x => ⟨rfl, rfl, rfl, rfl⟩⟩
  have htrig : Frame [.trg, .evr, .out] s (tegTrigger g (tegOf s g).tb i s) := tegTrigger_frame.mono rfl
  exact .ite (.ite (htrig.app ev_frame rfl) htrig) ((Frame.ite (htrig.app ev_frame rfl) htrig).app emit_frame rfl)

theorem exec_tegFire {t g : Nat} {s : State} {i : Int} (hg : g < 16) (hn : (tegOf (atTime t s) g).next = some i)
    (hi : i ≤ baseNs (atTime t s) (tegOf s g).tb) : exec (.tegFire t g) s = .next (tegFire g i (atTime t s)) := by
  change execTegFire t g s = _
  delta execTegFire
  dsimp only
  rw [hn]
  exact if_pos ⟨hg, hi⟩

theorem tegFire_base (g : Nat) (i : Int) (s : State) : (tegFire g i s).tbs.base = s.tbs.base := by
  obtain ⟨w, f, hw, he, -⟩ := tegFire_eq g i s
  have hbase : w.tbs.base = s.tbs.base := congrArg Tbs.base (hw.tbs (by decide))
  rw [he]
  exact hbase

theorem tegStep_base (b : Nat) (t : Int) (g : Nat) (s : State) : (tegStep b t g s).tbs.base = s.tbs.base := by
  delta tegStep
  dsimp only
  cases (tegOf s g).next with
  | none => rfl
  | some i =>
    refine (apply_ite (fun s : State => s.tbs.base) ..).trans ((congrArg (ite _ _) ?_).trans (ite_self _))
    exact foldOver_keeps (fun s : State => s.tbs.base) (fun _ _ => tegFire_base ..) _ s

/-! ### A step (R253) -/

/-- A base after a step at the instant: its size is added to the value, and the step counts. -/
noncomputable def Base.stepped (d : Int) (now : Nat) (x : Base) : Base :=
  { x.endSeg now with val := x.valAt now + d * 281474976710656, ref := now, stepCnt := x.stepCnt + 1, lockRun := 0, stepVals := [] }

theorem stepBase_base (src b : Nat) (d : Int) (cause : Nat) (s : State) :
    (stepBase src b d cause s).tbs.base = lmod s.tbs.base b (Base.stepped d s.now) := by
  have hbefore : Frame [.sve, .cyc, .evr] s (keepDeadlines b (baseNs s b) (if inService s then lTasksDue s else s)) :=
    ((Frame.ite lTasksDue_frame (.refl _ _)).mono rfl).app keepDeadlines_frame rfl
  unfold stepBase
  dsimp only
  rw [foldOver_keeps (fun s : State => s.tbs.base) fun g w => tegStep_base b _ g w]
  refine (congrArg Tbs.base ((zoneTasksStep_frame.tbs (by decide)).trans ((tasksStep_frame.tbs (by decide)).trans
    ((baseMoved_frame.tbs (by decide)).trans ((evBy_frame.tbs (by decide)).trans (rebase_frame.tbs (by decide))))))).trans ?_
  exact congrArg₂ (fun l n => lmod l b (Base.stepped d n)) (congrArg Tbs.base (hbefore.tbs (by decide))) (hbefore.now (by decide))

/-! ### Sources (R263) -/

theorem irigError_irigErr (s : State) : (irigError s).tbs.irigErr = satInc s.tbs.irigErr :=
  (apply_ite (fun s : State => s.tbs.irigErr) ..).trans ((congrArg (ite _ · _) (congrArg Tbs.irigErr (ev_tbs ..))).trans (ite_self _))

/-! ### Holdover (R255) -/

/-- A base is in HOLDOVER with the error e. -/
def HoldsError (b e : Nat) (s : State) : Prop := ∃ x, s.tbs.base[b]? = some x ∧ x.st = .holdover ∧ x.hoErr = e

theorem holdsError_noted {s : State} {b : Nat} {x : Base} (hx : s.tbs.base[b]? = some x) (hst : x.st = .holdover) (h : Option Holdover) (e : Nat) :
    HoldsError b e (modBase b (fun x => { x with ho := h, hoErr := e }) s) :=
  ⟨_, modBase_base_self hx _, hst, rfl⟩

/-- A rate taken from the latest plan leaves the state and the error (R255). -/
theorem HoldsError.aged {b e : Nat} {s : State} (h : HoldsError b e s) {plan : Option PlanRec} {c : PlanRec → Bool} {r : PlanRec → Int} :
    HoldsError b e (match plan with
      | some p => if c p then setRate b (r p) (modBase b (fun x => { x with f := r p }) s) else s
      | none => s) := by
  cases plan with
  | none => exact h
  | some p =>
    refine iteInduction (motive := HoldsError b e) (fun _ => ?_) fun _ => h
    obtain ⟨x, hx, hst, he⟩ := h
    exact ⟨_, setRate_base_self (modBase_base_self hx _) (r p), hst, he⟩

section
variable {t b : Nat} {s : State} {x : Base} {h : Holdover}

/-- A second of holdover: HO_ERR takes its new value, and above the limit the holdover ends. -/
theorem exec_holdoverErrorUpdate (hb : b < 4) (hx : s.tbs.base[b]? = some x) (hh : x.ho = some h) (hst : x.st = .holdover) {e : Nat}
    (he : e = h.eLock + cdiv (((if h.uSmall then 2 else 20) * 640 + max h.dtMax (tBoard s - h.tEntry).natAbs) * ((max s.now t - h.enteredAt) / 1000000000)) 640) :
    ∃ w, exec (.holdoverErrorUpdate t b) s = .next (if x.cfg.hoErrMax < e then enterFree b 4 w else w) ∧ HoldsError b (min e 0xFFFFFFFF) w := by
  subst he
  have hx' : (atTime t s).tbs.base[b]? = some x := hx
  have hgo : ¬(b ≥ 4 ∨ x.st ≠ .holdover) := not_or.2 ⟨not_le.2 hb, not_not.2 hst⟩
  constructor
  constructor
  · change execHoldoverErrorUpdate t b s = _
    delta execHoldoverErrorUpdate
    dsimp only
    rw [baseOf_eq hx', hh]
    exact if_neg hgo
  · exact (holdsError_noted hx' hst ..).aged

/-! ### Leap seconds (R247) -/

/-- A change of a base in place counts only for the base that stands there. -/
theorem lmod_congr {α : Type} {l : List α} {i : Nat} {f g : α → α} (h : ∀ a, l[i]? = some a → f a = g a) : lmod l i f = lmod l i g := by
  refine List.ext_getElem? fun j => ?_
  rw [lmod_get, lmod_get]
  split
  · next hj => exact Option.map_congr fun a ha => h a (hj ▸ ha)
  · rfl

theorem modBase_congr {f g : Base → Base} (h : ∀ x, s.tbs.base[b]? = some x → f x = g x) :
    (modBase b f s).tbs = { s.tbs with base := lmod s.tbs.base b g } :=
  congrArg (fun l => { s.tbs with base := l }) (lmod_congr h)

end

/-- Settles O27, row by row: a generator by what its instant leaves of it, a step by the base that it leaves, a second of holdover by HO_ERR and its limit. That HO_ERR counts whole nanoseconds rounded up, that IRIG-B takes any second after 3 s, and the pulse's width are the model's choices (log entries 22, 63, 207). -/
theorem timeBaseRowsComplete : Obligations.TimeBaseRowsComplete := by
  unfold Obligations.TimeBaseRowsComplete
  refine ⟨?_, ?_, fun _ _ _ => rfl, ?_, ?_, ?_, ?_, ?_, fun src b d cause s => stepBase_base src b d cause s, ?_, ?_, ?_, ?_,
    fun t s hd => congrArg Host.Outcome.next (regWrite_host (s := atTime t s) hd ..)⟩
  -- an IRIG-B frame that is not taken, and one that is (R263)
  · intro t f s h
    refine ⟨_, if_pos ?_, irigError_irigErr _, ((atTime_frame.mono rfl).app modTbs_frame rfl).app irigError_frame rfl⟩
    rcases h with h | ⟨q, l, hq, hs, hl⟩
    · rw [h]
      rfl
    · refine Bool.or_eq_true_iff.2 (.inr ?_)
      rw [atTime_tbs, hq]
      exact congrArg not (Bool.or_eq_false_iff.2 ⟨beq_false_of_ne hs, decide_eq_false (not_le.2 hl)⟩)
  · intro t f s hp hs
    refine if_neg (ne_true_of_eq_false (Bool.or_eq_false_iff.2 ⟨congrArg not hp, ?_⟩))
    rw [atTime_tbs]
    rcases hprev : s.tbs.irigPrev with _ | ⟨q, l⟩
    · rfl
    · exact congrArg not (Bool.or_eq_true_iff.2 ((hs q l hprev).imp beq_of_eq decide_eq_true))
  -- a source is silent for 3 s (R251)
  · rintro t b s u hb hl rfl
    refine if_pos ⟨hb, ?_⟩
    have hlast : ∀ l, (baseOf (atTime t s) b).lastAccept = some l → l + 3000000000 ≤ max s.now t := hl
    cases h : (baseOf (atTime t s) b).lastAccept with
    | none => rfl
    | some l => exact decide_eq_true (hlast l h)
  -- HOLDOVER: its time limit, and a second within and above the limit of HO_ERR (R255)
  · intro t b s h hb hh hst hlim
    have hh' : (baseOf (atTime t s) b).ho = some h := hh
    change execHoldoverLimitExpire t b s = _
    delta execHoldoverLimitExpire
    dsimp only
    rw [hh']
    exact if_pos ⟨hb, hst, hlim⟩
  · intro t b s x h hb hx hh hst hle
    obtain ⟨w, he, y, hy, hyst, hyerr⟩ := exec_holdoverErrorUpdate (t := t) hb hx hh hst rfl
    rw [if_neg (not_lt.2 (le_trans hle (min_le_left ..)))] at he
    exact ⟨w, he, execHoldoverErrorUpdate_frame.of_next he, y, hy, hyst, hyerr.trans (min_eq_left (le_trans hle (min_le_right ..)))⟩
  · intro t b s x h hb hx hh hst hlt
    obtain ⟨w, he, y, hy, hyst, -⟩ := exec_holdoverErrorUpdate (t := t) hb hx hh hst rfl
    rw [if_pos hlt] at he
    obtain ⟨z, hz, hzst, -, hzerr⟩ := enterFree_base hy (fun h => BaseState.noConfusion (hyst.symm.trans h)) 4
    exact ⟨_, he, z, hz, hzst, hzerr⟩
  -- a commanded step, with and without an answer to give (R253)
  · rintro t b s p u hb hp hat rfl
    have hp' : (baseOf (atTime t s) b).pend = some p := hp
    have hgo : ¬(b ≥ 4 ∨ baseNs (atTime t s) b < p.atBase) := not_or.2 ⟨not_le.2 hb, not_lt.2 hat⟩
    change (p.reply = none → execTimStepApply t b s = _) ∧ ∀ rt, p.reply = some rt → execTimStepApply t b s = _
    delta execTimStepApply
    dsimp only
    rw [hp']
    refine ⟨fun hr => (if_neg hgo).trans ?_, fun rt hr => (if_neg hgo).trans ?_⟩ <;> rw [hr] <;> rfl
  -- a generator: its instant, and its control register (R265, R266)
  · intro t g s i hg hn hi
    obtain ⟨w, f, hw, he, hf⟩ := tegFire_eq g i (atTime t s)
    refine ⟨modTeg g f w, (exec_tegFire hg hn hi).trans (congrArg Host.Outcome.next he), fun x hx => ⟨f x, lmod_get_self ?_ f, ?_⟩⟩
    · rw [hw.tbs (by decide)]
      exact hx
    · rw [← show w.now = max s.now t from hw.now (by decide)]
      exact hf x
  · intro t g v s hg hp ho
    have hd : dark (atTime t s) = false := dark_of_operational hp ho
    refine (if_neg (not_or.2 ⟨not_le.2 hg, ne_true_of_eq_false hd⟩)).trans ((if_neg (ne_true_of_eq_false (congrArg not ho))).trans ?_)
    exact congrArg Host.Outcome.next (regWrite_host hd ..)
  -- a leap second inserted, and one deleted (R247)
  · intro t b s hb hl hday
    refine ⟨_, (if_neg (not_le.2 hb)).trans (if_pos ⟨hl, hday⟩), (ev_tbs ..).trans (modBase_congr fun x hx => ?_)⟩
    rw [show baseOf s b = x from baseOf_eq hx]
  · intro t b s hb hl hl' hday
    refine ⟨_, (if_neg (not_le.2 hb)).trans ((if_neg fun h => ?_).trans (if_pos ⟨hl', hday⟩)), (ev_tbs ..).trans (modBase_congr fun x hx => ?_)⟩
    · exact Bool.noConfusion (hl.symm.trans h.1)
    · rw [show baseOf s b = x from baseOf_eq hx]

end Sys2Proof.Machine

/-! ## PTP messages received and sent (R257 to R262) -/

namespace Sys2Proof.Machine
-- In order, not in parallel: each thread reserves memory, of which the check of the whole text has little left.
set_option Elab.async false

/-! ### Sequence numbers stay while messages are sent -/

/-- The sequence numbers of a base's PTP port: of its Announces and of its Syncs. -/
noncomputable def InstPort.seqs (q : InstPort) : Nat × Nat := (q.annSeq, q.syncSeq)

section
variable {b p : Nat} {s : State}

theorem seqs_of_tbs {u : State} (h : u.tbs = s.tbs) : (instPort u b p).seqs = (instPort s b p).seqs :=
  congrArg (fun x : Tbs => ((x.base.getD b (Base.reset b)).pp.getD p InstPort.reset).seqs) h

theorem lmod_getD_keeps {α β : Type} {e : α → β} {f : α → α} (hf : ∀ a, e (f a) = e a) (l : List α) (i j : Nat) (d : α) :
    e ((lmod l i f).getD j d) = e (l.getD j d) := by
  rw [List.getD_eq_getElem?_getD, List.getD_eq_getElem?_getD, lmod_get]
  split
  · cases l[j]? with
    | none => rfl
    | some a => exact hf a
  · rfl

theorem modInstPort_seqs {f : InstPort → InstPort} (hf : ∀ q, (f q).seqs = q.seqs) (c q : Nat) :
    (instPort (modInstPort c q f s) b p).seqs = (instPort s b p).seqs :=
  lmod_getD_keeps (e := fun x : Base => (x.pp.getD p InstPort.reset).seqs) (fun x => lmod_getD_keeps hf x.pp q p _) s.tbs.base c b _

/-- A frame of the PTP port q takes its stamps as it leaves (R260, R261), and they leave the sequence numbers. -/
def StampKeeps (b p q : Nat) (f : NetFrame) : Prop := ∀ s, (instPort (ptpLeave q f s).2 b p).seqs = (instPort s b p).seqs

theorem egress_port {h : HeldFrame} {q : Nat} (hv : h.via = .port q) (o : Nat) :
    ∃ w, w.tbs = s.tbs ∧ egress o h s = macTx q (ptpLeave q h.frame w).1 none (ptpLeave q h.frame w).2 := by
  refine ⟨modSwcPort o (fun p => { p with txFrames := satInc p.txFrames }) s, rfl, ?_⟩
  rw [egress, hv]

theorem egress_seqs {h : HeldFrame} {q : Nat} (hv : h.via = .port q) (hf : StampKeeps b p q h.frame) (o : Nat) :
    (instPort (egress o h s) b p).seqs = (instPort s b p).seqs := by
  obtain ⟨w, hw, he⟩ := egress_port (s := s) hv o
  rw [he, seqs_of_tbs (macTx_frame.tbs (by decide)), hf, seqs_of_tbs hw]

theorem swcHold_seqs {h : HeldFrame} {q : Nat} (hv : h.via = .port q) (hf : StampKeeps b p q h.frame) (cts queued : List Nat) :
    (instPort (swcHold h cts queued s) b p).seqs = (instPort s b p).seqs := by
  unfold swcHold
  dsimp only
  refine (seqs_of_tbs (pauseChecks_frame.tbs (by decide))).trans ?_
  refine (foldOver_keeps (fun s => (instPort s b p).seqs) (fun o w => ?_) cts _).trans (seqs_of_tbs rfl)
  exact (seqs_of_tbs rfl).trans ((egress_seqs hv hf o).trans (seqs_of_tbs rfl))

theorem swcOwn_seqs {q : Nat} {f : NetFrame} (hf : StampKeeps b p q f) (o : Nat) : (instPort (swcOwn (.port q) o f s) b p).seqs = (instPort s b p).seqs := by
  have hs : (swcSettle s).tbs = s.tbs := swcSettle_frame.tbs (by decide)
  unfold swcOwn
  dsimp only
  split
  · exact seqs_of_tbs hs
  · split
    · exact seqs_of_tbs ((swcInDrop_frame.tbs (by decide)).trans hs)
    · refine (swcHold_seqs (q := q) rfl ?_ _ _).trans (seqs_of_tbs ((mirrorAdd_frame.tbs (by decide)).trans hs))
      exact hf

/-- An Announce takes no stamp. -/
theorem ptpSend_announce_seqs {q dom n : Nat} {o : Int} {a : Option AnnBody} (udp peer : Bool) :
    (instPort (ptpSend q udp peer (.ptp .announce dom n o a) s) b p).seqs = (instPort s b p).seqs :=
  swcOwn_seqs (fun s => by cases udp <;> rfl) _

/-- The instant at which a Sync leaves is noted for its Follow_Up. -/
theorem ptpSend_sync_seqs {q dom n : Nat} {o : Int} {a : Option AnnBody} (udp peer : Bool) :
    (instPort (ptpSend q udp peer (.ptp .sync dom n o a) s) b p).seqs = (instPort s b p).seqs := by
  have hstamp (s : State) : (instPort (ptpStamp q udp (.ptp .sync dom n o a) s).2 b p).seqs = (instPort s b p).seqs := by
    delta ptpStamp
    dsimp only
    cases instanceOf s q udp dom with
    | none => rfl
    | some c =>
      refine modInstPort_seqs ?_ c q
      exact fun _ => rfl
  exact swcOwn_seqs (fun s => by cases udp <;> exact hstamp s) _

/-- A Follow_Up carries the instant of its Sync. -/
theorem ptpSend_followUp_seqs {q dom n : Nat} {o : Int} (udp peer : Bool) :
    (instPort (ptpSend q udp peer (.ptpResp 8 dom n o) s) b p).seqs = (instPort s b p).seqs := by
  have hstamp (s : State) : (ptpStamp q udp (.ptpResp 8 dom n o) s).2 = s := by
    have h : ptpStamp q udp (.ptpResp 8 dom n o) s = match instanceOf s q udp dom with
      | some c => (.ptpResp 8 dom n (instPort s c q).syncTx, s)
      | none => (.ptpResp 8 dom n o, s) := rfl
    rw [h]
    cases instanceOf s q udp dom <;> rfl
  exact swcOwn_seqs (fun s => by cases udp <;> exact congrArg (fun s => (instPort s b p).seqs) (hstamp s)) _

theorem lmod_getD_self {α : Type} {l : List α} {i : Nat} (h : i < l.length) (f : α → α) (d : α) : (lmod l i f).getD i d = f (l.getD i d) := by
  rw [List.getD_eq_getElem?_getD, List.getD_eq_getElem?_getD, lmod_get_self (List.getElem?_eq_getElem h), List.getElem?_eq_getElem h]
  rfl

/-- A change of a MASTER port of a base: the base and its port exist. -/
theorem instPort_modInstPort (hm : isMaster s p b = true) (f : InstPort → InstPort) :
    instPort (modInstPort b p f s) b p = f (instPort s b p) := by
  obtain ⟨hleft, hst⟩ := Bool.and_eq_true_iff.1 hm
  obtain ⟨hleft, -⟩ := Bool.and_eq_true_iff.1 hleft
  obtain ⟨-, hsrc⟩ := Bool.and_eq_true_iff.1 hleft
  have hb : b < s.tbs.base.length := not_le.1 fun hge =>
    Bool.noConfusion ((congrArg (fun x : Base => x.cfg.src == 1) (List.getD_eq_default _ (Base.reset b) hge)).symm.trans hsrc)
  have hp : p < (baseOf s b).pp.length := not_le.1 fun hge =>
    Bool.noConfusion ((congrArg (fun q : InstPort => q.portState == psMaster) (List.getD_eq_default _ InstPort.reset hge)).symm.trans hst)
  exact (congrArg (fun x : Base => x.pp.getD p InstPort.reset) (lmod_getD_self hb _ _)).trans (lmod_getD_self hp f _)

/-- Sequence numbers of a MASTER port after its message has been sent. -/
theorem instPort_sent {w u : State} {f : InstPort → InstPort} (hm : isMaster s p b = true) (hw : w.tbs = s.tbs)
    (hu : (instPort u b p).seqs = (instPort (modInstPort b p f w) b p).seqs) : (instPort u b p).seqs = (f (instPort s b p)).seqs :=
  (hu.trans (seqs_of_tbs (congrArg (fun x : Tbs => { x with base := lmod x.base b fun y => { y with pp := lmod y.pp p f } }) hw))).trans
    (congrArg InstPort.seqs (instPort_modInstPort hm f))

end

/-! ### Messages sent (R259, R261, R262) -/

section
variable {t port : Nat} {s : State} (hp : port < 4) (hl : linkUp s port = true) (hoff : s.sys.st ≠ .off)
include hp hl hoff

/-- A port with LINK set sends while the module is on. -/
theorem transmit_goes : ¬(port ≥ 4 ∨ (!linkUp (atTime t s) port) = true ∨ (atTime t s).sys.st = .off) :=
  not_or.2 ⟨not_le.2 hp, not_or.2 ⟨ne_true_of_eq_false (congrArg not hl), hoff⟩⟩

/-- A MASTER port's Announce: its number is counted on, and it is sent. -/
theorem exec_ptpMessageTransmit_announce {b : Nat} (hm : isMaster s port b = true) : ∃ u, exec (.ptpMessageTransmit t port (.announce b)) s = .next u ∧
    (instPort u b port).seqs = (((instPort s b port).annSeq + 1) % 65536, (instPort s b port).syncSeq) := by
  have hbody : (annBody (baseOf s b) (atTime t s)).2.tbs = s.tbs := annBody_frame.tbs (by decide)
  refine ⟨_, (if_neg (transmit_goes hp hl hoff)).trans (if_neg (ne_true_of_eq_false (congrArg not hm))), ?_⟩
  exact instPort_sent (f := fun q => { q with annSeq := ((instPort s b port).annSeq + 1) % 65536 }) hm hbody (ptpSend_announce_seqs ..)

/-- A MASTER port's Sync: its number is counted on, and it is sent, with its Follow_Up when the base is two-step. -/
theorem exec_ptpMessageTransmit_sync {b : Nat} (hm : isMaster s port b = true) : ∃ u, exec (.ptpMessageTransmit t port (.sync b)) s = .next u ∧
    (instPort u b port).seqs = ((instPort s b port).annSeq, ((instPort s b port).syncSeq + 1) % 65536) := by
  refine ⟨_, (if_neg (transmit_goes hp hl hoff)).trans (if_neg (ne_true_of_eq_false (congrArg not hm))), ?_⟩
  refine instPort_sent (w := atTime t s) (f := fun q => { q with syncSeq := ((instPort s b port).syncSeq + 1) % 65536 }) hm rfl ?_
  split
  · exact (ptpSend_followUp_seqs ..).trans (ptpSend_sync_seqs ..)
  · exact ptpSend_sync_seqs ..

end

/-- A port with LINK set receives. -/
theorem receive_goes {t port : Nat} {s : State} (hp : port < 4) (hl : linkUp s port = true) : ¬(port ≥ 4 ∨ (!linkUp (atTime t s) port) = true) :=
  not_or.2 ⟨not_le.2 hp, ne_true_of_eq_false (congrArg not hl)⟩

/-- Settles O26, row by row; a message that is sent leaves the sequence numbers of every base, since what leaves the switch core changes stamps alone. The mean path delay with its rounding and its floor at 0 is the model's choice (log entry 21). -/
theorem ptpRowsComplete : Obligations.PtpRowsComplete := by
  unfold Obligations.PtpRowsComplete
  refine ⟨?_, ?_, fun _ _ _ => rfl, ?_, ?_, fun t port s hp hl hoff => if_neg (transmit_goes hp hl hoff), ?_, ?_, ?_, ?_⟩
  -- a Sync, of one step and of two; a Follow_Up; an Announce (R257, R258, R261)
  · intro t m s b hi hl
    have hi' : instanceOf (atTime t s) m.hdr.port m.hdr.udp m.hdr.domain = some b := hi
    change (_ → execPtpSyncReceive t m s = _) ∧ (_ → execPtpSyncReceive t m s = _)
    delta execPtpSyncReceive
    dsimp only
    rw [hi']
    have hgo : ¬(!linkUp (atTime t s) m.hdr.port) = true := ne_true_of_eq_false (congrArg not hl)
    exact ⟨fun h => (if_neg hgo).trans (if_neg (ne_true_of_eq_false h)), fun h => (if_neg hgo).trans (if_pos h)⟩
  · intro t m s w hw
    have hw' : (ptpOf (atTime t s) m.hdr.port).waits.find? (followsUp (atTime t s) m) = some w := hw
    change execPtpFollowUpReceive t m s = _
    delta execPtpFollowUpReceive
    dsimp only
    rw [hw']
  · intro t m s b hi hl
    have hi' : instanceOf (atTime t s) m.hdr.port m.hdr.udp m.hdr.domain = some b := hi
    have hl' : linkUp (atTime t s) m.hdr.port = true := hl
    change execPtpAnnounceReceive t m s = _
    delta execPtpAnnounceReceive
    dsimp only
    rw [hi', hl']
    rfl
  -- the receipt timeout: the port states are decided, and a LOCKED base without another SLAVE port goes to HOLDOVER (R251, R257)
  · intro t b s p hb hp hsrc hn
    have hp' : (baseOf (atTime t s) b).slavePort = some p := hp
    have hgo : ¬(b ≥ 4 ∨ (baseOf (atTime t s) b).cfg.src ≠ 1 ∨ (portBest (atTime t s) p (baseOf (atTime t s) b).cfg.domain).isSome = true) :=
      not_or.2 ⟨not_le.2 hb, not_or.2 ⟨not_not.2 hsrc, ne_true_of_eq_false (congrArg Option.isSome hn)⟩⟩
    change (_ → execAnnounceReceiptTimeout t b s = _) ∧ (_ → _ → execAnnounceReceiptTimeout t b s = _)
    delta execAnnounceReceiptTimeout
    dsimp only
    rw [hp']
    refine ⟨fun hst => (if_neg hgo).trans (congrArg Host.Outcome.next (if_neg fun h => hst h.1)),
      fun hst hslave => (if_neg hgo).trans (congrArg Host.Outcome.next (if_pos ⟨hst, ?_⟩))⟩
    rw [hslave]
    rfl
  -- an Announce and a Sync of a MASTER port (R259, R261)
  · rintro t port b s k hp hl hoff hm (rfl | rfl)
    · obtain ⟨u, he, hseqs⟩ := exec_ptpMessageTransmit_announce (t := t) hp hl hoff hm
      exact ⟨u, he, (execPtpMessageTransmit_frame (a2 := .announce b)).of_next he, (congrArg Prod.fst hseqs).trans (if_pos rfl).symm,
        (congrArg Prod.snd hseqs).trans (if_neg nofun).symm⟩
    · obtain ⟨u, he, hseqs⟩ := exec_ptpMessageTransmit_sync (t := t) hp hl hoff hm
      exact ⟨u, he, (execPtpMessageTransmit_frame (a2 := .sync b)).of_next he, (congrArg Prod.fst hseqs).trans (if_neg nofun).symm,
        (congrArg Prod.snd hseqs).trans (if_pos rfl).symm⟩
  -- Pdelay_Req answered, Pdelay_Resp of one step and of two, Pdelay_Resp_Follow_Up (R262)
  · intro t m s hp hl hk
    refine (if_neg (receive_goes hp hl)).trans ?_
    rw [hk]
    rfl
  · intro t m s x hp hl hk hx hn
    have hx' : (ptpOf (atTime t s) m.hdr.port).pdelay = some x := hx
    refine ⟨_, rfl, (if_neg (receive_goes hp hl)).trans ?_⟩
    rw [hk, hx']
    refine (if_neg (not_not.2 hn)).trans ?_
    cases m.twoStep <;> rfl
  · intro t m s x t2 t4 c hp hl hk hx hn hr
    obtain ⟨n, t1, r⟩ := x
    have hx' : (ptpOf (atTime t s) m.hdr.port).pdelay = some ⟨n, t1, some (t2, t4, c)⟩ := hr ▸ hx
    refine (if_neg (receive_goes hp hl)).trans ?_
    rw [hk, hx']
    exact if_neg (not_not.2 hn)

end Sys2Proof.Machine
